-- ==== Sys2Proof/Word.lean ====
section
/-! DEFINITION. The words of the DW8: bytes, 16-, 32- and 64-bit words (spec chapter 00, Table 0-5: little-endian,
bit 0 least significant) and the binary32 word of a dictionary real. -/
namespace Sys2Proof

/-- One octet. -/
abbrev Byte := BitVec 8
/-- A U16 field that is handled as bits. -/
abbrev Word16 := BitVec 16
/-- A U32 field that is handled as bits (the vessel status word, CRC fields). -/
abbrev Word32 := BitVec 32
/-- A U64 field that is handled as bits (event parameters). -/
abbrev Word64 := BitVec 64
/-- An IEEE 754 binary32 word, the F32 of Table 2-1. -/
abbrev F32 := BitVec 32

end Sys2Proof
end

