-- ==== Sys2Proof/Config.lean ====
section
/-! DEFINITION. What the spec leaves open and no proof may see: opaque constants without a body. A statement about
one of them holds whatever it is. Each is named in the assumption log. -/
namespace Sys2Proof.Config

/-- A fresh free value, indexed by the counter `State.free` (log 3). DESIGN CHOICE, safe. -/
opaque freeNat : Nat → Nat
/-- A fresh free real (log 3). DESIGN CHOICE, safe. -/
opaque freeReal : Nat → Rat

/-! Transcendental functions of the spec's formulas. The spec names them and gives no precision; they are free
functions on the exact rationals of the model (log 4). DESIGN CHOICE, safe. Angles are in radians. -/
opaque sin : Rat → Rat
opaque cos : Rat → Rat
opaque tan : Rat → Rat
opaque atan2 : Rat → Rat → Rat
opaque sqrt : Rat → Rat
opaque exp : Rat → Rat
opaque ln : Rat → Rat
opaque log10 : Rat → Rat
opaque rpow : Rat → Rat → Rat
/-- The circle constant as the unit holds it (log 4). -/
opaque pi : Rat

/-! Observer and solver constants that the spec leaves open (log 22, log 23). -/
/-- Process-noise density of the yaw rate, from the velocity noise 2A02h:05h: the spec gives none. -/
opaque yawNoise : Rat → Rat
/-- What stands for 1/M of an axis whose mass or inertia has been written to 0 (R158, log 143). -/
opaque noMass : Nat → Rat
/-- Tiller's internal scaling (R221, "not exposed"): the factor of a variable and of a constraint row, by their numbers. -/
opaque varScale : Nat → Rat
opaque rowScale : Nat → Rat

/-- Group delay in samples of a filter at a frequency (rad per sample) at which it passes nothing: chapter 06 states no
value there (log 39). -/
opaque nullDelay : Rat → Rat

/-- Chi-square threshold of a false-alarm probability for a solution from a number of satellites (R308): chapter 12
states no degrees of freedom (log 41). -/
opaque chi2 : Rat → Nat → Rat
/-- Clock identity of the unit's own PTP dataset and its offsetScaledLogVariance, which chapter 13 does not state
(log 47). -/
opaque clockIdentity : Nat
opaque clockVariance : Nat
/-- What stands in bit slot `slot` of a port's sample `k`, counted in the run of the sample clocks that began at device time
`era`: what the front ends send is an input (R293, log 42). Arguments: era, port, sample, slot. -/
opaque slotBit : Nat → Nat → Nat → Nat → Bool
/-- Carrier (Hz) and code (chip/s) of a channel's oscillators under its loops (R304): filters of what the correlators see,
from the loop settings in force, the channel and the device time (log 154). -/
opaque loopFilter : List Rat → Nat → Nat → Rat × Rat
/-- Instruction codes of the test access port, the width of its instruction register, the device identification code, the
number of boundary cells and the ball of each, and what a cell captures from a ball at high impedance: chapter 23 gives none of
them (R552, log 155). -/
opaque tapExtest : Nat
opaque tapSample : Nat
opaque tapIdcode : Nat
opaque tapWidth : Nat
opaque idcode : Nat
opaque cells : Nat
opaque cellOf : Nat → Nat
opaque floating : Nat → Bool

/-- Bytes of the largest full mirror beside the case set, from the number of thrusters and the length of the Panicle image
(R445): chapter 17 lays out no other block (log 51). -/
opaque mirrorRest : Nat → Nat → Nat

/-- Prescaler and resynchronisation jump width of a timing that rate detection finds (R479), from the rate in kbit/s:
the rate and the sample point leave both open (log 52). -/
opaque detectP : Nat → Nat
opaque detectSjw : Nat → Nat
/-- Byte 1 of a reference message whose start of frame had a stamp (R497): the spec names ISO 11898-4 for it (log 52). -/
opaque refByte : Nat → Byte

/-- Value of a reason or cause parameter of an event (first argument) whose codes the spec does not list, for a cause
that the model numbers (log 27). -/
opaque reason : Nat → Nat → Nat

/-- What the control laws take for component k of the estimate (pose 0-2, velocity 3-5, wind 6-8, bias 9-11) before the
observer has published one (log 28). -/
opaque noEstimate : Nat → Rat
/-- Worst margin of 3040h:06h while no case is ranked (log 33). -/
opaque noMargin : Nat
/-- Coefficients (c, s), limits and matrix entries of Stubble while no set is in force, by their place (log 31). -/
opaque noStubble : Nat → Int
/-- Roll and pitch for the direction test while no MRU delivers them (log 46). -/
opaque noTilt : Nat → Rat

/-! Cryptography: the spec names the algorithms by their standards and gives no computation (log 5). DESIGN CHOICE,
safe: a statement holds for every digest and every verdict. -/
/-- SHA-384 of an octet string. -/
opaque sha384 : List Byte → List Byte
/-- ECDSA P-384 verification: public key bytes, signed bytes, DER signature. -/
opaque ecdsaVerify : List Byte → List Byte → List Byte → Bool
/-- ECDSA P-384 signature r ++ s (96 bytes) with the unit key over a digest. -/
opaque unitSign : List Byte → List Byte

/-- DER ECDSA P-384 signature with the unit key over a digest (Table 12-13). -/
opaque unitSignDer : List Byte → List Byte

/-! Certificates: the spec gives what a chain must satisfy (R511) and no encoding; these are free (log 5). -/
/-- Role that a chain of code-signing certificates confers, from the owner CA certificate, the revocation list and the
subject key identifier: 0 none, 1 Operator, 2 Engineer, 3 Auditor, 4 Service. -/
opaque signerRole : List Byte → List Byte → List Byte → Nat
/-- Role that a chain of client certificates confers on a session (R476, R511), from the owner CA certificate, the
revocation list and the key identifier: as `signerRole`; the chain ends at the owner CA. -/
opaque sessionRole : List Byte → List Byte → List Byte → Nat
opaque sessionOwner : List Byte → List Byte → Bool
/-- The chain's validity dates hold at a device time. -/
opaque datesHold : List Byte → Nat → Bool
/-- Public key of a key identifier's certificate. -/
opaque publicKey : List Byte → List Byte
/-- A certificate revocation list is signed by the CA given; number of its entries. -/
opaque crlSignedBy : List Byte → List Byte → Bool
opaque crlEntries : List Byte → Nat
/-- Subject key identifier of a certificate. -/
opaque keyId : List Byte → List Byte
/-- Public firmware key held in ROM (R513). -/
opaque firmwareKey : List Byte

/-- Octets of 100Ah:00h, from the running slot and the version of its image (Table 2-2): the spec gives no form (log 134). -/
opaque softwareVersion : Nat → Nat → List Byte

/-- Speed target on a leg of a waypoint track, from 2224h:04h and the leg speeds of the waypoints at its start and its end:
chapter 03 names the values and not how they combine (log 55). -/
opaque legSpeed : Rat → Rat → Rat → Rat

end Sys2Proof.Config
end

