-- ==== Sys2Proof/Machine/Num.lean ====
section
/-! DEFINITION. Numbers: little-endian octets (Table 0-5), binary32 words (Table 2-1), exact rationals and their
rounding. Internal reals of the model are exact rationals (log 4); a published real is the nearest binary32. -/
namespace Sys2Proof.Machine

/-- Little-endian value of an octet string (Table 0-5). -/
def leNat : List Byte → Nat
  | [] => 0
  | b :: t => b.toNat + 256 * leNat t

/-- The `k` little-endian octets of a number, modulo 2^(8k). -/
def natLe : Nat → Nat → List Byte
  | 0, _ => []
  | k + 1, n => BitVec.ofNat 8 n :: natLe k (n / 256)

/-- Two's complement of width `w` bits as an integer. -/
def toSigned (w n : Nat) : Int :=
  let m := n % 2 ^ w
  if m < 2 ^ (w - 1) then (m : Int) else (m : Int) - (2 ^ w : Nat)

/-- An integer as the two's complement pattern of width `w` bits. -/
def ofSigned (w : Nat) (z : Int) : Nat := (z % ((2 ^ w : Nat) : Int)).toNat

def rabs (x : Rat) : Rat := if x < 0 then -x else x
def rmax (a b : Rat) : Rat := if a ≤ b then b else a
def rmin (a b : Rat) : Rat := if a ≤ b then a else b
/-- `x` held to the interval from `lo` to `hi`. -/
def rclamp (lo hi x : Rat) : Rat := if x < lo then lo else if hi < x then hi else x
/-- -1, 0 or 1. -/
def rsign (x : Rat) : Int := if x < 0 then -1 else if x = 0 then 0 else 1
def rsq (x : Rat) : Rat := x * x

/-- 2 to an integer power. -/
def pow2 (e : Int) : Rat :=
  if 0 ≤ e then ((2 ^ e.toNat : Nat) : Rat) else mkRat 1 (2 ^ (-e).toNat)

/-- Round to the nearest integer, a tie to the even one (DEDUCED for IEEE 754 formats, log 6). -/
def roundEven (x : Rat) : Int :=
  let f := x.floor
  let d := x - f
  if d < 1 / 2 then f else if 1 / 2 < d then f + 1 else if f % 2 = 0 then f else f + 1

/-- Round to the nearest integer, a tie away from zero. -/
def roundAway (x : Rat) : Int :=
  if 0 ≤ x then (x + 1 / 2).floor else -((-x + 1 / 2).floor)

/-- Floor of the base-2 logarithm of a positive rational. -/
def log2Floor (x : Rat) : Int :=
  let e : Int := (Nat.log2 x.num.toNat : Int) - (Nat.log2 x.den : Int)
  if x < pow2 e then e - 1 else if pow2 (e + 1) ≤ x then e + 1 else e

namespace F32

def expField (w : F32) : Nat := (w.toNat / 2 ^ 23) % 256
def fracField (w : F32) : Nat := w.toNat % 2 ^ 23
def negative (w : F32) : Bool := 2 ^ 31 ≤ w.toNat
/-- NaN and the infinities are the words of exponent field 255 (Table 2-1: refused on write). -/
def finite (w : F32) : Bool := expField w != 255

/-- The value of a finite word; a word that is not finite has no value and reads 0 here: every reader tests
`finite` first, and no write stores such a word (R33, Table 2-1). -/
def toRat (w : F32) : Rat :=
  if !finite w then 0 else
  let m : Rat := if expField w = 0 then (fracField w : Rat) * pow2 (-149)
    else ((2 ^ 23 + fracField w : Nat) : Rat) * pow2 ((expField w : Int) - 150)
  if negative w then -m else m

/-- The binary32 word nearest to a rational, a tie to even, past the largest finite value an infinity
(IEEE 754 round to nearest; DEDUCED from "IEEE 754 binary32", log 6). -/
def ofRat (x : Rat) : F32 :=
  if x = 0 then 0#32 else
  let a := rabs x
  let sgn : Nat := if x < 0 then 2 ^ 31 else 0
  let e := max (log2Floor a) (-126)
  let q := (roundEven (a * pow2 (23 - e))).toNat
  let (e, q) := if q = 2 ^ 24 then (e + 1, 2 ^ 23) else (e, q)
  if 127 < e then BitVec.ofNat 32 (sgn + 255 * 2 ^ 23)
  else if q < 2 ^ 23 then BitVec.ofNat 32 (sgn + q)
  else BitVec.ofNat 32 (sgn + (e + 127).toNat * 2 ^ 23 + (q - 2 ^ 23))

end F32

/-- A rational rounded to binary32 and read back. -/
def f32r (x : Rat) : Rat := F32.toRat (F32.ofRat x)

/-- The fractional distance of an angle in degrees, wrapped to 0 to under 360. -/
def wrap360 (x : Rat) : Rat := x - 360 * ((x / 360).floor : Rat)

/-- An angle difference in degrees wrapped to over -180 to 180. -/
def wrap180 (x : Rat) : Rat :=
  let y := wrap360 x
  if 180 < y then y - 360 else y

/-- A rational rounded to the 53-bit significand of binary64 (R108; nearest, a tie to even: DESIGN CHOICE, log 4). -/
def f64r (x : Rat) : Rat :=
  if x = 0 then 0 else
  let e := log2Floor (rabs x)
  (roundEven (x * pow2 (52 - e)) : Rat) * pow2 (e - 52)

/-- The root of a natural number below 2^128 that is a square. -/
def exactRoot (n : Nat) : Option Nat :=
  let r := (List.range 64).reverse.foldl (fun r i => if (r + 2 ^ i) * (r + 2 ^ i) ≤ n then r + 2 ^ i else r) 0
  if r * r = n then some r else none

/-- Square root: exact for the square of a rational, else the free value of log 4. -/
def rsqrt (x : Rat) : Rat :=
  if x < 0 then Config.sqrt x else
  match exactRoot x.num.toNat, exactRoot x.den with
  | some a, some b => mkRat a b
  | _, _ => Config.sqrt x

/-- A power of a number that is not negative: exact for 0, for 1 and for whole exponents and halves up to 3, else the free
value of log 4. -/
def rpower (x k : Rat) : Rat :=
  if x = 0 then (if k = 0 then 1 else 0)
  else if x = 1 ∨ k = 0 then 1
  else if k = 1 / 2 then rsqrt x else if k = 1 then x else if k = 3 / 2 then x * rsqrt x else if k = 2 then x * x
  else if k = 5 / 2 then x * x * rsqrt x else if k = 3 then x * x * x
  else Config.rpow x k

def deg2rad (x : Rat) : Rat := x * Config.pi / 180
def rad2deg (x : Rat) : Rat := x * 180 / Config.pi
/-- Sine of an angle in degrees: exact at the multiples of 90° and at 30° and 150° either side of 0, else the free value of
log 4. -/
def sind (x : Rat) : Rat :=
  let w := wrap360 x
  if w = 0 ∨ w = 180 then 0 else if w = 90 then 1 else if w = 270 then -1
  else if w = 30 ∨ w = 150 then 1 / 2 else if w = 210 ∨ w = 330 then -1 / 2
  else Config.sin (deg2rad x)
/-- Cosine of an angle in degrees. -/
def cosd (x : Rat) : Rat :=
  let w := wrap360 x
  if w = 90 ∨ w = 270 then 0 else if w = 0 then 1 else if w = 180 then -1
  else if w = 60 ∨ w = 300 then 1 / 2 else if w = 120 ∨ w = 240 then -1 / 2
  else Config.cos (deg2rad x)

/-- One bit of a natural number. -/
def bit (n k : Nat) : Bool := n.testBit k
def b2n (b : Bool) : Nat := if b then 1 else 0
/-- A bit at position `k`, as a number. -/
def bitAt (b : Bool) (k : Nat) : Nat := if b then 2 ^ k else 0
/-- The field of `w` bits of `n` that begins at bit `k`. -/
def field (n k w : Nat) : Nat := (n / 2 ^ k) % 2 ^ w
/-- `n` with bit `k` made `b`. -/
def setBit (n k : Nat) (b : Bool) : Nat := n - bitAt (n.testBit k) k + bitAt b k
/-- How many of the low `w` bits of `n` are set. -/
def popcount : Nat → Nat → Nat
  | 0, _ => 0
  | w + 1, n => b2n (n % 2 == 1) + popcount w (n / 2)
/-- The positions of the set bits of `n` below `w`, ascending. -/
def bitsOf (w n : Nat) : List Nat := (List.range w).filter (bit n)
/-- The number whose set bits are the positions listed. -/
def ofBits : List Nat → Nat
  | [] => 0
  | k :: t => (2 ^ k) ||| ofBits t

/-- Serial-number order modulo `m` (R7, R72): `a` is newer than `b`. -/
def newerMod (m a b : Nat) : Bool :=
  let d := (a + m - b % m) % m
  0 < d && d < m / 2

/-- `n` octets of `bytes` from position `at`. -/
def slice (bytes : List Byte) (at' n : Nat) : List Byte := (bytes.drop at').take n
/-- The little-endian number of `n` octets at position `at`. -/
def leAt (bytes : List Byte) (at' n : Nat) : Nat := leNat (slice bytes at' n)

/-- Octets of a text. -/
def ascii (t : String) : List Byte := t.toList.map fun c => BitVec.ofNat 8 c.toNat

/-- One bit step of a reflected CRC of width 32. -/
def crcBit (poly : Nat) (c : Nat) : Nat := if c % 2 = 1 then (c / 2) ^^^ poly else c / 2
/-- Eight bit steps. -/
def crcByte (poly : Nat) (c : Nat) (b : Byte) : Nat :=
  let c := c ^^^ b.toNat
  crcBit poly (crcBit poly (crcBit poly (crcBit poly (crcBit poly (crcBit poly (crcBit poly (crcBit poly c)))))))
/-- CRC-32C: reflected polynomial 82F6_3B78h, initial value and final exclusive-or all ones (PRESUMED from the name
CRC-32C, log 7). -/
def crc32c (bytes : List Byte) : Nat := (bytes.foldl (crcByte 0x82F63B78) 0xFFFFFFFF) ^^^ 0xFFFFFFFF

/-! Sparse tables: rising keys, one entry for each key; an unlisted key reads as the caller's default. -/

/-- The entry at key `k`, else `d`. -/
def tget {α : Type} (d : α) : List (Nat × α) → Nat → α
  | [], _ => d
  | (k', v) :: t, k => if k' = k then v else tget d t k

/-- Replace or insert the entry at key `k`, keeping keys rising. -/
def tset {α : Type} : List (Nat × α) → Nat → α → List (Nat × α)
  | [], k, v => [(k, v)]
  | (k', v') :: t, k, v =>
    if k < k' then (k, v) :: (k', v') :: t
    else if k = k' then (k, v) :: t
    else (k', v') :: tset t k v

/-- Remove the entry at key `k`. -/
def tdel {α : Type} : List (Nat × α) → Nat → List (Nat × α)
  | [], _ => []
  | (k', v') :: t, k => if k' = k then t else (k', v') :: tdel t k

/-- The entry at key `k`, if listed. -/
def tfind {α : Type} : List (Nat × α) → Nat → Option α
  | [], _ => none
  | (k', v) :: t, k => if k' = k then some v else tfind t k

/-- Change the entry at key `k` (from `d` when unlisted) by `g`. -/
def tmod {α : Type} (d : α) (l : List (Nat × α)) (k : Nat) (g : α → α) : List (Nat × α) :=
  tset l k (g (tget d l k))

/-- The element at a position, else `d`. -/
def nth {α : Type} (d : α) : List α → Nat → α
  | [], _ => d
  | a :: _, 0 => a
  | _ :: t, n + 1 => nth d t n

/-- Replace the element at a position, when there is one. -/
def putNth {α : Type} : List α → Nat → α → List α
  | [], _, _ => []
  | _ :: t, 0, v => v :: t
  | a :: t, n + 1, v => a :: putNth t n v

/-- The last `n` elements. -/
def lastN {α : Type} (n : Nat) (l : List α) : List α := l.drop (l.length - n)

def rsum (l : List Rat) : Rat := l.foldl (· + ·) 0
def nsum (l : List Nat) : Nat := l.foldl (· + ·) 0
def maxNat (l : List Nat) : Nat := l.foldl max 0
/-- Apply `g` for each element, left to right. -/
def foldS {σ α : Type} (s : σ) (l : List α) (g : σ → α → σ) : σ := l.foldl g s

/-- Insertion sort by a strict order. -/
def insertBy {α : Type} (lt : α → α → Bool) (a : α) : List α → List α
  | [] => [a]
  | b :: t => if lt a b then a :: b :: t else b :: insertBy lt a t
def sortBy {α : Type} (lt : α → α → Bool) (l : List α) : List α := l.foldr (insertBy lt) []

/-- The element of the least key, the first listed on a tie. -/
def argMin {α : Type} (key : α → Rat) : List α → Option α
  | [] => none
  | a :: t => match argMin key t with
    | none => some a
    | some b => if key b < key a then some b else some a
/-- The element of the greatest key, the first listed on a tie. -/
def argMax {α : Type} (key : α → Rat) (l : List α) : Option α := argMin (fun a => -key a) l

/-- The median of a list by the mean of the two middle elements when their number is even. -/
def median (l : List Rat) : Rat :=
  let s := sortBy (fun a b => decide (a < b)) l
  let n := s.length
  if n = 0 then 0 else if n % 2 = 1 then nth 0 s (n / 2)
  else (nth 0 s (n / 2 - 1) + nth 0 s (n / 2)) / 2

end Sys2Proof.Machine
end

