-- ==== Sys2Proof/Machine/ObjTable.lean ====
section
/-! DEFINITION. The object dictionary's table: one row for each run of objects that the spec's dictionary tables
define alike (Tables 1-4, 2-2, 2-7, 3-7, 4-6, 5-3 and so on), with type, access class, persistence, default and range.
Numeric range bounds of an F32 object are the nearest binary32 words of the spec's decimals (log 8). A default that the
spec leaves blank is 0 (log 1). -/
namespace Sys2Proof.Machine

/-- A value of the object dictionary, by the data types of Table 2-1: every unsigned type, BOOL and TIME64 as a
natural number, every signed type as an integer, F32 as its word, STRING and DOMAIN as octets. -/
inductive Val where
  | u (n : Nat)
  | i (z : Int)
  | f (w : F32)
  | d (bytes : List Byte)
  deriving DecidableEq, Repr, Inhabited

/-- Data types of Table 2-1. -/
inductive Ty where
  | bool | u8 | u16 | u32 | u64 | i8 | i16 | i32 | i64 | f32 | str | dom | time64
  deriving DecidableEq, Repr

/-- Access classes of R34. -/
inductive Acc where
  | ro | wo | rw | konst | rwm
  deriving DecidableEq, Repr

/-- Persistence classes of R36. -/
inductive Per where
  | vol | nv | fac
  deriving DecidableEq, Repr

/-- Ranges (R37): unions of closed intervals; for F32 the flag marks an open upper end; `mask` names the bits that may
be set (step 5 of R577: a reserved bit that must be 0); `cob m` a COB-ID of CiA 301 with the bits m in use, whose
identifier has 11 bits where bit 29 is clear (PRESUMED, log 133); `bind` a plant binding of Table 11-1; `bytes lo hi unit` the length of an octet string (R33). -/
inductive Range where
  | any
  | u (l : List (Nat × Nat))
  | i (l : List (Int × Int))
  | f (l : List (Nat × Nat × Bool))
  | nonzero
  | mask (m : Nat)
  | cob (m : Nat)
  | bind
  | bytes (lo hi unit : Nat)
  deriving DecidableEq, Repr

/-- A run of like objects: `count` indices from `base`, each with `subs` subindices from `sub0`. `modes` holds bit m
for each mode m in which an RWM object is writable (R35); `loc` marks a unit-local object (R39). -/
structure Row where
  base : Nat
  count : Nat
  sub0 : Nat
  subs : Nat
  ty : Ty
  acc : Acc
  modes : Nat
  per : Per
  dflt : Val
  range : Range
  loc : Bool
  name : String
  deriving DecidableEq, Repr

/-- A result object (R51): its index and the types of its values from 04h on, as runs. -/
structure ResRow where
  index : Nat
  segs : List (Nat × Ty)
  name : String
  deriving DecidableEq, Repr

/-- 36 entries of 1.0, the default loss table 2EC0h-2EDFh (Table 9-8). -/
def loss1 : List Byte := (List.replicate 36 [0x00, 0x00, 0x80, 0x3F]).flatten

/-- The default gate control list of Table 18-1 (R463). -/
def gate0 : List Byte :=
  natLe 4 60000 ++ [0x80, 0, 0, 0] ++ natLe 4 400000 ++ [0x40, 0, 0, 0] ++ natLe 4 777500 ++ [0xBF, 0, 0, 0] ++
  natLe 4 12500 ++ [0, 0, 0, 0]

/-- Objects of chapter 01. -/
def rows01a : List Row := [
  ⟨0x2030, 1, 0x01, 1, .u8, .rwm, 65, .nv, .u 16, .u [(16, 16), (32, 32), (80, 80)], false, "Sample length"⟩,
  ⟨0x2030, 1, 0x02, 1, .u8, .ro, 0, .vol, .u 0, .u [(16, 16), (32, 32), (80, 80)], false, "Sample length in force"⟩]

/-- Objects of chapter 02. -/
def rows02a : List Row := [
  ⟨0x1000, 1, 0x00, 1, .u32, .konst, 0, .fac, .u 0, .any, true, "Device type"⟩,
  ⟨0x1001, 1, 0x00, 1, .u8, .ro, 0, .vol, .u 0, .any, true, "Error register"⟩,
  ⟨0x1008, 1, 0x00, 1, .str, .konst, 0, .fac, .d [0x44, 0x57, 0x38], .any, true, "Device name"⟩,
  ⟨0x1009, 1, 0x00, 1, .str, .ro, 0, .fac, .d [], .any, true, "Hardware version"⟩,
  ⟨0x100A, 1, 0x00, 1, .str, .ro, 0, .vol, .d [], .any, true, "Software version"⟩,
  ⟨0x1010, 1, 0x01, 3, .u32, .rw, 0, .vol, .u 1, .any, true, "Store parameters"⟩,
  ⟨0x1011, 1, 0x01, 3, .u32, .rw, 0, .vol, .u 1, .any, true, "Restore defaults"⟩,
  ⟨0x1014, 1, 0x00, 1, .u32, .rw, 0, .nv, .u 0x90, .cob 0xBFFFFFFF, true, "EMCY COB-ID"⟩,
  ⟨0x1016, 1, 0x01, 32, .u32, .rw, 0, .nv, .u 0, .mask 0x00FFFFFF, true, "Consumer heartbeat time"⟩,
  ⟨0x1017, 1, 0x00, 1, .u16, .rw, 0, .nv, .u 100, .u [(0, 65535)], true, "Producer heartbeat time"⟩,
  ⟨0x1018, 1, 0x01, 1, .u32, .konst, 0, .fac, .u 3415, .any, true, "Vendor ID"⟩,
  ⟨0x1018, 1, 0x02, 1, .u32, .konst, 0, .fac, .u 0x84701, .any, true, "Product code"⟩,
  ⟨0x1018, 1, 0x03, 1, .u32, .ro, 0, .fac, .u 0, .any, true, "Revision number"⟩,
  ⟨0x1018, 1, 0x04, 1, .u32, .konst, 0, .fac, .u 0, .any, true, "Serial number"⟩,
  ⟨0x1200, 1, 0x01, 1, .u32, .ro, 0, .vol, .u 0x610, .any, true, "SDO server COB-IDs"⟩,
  ⟨0x1200, 1, 0x02, 1, .u32, .ro, 0, .vol, .u 0x590, .any, true, "SDO server COB-IDs"⟩,
  ⟨0x1F00, 1, 0x00, 1, .u8, .rw, 0, .nv, .u 0x10, .u [(1, 127)], true, "CAN node ID"⟩,
  ⟨0x1F01, 1, 0x00, 1, .u8, .rw, 0, .nv, .u 0, .u [(0, 1)], true, "SDO path role"⟩,
  ⟨0x2010, 1, 0x00, 1, .dom, .rwm, 65, .nv, .d [], .bytes 0 1048576 1, false, "Configuration set"⟩,
  ⟨0x2011, 1, 0x01, 1, .u64, .ro, 0, .nv, .u 0, .any, false, "Loaded set digest"⟩,
  ⟨0x2011, 1, 0x02, 1, .u32, .ro, 0, .nv, .u 0, .any, false, "Loaded set version"⟩,
  ⟨0x2011, 1, 0x03, 1, .bool, .ro, 0, .nv, .u 0, .any, false, "Modified since load"⟩,
  ⟨0x2011, 1, 0x04, 1, .u32, .ro, 0, .vol, .u 0, .any, false, "First refused index"⟩,
  ⟨0x2011, 1, 0x05, 1, .u64, .ro, 0, .vol, .u 0, .any, false, "Shared-value digest"⟩,
  ⟨0x1400, 512, 0x01, 1, .u32, .rw, 0, .nv, .u 0x80000000, .cob 0xFFFFFFFF, true, "RPDO communication"⟩,
  ⟨0x1400, 512, 0x02, 1, .u8, .rw, 0, .nv, .u 255, .any, true, "RPDO communication"⟩,
  ⟨0x1400, 512, 0x03, 1, .u16, .rw, 0, .nv, .u 0, .any, true, "RPDO communication"⟩,
  ⟨0x1400, 512, 0x05, 1, .u16, .rw, 0, .nv, .u 0, .any, true, "RPDO communication"⟩,
  ⟨0x1800, 512, 0x01, 1, .u32, .rw, 0, .nv, .u 0x80000000, .cob 0xFFFFFFFF, true, "TPDO communication"⟩,
  ⟨0x1800, 512, 0x02, 1, .u8, .rw, 0, .nv, .u 255, .any, true, "TPDO communication"⟩,
  ⟨0x1800, 512, 0x03, 1, .u16, .rw, 0, .nv, .u 0, .any, true, "TPDO communication"⟩,
  ⟨0x1800, 512, 0x05, 1, .u16, .rw, 0, .nv, .u 0, .any, true, "TPDO communication"⟩,
  ⟨0x1600, 512, 0x00, 1, .u8, .rwm, 65, .nv, .u 0, .any, true, "RPDO mapping"⟩,
  ⟨0x1600, 512, 0x01, 64, .u32, .rwm, 65, .nv, .u 0, .any, true, "RPDO mapping"⟩,
  ⟨0x1A00, 512, 0x00, 1, .u8, .rwm, 65, .nv, .u 0, .any, true, "TPDO mapping"⟩,
  ⟨0x1A00, 512, 0x01, 64, .u32, .rwm, 65, .nv, .u 0, .any, true, "TPDO mapping"⟩]

/-- Objects of chapter 03. -/
def rows03a : List Row := [
  ⟨0x2200, 1, 0x01, 1, .u32, .ro, 0, .vol, .u 0x64018, .any, false, "Vessel status word"⟩,
  ⟨0x2200, 1, 0x02, 1, .u8, .ro, 0, .vol, .u 0, .u [(0, 7)], false, "Mode in force"⟩,
  ⟨0x2200, 1, 0x03, 1, .u8, .ro, 0, .vol, .u 0, .any, false, "Failing guards"⟩,
  ⟨0x2201, 1, 0x00, 1, .u32, .rwm, 127, .vol, .u 0, .any, false, "Mode command"⟩,
  ⟨0x2202, 1, 0x01, 1, .u16, .ro, 0, .vol, .u 0, .any, false, "Last accepted sequence"⟩,
  ⟨0x2202, 1, 0x02, 1, .u8, .ro, 0, .vol, .u 0, .any, false, "Last outcome"⟩,
  ⟨0x2202, 1, 0x03, 1, .u16, .ro, 0, .vol, .u 0, .any, false, "Last refused sequence"⟩,
  ⟨0x2202, 1, 0x04, 1, .u8, .ro, 0, .vol, .u 0, .any, false, "Refusal reason"⟩,
  ⟨0x2202, 1, 0x05, 1, .u8, .ro, 0, .vol, .u 0, .any, false, "Sequence state"⟩,
  ⟨0x2203, 1, 0x00, 1, .u32, .rwm, 62, .vol, .u 0, .any, false, "Action command"⟩,
  ⟨0x2210, 1, 0x01, 1, .f32, .rw, 0, .nv, .f 0x3E4CCCCD, .f [(0x3C23D70A, 0x40000000, false)], false, "Position rate"⟩,
  ⟨0x2210, 1, 0x02, 1, .f32, .rw, 0, .nv, .f 0x3F800000, .f [(0x3D4CCCCD, 0x41200000, false)], false, "Heading rate"⟩,
  ⟨0x2210, 1, 0x03, 1, .f32, .rw, 0, .nv, .f 0x3CA3D70A, .f [(0x3A83126F, 0x3F000000, false)], false, "Speed rate"⟩,
  ⟨0x2220, 1, 0x01, 32, .f32, .rwm, 2, .vol, .f 0x00000000, .f [(0x00000000, 0x43B40000, true)], false, "Lever azimuth T0-T31"⟩,
  ⟨0x2221, 1, 0x01, 32, .f32, .rwm, 2, .vol, .f 0x00000000, .f [(0xC2C80000, 0x42C80000, false)], false, "Lever speed T0-T31"⟩,
  ⟨0x2222, 1, 0x01, 2, .f32, .rwm, 12, .vol, .f 0x00000000, .f [(0xC61C4000, 0x461C4000, false)], false, "Joystick demand"⟩,
  ⟨0x2222, 1, 0x03, 1, .f32, .rwm, 12, .vol, .f 0x00000000, .f [(0xC9742400, 0x49742400, false)], false, "Joystick demand"⟩,
  ⟨0x2224, 1, 0x01, 2, .f32, .rwm, 63, .vol, .f 0x00000000, .f [(0xC61C4000, 0x461C4000, false)], false, "Position target"⟩,
  ⟨0x2224, 1, 0x03, 1, .f32, .rwm, 63, .vol, .f 0x00000000, .f [(0x00000000, 0x43B40000, true)], false, "Heading target"⟩,
  ⟨0x2224, 1, 0x04, 1, .f32, .rwm, 63, .vol, .f 0x3F000000, .f [(0x00000000, 0x40A00000, false)], false, "Track speed"⟩,
  ⟨0x2226, 1, 0x01, 1, .u8, .rwm, 95, .nv, .u 0, .u [(0, 1)], false, "Track source"⟩,
  ⟨0x2226, 1, 0x02, 1, .u8, .ro, 0, .nv, .u 0, .u [(0, 64)], false, "Waypoint count"⟩,
  ⟨0x2226, 1, 0x03, 1, .u8, .rwm, 95, .nv, .u 0, .u [(0, 255)], false, "Target stream"⟩,
  ⟨0x2226, 1, 0x04, 1, .u8, .rwm, 95, .nv, .u 0, .u [(0, 1)], false, "Track heading mode"⟩,
  ⟨0x2227, 1, 0x00, 1, .dom, .rwm, 95, .nv, .d [], .bytes 0 768 12, false, "Waypoints"⟩]

/-- Objects of chapter 04. -/
def rows04a : List Row := [
  ⟨0x2400, 256, 0x01, 1, .bool, .rwm, 65, .nv, .u 0, .any, false, "Enable"⟩,
  ⟨0x2400, 256, 0x02, 1, .u8, .rwm, 65, .nv, .u 0, .u [(0, 13)], false, "Quantity kind"⟩,
  ⟨0x2400, 256, 0x03, 1, .u8, .rwm, 65, .nv, .u 0, .u [(0, 8)], false, "Binding"⟩,
  ⟨0x2400, 256, 0x04, 1, .u32, .rwm, 65, .nv, .u 0, .any, false, "Binding address"⟩,
  ⟨0x2400, 256, 0x05, 1, .u8, .rwm, 65, .nv, .u 255, .u [(0, 63), (254, 255)], false, "Clock slot"⟩,
  ⟨0x2400, 256, 0x06, 1, .f32, .rw, 0, .nv, .f 0x00000000, .f [(0x00000000, 0x447A0000, false)], false, "Fixed latency"⟩,
  ⟨0x2400, 256, 0x07, 1, .f32, .rwm, 65, .nv, .f 0x3F800000, .f [(0x3DCCCCCD, 0x44FA0000, false)], false, "Nominal rate"⟩,
  ⟨0x2400, 256, 0x08, 1, .u8, .rw, 0, .nv, .u 2, .u [(0, 20)], false, "Horizon"⟩,
  ⟨0x2400, 256, 0x09, 3, .f32, .rwm, 65, .nv, .f 0x00000000, .f [(0xC3480000, 0x43480000, false)], false, "Lever arm x, y, z"⟩,
  ⟨0x2400, 256, 0x0C, 1, .u8, .rwm, 65, .nv, .u 255, .u [(0, 255)], false, "Attitude stream"⟩,
  ⟨0x2400, 256, 0x0D, 3, .f32, .rw, 0, .nv, .f 0x00000000, .f [(0xC7C35000, 0x47C35000, false)], false, "Geometry A, B, C"⟩,
  ⟨0x2400, 256, 0x10, 1, .f32, .rw, 0, .nv, .f 0x3F800000, .f [(0x3A83126F, 0x42C80000, false)], false, "Nominal standard deviation"⟩,
  ⟨0x2400, 256, 0x11, 3, .u32, .rwm, 65, .nv, .u 0, .mask 0xF000FFFF, false, "Raw field map 1-3"⟩,
  ⟨0x2400, 256, 0x14, 3, .f32, .rwm, 65, .nv, .f 0x3F800000, .f [(0xC9742400, 0x49742400, false)], false, "Raw scale 1-3"⟩,
  ⟨0x2540, 64, 0x01, 1, .f32, .rwm, 65, .nv, .f 0x00000000, .f [(0x00000000, 0x447A0000, false)], false, "Transport latency L"⟩,
  ⟨0x2540, 64, 0x02, 1, .f32, .rw, 0, .nv, .f 0x3D800000, .f [(0x3A83126F, 0x3F000000, false)], false, "Offset gain g_o"⟩,
  ⟨0x2540, 64, 0x03, 1, .f32, .rw, 0, .nv, .f 0x39800000, .f [(0x00000000, 0x3C23D70A, false)], false, "Rate gain g_r"⟩,
  ⟨0x2540, 64, 0x04, 1, .bool, .rwm, 65, .vol, .u 0, .any, false, "Reset"⟩,
  ⟨0x2540, 64, 0x05, 1, .i64, .ro, 0, .vol, .i (0), .any, false, "Offset o"⟩,
  ⟨0x2540, 64, 0x06, 1, .f32, .ro, 0, .vol, .f 0x00000000, .any, false, "Rate ρ"⟩,
  ⟨0x2540, 64, 0x07, 1, .i32, .ro, 0, .vol, .i (0), .any, false, "Last residual"⟩,
  ⟨0x2540, 64, 0x08, 1, .u8, .ro, 0, .vol, .u 0, .u [(0, 3)], false, "State"⟩,
  ⟨0x2540, 64, 0x09, 1, .u32, .ro, 0, .vol, .u 0, .any, false, "Accepted updates"⟩,
  ⟨0x2500, 1, 0x01, 1, .i64, .rwm, 65, .nv, .i (0), .i [(-90000000000, 90000000000)], false, "Origin latitude"⟩,
  ⟨0x2500, 1, 0x02, 1, .i64, .rwm, 65, .nv, .i (0), .i [(-180000000000, 180000000000)], false, "Origin longitude"⟩,
  ⟨0x2500, 1, 0x03, 1, .f32, .rwm, 65, .nv, .f 0x00000000, .f [(0xC47A0000, 0x447A0000, false)], false, "Origin height"⟩,
  ⟨0x2500, 1, 0x04, 1, .u8, .rwm, 65, .nv, .u 255, .u [(0, 255)], false, "Fallback attitude stream"⟩,
  ⟨0x2500, 1, 0x05, 3, .u8, .rwm, 65, .nv, .u 255, .u [(0, 255)], false, "Compensation heading streams"⟩,
  ⟨0x2501, 1, 0x01, 1, .u32, .ro, 0, .vol, .u 0, .any, false, "Samples accepted"⟩,
  ⟨0x2501, 1, 0x02, 1, .u32, .ro, 0, .vol, .u 0, .any, false, "Late samples"⟩,
  ⟨0x2501, 1, 0x03, 1, .u32, .ro, 0, .vol, .u 0, .any, false, "Discarded, order"⟩,
  ⟨0x2501, 1, 0x04, 1, .u32, .ro, 0, .vol, .u 0, .any, false, "Discarded, future stamp"⟩,
  ⟨0x2501, 1, 0x05, 1, .u32, .ro, 0, .vol, .u 0, .any, false, "Discarded, source invalid"⟩,
  ⟨0x2501, 1, 0x06, 1, .u32, .ro, 0, .vol, .u 0, .any, false, "Overruns"⟩,
  ⟨0x2511, 1, 0x00, 1, .u8, .rw, 0, .vol, .u 0, .u [(0, 255)], true, "Inspected stream"⟩]

/-- Objects of chapter 05. -/
def rows05a : List Row := [
  ⟨0x2600, 256, 0x01, 1, .u8, .rwm, 65, .nv, .u 255, .u [(0, 15), (255, 255)], false, "Group"⟩,
  ⟨0x2600, 256, 0x02, 1, .u8, .rwm, 65, .nv, .u 0, .u [(0, 1)], false, "Scheme"⟩,
  ⟨0x2600, 256, 0x03, 1, .bool, .rw, 0, .nv, .u 1, .any, false, "Selected at start"⟩,
  ⟨0x2600, 256, 0x04, 1, .f32, .rw, 0, .nv, .f 0x40000000, .f [(0x00000000, 0x42700000, false)], false, "Freeze time"⟩,
  ⟨0x2600, 256, 0x05, 1, .f32, .rw, 0, .nv, .f 0x00000000, .f [(0x00000000, 0x41200000, false)], false, "Freeze tolerance"⟩,
  ⟨0x2600, 256, 0x06, 1, .f32, .rw, 0, .nv, .f 0x40000000, .f [(0x3A83126F, 0x42C80000, false)], false, "Maximum standard deviation"⟩,
  ⟨0x2600, 256, 0x07, 1, .f32, .rw, 0, .nv, .f 0x3F800000, .f [(0x3A83126F, 0x447A0000, false)], false, "Step limit"⟩,
  ⟨0x2600, 256, 0x08, 1, .f32, .rw, 0, .nv, .f 0x41200000, .f [(0x00000000, 0x44160000, false)], false, "Step hold"⟩,
  ⟨0x2600, 256, 0x09, 1, .f32, .rw, 0, .nv, .f 0x40800000, .f [(0x3F800000, 0x41A00000, false)], false, "Gate factor g"⟩,
  ⟨0x2600, 256, 0x0A, 1, .f32, .rw, 0, .nv, .f 0x3F000000, .f [(0x00000000, 0x42C80000, false)], false, "Gate floor"⟩,
  ⟨0x2600, 256, 0x0B, 1, .u8, .rw, 0, .nv, .u 3, .u [(1, 20)], false, "Gate count"⟩,
  ⟨0x2600, 256, 0x0C, 1, .u8, .rw, 0, .nv, .u 32, .u [(0, 255)], false, "Gate penalty"⟩,
  ⟨0x2600, 256, 0x0D, 1, .f32, .rw, 0, .nv, .f 0x41200000, .f [(0x3DCCCCCD, 0x437F0000, false)], false, "Confidence rise"⟩,
  ⟨0x2600, 256, 0x0E, 1, .f32, .rw, 0, .nv, .f 0x42800000, .f [(0x3DCCCCCD, 0x437F0000, false)], false, "Confidence fall, masked"⟩,
  ⟨0x2600, 256, 0x0F, 1, .f32, .rw, 0, .nv, .f 0x42000000, .f [(0x3DCCCCCD, 0x437F0000, false)], false, "Confidence fall, absent"⟩,
  ⟨0x2600, 256, 0x10, 1, .f32, .rw, 0, .nv, .f 0x41F00000, .f [(0x3F800000, 0x44160000, false)], false, "Stepped dwell"⟩,
  ⟨0x2700, 16, 0x01, 1, .f32, .rw, 0, .nv, .f 0x40000000, .f [(0x3A83126F, 0x447A0000, false)], false, "Vote limit"⟩,
  ⟨0x2700, 16, 0x02, 1, .f32, .rw, 0, .nv, .f 0x3F400000, .f [(0x3A83126F, 0x447A0000, false)], false, "Drift limit"⟩,
  ⟨0x2700, 16, 0x03, 1, .f32, .rw, 0, .nv, .f 0x41F00000, .f [(0x3F800000, 0x43960000, false)], false, "Drift window"⟩,
  ⟨0x2700, 16, 0x04, 1, .bool, .rw, 0, .nv, .u 1, .any, false, "Drift enable"⟩,
  ⟨0x2700, 16, 0x05, 1, .u8, .ro, 0, .vol, .u 0, .u [(0, 10)], false, "Class"⟩,
  ⟨0x2240, 1, 0x01, 8, .u32, .rwm, 127, .vol, .u 0xFFFFFFFF, .any, false, "Reference selection"⟩,
  ⟨0x2711, 1, 0x00, 1, .u8, .rw, 0, .vol, .u 0, .u [(0, 255)], true, "Inspected stream"⟩,
  ⟨0x2710, 1, 0x01, 1, .u32, .ro, 0, .vol, .u 0, .any, false, "Overruns"⟩]

/-- Objects of chapter 06. -/
def rows06a : List Row := [
  ⟨0x2800, 256, 0x01, 1, .u8, .rwm, 65, .nv, .u 0, .u [(0, 3)], false, "Source"⟩,
  ⟨0x2800, 256, 0x02, 1, .u16, .rwm, 65, .nv, .u 0, .any, false, "Source address"⟩,
  ⟨0x2800, 256, 0x03, 1, .u8, .ro, 0, .nv, .u 0, .u [(0, 8)], false, "Stage count"⟩,
  ⟨0x2800, 256, 0x04, 1, .f32, .ro, 0, .nv, .f 0x00000000, .any, false, "Reference frequency"⟩,
  ⟨0x2800, 256, 0x05, 1, .f32, .ro, 0, .nv, .f 0x3F800000, .any, false, "Input scale"⟩,
  ⟨0x2800, 256, 0x06, 1, .f32, .ro, 0, .nv, .f 0x3F800000, .any, false, "Output scale"⟩,
  ⟨0x2800, 256, 0x07, 1, .f32, .ro, 0, .nv, .f 0x00000000, .any, false, "Output offset"⟩,
  ⟨0x2800, 256, 0x08, 1, .f32, .ro, 0, .vol, .f 0x00000000, .any, false, "Input rate"⟩,
  ⟨0x2800, 256, 0x09, 1, .f32, .ro, 0, .vol, .f 0x00000000, .any, false, "Output rate"⟩,
  ⟨0x2800, 256, 0x0A, 1, .f32, .ro, 0, .vol, .f 0x00000000, .any, false, "Stated delay"⟩,
  ⟨0x2800, 256, 0x0B, 1, .f32, .ro, 0, .vol, .f 0x00000000, .any, false, "Settling time"⟩,
  ⟨0x2800, 256, 0x0C, 1, .u16, .ro, 0, .vol, .u 40, .any, false, "Cycle cost"⟩,
  ⟨0x2800, 256, 0x0D, 1, .u16, .ro, 0, .vol, .u 0, .any, false, "Status"⟩,
  ⟨0x2800, 256, 0x0E, 1, .f32, .ro, 0, .vol, .f 0x00000000, .any, false, "Notch centre"⟩,
  ⟨0x2800, 256, 0x0F, 1, .f32, .ro, 0, .vol, .f 0x00000000, .any, false, "Latest output"⟩,
  ⟨0x2800, 256, 0x10, 1, .time64, .ro, 0, .vol, .u 0, .any, false, "Latest time of validity"⟩,
  ⟨0x2900, 1, 0x00, 1, .dom, .rwm, 127, .nv, .d [], .bytes 0 1048576 1, false, "Coefficient set"⟩,
  ⟨0x2901, 1, 0x01, 1, .u32, .ro, 0, .nv, .u 0, .any, false, "Loaded set version"⟩,
  ⟨0x2901, 1, 0x02, 1, .u64, .ro, 0, .nv, .u 0, .any, false, "Loaded set digest"⟩,
  ⟨0x2901, 1, 0x03, 1, .u32, .ro, 0, .vol, .u 0, .any, false, "First refusal"⟩,
  ⟨0x2910, 1, 0x01, 128, .u16, .ro, 0, .vol, .u 0, .any, false, "Sticky, F0-F127"⟩,
  ⟨0x2911, 1, 0x01, 128, .u16, .ro, 0, .vol, .u 0, .any, false, "Sticky, F128-F255"⟩,
  ⟨0x2912, 1, 0x01, 1, .u32, .ro, 0, .vol, .u 0, .any, false, "Overruns"⟩]

/-- Objects of chapter 07. -/
def rows07a : List Row := [
  ⟨0x2A00, 1, 0x01, 1, .f32, .rwm, 65, .nv, .f 0x00000000, .f [(0x00000000, 0x49742400, false)], false, "Mass m"⟩,
  ⟨0x2A00, 1, 0x02, 2, .f32, .rwm, 65, .nv, .f 0x00000000, .f [(0x00000000, 0x49742400, false)], false, "Added mass a_u, a_v"⟩,
  ⟨0x2A00, 1, 0x04, 1, .f32, .rwm, 65, .nv, .f 0x00000000, .f [(0x00000000, 0x51BA43B7, false)], false, "Yaw inertia I_z"⟩,
  ⟨0x2A00, 1, 0x05, 1, .f32, .rwm, 65, .nv, .f 0x00000000, .f [(0x00000000, 0x51BA43B7, false)], false, "Added yaw inertia a_r"⟩,
  ⟨0x2A00, 1, 0x06, 2, .f32, .rwm, 65, .nv, .f 0x00000000, .f [(0x00000000, 0x47C35000, false)], false, "Damping d_u, d_v"⟩,
  ⟨0x2A00, 1, 0x08, 1, .f32, .rwm, 65, .nv, .f 0x00000000, .f [(0x00000000, 0x4CBEBC20, false)], false, "Damping d_r"⟩,
  ⟨0x2A00, 1, 0x09, 1, .f32, .rwm, 65, .nv, .f 0x42C80000, .f [(0x41200000, 0x43FA0000, false)], false, "Length L"⟩,
  ⟨0x2A01, 1, 0x01, 1, .f32, .rw, 0, .nv, .f 0x3DCCCCCD, .f [(0x3C23D70A, 0x3F800000, false)], false, "Wave damping ζ"⟩,
  ⟨0x2A01, 1, 0x02, 1, .f32, .rw, 0, .nv, .f 0x3DCCCCCD, .f [(0x3CF5C28F, 0x3ECCCCCD, false)], false, "Initial f_w"⟩,
  ⟨0x2A01, 1, 0x03, 1, .f32, .rw, 0, .nv, .f 0x3D4CCCCD, .f [(0x3CF5C28F, 0x3ECCCCCD, false)], false, "f_w lower, upper"⟩,
  ⟨0x2A01, 1, 0x04, 1, .f32, .rw, 0, .nv, .f 0x3E800000, .f [(0x3CF5C28F, 0x3ECCCCCD, false)], false, "f_w lower, upper"⟩,
  ⟨0x2A01, 1, 0x05, 1, .f32, .rw, 0, .nv, .f 0x42700000, .f [(0x40A00000, 0x44160000, false)], false, "Adaptation time constant"⟩,
  ⟨0x2A01, 1, 0x06, 1, .bool, .rw, 0, .nv, .u 1, .any, false, "Adaptation enable"⟩,
  ⟨0x2A02, 1, 0x01, 1, .f32, .rw, 0, .nv, .f 0x40000000, .f [(0x00000000, 0x447A0000, false)], false, "Bias noise, force"⟩,
  ⟨0x2A02, 1, 0x02, 1, .f32, .rw, 0, .nv, .f 0x42C80000, .f [(0x00000000, 0x49742400, false)], false, "Bias noise, moment"⟩,
  ⟨0x2A02, 1, 0x03, 1, .f32, .rw, 0, .nv, .f 0x3F000000, .f [(0x00000000, 0x41200000, false)], false, "Wave noise, position"⟩,
  ⟨0x2A02, 1, 0x04, 1, .f32, .rw, 0, .nv, .f 0x3E4CCCCD, .f [(0x00000000, 0x41200000, false)], false, "Wave noise, heading"⟩,
  ⟨0x2A02, 1, 0x05, 1, .f32, .rw, 0, .nv, .f 0x3C23D70A, .f [(0x00000000, 0x3F800000, false)], false, "Velocity noise"⟩,
  ⟨0x2A03, 1, 0x01, 1, .f32, .rw, 0, .nv, .f 0x3F9CED91, .f [(0x3F800000, 0x3FC00000, false)], false, "Air density ρ"⟩,
  ⟨0x2A03, 1, 0x02, 2, .f32, .rwm, 65, .nv, .f 0x00000000, .f [(0x00000000, 0x469C4000, false)], false, "Areas A_F, A_L"⟩,
  ⟨0x2A03, 1, 0x04, 1, .f32, .rw, 0, .nv, .f 0x41200000, .f [(0x00000000, 0x44160000, false)], false, "Wind hold"⟩,
  ⟨0x2A03, 1, 0x05, 1, .f32, .rw, 0, .nv, .f 0x42700000, .f [(0x3F800000, 0x44160000, false)], false, "Wind decay"⟩,
  ⟨0x2A04, 1, 0x00, 1, .dom, .rwm, 65, .nv, .d (List.replicate 432 0), .bytes 432 432 1, false, "Wind coefficients"⟩,
  ⟨0x2A08, 1, 0x01, 1, .u8, .rw, 0, .nv, .u 4, .u [(1, 50)], false, "Window K"⟩,
  ⟨0x2A08, 1, 0x02, 1, .f32, .rw, 0, .nv, .f 0x3F000000, .f [(0x3DCCCCCD, 0x3F800000, false)], false, "Missing share"⟩,
  ⟨0x2A08, 1, 0x03, 1, .f32, .rw, 0, .nv, .f 0x3F333333, .f [(0x3E99999A, 0x3F800000, false)], false, "Explained share"⟩,
  ⟨0x2A08, 1, 0x04, 1, .u8, .rw, 0, .nv, .u 3, .u [(1, 20)], false, "Consecutive epochs"⟩,
  ⟨0x2A08, 1, 0x05, 1, .f32, .rw, 0, .nv, .f 0x41A00000, .f [(0x3F800000, 0x461C4000, false)], false, "Force floor"⟩,
  ⟨0x2A10, 1, 0x01, 1, .bool, .rwm, 71, .vol, .u 0, .any, false, "Reset"⟩,
  ⟨0x2A10, 1, 0x02, 1, .f32, .rw, 0, .nv, .f 0x3B03126F, .f [(0x00000000, 0x3DCCCCCD, false)], false, "Dead-reckoning acceleration a_u"⟩,
  ⟨0x2A10, 1, 0x03, 1, .f32, .rw, 0, .nv, .f 0x40A00000, .f [(0x3F000000, 0x447A0000, false)], false, "Radius limit"⟩,
  ⟨0x2A10, 1, 0x04, 1, .f32, .rw, 0, .nv, .f 0x3F000000, .f [(0x3D4CCCCD, 0x42C80000, false)], false, "Pair divergence limit"⟩,
  ⟨0x2A10, 1, 0x05, 1, .u8, .rw, 0, .nv, .u 10, .u [(1, 255)], false, "Pair divergence count"⟩,
  ⟨0x2A20, 32, 0x01, 1, .u8, .rwm, 65, .nv, .u 255, .u [(0, 255)], false, "Azimuth stream, T0-T31"⟩,
  ⟨0x2A20, 32, 0x02, 1, .u8, .rwm, 65, .nv, .u 255, .u [(0, 255)], false, "Thrust stream, T0-T31"⟩,
  ⟨0x2A50, 1, 0x01, 1, .u32, .ro, 0, .vol, .u 0, .any, false, "Overruns"⟩]

/-- Objects of chapter 08. -/
def rows08a : List Row := [
  ⟨0x2C00, 1, 0x01, 1, .u8, .rw, 0, .nv, .u 0, .u [(0, 7)], false, "Gain set selected"⟩,
  ⟨0x2C00, 1, 0x02, 1, .u8, .ro, 0, .vol, .u 0, .u [(0, 7)], false, "Gain set in force"⟩,
  ⟨0x2C01, 1, 0x00, 1, .dom, .rwm, 127, .nv, .d [], .bytes 0 65536 1, false, "Coefficient set"⟩,
  ⟨0x2C02, 1, 0x01, 1, .u32, .ro, 0, .nv, .u 0, .any, false, "Loaded set version"⟩,
  ⟨0x2C02, 1, 0x02, 1, .u64, .ro, 0, .nv, .u 0, .any, false, "Loaded set digest"⟩,
  ⟨0x2C02, 1, 0x03, 1, .u32, .ro, 0, .vol, .u 0, .any, false, "First refusal"⟩,
  ⟨0x2C03, 1, 0x01, 1, .bool, .rw, 0, .nv, .u 0, .any, false, "Joystick wind compensation"⟩,
  ⟨0x2C03, 1, 0x02, 1, .bool, .rw, 0, .nv, .u 1, .any, false, "Allocation anti-windup"⟩,
  ⟨0x2C03, 1, 0x03, 1, .f32, .rw, 0, .nv, .f 0x40000000, .f [(0x3DCCCCCD, 0x42700000, false)], false, "Acceleration filter t_a"⟩,
  ⟨0x2C10, 8, 0x01, 18, .f32, .ro, 0, .nv, .f 0x00000000, .any, false, "Gain set 0-7"⟩,
  ⟨0x2C80, 32, 0x01, 1, .u8, .rwm, 65, .nv, .u 1, .u [(1, 2), (4, 4), (8, 8)], false, "Inner-loop divisor d, T0-T31"⟩,
  ⟨0x2C80, 32, 0x02, 1, .u8, .rwm, 65, .nv, .u 0, .u [(0, 1)], false, "Azimuth loop mode"⟩,
  ⟨0x2C80, 32, 0x03, 1, .u8, .rwm, 65, .nv, .u 0, .u [(0, 1)], false, "Speed loop mode"⟩,
  ⟨0x2C80, 32, 0x04, 1, .u8, .rwm, 65, .nv, .u 254, .u [(0, 31), (254, 255)], false, "Azimuth feedback"⟩,
  ⟨0x2C80, 32, 0x05, 1, .u8, .rwm, 65, .nv, .u 254, .u [(0, 31), (254, 254)], false, "Speed feedback"⟩,
  ⟨0x2C80, 32, 0x06, 6, .f32, .ro, 0, .nv, .f 0x00000000, .any, false, "Inner-loop coefficients"⟩,
  ⟨0x2CA0, 32, 0x01, 4, .f32, .ro, 0, .vol, .f 0x00000000, .any, false, "Inner-loop state, T0-T31"⟩,
  ⟨0x2C50, 1, 0x01, 3, .u8, .ro, 0, .vol, .u 0, .any, false, "Law sticky flags"⟩,
  ⟨0x2C51, 1, 0x01, 32, .u8, .ro, 0, .vol, .u 0, .any, false, "Inner-loop sticky flags"⟩,
  ⟨0x2C58, 1, 0x01, 1, .u32, .ro, 0, .vol, .u 0, .any, false, "Law overruns"⟩,
  ⟨0x2C58, 1, 0x02, 1, .u8, .ro, 0, .vol, .u 0, .any, false, "Consecutive overruns"⟩,
  ⟨0x2C58, 1, 0x03, 1, .u8, .ro, 0, .vol, .u 0, .u [(0, 100)], false, "Overruns in last 100 samples"⟩,
  ⟨0x2C58, 1, 0x04, 1, .u32, .ro, 0, .vol, .u 0, .any, false, "Residue faults"⟩,
  ⟨0x2C58, 1, 0x05, 1, .u32, .ro, 0, .vol, .u 0, .any, false, "Inner-loop overruns"⟩]

/-- Objects of chapter 09. -/
def rows09a : List Row := [
  ⟨0x2E80, 32, 0x01, 1, .u8, .rwm, 65, .nv, .u 0, .u [(0, 4)], false, "Kind"⟩,
  ⟨0x2E80, 32, 0x02, 1, .f32, .rwm, 65, .nv, .f 0x00000000, .f [(0xC3960000, 0x43960000, false)], false, "Position x"⟩,
  ⟨0x2E80, 32, 0x03, 1, .f32, .rwm, 65, .nv, .f 0x00000000, .f [(0xC2C80000, 0x42C80000, false)], false, "Position y"⟩,
  ⟨0x2E80, 32, 0x04, 1, .f32, .rwm, 65, .nv, .f 0x00000000, .f [(0x00000000, 0x459C4000, false)], false, "Rated thrust ahead T_max+"⟩,
  ⟨0x2E80, 32, 0x05, 1, .f32, .rwm, 65, .nv, .f 0x00000000, .f [(0x00000000, 0x459C4000, false)], false, "Rated thrust astern T_max-"⟩,
  ⟨0x2E80, 32, 0x06, 1, .f32, .rwm, 65, .nv, .f 0x00000000, .f [(0x00000000, 0x469C4000, false)], false, "Rated power P_max"⟩,
  ⟨0x2E80, 32, 0x07, 1, .f32, .rwm, 65, .nv, .f 0x00000000, .f [(0x00000000, 0x44FA0000, false)], false, "Idle power P_0"⟩,
  ⟨0x2E80, 32, 0x08, 1, .f32, .rwm, 65, .nv, .f 0x40000000, .f [(0x3F800000, 0x40000000, false)], false, "Thrust exponent κ"⟩,
  ⟨0x2E80, 32, 0x09, 1, .f32, .rwm, 65, .nv, .f 0x40C00000, .f [(0x3F000000, 0x41F00000, false)], false, "Slew limit ω_max"⟩,
  ⟨0x2E80, 32, 0x0A, 1, .f32, .rwm, 65, .nv, .f 0x41200000, .f [(0x3F800000, 0x43480000, false)], false, "Ramp limit"⟩,
  ⟨0x2E80, 32, 0x0B, 1, .f32, .rwm, 65, .nv, .f 0x00000000, .f [(0x00000000, 0x43B40000, true)], false, "Fixed azimuth"⟩,
  ⟨0x2E80, 32, 0x0C, 1, .f32, .rwm, 65, .nv, .f 0x420C0000, .f [(0x00000000, 0x42B40000, false)], false, "Angle range"⟩,
  ⟨0x2E80, 32, 0x0D, 1, .f32, .rwm, 65, .nv, .f 0x00000000, .f [(0x00000000, 0x40000000, false)], false, "Rudder lift k_R"⟩,
  ⟨0x2E80, 32, 0x0E, 1, .f32, .rwm, 65, .nv, .f 0x41200000, .f [(0x00000000, 0x42480000, false)], false, "Crossing thrust"⟩,
  ⟨0x2E80, 32, 0x0F, 1, .f32, .rw, 0, .nv, .f 0x3F800000, .f [(0x3DCCCCCD, 0x41200000, false)], false, "Weight multiplier m_j"⟩,
  ⟨0x2E80, 32, 0x10, 1, .bool, .rw, 0, .nv, .u 1, .any, false, "Allocation enable"⟩,
  ⟨0x2EA0, 32, 0x01, 8, .f32, .rwm, 65, .nv, .f 0x00000000, .f [(0x00000000, 0x43B40000, true)], false, "Forbidden sectors"⟩,
  ⟨0x2EC0, 32, 0x00, 1, .dom, .rwm, 65, .nv, .d loss1, .bytes 144 144 1, false, "Loss table"⟩,
  ⟨0x2E00, 1, 0x01, 1, .u8, .rwm, 65, .nv, .u 10, .u [(1, 20)], false, "Horizon H"⟩,
  ⟨0x2E00, 1, 0x02, 1, .u8, .rw, 0, .nv, .u 6, .u [(6, 6), (9, 9), (18, 18), (24, 24), (33, 33), (36, 36)], false, "Axis priority"⟩,
  ⟨0x2E00, 1, 0x03, 1, .f32, .rw, 0, .nv, .f 0x3F800000, .f [(0x3A83126F, 0x42C80000, false)], false, "Thrust weight w_T"⟩,
  ⟨0x2E00, 1, 0x04, 1, .f32, .rw, 0, .nv, .f 0x3C23D70A, .f [(0x00000000, 0x42C80000, false)], false, "Slew weight w_α"⟩,
  ⟨0x2E00, 1, 0x05, 1, .f32, .rw, 0, .nv, .f 0x3DCCCCCD, .f [(0x00000000, 0x42C80000, false)], false, "Ramp weight w_t"⟩,
  ⟨0x2E00, 1, 0x07, 1, .f32, .rw, 0, .nv, .f 0x41200000, .f [(0x00000000, 0x447A0000, false)], false, "Saturation floor, force"⟩,
  ⟨0x2E00, 1, 0x08, 1, .f32, .rw, 0, .nv, .f 0x447A0000, .f [(0x00000000, 0x47C35000, false)], false, "Saturation floor, moment"⟩,
  ⟨0x2E00, 1, 0x09, 1, .f32, .rw, 0, .nv, .f 0x3CA3D70A, .f [(0x00000000, 0x3F000000, false)], false, "Saturation share"⟩,
  ⟨0x2E00, 1, 0x0A, 1, .f32, .rw, 0, .nv, .f 0x40000000, .f [(0x3DCCCCCD, 0x42700000, false)], false, "Side-change dwell"⟩,
  ⟨0x2E02, 1, 0x01, 1, .f32, .rwm, 65, .nv, .f 0x3DCCCCCD, .f [(0x38D1B717, 0x447A0000, false)], false, "ρ"⟩,
  ⟨0x2E02, 1, 0x02, 1, .f32, .rwm, 65, .nv, .f 0x3FCCCCCD, .f [(0x3F800000, 0x3FF33333, false)], false, "Relaxation α"⟩,
  ⟨0x2E02, 1, 0x03, 2, .f32, .rw, 0, .nv, .f 0x3A83126F, .f [(0x358637BD, 0x3F800000, false)], false, "ε_p, ε_d"⟩,
  ⟨0x2E02, 1, 0x05, 1, .u8, .konst, 0, .fac, .u 64, .any, false, "Iterations"⟩,
  ⟨0x2E10, 1, 0x00, 1, .u8, .rw, 0, .vol, .u 0, .u [(0, 31)], true, "Inspected thruster"⟩,
  ⟨0x2E50, 1, 0x01, 1, .u32, .ro, 0, .vol, .u 0, .any, false, "Overruns"⟩,
  ⟨0x2E50, 1, 0x02, 1, .u8, .ro, 0, .vol, .u 0, .any, false, "Consecutive overruns"⟩,
  ⟨0x2E50, 1, 0x03, 1, .u8, .ro, 0, .vol, .u 0, .u [(0, 100)], false, "Overruns in last 100 samples"⟩,
  ⟨0x2E50, 1, 0x04, 1, .u32, .ro, 0, .vol, .u 0, .any, false, "Not-converged solves"⟩,
  ⟨0x2E50, 1, 0x05, 1, .u32, .ro, 0, .vol, .u 0, .any, false, "Numeric faults"⟩,
  ⟨0x2E50, 1, 0x06, 1, .u32, .ro, 0, .vol, .u 0, .any, false, "Power clips"⟩]

/-- Objects of chapter 10. -/
def rows10a : List Row := [
  ⟨0x3000, 1, 0x01, 1, .u8, .rwm, 65, .nv, .u 10, .u [(1, 10)], false, "Case horizon H_c"⟩,
  ⟨0x3000, 1, 0x02, 1, .u8, .rw, 0, .nv, .u 3, .u [(1, 10)], false, "Minimum horizon"⟩,
  ⟨0x3000, 1, 0x03, 1, .f32, .rw, 0, .nv, .f 0x41200000, .f [(0x00000000, 0x44160000, false)], false, "Alarm delay"⟩,
  ⟨0x3000, 1, 0x04, 1, .f32, .rw, 0, .nv, .f 0x41200000, .f [(0x00000000, 0x44160000, false)], false, "Alarm clear delay"⟩,
  ⟨0x3001, 1, 0x01, 1, .u8, .rw, 0, .nv, .u 2, .u [(2, 16)], false, "Drive confirm records"⟩,
  ⟨0x3001, 1, 0x02, 1, .u8, .rw, 0, .nv, .u 16, .u [(4, 80)], false, "Drive silence"⟩,
  ⟨0x3001, 1, 0x03, 1, .f32, .rw, 0, .nv, .f 0x40A00000, .f [(0x3F000000, 0x44160000, false)], false, "Restore time"⟩,
  ⟨0x3002, 1, 0x00, 1, .u32, .wo, 0, .vol, .u 0, .any, false, "Clear mismatch removals"⟩,
  ⟨0x3003, 1, 0x00, 1, .u8, .rw, 0, .vol, .u 0, .u [(0, 127)], true, "Inspected case"⟩,
  ⟨0x3080, 128, 0x01, 1, .u8, .rwm, 65, .nv, .u 0, .u [(0, 5)], false, "Type, C0-C127"⟩,
  ⟨0x3080, 128, 0x02, 1, .u32, .rwm, 65, .nv, .u 0, .any, false, "Thruster mask"⟩,
  ⟨0x3080, 128, 0x03, 1, .u16, .rwm, 65, .nv, .u 0, .any, false, "Generator mask"⟩,
  ⟨0x3080, 128, 0x04, 1, .u8, .rwm, 65, .nv, .u 0, .any, false, "Section mask"⟩,
  ⟨0x3080, 128, 0x05, 1, .u8, .rwm, 65, .nv, .u 0, .any, false, "Tie mask"⟩,
  ⟨0x3080, 128, 0x06, 4, .u64, .rwm, 65, .nv, .u 0, .any, false, "Stream mask"⟩,
  ⟨0x3050, 1, 0x01, 5, .u32, .ro, 0, .vol, .u 0, .any, false, "Stook counters"⟩,
  ⟨0x3200, 1, 0x00, 1, .dom, .rwm, 67, .nv, .d [], .bytes 0 65536 1, false, "Stubble set"⟩,
  ⟨0x3201, 1, 0x01, 1, .u32, .ro, 0, .nv, .u 0, .any, false, "Loaded version, digest"⟩,
  ⟨0x3201, 1, 0x02, 1, .u64, .ro, 0, .nv, .u 0, .any, false, "Loaded version, digest"⟩,
  ⟨0x3201, 1, 0x03, 1, .u32, .ro, 0, .vol, .u 0, .any, false, "First refusal"⟩,
  ⟨0x3202, 1, 0x01, 1, .f32, .rw, 0, .nv, .f 0x3E800000, .f [(0x3D4CCCCD, 0x40000000, false)], false, "Divergence limit"⟩,
  ⟨0x3202, 1, 0x02, 1, .f32, .rw, 0, .nv, .f 0x42C80000, .f [(0x3F800000, 0x461C4000, false)], false, "Divergence floor"⟩,
  ⟨0x3202, 1, 0x03, 1, .u16, .rw, 0, .nv, .u 150, .u [(10, 3000)], false, "Divergence count limit"⟩,
  ⟨0x3202, 1, 0x04, 1, .u16, .rw, 0, .nv, .u 500, .u [(50, 30000)], false, "Return dwell"⟩,
  ⟨0x3202, 1, 0x05, 1, .bool, .rw, 0, .nv, .u 1, .any, false, "Automatic return"⟩,
  ⟨0x3202, 1, 0x06, 1, .u8, .rw, 0, .nv, .u 3, .u [(1, 10)], false, "Handover limit, window"⟩,
  ⟨0x3202, 1, 0x07, 1, .f32, .rw, 0, .nv, .f 0x44160000, .f [(0x42700000, 0x47A8C000, false)], false, "Handover limit, window"⟩,
  ⟨0x3203, 1, 0x00, 1, .bool, .rw, 0, .vol, .u 0, .any, false, "Return request"⟩,
  ⟨0x3204, 1, 0x01, 3, .u8, .ro, 0, .vol, .u 0, .any, false, "Law sticky flags"⟩,
  ⟨0x3204, 1, 0x04, 1, .u8, .ro, 0, .vol, .u 0, .any, false, "Allocation sticky flags"⟩,
  ⟨0x3205, 1, 0x01, 4, .u32, .ro, 0, .vol, .u 0, .any, false, "Stubble counters"⟩]

/-- Objects of chapter 11. -/
def rows11a : List Row := [
  ⟨0x3400, 1, 0x01, 1, .u8, .rwm, 65, .nv, .u 2, .u [(1, 8)], false, "Confirm frames"⟩,
  ⟨0x3400, 1, 0x02, 1, .f32, .rw, 0, .nv, .f 0x3DCCCCCD, .f [(0x00000000, 0x3F000000, false)], false, "Reserve share"⟩,
  ⟨0x3400, 1, 0x03, 1, .f32, .rw, 0, .nv, .f 0x00000000, .f [(0x00000000, 0x469C4000, false)], false, "Reserve floor"⟩,
  ⟨0x3400, 1, 0x04, 1, .bool, .rw, 0, .nv, .u 0, .any, false, "One-generator reserve"⟩,
  ⟨0x3400, 1, 0x05, 1, .f32, .rw, 0, .nv, .f 0x3D4CCCCD, .f [(0x00000000, 0x3E4CCCCD, false)], false, "Fast margin share"⟩,
  ⟨0x3400, 1, 0x06, 1, .bool, .rwm, 65, .nv, .u 1, .any, false, "Scaling enable"⟩,
  ⟨0x3400, 1, 0x07, 1, .f32, .rw, 0, .nv, .f 0x3F800000, .f [(0x3DCCCCCD, 0x42700000, false)], false, "LR minimum assertion"⟩,
  ⟨0x3400, 1, 0x08, 1, .f32, .rw, 0, .nv, .f 0x40000000, .f [(0x3DCCCCCD, 0x44160000, false)], false, "LR release time"⟩,
  ⟨0x3401, 1, 0x01, 4, .u8, .rwm, 65, .nv, .u 0, .any, false, "LR0-LR3 section mask"⟩,
  ⟨0x3480, 16, 0x01, 1, .u8, .rwm, 65, .nv, .u 255, .u [(0, 7), (255, 255)], false, "Generator section, G0-G15"⟩,
  ⟨0x3480, 16, 0x02, 1, .f32, .rwm, 65, .nv, .f 0x00000000, .f [(0x00000000, 0x47435000, false)], false, "Rated power"⟩,
  ⟨0x3480, 16, 0x03, 1, .f32, .rw, 0, .nv, .f 0x3F800000, .f [(0x3F000000, 0x3F800000, false)], false, "Usable share"⟩,
  ⟨0x3480, 16, 0x04, 2, .u32, .rwm, 65, .nv, .u 0, .bind, false, "Breaker closed, open contact"⟩,
  ⟨0x3480, 16, 0x06, 1, .u32, .rwm, 65, .nv, .u 0, .bind, false, "Ready"⟩,
  ⟨0x34A0, 8, 0x01, 1, .bool, .rwm, 65, .nv, .u 0, .any, false, "Section enable, B0-B7"⟩,
  ⟨0x34A0, 8, 0x02, 1, .u32, .rwm, 65, .nv, .u 0, .bind, false, "Load binding"⟩,
  ⟨0x34A0, 8, 0x03, 1, .f32, .rw, 0, .nv, .f 0x00000000, .f [(0x00000000, 0x47435000, false)], false, "Load estimate"⟩,
  ⟨0x34B0, 8, 0x01, 2, .u8, .rwm, 65, .nv, .u 255, .u [(0, 7), (255, 255)], false, "Tie sections, BT0-BT7"⟩,
  ⟨0x34B0, 8, 0x03, 2, .u32, .rwm, 65, .nv, .u 0, .bind, false, "Breaker closed, open contact"⟩,
  ⟨0x34C0, 32, 0x01, 1, .u8, .rwm, 65, .nv, .u 255, .u [(0, 7), (255, 255)], false, "Feed section, T0-T31"⟩,
  ⟨0x3450, 1, 0x01, 3, .u32, .ro, 0, .vol, .u 0, .any, false, "Counters"⟩]

/-- Objects of chapter 12. -/
def rows12a : List Row := [
  ⟨0x3600, 1, 0x01, 1, .bool, .rwm, 65, .nv, .u 1, .any, false, "Enable"⟩,
  ⟨0x3600, 1, 0x02, 1, .u8, .rw, 0, .nv, .u 15, .any, false, "Systems"⟩,
  ⟨0x3600, 1, 0x03, 1, .u8, .rwm, 65, .nv, .u 3, .u [(1, 3)], false, "Band groups"⟩,
  ⟨0x3600, 1, 0x04, 1, .u8, .rwm, 65, .nv, .u 10, .u [(1, 2), (4, 5), (8, 8), (10, 10), (20, 20), (25, 25), (40, 40), (50, 50)], false, "Measurement rate"⟩,
  ⟨0x3600, 1, 0x05, 1, .f32, .rw, 0, .nv, .f 0x41200000, .f [(0x00000000, 0x42340000, false)], false, "Elevation mask"⟩,
  ⟨0x3600, 1, 0x06, 1, .u8, .rw, 0, .nv, .u 1, .u [(0, 1)], false, "Tracking mode"⟩,
  ⟨0x3600, 1, 0x07, 1, .u8, .rw, 0, .nv, .u 1, .u [(0, 2)], false, "SBAS use"⟩,
  ⟨0x3600, 1, 0x08, 1, .f32, .rw, 0, .nv, .f 0x41200000, .f [(0x00000000, 0x44160000, false)], false, "Return hold"⟩,
  ⟨0x3601, 1, 0x01, 1, .bool, .rwm, 65, .nv, .u 1, .any, true, "Front-end master"⟩,
  ⟨0x3601, 1, 0x02, 1, .dom, .rwm, 65, .nv, .d [], .bytes 0 4096 1, true, "Front-end script"⟩,
  ⟨0x3601, 1, 0x03, 1, .u32, .rwm, 65, .nv, .u 4104, .any, true, "SPI format"⟩,
  ⟨0x3601, 1, 0x04, 1, .f32, .rwm, 65, .nv, .f 0x40A00000, .f [(0x3F800000, 0x41A00000, false)], true, "SPI clock"⟩,
  ⟨0x3601, 1, 0x05, 1, .f32, .rwm, 65, .nv, .f 0x41200000, .f [(0x3F800000, 0x43FA0000, false)], true, "Enable settle"⟩,
  ⟨0x3601, 1, 0x06, 1, .u8, .ro, 0, .vol, .u 0, .any, true, "Front-end faults"⟩,
  ⟨0x3601, 1, 0x08, 8, .f32, .rwm, 65, .nv, .f 0x00000000, .f [(0x00000000, 0x447A0000, false)], true, "Port delay GS0-GS7"⟩,
  ⟨0x3602, 2, 0x01, 1, .f32, .rw, 0, .nv, .f 0x41700000, .f [(0x40000000, 0x42200000, false)], false, "PLL bandwidth, scalar"⟩,
  ⟨0x3602, 2, 0x02, 1, .f32, .rw, 0, .nv, .f 0x40400000, .f [(0x3F800000, 0x41700000, false)], false, "PLL bandwidth, vector residual"⟩,
  ⟨0x3602, 2, 0x03, 1, .f32, .rw, 0, .nv, .f 0x3F000000, .f [(0x3D4CCCCD, 0x40A00000, false)], false, "DLL bandwidth"⟩,
  ⟨0x3602, 2, 0x04, 1, .u8, .rw, 0, .nv, .u 10, .u [(1, 20)], false, "Pilot coherent time"⟩,
  ⟨0x3602, 2, 0x05, 1, .f32, .rw, 0, .nv, .f 0x3DCCCCCD, .f [(0x3D4CCCCD, 0x3F800000, false)], false, "Early-late spacing"⟩,
  ⟨0x3602, 2, 0x06, 1, .u8, .rw, 0, .nv, .u 0, .u [(0, 1)], false, "Discriminator"⟩,
  ⟨0x3602, 2, 0x07, 1, .f32, .rw, 0, .nv, .f 0x41D00000, .f [(0x41700000, 0x42200000, false)], false, "Loss threshold, scalar, vector"⟩,
  ⟨0x3602, 2, 0x08, 1, .f32, .rw, 0, .nv, .f 0x41900000, .f [(0x41700000, 0x42200000, false)], false, "Loss threshold, scalar, vector"⟩,
  ⟨0x3602, 2, 0x09, 1, .f32, .rw, 0, .nv, .f 0x40400000, .f [(0x00000000, 0x41F00000, false)], false, "Vector coast"⟩,
  ⟨0x3604, 1, 0x01, 1, .u8, .rw, 0, .nv, .u 4, .u [(1, 20)], false, "Non-coherent dwells"⟩,
  ⟨0x3604, 1, 0x02, 1, .f32, .rw, 0, .nv, .f 0x437A0000, .f [(0x42480000, 0x459C4000, false)], false, "Aided Doppler window"⟩,
  ⟨0x3604, 1, 0x03, 1, .f32, .rw, 0, .nv, .f 0x41400000, .f [(0x40C00000, 0x41A00000, false)], false, "Detection margin"⟩,
  ⟨0x3604, 1, 0x04, 1, .bool, .rw, 0, .nv, .u 0, .any, false, "Direct L5 acquisition"⟩,
  ⟨0x3608, 1, 0x01, 1, .u8, .rwm, 65, .nv, .u 0, .u [(0, 3)], true, "Reference antenna"⟩,
  ⟨0x3608, 1, 0x02, 12, .f32, .rwm, 65, .nv, .f 0x00000000, .f [(0xC3480000, 0x43480000, false)], true, "Phase centres GA0-GA3"⟩,
  ⟨0x3608, 1, 0x0E, 1, .u8, .rwm, 65, .nv, .u 15, .any, true, "Antennas in array"⟩,
  ⟨0x3608, 1, 0x0F, 1, .f32, .rw, 0, .nv, .f 0x40400000, .f [(0x3FC00000, 0x41A00000, false)], false, "Ratio threshold"⟩,
  ⟨0x3608, 1, 0x10, 1, .f32, .rw, 0, .nv, .f 0x41200000, .f [(0x3F800000, 0x42480000, false)], false, "Baseline tolerance"⟩,
  ⟨0x3608, 1, 0x11, 1, .u8, .rw, 0, .nv, .u 255, .u [(0, 255)], false, "Heading prior stream"⟩,
  ⟨0x3610, 1, 0x01, 1, .f32, .rw, 0, .nv, .f 0x3D4CCCCD, .f [(0x3C23D70A, 0x3E4CCCCD, false)], false, "Coincidence tolerance"⟩,
  ⟨0x3610, 1, 0x02, 1, .f32, .rw, 0, .nv, .f 0x3E19999A, .f [(0x3D4CCCCD, 0x3EE66666, false)], false, "Separation minimum"⟩,
  ⟨0x3610, 1, 0x03, 1, .u8, .rw, 0, .nv, .u 3, .u [(2, 8)], false, "Set size"⟩,
  ⟨0x3610, 1, 0x04, 1, .f32, .rw, 0, .nv, .f 0x40000000, .f [(0x3F000000, 0x41F00000, false)], false, "Spoofing persistence"⟩,
  ⟨0x3610, 1, 0x05, 1, .f32, .rw, 0, .nv, .f 0x3E99999A, .f [(0x3D4CCCCD, 0x40A00000, false)], false, "Velocity inconsistency"⟩,
  ⟨0x3610, 1, 0x06, 1, .f32, .rw, 0, .nv, .f 0x3F000000, .f [(0x3DCCCCCD, 0x41200000, false)], false, "Heading inconsistency"⟩]

/-- Objects of chapter 12. -/
def rows12b : List Row := [
  ⟨0x3610, 1, 0x07, 1, .f32, .rw, 0, .nv, .f 0x3E4CCCCD, .f [(0x3D4CCCCD, 0x3F733333, false)], false, "Duty limits"⟩,
  ⟨0x3610, 1, 0x08, 1, .f32, .rw, 0, .nv, .f 0x3F000000, .f [(0x3D4CCCCD, 0x3F733333, false)], false, "Duty limits"⟩,
  ⟨0x3610, 1, 0x09, 1, .f32, .rw, 0, .nv, .f 0x3DCCCCCD, .f [(0x3C23D70A, 0x41200000, false)], false, "Duty persistence"⟩,
  ⟨0x3610, 1, 0x0A, 1, .f32, .rw, 0, .nv, .f 0x40C00000, .f [(0x40000000, 0x41A00000, false)], false, "C/N0 drop"⟩,
  ⟨0x3610, 1, 0x0B, 1, .f32, .rw, 0, .nv, .f 0x41200000, .f [(0x3F800000, 0x44160000, false)], false, "Jamming clear time"⟩,
  ⟨0x3610, 1, 0x0C, 1, .f32, .rw, 0, .nv, .f 0x3F800000, .f [(0x3DCCCCCD, 0x41F00000, false)], false, "C/N0 persistence"⟩,
  ⟨0x3610, 1, 0x0D, 1, .f32, .rw, 0, .nv, .f 0x42700000, .f [(0x41200000, 0x45610000, false)], false, "Spoofing clear time"⟩,
  ⟨0x3610, 1, 0x0E, 1, .f32, .rw, 0, .nv, .f 0x3727C5AC, .f [(0x322BCC77, 0x3C23D70A, false)], false, "False-alarm probability"⟩,
  ⟨0x3610, 1, 0x0F, 1, .bool, .rw, 0, .nv, .u 0, .any, false, "Automatic spoofing clear"⟩,
  ⟨0x3611, 1, 0x00, 1, .bool, .rw, 0, .vol, .u 0, .any, false, "Spoofing clear"⟩,
  ⟨0x3620, 1, 0x01, 1, .bool, .rw, 0, .vol, .u 0, .any, false, "Capture"⟩,
  ⟨0x3620, 1, 0x02, 1, .u8, .rw, 0, .nv, .u 32, .u [(2, 32)], false, "Duration"⟩,
  ⟨0x3620, 1, 0x03, 1, .f32, .rw, 0, .nv, .f 0x3F000000, .f [(0x00000000, 0x3F800000, false)], false, "Pre-trigger share"⟩,
  ⟨0x3620, 1, 0x04, 1, .u8, .rw, 0, .nv, .u 255, .any, false, "Port mask"⟩,
  ⟨0x3620, 1, 0x05, 1, .u8, .rw, 0, .nv, .u 7, .any, false, "Causes"⟩,
  ⟨0x3620, 1, 0x06, 1, .u8, .rw, 0, .nv, .u 3, .any, false, "Archive causes"⟩,
  ⟨0x3620, 1, 0x07, 1, .f32, .rw, 0, .nv, .f 0x44160000, .f [(0x00000000, 0x00000000, false), (0x42700000, 0x47A8C000, false)], false, "Dormancy interval"⟩,
  ⟨0x3620, 1, 0x08, 1, .f32, .rw, 0, .nv, .f 0x42480000, .f [(0x41A00000, 0x459C4000, false)], false, "Dormancy radius"⟩,
  ⟨0x3620, 1, 0x09, 1, .u8, .rw, 0, .nv, .u 1, .any, false, "Dormancy ports"⟩,
  ⟨0x3621, 1, 0x01, 1, .u16, .rw, 0, .vol, .u 0, .any, true, "Selection"⟩,
  ⟨0x3621, 1, 0x02, 1, .dom, .ro, 0, .vol, .d [], .bytes 0 6291456 1, false, "Snapshot"⟩,
  ⟨0x3621, 1, 0x03, 1, .bool, .rw, 0, .vol, .u 0, .any, true, "Archive selected"⟩,
  ⟨0x3621, 1, 0x04, 1, .bool, .rw, 0, .vol, .u 0, .any, true, "Keep selected"⟩,
  ⟨0x3622, 1, 0x00, 1, .dom, .ro, 0, .vol, .d [], .any, false, "Directory"⟩,
  ⟨0x3645, 1, 0x00, 1, .dom, .ro, 0, .vol, .d [], .any, false, "Navigation records"⟩,
  ⟨0x3670, 1, 0x01, 6, .u32, .ro, 0, .vol, .u 0, .any, false, "Counters"⟩]

/-- Objects of chapter 13. -/
def rows13a : List Row := [
  ⟨0x3800, 1, 0x01, 1, .u8, .rwm, 65, .nv, .u 0, .u [(0, 2)], true, "Reference"⟩,
  ⟨0x3800, 1, 0x02, 1, .f32, .rw, 0, .nv, .f 0x42C80000, .f [(0x3F800000, 0x447A0000, false)], false, "Step threshold"⟩,
  ⟨0x3800, 1, 0x03, 1, .f32, .rw, 0, .nv, .f 0x3F800000, .f [(0x3C23D70A, 0x3F800000, false)], false, "Jump threshold"⟩,
  ⟨0x3800, 1, 0x04, 1, .bool, .rw, 0, .nv, .u 0, .any, false, "Jump in Standby"⟩,
  ⟨0x3800, 1, 0x05, 1, .f32, .rw, 0, .nv, .f 0x44160000, .f [(0x41200000, 0x47A8C000, false)], false, "Holdover limit"⟩,
  ⟨0x3800, 1, 0x06, 1, .f32, .rw, 0, .nv, .f 0x42C80000, .f [(0x41200000, 0x461C4000, false)], false, "Lock threshold"⟩,
  ⟨0x3800, 1, 0x07, 1, .f32, .rw, 0, .nv, .f 0x45610000, .f [(0x44160000, 0x47A8C000, false)], false, "Learning window"⟩,
  ⟨0x3800, 1, 0x09, 1, .f32, .rw, 0, .nv, .f 0x3F000000, .f [(0x3A83126F, 0x3F800000, false)], false, "Halur K_p, K_i"⟩,
  ⟨0x3800, 1, 0x0A, 1, .f32, .rw, 0, .nv, .f 0x3D800000, .f [(0x358637BD, 0x3E800000, false)], false, "Halur K_p, K_i"⟩,
  ⟨0x3801, 1, 0x01, 1, .i16, .ro, 0, .vol, .i (37), .any, false, "TAI - UTC in force"⟩,
  ⟨0x3801, 1, 0x02, 1, .i16, .rw, 0, .nv, .i (37), .i [(0, 100)], false, "TAI - UTC configured"⟩,
  ⟨0x3802, 1, 0x00, 1, .bool, .rw, 0, .vol, .u 0, .any, false, "Accept jump"⟩,
  ⟨0x3810, 8, 0x01, 1, .u8, .rwm, 65, .nv, .u 0, .u [(0, 4)], true, "Kind, entries 0-7"⟩,
  ⟨0x3810, 8, 0x02, 1, .u32, .rwm, 65, .nv, .u 0, .any, false, "Address"⟩,
  ⟨0x3810, 8, 0x03, 1, .f32, .rw, 0, .nv, .f 0x00000000, .f [(0x00000000, 0x461C4000, false)], false, "Cable delay"⟩,
  ⟨0x3810, 8, 0x04, 1, .f32, .rw, 0, .nv, .f 0x3DCCCCCD, .f [(0x3A83126F, 0x3F800000, false)], false, "K_p, K_i"⟩,
  ⟨0x3810, 8, 0x05, 1, .f32, .rw, 0, .nv, .f 0x3B23D70A, .f [(0x358637BD, 0x3E800000, false)], false, "K_p, K_i"⟩,
  ⟨0x3810, 8, 0x06, 1, .bool, .rw, 0, .nv, .u 1, .any, false, "Enable"⟩,
  ⟨0x3820, 2, 0x01, 1, .f32, .rw, 0, .nv, .f 0x42C80000, .f [(0x3C23D70A, 0x43FA0000, false)], true, "PPS_OUT0, 1 width"⟩,
  ⟨0x3820, 2, 0x02, 1, .f32, .rw, 0, .nv, .f 0x00000000, .f [(0x00000000, 0x47C35000, false)], false, "Advance"⟩,
  ⟨0x3820, 2, 0x03, 1, .u8, .rw, 0, .nv, .u 0, .u [(0, 2)], false, "Squelch"⟩,
  ⟨0x3820, 2, 0x04, 1, .bool, .rw, 0, .nv, .u 0, .any, false, "Polarity"⟩,
  ⟨0x3822, 1, 0x00, 1, .bool, .rw, 0, .nv, .u 1, .any, true, "REFOUT enable"⟩,
  ⟨0x3830, 1, 0x01, 1, .u8, .rwm, 65, .nv, .u 0, .u [(0, 3)], false, "PTP profile"⟩,
  ⟨0x3830, 1, 0x02, 1, .u8, .rwm, 65, .nv, .u 0, .u [(0, 1)], false, "Clock type"⟩,
  ⟨0x3830, 1, 0x03, 1, .u8, .rwm, 65, .nv, .u 0, .u [(0, 127)], false, "Domain"⟩,
  ⟨0x3830, 1, 0x04, 1, .u8, .rwm, 65, .nv, .u 0, .u [(0, 1)], false, "Transport"⟩,
  ⟨0x3830, 1, 0x05, 1, .u8, .rw, 0, .nv, .u 128, .u [(0, 255)], false, "priority1, priority2 base"⟩,
  ⟨0x3830, 1, 0x06, 1, .u8, .rw, 0, .nv, .u 120, .u [(0, 255)], false, "priority1, priority2 base"⟩,
  ⟨0x3830, 1, 0x07, 1, .bool, .rw, 0, .nv, .u 0, .any, false, "Slave only"⟩,
  ⟨0x3830, 1, 0x08, 1, .i8, .rwm, 65, .nv, .i (-3), .i [(-7, 4)], false, "Log intervals: Sync, Announce, delay request"⟩,
  ⟨0x3830, 1, 0x09, 2, .i8, .rwm, 65, .nv, .i (0), .i [(-7, 4)], false, "Log intervals: Sync, Announce, delay request"⟩,
  ⟨0x3830, 1, 0x0B, 1, .u8, .rwm, 65, .nv, .u 15, .any, false, "Boundary ports"⟩,
  ⟨0x3860, 1, 0x01, 8, .f32, .rwm, 65, .nv, .f 0x00000000, .f [(0x00000000, 0x44FA0000, false)], true, "PHY latency, receive N0-N3, transmit N0-N3"⟩,
  ⟨0x3868, 1, 0x01, 1, .u8, .rwm, 65, .nv, .u 0, .any, false, "CAN time master"⟩,
  ⟨0x3868, 1, 0x02, 1, .f32, .rwm, 65, .nv, .f 0x3F800000, .f [(0x3DCCCCCD, 0x42C80000, false)], false, "NTU"⟩,
  ⟨0x3868, 1, 0x03, 1, .u8, .rwm, 65, .nv, .u 8, .u [(1, 200)], false, "Basic cycle"⟩,
  ⟨0x3841, 1, 0x01, 7, .u32, .ro, 0, .vol, .u 0, .any, false, "Counters"⟩,
  ⟨0x3842, 1, 0x01, 4, .bool, .ro, 0, .vol, .u 0, .any, false, "Queue overflow N0-N3"⟩]

/-- Objects of chapter 14. -/
def rows14a : List Row := [
  ⟨0x3A00, 32, 0x01, 1, .u8, .rwm, 65, .nv, .u 0, .u [(0, 3)], false, "Mode"⟩,
  ⟨0x3A00, 32, 0x02, 1, .u8, .rwm, 65, .nv, .u 4, .u [(1, 255)], true, "Filter length"⟩,
  ⟨0x3A00, 32, 0x03, 1, .u8, .rwm, 65, .nv, .u 4, .u [(1, 2), (4, 4)], false, "Resolution"⟩,
  ⟨0x3A00, 32, 0x04, 1, .bool, .rwm, 65, .nv, .u 0, .any, false, "Invert"⟩,
  ⟨0x3A00, 32, 0x05, 1, .u8, .rwm, 65, .nv, .u 13, .u [(10, 32)], false, "Frame bits"⟩,
  ⟨0x3A00, 32, 0x06, 1, .u8, .rwm, 65, .nv, .u 0, .u [(0, 3)], false, "Status bits"⟩,
  ⟨0x3A00, 32, 0x07, 1, .u8, .rwm, 65, .nv, .u 0, .u [(0, 1)], false, "Code"⟩,
  ⟨0x3A00, 32, 0x08, 1, .f32, .rwm, 65, .nv, .f 0x3F800000, .f [(0x3DCCCCCD, 0x40000000, false)], false, "SSI clock"⟩,
  ⟨0x3A00, 32, 0x09, 1, .u8, .rwm, 65, .nv, .u 10, .u [(1, 2), (5, 5), (10, 10)], false, "Reads per frame"⟩,
  ⟨0x3A00, 32, 0x0A, 1, .f32, .rwm, 65, .nv, .f 0x41A00000, .f [(0x40A00000, 0x42700000, false)], false, "Monoflop"⟩,
  ⟨0x3A00, 32, 0x0B, 1, .u8, .rwm, 65, .nv, .u 0, .any, false, "Status error mask"⟩,
  ⟨0x3A00, 32, 0x0C, 1, .u8, .rwm, 65, .nv, .u 0, .u [(0, 1)], true, "SSI clock role"⟩,
  ⟨0x3A00, 32, 0x0D, 1, .u8, .rwm, 65, .nv, .u 0, .u [(0, 1)], false, "Range mode"⟩,
  ⟨0x3A00, 32, 0x0E, 1, .f32, .rwm, 65, .nv, .f 0x3F800000, .nonzero, false, "Scale"⟩,
  ⟨0x3A00, 32, 0x0F, 1, .u32, .rwm, 65, .nv, .u 8192, .u [(4, 4294967295)], false, "Modulus M"⟩,
  ⟨0x3A00, 32, 0x10, 1, .f32, .rwm, 65, .nv, .f 0x00000000, .f [(0xC9742400, 0x49742400, false)], false, "Offset"⟩,
  ⟨0x3A00, 32, 0x11, 1, .i32, .rwm, 65, .nv, .i (-2147483648), .any, false, "Soft limits, min, max"⟩,
  ⟨0x3A00, 32, 0x12, 1, .i32, .rwm, 65, .nv, .i (2147483647), .any, false, "Soft limits, min, max"⟩,
  ⟨0x3A00, 32, 0x13, 1, .u8, .rwm, 65, .nv, .u 0, .u [(0, 3)], false, "Home source"⟩,
  ⟨0x3A00, 32, 0x14, 1, .u8, .rwm, 65, .nv, .u 0, .u [(0, 15)], false, "Home M input"⟩,
  ⟨0x3A00, 32, 0x15, 1, .i32, .rwm, 65, .nv, .i (0), .any, false, "Home count"⟩,
  ⟨0x3A00, 32, 0x16, 1, .bool, .rw, 0, .vol, .u 0, .any, false, "Home arm"⟩,
  ⟨0x3A00, 32, 0x17, 1, .f32, .rw, 0, .nv, .f 0x42480000, .f [(0x3F800000, 0x43FA0000, false)], false, "Bandwidth B"⟩,
  ⟨0x3A00, 32, 0x18, 1, .f32, .rw, 0, .nv, .f 0x3F800000, .nonzero, false, "Speed full scale"⟩,
  ⟨0x3A00, 32, 0x19, 1, .u32, .rw, 0, .nv, .u 256, .u [(1, 2147483648)], false, "Plausibility limit"⟩,
  ⟨0x3A00, 32, 0x1A, 1, .f32, .rw, 0, .nv, .f 0x3DCCCCCD, .f [(0x00000000, 0x49742400, false)], false, "Direction deadband"⟩,
  ⟨0x3A00, 32, 0x1B, 1, .bool, .rw, 0, .nv, .u 0, .any, false, "Direction events"⟩,
  ⟨0x3A00, 32, 0x1C, 1, .u16, .rw, 0, .nv, .u 100, .u [(1, 65535)], false, "Illegal limit"⟩,
  ⟨0x3A20, 32, 0x01, 4, .f32, .rw, 0, .vol, .f 0x00000000, .any, false, "Compare position CP0-CP3"⟩,
  ⟨0x3A20, 32, 0x05, 4, .u16, .rw, 0, .vol, .u 0, .any, false, "Compare mode CP0-CP3"⟩,
  ⟨0x3A20, 32, 0x0D, 1, .f32, .rw, 0, .nv, .f 0x3F800000, .f [(0x3C23D70A, 0x447A0000, false)], false, "Output width"⟩,
  ⟨0x3A20, 32, 0x0E, 4, .time64, .ro, 0, .vol, .u 0, .any, false, "Fire time CP0-CP3"⟩,
  ⟨0x3A40, 16, 0x01, 1, .f32, .rwm, 65, .nv, .f 0x3F800000, .f [(0x3C23D70A, 0x42C80000, false)], true, "Filter time, M0-M15"⟩,
  ⟨0x3A40, 16, 0x02, 1, .bool, .rwm, 65, .nv, .u 1, .any, true, "Active level"⟩,
  ⟨0x3A40, 16, 0x03, 1, .time64, .ro, 0, .vol, .u 0, .any, false, "Last change"⟩,
  ⟨0x3A90, 1, 0x01, 32, .u8, .ro, 0, .vol, .u 0, .any, false, "Sticky flags"⟩,
  ⟨0x3A91, 1, 0x01, 32, .u32, .ro, 0, .vol, .u 0, .any, false, "Illegal transitions"⟩,
  ⟨0x3A92, 1, 0x01, 32, .u32, .ro, 0, .vol, .u 0, .any, false, "Direction changes"⟩,
  ⟨0x3A93, 1, 0x01, 32, .u16, .ro, 0, .vol, .u 0, .any, false, "Compare status"⟩]

/-- Objects of chapter 15. -/
def rows15a : List Row := [
  ⟨0x4400, 16, 0x01, 1, .u8, .rwm, 65, .nv, .u 0, .u [(0, 2)], true, "Port mode"⟩,
  ⟨0x4400, 16, 0x02, 1, .u32, .rwm, 65, .nv, .u 4800, .u [(4800, 4800), (9600, 9600), (19200, 19200), (38400, 38400), (57600, 57600), (115200, 115200), (230400, 230400), (460800, 460800), (921600, 921600)], true, "Rate"⟩,
  ⟨0x4400, 16, 0x03, 1, .u8, .rwm, 65, .nv, .u 0, .any, true, "Format"⟩,
  ⟨0x4400, 16, 0x04, 1, .u8, .rwm, 65, .nv, .u 0, .u [(0, 2)], true, "Line mode"⟩,
  ⟨0x4400, 16, 0x05, 1, .f32, .rw, 0, .nv, .f 0x41200000, .f [(0x00000000, 0x447A0000, false)], true, "DE lead"⟩,
  ⟨0x4400, 16, 0x06, 1, .u8, .rw, 0, .nv, .u 1, .u [(0, 16)], true, "DE tail"⟩,
  ⟨0x4400, 16, 0x07, 1, .bool, .rw, 0, .nv, .u 1, .any, true, "Checksum required"⟩,
  ⟨0x4400, 16, 0x08, 1, .u8, .rwm, 65, .nv, .u 0, .u [(0, 2)], true, "Raw delimiting"⟩,
  ⟨0x4400, 16, 0x09, 1, .u32, .rwm, 65, .nv, .u 0, .any, true, "Sync pattern, length"⟩,
  ⟨0x4400, 16, 0x0A, 1, .u8, .rwm, 65, .nv, .u 1, .u [(1, 4)], true, "Sync pattern, length"⟩,
  ⟨0x4400, 16, 0x0B, 1, .u16, .rwm, 65, .nv, .u 16, .u [(4, 256)], true, "Frame length"⟩,
  ⟨0x4400, 16, 0x0C, 1, .u8, .rwm, 65, .nv, .u 0, .u [(0, 255)], true, "Length offset, adder"⟩,
  ⟨0x4400, 16, 0x0D, 1, .i16, .rwm, 65, .nv, .i (0), .i [(-255, 255)], true, "Length offset, adder"⟩,
  ⟨0x4400, 16, 0x0E, 1, .u8, .rwm, 65, .nv, .u 3, .u [(2, 255)], true, "Idle gap"⟩,
  ⟨0x4400, 16, 0x0F, 1, .u8, .rwm, 65, .nv, .u 0, .u [(0, 4)], true, "Check kind, start"⟩,
  ⟨0x4400, 16, 0x10, 1, .u8, .rwm, 65, .nv, .u 0, .u [(0, 255)], true, "Check kind, start"⟩,
  ⟨0x4420, 16, 0x00, 1, .dom, .wo, 0, .vol, .d [], .bytes 0 256 1, true, "Transmit"⟩,
  ⟨0x4430, 64, 0x01, 1, .bool, .rw, 0, .nv, .u 0, .any, false, "Intake enable"⟩,
  ⟨0x4430, 64, 0x02, 1, .u32, .rwm, 65, .nv, .u 0xEFC00001, .u [(0xE0000000, 0xEFFFFFFF)], false, "Group address"⟩,
  ⟨0x4430, 64, 0x03, 1, .u16, .rwm, 65, .nv, .u 60001, .u [(1, 65535)], false, "UDP port"⟩,
  ⟨0x4430, 64, 0x04, 1, .u8, .rwm, 65, .nv, .u 15, .any, false, "Ethernet ports"⟩,
  ⟨0x4430, 64, 0x05, 1, .str, .rw, 0, .nv, .d [], .bytes 0 6 1, false, "Source filter"⟩,
  ⟨0x4470, 2, 0x01, 1, .bool, .rwm, 65, .nv, .u 0, .any, true, "IMU enable"⟩,
  ⟨0x4470, 2, 0x02, 1, .f32, .rwm, 65, .nv, .f 0x40800000, .f [(0x3F000000, 0x41800000, false)], true, "SPI clock, mode"⟩,
  ⟨0x4470, 2, 0x03, 1, .u8, .rwm, 65, .nv, .u 3, .u [(0, 3)], true, "SPI clock, mode"⟩,
  ⟨0x4470, 2, 0x04, 1, .u8, .rwm, 65, .nv, .u 0, .u [(0, 1)], true, "DRDY edge"⟩,
  ⟨0x4470, 2, 0x05, 1, .f32, .rw, 0, .nv, .f 0x00000000, .f [(0x00000000, 0x42C80000, false)], true, "Latency"⟩,
  ⟨0x4470, 2, 0x06, 1, .u32, .rwm, 65, .nv, .u 0, .any, true, "Command, length"⟩,
  ⟨0x4470, 2, 0x07, 1, .u8, .rwm, 65, .nv, .u 0, .u [(0, 4)], true, "Command, length"⟩,
  ⟨0x4470, 2, 0x08, 1, .u8, .rwm, 65, .nv, .u 16, .u [(1, 64)], true, "Data length"⟩,
  ⟨0x4470, 2, 0x09, 1, .f32, .rwm, 65, .nv, .f 0x42C80000, .f [(0x3F800000, 0x44FA0000, false)], true, "Nominal rate"⟩,
  ⟨0x4470, 2, 0x0A, 1, .u8, .rwm, 65, .nv, .u 0, .u [(0, 4)], true, "Check kind"⟩,
  ⟨0x4470, 2, 0x0B, 7, .u32, .rwm, 65, .nv, .u 0, .mask 0xF000FFFF, true, "Field maps"⟩,
  ⟨0x4470, 2, 0x12, 7, .f32, .rwm, 65, .nv, .f 0x3F800000, .f [(0xC9742400, 0x49742400, false)], true, "Field scales"⟩,
  ⟨0x4480, 16, 0x01, 1, .u8, .rwm, 65, .nv, .u 0, .u [(0, 3)], true, "Analog range"⟩,
  ⟨0x4490, 16, 0x01, 6, .u32, .ro, 0, .vol, .u 0, .any, false, "Port counters"⟩,
  ⟨0x44B0, 1, 0x01, 4, .u32, .ro, 0, .vol, .u 0, .any, false, "Intake counters"⟩,
  ⟨0x44B8, 2, 0x01, 3, .u32, .ro, 0, .vol, .u 0, .any, false, "IMU counters"⟩,
  ⟨0x4E00, 24, 0x01, 1, .u8, .rwm, 65, .nv, .u 0, .u [(0, 2)], true, "Direction"⟩,
  ⟨0x4E00, 24, 0x02, 1, .u8, .rwm, 65, .nv, .u 0, .u [(0, 2)], true, "Owner"⟩]

/-- Objects of chapter 15. -/
def rows15b : List Row := [
  ⟨0x4E00, 24, 0x03, 1, .f32, .rwm, 65, .nv, .f 0x3F800000, .f [(0x3C23D70A, 0x42C80000, false)], true, "Filter time"⟩,
  ⟨0x4E00, 24, 0x04, 1, .u8, .rwm, 65, .nv, .u 0, .u [(0, 3)], true, "Fail level"⟩,
  ⟨0x4E00, 24, 0x05, 1, .bool, .rwm, 65, .nv, .u 1, .any, true, "Lead only"⟩,
  ⟨0x4E00, 24, 0x06, 1, .time64, .ro, 0, .vol, .u 0, .any, true, "Last change"⟩,
  ⟨0x4E20, 8, 0x01, 1, .u8, .rwm, 65, .nv, .u 0, .u [(0, 5)], true, "SAFE meaning"⟩,
  ⟨0x4E40, 1, 0x00, 1, .u32, .rw, 0, .vol, .u 0, .any, false, "Output command"⟩,
  ⟨0x4E41, 1, 0x00, 1, .u8, .rw, 0, .vol, .u 0, .any, false, "SAFE permit"⟩]

/-- Objects of chapter 16. -/
def rows16a : List Row := [
  ⟨0x3C00, 1, 0x01, 1, .u8, .rwm, 65, .nv, .u 8, .u [(4, 200)], false, "Scan length S"⟩,
  ⟨0x3C00, 1, 0x02, 1, .bool, .rwm, 65, .nv, .u 1, .any, false, "Run"⟩,
  ⟨0x3C00, 1, 0x04, 1, .f32, .rw, 0, .nv, .f 0x3F800000, .f [(0x3DCCCCCD, 0x42700000, false)], false, "Retain interval"⟩,
  ⟨0x3C01, 1, 0x00, 1, .dom, .rwm, 127, .nv, .d [], .bytes 0 2097152 1, false, "Program image"⟩,
  ⟨0x3C02, 1, 0x01, 1, .u32, .ro, 0, .nv, .u 0, .any, false, "Loaded version"⟩,
  ⟨0x3C02, 1, 0x02, 1, .u64, .ro, 0, .nv, .u 0, .any, false, "Loaded digest"⟩,
  ⟨0x3C02, 1, 0x03, 1, .u32, .ro, 0, .vol, .u 0, .any, false, "First refusal"⟩,
  ⟨0x3C02, 1, 0x04, 1, .u64, .ro, 0, .nv, .u 0, .any, false, "Program identifier"⟩,
  ⟨0x3C03, 1, 0x00, 1, .u8, .rwm, 65, .vol, .u 0, .u [(0, 2)], false, "Restart"⟩,
  ⟨0x3C10, 1, 0x00, 1, .dom, .rw, 0, .vol, .d [], .bytes 0 1024 16, false, "Force list"⟩,
  ⟨0x3C20, 1, 0x00, 1, .u64, .rw, 0, .vol, .u 0, .any, true, "Inspected identifier"⟩,
  ⟨0x3C50, 1, 0x01, 4, .u32, .ro, 0, .vol, .u 0, .any, false, "Counters"⟩,
  ⟨0x3C51, 1, 0x00, 1, .bool, .ro, 0, .vol, .u 0, .any, false, "Arithmetic sticky"⟩]

/-- Objects of chapter 17. -/
def rows17a : List Row := [
  ⟨0x3E00, 1, 0x01, 1, .u8, .rwm, 65, .nv, .u 128, .u [(0, 255)], true, "Priority"⟩,
  ⟨0x3E00, 1, 0x02, 1, .u8, .rwm, 65, .nv, .u 2, .u [(1, 3)], false, "Units"⟩,
  ⟨0x3E00, 1, 0x03, 1, .u16, .rwm, 65, .nv, .u 400, .u [(80, 8000)], true, "Join wait"⟩,
  ⟨0x3E00, 1, 0x04, 1, .u8, .rwm, 65, .nv, .u 0, .u [(0, 4)], true, "Field-network watch"⟩,
  ⟨0x3E00, 1, 0x05, 1, .u8, .rw, 0, .nv, .u 8, .u [(1, 255)], false, "Mirror miss limit"⟩,
  ⟨0x3E01, 1, 0x01, 1, .u16, .ro, 0, .nv, .u 0, .any, true, "Lead epoch"⟩,
  ⟨0x3E01, 1, 0x02, 1, .u8, .ro, 0, .vol, .u 0, .u [(0, 3)], false, "Unit number"⟩,
  ⟨0x3E01, 1, 0x03, 1, .u32, .ro, 0, .vol, .u 0, .any, false, "Largest full mirror"⟩,
  ⟨0x3E20, 1, 0x00, 1, .u8, .rwm, 127, .vol, .u 255, .u [(0, 2)], false, "Hand Lead to unit"⟩,
  ⟨0x3E50, 1, 0x01, 6, .u32, .ro, 0, .vol, .u 0, .any, false, "Counters"⟩]

/-- Objects of chapter 18. -/
def rows18a : List Row := [
  ⟨0x4000, 1, 0x01, 1, .u32, .rwm, 65, .nv, .u 0, .any, true, "Address, prefix A"⟩,
  ⟨0x4000, 1, 0x02, 1, .u8, .rwm, 65, .nv, .u 24, .u [(8, 30)], true, "Address, prefix A"⟩,
  ⟨0x4000, 1, 0x03, 1, .u32, .rwm, 65, .nv, .u 0, .any, true, "Address, prefix B"⟩,
  ⟨0x4000, 1, 0x04, 1, .u8, .rwm, 65, .nv, .u 24, .u [(8, 30)], true, "Address, prefix B"⟩,
  ⟨0x4000, 1, 0x05, 1, .u32, .rwm, 65, .nv, .u 0xEFC02F01, .u [(0xE0000000, 0xEFFFFFFF)], false, "KPP group"⟩,
  ⟨0x4000, 1, 0x06, 1, .u16, .rwm, 65, .nv, .u 47112, .u [(1, 65535)], false, "KPP port"⟩,
  ⟨0x4000, 1, 0x07, 1, .u16, .rwm, 65, .nv, .u 47113, .u [(1, 65535)], false, "KDP port"⟩,
  ⟨0x4000, 1, 0x08, 1, .u16, .rwm, 65, .nv, .u 1, .u [(1, 4094)], false, "VLAN"⟩,
  ⟨0x4000, 1, 0x09, 1, .u8, .rwm, 65, .nv, .u 6, .u [(0, 7)], false, "KPP priority"⟩,
  ⟨0x4000, 1, 0x0A, 1, .f32, .rw, 0, .nv, .f 0x42700000, .f [(0x40A00000, 0x45610000, false)], false, "KDP idle timeout"⟩,
  ⟨0x4000, 1, 0x0B, 1, .u8, .konst, 0, .fac, .u 8, .any, false, "KDP sessions"⟩,
  ⟨0x4000, 1, 0x0C, 1, .u8, .rw, 0, .nv, .u 8, .u [(2, 80)], false, "Network loss frames"⟩,
  ⟨0x4001, 4, 0x01, 1, .bool, .rwm, 65, .nv, .u 1, .any, true, "Port enable, N0-N3"⟩,
  ⟨0x4001, 1, 0x02, 1, .u8, .rwm, 65, .nv, .u 0, .u [(0, 1)], true, "Network"⟩,
  ⟨0x4002, 1, 0x02, 1, .u8, .rwm, 65, .nv, .u 0, .u [(0, 1)], true, "Network"⟩,
  ⟨0x4003, 1, 0x02, 1, .u8, .rwm, 65, .nv, .u 1, .u [(0, 1)], true, "Network"⟩,
  ⟨0x4004, 1, 0x02, 1, .u8, .rwm, 65, .nv, .u 1, .u [(0, 1)], true, "Network"⟩,
  ⟨0x4001, 1, 0x03, 1, .u8, .rwm, 65, .nv, .u 0, .u [(0, 31)], true, "PHY address"⟩,
  ⟨0x4002, 1, 0x03, 1, .u8, .rwm, 65, .nv, .u 1, .u [(0, 31)], true, "PHY address"⟩,
  ⟨0x4003, 1, 0x03, 1, .u8, .rwm, 65, .nv, .u 2, .u [(0, 31)], true, "PHY address"⟩,
  ⟨0x4004, 1, 0x03, 1, .u8, .rwm, 65, .nv, .u 3, .u [(0, 31)], true, "PHY address"⟩,
  ⟨0x4001, 4, 0x04, 1, .f32, .rwm, 65, .nv, .f 0x41200000, .f [(0x3F800000, 0x447A0000, false)], true, "PHY reset release"⟩,
  ⟨0x4010, 1, 0x00, 1, .dom, .rwm, 65, .nv, .d gate0, .bytes 0 128 8, true, "Gate control list"⟩,
  ⟨0x4020, 1, 0x00, 1, .dom, .rwm, 65, .nv, .d [], .bytes 0 131072 32, false, "Node table"⟩,
  ⟨0x4021, 1, 0x00, 1, .u16, .rw, 0, .vol, .u 0, .u [(0, 4095)], true, "Inspected node"⟩,
  ⟨0x4030, 1, 0x00, 1, .dom, .rwm, 65, .nv, .d [], .bytes 0 4096 8, false, "Transmit map"⟩,
  ⟨0x4031, 1, 0x01, 8, .u16, .rwm, 65, .nv, .u 16, .u [(1, 800)], false, "Record divisors"⟩,
  ⟨0x4032, 1, 0x00, 1, .dom, .rwm, 65, .nv, .d [], .bytes 0 4096 8, false, "Receive map"⟩,
  ⟨0x4050, 1, 0x01, 8, .u32, .ro, 0, .vol, .u 0, .any, false, "Counters"⟩]

/-- Objects of chapter 19. -/
def rows19a : List Row := [
  ⟨0x4200, 4, 0x01, 1, .bool, .rwm, 65, .nv, .u 0, .any, true, "Enable, CAN0-CAN3"⟩,
  ⟨0x4200, 4, 0x02, 1, .u8, .rwm, 65, .nv, .u 0, .u [(0, 2)], true, "Operating mode"⟩,
  ⟨0x4200, 4, 0x03, 1, .u16, .rwm, 65, .nv, .u 1, .u [(1, 32)], true, "Nominal P, S1, S2, SJW"⟩,
  ⟨0x4200, 4, 0x04, 1, .u16, .rwm, 65, .nv, .u 127, .u [(2, 256)], true, "Nominal P, S1, S2, SJW"⟩,
  ⟨0x4200, 4, 0x05, 2, .u16, .rwm, 65, .nv, .u 32, .u [(1, 128)], true, "Nominal P, S1, S2, SJW"⟩,
  ⟨0x4200, 4, 0x07, 1, .u16, .rwm, 65, .nv, .u 1, .u [(1, 32)], true, "Data P, S1, S2, SJW"⟩,
  ⟨0x4200, 4, 0x08, 1, .u16, .rwm, 65, .nv, .u 29, .u [(1, 32)], true, "Data P, S1, S2, SJW"⟩,
  ⟨0x4200, 4, 0x09, 2, .u16, .rwm, 65, .nv, .u 10, .u [(1, 16)], true, "Data P, S1, S2, SJW"⟩,
  ⟨0x4200, 4, 0x0B, 1, .bool, .rwm, 65, .nv, .u 1, .any, true, "FD with bit-rate switch"⟩,
  ⟨0x4200, 4, 0x0C, 1, .f32, .rw, 0, .nv, .f 0x41200000, .f [(0x3F800000, 0x447A0000, false)], true, "Bus-off recovery delay"⟩,
  ⟨0x4200, 4, 0x0D, 1, .bool, .rw, 0, .vol, .u 0, .any, true, "Restart"⟩,
  ⟨0x4210, 4, 0x00, 1, .dom, .rwm, 65, .nv, .d [], .bytes 0 2304 12, true, "Filter list"⟩,
  ⟨0x4220, 1, 0x01, 1, .u16, .rwm, 65, .nv, .u 16, .u [(1, 2044)], false, "Unit status identifier base"⟩,
  ⟨0x4220, 1, 0x02, 1, .u16, .rwm, 65, .nv, .u 1, .u [(1, 2047)], false, "Reference message identifier"⟩,
  ⟨0x4220, 1, 0x03, 1, .u8, .rwm, 65, .nv, .u 64, .u [(1, 2), (4, 4), (8, 8), (16, 16), (32, 32), (64, 64)], false, "Cycle count modulus"⟩,
  ⟨0x4280, 4, 0x01, 6, .u32, .ro, 0, .vol, .u 0, .any, false, "Counters"⟩,
  ⟨0x4240, 32, 0x01, 1, .u8, .rwm, 65, .nv, .u 0, .any, false, "Controllers"⟩,
  ⟨0x4240, 32, 0x02, 1, .u32, .rwm, 65, .nv, .u 0, .any, false, "Command identifier"⟩,
  ⟨0x4240, 32, 0x03, 1, .u32, .rwm, 65, .nv, .u 0, .any, false, "Feedback identifier"⟩,
  ⟨0x4240, 32, 0x04, 1, .u16, .rwm, 65, .nv, .u 65535, .u [(0, 4091), (65535, 65535)], false, "Node ID"⟩,
  ⟨0x4240, 32, 0x05, 1, .u16, .rwm, 65, .nv, .u 100, .u [(10, 1000)], false, "Drive timeout"⟩,
  ⟨0x4240, 32, 0x06, 1, .u8, .rwm, 65, .nv, .u 1, .u [(0, 3)], false, "Fail action"⟩]

/-- Objects of chapter 20. -/
def rows20a : List Row := [
  ⟨0x4600, 1, 0x01, 1, .u8, .rwm, 65, .nv, .u 0, .u [(0, 1)], false, "Policy"⟩,
  ⟨0x4601, 1, 0x01, 3, .u32, .ro, 0, .vol, .u 0, .any, true, "Oldest, newest, held"⟩,
  ⟨0x4601, 1, 0x04, 1, .u32, .ro, 0, .nv, .u 0, .any, true, "Records discarded"⟩,
  ⟨0x4601, 1, 0x05, 1, .u16, .ro, 0, .nv, .u 0, .any, true, "Blocks retired"⟩,
  ⟨0x4601, 1, 0x06, 1, .u64, .ro, 0, .nv, .u 0, .any, true, "Records written"⟩,
  ⟨0x4601, 1, 0x07, 1, .u32, .ro, 0, .nv, .u 0, .any, true, "Largest erase count"⟩,
  ⟨0x4620, 1, 0x01, 1, .u32, .rw, 0, .vol, .u 0, .any, true, "Cursor"⟩,
  ⟨0x4620, 1, 0x02, 1, .dom, .ro, 0, .vol, .d [], .bytes 0 65536 1, true, "Records"⟩,
  ⟨0x4630, 1, 0x01, 1, .u64, .ro, 0, .vol, .u 0, .any, true, "Challenge"⟩,
  ⟨0x4630, 1, 0x02, 1, .dom, .wo, 0, .vol, .d [], .bytes 0 162 1, true, "Clearing token"⟩,
  ⟨0x4631, 1, 0x00, 1, .dom, .ro, 0, .nv, .d [], .bytes 0 10240 40, true, "Clear register"⟩,
  ⟨0x4800, 1, 0x01, 2, .dom, .ro, 0, .fac, .d [], .bytes 0 16777216 1, true, "Device, device CA certificate"⟩,
  ⟨0x4810, 1, 0x00, 1, .dom, .rw, 0, .nv, .d [], .bytes 0 16777216 1, true, "Owner CA certificate"⟩,
  ⟨0x4811, 1, 0x00, 1, .dom, .rw, 0, .nv, .d [], .bytes 0 65536 1, true, "Revocation list"⟩,
  ⟨0x4820, 1, 0x01, 1, .u8, .ro, 0, .vol, .u 0, .u [(0, 1)], true, "Running slot"⟩,
  ⟨0x4820, 1, 0x02, 1, .u8, .rwm, 65, .nv, .u 0, .u [(0, 1)], true, "Next boot slot"⟩,
  ⟨0x4820, 1, 0x03, 1, .u16, .ro, 0, .fac, .u 0, .u [(0, 255)], true, "Anti-rollback counter"⟩,
  ⟨0x4820, 1, 0x04, 1, .bool, .wo, 0, .vol, .u 0, .u [(1, 1)], true, "Commit"⟩,
  ⟨0x4821, 1, 0x01, 2, .dom, .rwm, 65, .nv, .d [], .bytes 0 67108864 1, true, "Slot A, B image"⟩,
  ⟨0x4830, 1, 0x01, 1, .u8, .rw, 0, .nv, .u 0, .u [(0, 1)], true, "Tamper response"⟩,
  ⟨0x4830, 1, 0x02, 1, .bool, .rw, 0, .vol, .u 0, .any, true, "Tamper clear"⟩,
  ⟨0x4830, 1, 0x03, 1, .u8, .ro, 0, .vol, .u 0, .any, true, "Tamper state"⟩]

/-- Objects of chapter 21. -/
def rows21a : List Row := [
  ⟨0x4A00, 1, 0x01, 1, .f32, .rw, 0, .nv, .f 0x41F00000, .f [(0x41200000, 0x41F00000, false)], true, "Power budget B"⟩,
  ⟨0x4A00, 1, 0x02, 1, .f32, .rw, 0, .nv, .f 0x42BE0000, .f [(0x42700000, 0x42C80000, false)], true, "Case raise, release"⟩,
  ⟨0x4A00, 1, 0x03, 1, .f32, .rw, 0, .nv, .f 0x42B80000, .f [(0x42700000, 0x42C80000, false)], true, "Case raise, release"⟩,
  ⟨0x4A00, 1, 0x04, 1, .f32, .rw, 0, .nv, .f 0x42DC0000, .f [(0x42A00000, 0x42F00000, false)], true, "Die raise, release"⟩,
  ⟨0x4A00, 1, 0x05, 1, .f32, .rw, 0, .nv, .f 0x42D20000, .f [(0x42A00000, 0x42F00000, false)], true, "Die raise, release"⟩,
  ⟨0x4A00, 1, 0x06, 1, .f32, .rw, 0, .nv, .f 0x40000000, .f [(0x3F800000, 0x41200000, false)], true, "Power release margin"⟩,
  ⟨0x4A00, 1, 0x07, 1, .f32, .rw, 0, .nv, .f 0x3F800000, .f [(0x3F000000, 0x40A00000, false)], true, "Power raise margin"⟩,
  ⟨0x4A00, 1, 0x08, 1, .f32, .rw, 0, .nv, .f 0x41200000, .f [(0x3F800000, 0x44160000, false)], true, "Release time"⟩,
  ⟨0x4A00, 1, 0x09, 1, .u16, .rw, 0, .nv, .u 16, .u [(4, 800)], true, "Raise dwell"⟩,
  ⟨0x4A10, 1, 0x01, 1, .f32, .rw, 0, .nv, .f 0x00000000, .f [(0x00000000, 0x00000000, false), (0x42700000, 0x4913A800, false)], true, "Wake timer"⟩,
  ⟨0x4A10, 1, 0x02, 1, .u8, .rw, 0, .nv, .u 5, .any, true, "Wake sources"⟩,
  ⟨0x4C00, 64, 0x01, 1, .u8, .rw, 0, .nv, .u 0, .u [(0, 11)], true, "Probe, HM0-HM63"⟩,
  ⟨0x4C00, 64, 0x02, 1, .u16, .rw, 0, .nv, .u 0, .any, true, "Argument"⟩,
  ⟨0x4C00, 64, 0x03, 1, .f32, .rw, 0, .nv, .f 0x3F800000, .f [(0x3A83126F, 0x49742400, false)], true, "Base b"⟩,
  ⟨0x4C00, 64, 0x04, 1, .f32, .rw, 0, .nv, .f 0x42700000, .f [(0x3DCCCCCD, 0x47A8C000, false)], true, "Window"⟩,
  ⟨0x4C00, 64, 0x05, 1, .f32, .rw, 0, .nv, .f 0x00000000, .f [(0x00000000, 0x4E6E6B28, false)], true, "Limit"⟩,
  ⟨0x4C00, 64, 0x06, 1, .u8, .rw, 0, .nv, .u 0, .u [(0, 1)], true, "Limit class"⟩,
  ⟨0x4C40, 1, 0x00, 1, .u8, .rw, 0, .vol, .u 0, .u [(0, 63)], true, "Inspected monitor"⟩,
  ⟨0x4A50, 1, 0x01, 4, .u32, .ro, 0, .vol, .u 0, .any, false, "Counters"⟩]

/-- Objects of chapter 22. -/
def rows22a : List Row := [
  ⟨0x2020, 1, 0x00, 1, .u8, .rwm, 65, .vol, .u 0, .u [(0, 2)], true, "Restart"⟩,
  ⟨0x2021, 1, 0x01, 1, .bool, .rw, 0, .nv, .u 1, .any, true, "Automatic restart"⟩,
  ⟨0x2021, 1, 0x02, 1, .f32, .rw, 0, .nv, .f 0x40A00000, .f [(0x3F800000, 0x44160000, false)], true, "Restart delay"⟩,
  ⟨0x2021, 1, 0x03, 1, .u8, .rw, 0, .nv, .u 3, .u [(1, 10)], true, "Restart limit"⟩,
  ⟨0x2022, 1, 0x01, 1, .u8, .ro, 0, .vol, .u 0, .u [(1, 2)], true, "Start kind"⟩,
  ⟨0x2022, 1, 0x02, 1, .u8, .ro, 0, .vol, .u 0, .u [(1, 8)], true, "Cause"⟩,
  ⟨0x2022, 1, 0x03, 1, .u8, .ro, 0, .vol, .u 0, .u [(0, 1)], true, "Slot"⟩,
  ⟨0x2022, 1, 0x04, 1, .u32, .ro, 0, .vol, .u 0, .any, true, "Duration"⟩,
  ⟨0x2022, 1, 0x05, 1, .u32, .ro, 0, .vol, .u 0, .any, true, "Self-test failures"⟩,
  ⟨0x2022, 1, 0x06, 1, .u8, .ro, 0, .vol, .u 0, .u [(0, 7)], true, "Straps"⟩,
  ⟨0x2022, 1, 0x07, 1, .u32, .ro, 0, .nv, .u 0, .any, true, "Starts"⟩]

/-- Every row of the dictionary but the result objects. -/
def rows : List Row :=
  rows01a ++ (rows02a ++ (rows03a ++ (rows04a ++ (rows05a ++ (rows06a ++ (rows07a ++ (rows08a ++ (rows09a ++ (
  rows10a ++ (rows11a ++ (rows12a ++ (rows12b ++ (rows13a ++ (rows14a ++ (rows15a ++ (rows15b ++ (rows16a ++ (
  rows17a ++ (rows18a ++ (rows19a ++ (rows20a ++ (rows21a ++ (rows22a)))))))))))))))))))))))

/-- The result objects (R51). -/
def resRows : List ResRow := [
  ⟨0x2230, [(4, .f32), (1, .u8)], "Set points"⟩,
  ⟨0x2510, [(2, .u32), (3, .f32), (1, .time64)], "Inspected stream"⟩,
  ⟨0x2520, [(128, .u32)], "Status, S0-S127"⟩,
  ⟨0x2521, [(128, .u32)], "Status, S128-S255"⟩,
  ⟨0x2522, [(128, .u32)], "Age, S0-S127"⟩,
  ⟨0x2523, [(128, .u32)], "Age, S128-S255"⟩,
  ⟨0x2712, [(1, .u32), (1, .u8), (6, .f32)], "Inspected stream"⟩,
  ⟨0x2720, [(128, .u32)], "Status, S0-S127"⟩,
  ⟨0x2721, [(128, .u32)], "Status, S128-S255"⟩,
  ⟨0x2722, [(128, .u8)], "Confidence, S0-S127"⟩,
  ⟨0x2723, [(128, .u8)], "Confidence, S128-S255"⟩,
  ⟨0x2724, [(128, .f32)], "Weight, S0-S127"⟩,
  ⟨0x2725, [(128, .f32)], "Weight, S128-S255"⟩,
  ⟨0x2726, [(16, .u32)], "Groups"⟩,
  ⟨0x2A40, [(1, .u32), (16, .f32), (1, .u32)], "Estimate"⟩,
  ⟨0x2A41, [(1, .time64), (10, .f32)], "Prediction"⟩,
  ⟨0x2A42, [(2, .u8), (5, .f32), (1, .u8)], "Mismatch"⟩,
  ⟨0x2A43, [(3, .f32), (1, .bool)], "Dead reckoning and pair"⟩,
  ⟨0x2C40, [(3, .f32), (1, .u32), (2, .u8)], "Demand"⟩,
  ⟨0x2C41, [(15, .f32)], "Terms"⟩,
  ⟨0x2C42, [(9, .f32)], "Errors"⟩,
  ⟨0x2E40, [(96, .f32), (1, .u64)], "Set points"⟩,
  ⟨0x2E41, [(9, .f32), (1, .u32), (2, .f32)], "Forces"⟩,
  ⟨0x2E42, [(3, .f32), (1, .u8), (2, .f32)], "Solver"⟩,
  ⟨0x2E43, [(40, .f32)], "Inspected plan"⟩,
  ⟨0x3040, [(1, .u32), (2, .u8), (1, .u32), (2, .u8), (1, .u32), (1, .u16), (3, .u8)], "Summary"⟩,
  ⟨0x3041, [(128, .u8)], "Margins"⟩,
  ⟨0x3042, [(128, .u8)], "Ranking"⟩,
  ⟨0x3043, [(68, .f32), (1, .u16), (1, .u8)], "Inspected case"⟩,
  ⟨0x3210, [(9, .f32), (1, .u8)], "Stubble law"⟩,
  ⟨0x3211, [(64, .f32)], "Stubble set points"⟩,
  ⟨0x3212, [(1, .u32), (1, .f32), (1, .u16), (1, .u8), (1, .f32), (1, .u16)], "Comparison"⟩,
  ⟨0x3440, [(1, .u64), (1, .u32), (1, .u16), (2, .u8), (1, .u32), (1, .u8)], "Plant"⟩,
  ⟨0x3441, [(56, .f32)], "Groups"⟩,
  ⟨0x3640, [(2, .i64), (6, .f32), (1, .u8), (1, .f32), (1, .i32), (1, .u8)], "Solution"⟩,
  ⟨0x3641, [(6, .f32), (1, .u8), (1, .f32)], "Attitude"⟩,
  ⟨0x3642, [(1, .dom)], "Measurements"⟩,
  ⟨0x3643, [(2, .u8), (1, .u16), (1, .u8), (8, .u16), (2, .f32)], "Integrity"⟩,
  ⟨0x3644, [(8, .u8), (16, .f32)], "Ports"⟩,
  ⟨0x3840, [(1, .u32), (1, .i64), (3, .f32), (2, .i64), (1, .i16), (1, .u64), (1, .f32)], "Timebase"⟩,
  ⟨0x3A80, [(32, .f32)], "Positions"⟩,
  ⟨0x3A81, [(96, .f32)], "Speeds"⟩,
  ⟨0x3A82, [(32, .u16)], "Status"⟩,
  ⟨0x3A83, [(1, .u16)], "Magnetic inputs"⟩,
  ⟨0x44C0, [(16, .f32), (1, .u16), (1, .bool)], "Analog"⟩,
  ⟨0x44D0, [(14, .f32), (2, .time64), (1, .u8)], "IMU"⟩,
  ⟨0x4E30, [(2, .u32), (2, .u8), (1, .bool), (1, .u16)], "Discrete"⟩,
  ⟨0x3C40, [(2, .u32), (3, .f32), (1, .u64)], "Scan"⟩,
  ⟨0x3C41, [(1, .u8), (1, .u32), (1, .f32), (1, .bool)], "Inspected"⟩,
  ⟨0x3E40, [(5, .u32), (4, .u16)], "Link"⟩,
  ⟨0x4040, [(1, .u32), (1, .u8), (2, .u16)], "Network"⟩,
  ⟨0x4041, [(1, .u8), (1, .u32), (2, .u16), (1, .time64)], "Inspected node"⟩,
  ⟨0x4270, [(8, .u32)], "Controllers"⟩,
  ⟨0x4A40, [(1, .u32), (4, .f32), (2, .u8)], "Power and heat"⟩,
  ⟨0x4C41, [(1, .u32), (3, .f32), (32, .u32), (1, .time64), (1, .u8)], "Inspected window"⟩,
  ⟨0x4C42, [(64, .f32)], "Window maxima"⟩]

end Sys2Proof.Machine
end

