-- ==== Sys2Proof/Machine/PartsBase.lean ====
section
/-! DEFINITION. The parts of the state that every chapter shares: the clock and sample, faults, results, access to the
dictionary, the mode manager, the Granary, the Husk, power and heat, start-up and the health monitors. Every field's
docstring names its rule; reset values are the field defaults. -/
namespace Sys2Proof.Machine

/-- Device time, frames and samples (chapters 00, 01, 13). -/
structure Clock where
  /-- frame counter, 64 bits, R6, R335; reset 0 (DESIGN CHOICE, log 1) -/
  frame : Nat := 0
  /-- device time in ns at the present instant, 64 bits, R6, R334; reset 0 (the VBAT-held count, R347; DESIGN CHOICE, log 1) -/
  time : Nat := 0
  /-- device time of the latest frame boundary, R335; reset 0 (DESIGN CHOICE, log 1) -/
  bound : Nat := 0
  /-- sample counter, 32 bits, R6, R7; reset 0 (DESIGN CHOICE, log 1) -/
  sample : Nat := 0
  /-- frame number of f0 of the sample in progress, R12; reset 0 -/
  f0 : Nat := 0
  /-- epoch of the sample in progress, R6; reset 0 (DESIGN CHOICE, log 1) -/
  epoch : Nat := 0
  /-- sample length in force in frames, R29; reset 16, the default of 2030h:01h -/
  n : Nat := 16
  deriving DecidableEq, Repr

/-- One fault in force (R575): a condition, named by its event code and an instance, and its class. -/
structure Flt where
  code : Nat
  inst : Nat
  cls : Nat
  deriving DecidableEq, Repr

/-- A published result buffer (R51, R52). -/
structure ResBuf where
  /-- 01h sample number -/
  sample : Nat := 0
  /-- 02h epoch -/
  epoch : Nat := 0
  /-- 03h status, Table 2-5; reset 00h -/
  status : Nat := 0
  /-- values from 04h on -/
  vals : List Val := []
  deriving DecidableEq, Repr

/-- The two buffers of a result object (R52): the readable one, and the one that a stage has filled and exchanges at the
end of its deadline frame. -/
structure ResPair where
  front : ResBuf := {}
  back : Option ResBuf := none
  deriving DecidableEq, Repr

/-- Roles of a session (R49). -/
inductive Role where
  | operator | engineer | auditor | service
  deriving DecidableEq, Repr

/-- The code of a role (R49). -/
def Role.code : Role → Nat
  | .operator => 0 | .engineer => 1 | .auditor => 2 | .service => 3

/-- Where an access comes from (R48, R49): an SDO session of a CAN controller, a KDP session, Panicle, a KPP receive
map entry, an RPDO of a CAN controller, a Halur mirror read. -/
inductive Path where
  | can (c : Nat)
  | kdp (id : Nat)
  | panicle
  | recvMap
  | rpdo (c : Nat)
  | mirror (id unit : Nat)
  deriving DecidableEq, Repr

/-- A cached response (R57): request identifier, request body, abort code (0 success) and value returned. -/
structure Reply where
  id : Nat
  body : List Byte
  code : Nat
  value : List Byte
  deriving DecidableEq, Repr

/-- An 802.1Q tag: priority and VLAN (R462). -/
structure VlanTag where
  prio : Nat := 0
  vlan : Nat := 1
  deriving DecidableEq, Repr

/-- One session (R48, R55, R57, R504, R313). -/
structure Session where
  /-- the role of a KDP session's certificate, R48 -/
  role : Role := .operator
  /-- result latch: index, buffer, time latched, R55 -/
  latch : Option (Nat × ResBuf × Nat) := none
  /-- Granary cursor, R504; none = the oldest record held -/
  cursor : Option Nat := none
  /-- sequence of the next navigation record to receive, R313; none = the oldest queued -/
  nav : Option Nat := none
  /-- replay cache, oldest first, at most 64, R57 -/
  replay : List Reply := []
  /-- requests held behind a pending DOMAIN write, oldest first, R477; of more than 16 the rest stay unread in the stream -/
  wait : List (Nat × List Byte) := []
  /-- time of the last request, R476 -/
  last : Nat := 0
  /-- remote address and port of the connection, R476 -/
  peer : Nat := 0
  /-- key identifier of the session's certificate -/
  signer : List Byte := []
  /-- the session's certificate chains to the enrolled owner CA, R512 -/
  owner : Bool := false
  /-- the tag that its newest response went out with, R462 -/
  tag : VlanTag := {}
  deriving DecidableEq, Repr

/-- The last answer given on a path (R65): abort code, 0 for success, and the value returned. -/
structure Answer where
  code : Nat := 0
  value : List Byte := []
  deriving DecidableEq, Repr

/-- One copy of the parameter store (R46). -/
structure StoreCopy where
  vals : List (Nat × Val) := []
  /-- count of the store that wrote it: the newest valid copy is used, R538 -/
  serial : Nat := 0
  /-- set version of the stored configuration, event 0004h -/
  version : Nat := 0
  /-- the copy's CRC-32C is good -/
  valid : Bool := false
  deriving DecidableEq, Repr

/-- An accepted write that waits for its f0 (R38, R41): object key, value, frame number of the f0. -/
structure Pend where
  key : Nat
  val : Val
  due : Nat
  deriving DecidableEq, Repr

/-- A pair-shared DOMAIN write in transfer to the partners (R447): object key, value, the path it came on, the frame it
began in (none while it waits its turn), the fragments each partner has not yet acknowledged. -/
structure Bulk where
  key : Nat
  val : List Byte
  path : Path
  start : Option Nat
  open' : List (Nat × List Nat)
  /-- frame in which the write was received, and by fragment the frame in which it was last sent -/
  from' : Nat
  sent : List (Nat × Nat)
  deriving DecidableEq, Repr

/-- A bulk transfer being received (R447): object key, total length, fragments by number. -/
structure BulkIn where
  key : Nat
  length : Nat
  frags : List (Nat × List Byte)
  deriving DecidableEq, Repr

/-- Access to the dictionary (chapter 02). -/
structure Access where
  /-- stored chains of the Chaff channels by number, which hold a record that a later set does not repeat (R153, R155) -/
  chains : List (Nat × List Byte) := []
  /-- sessions by key (CAN controller c: c; KDP session id: 16 + id), R48; reset none -/
  sessions : List (Nat × Session) := []
  /-- the last answer, R65; reset none given -/
  answer : Answer := {}
  /-- accepted writes that take effect at an f0, oldest first, R38, R41; reset none -/
  fresh : List Pend := []
  /-- pair-shared DOMAIN writes being sent to the partners, oldest first, R447; reset none -/
  bulk : List Bulk := []
  /-- a pair-shared DOMAIN write being received from the Lead: object key, fragments by number, R447; reset none -/
  bulkIn : Option BulkIn := none
  /-- DOMAIN writes received complete, by object key, that wait for their commit, oldest first, R447; reset none -/
  bulkHeld : List (Nat × List Byte) := []
  /-- the two copies of the parameter store, R46; reset empty -/
  copyA : StoreCopy := {}
  copyB : StoreCopy := {}
  /-- a store in progress: area 1, 2 or 3 and the time of acceptance, R46; reset none -/
  store : Option (Nat × Nat) := none
  /-- restore marks of 1011h:01h-03h, bits 0-2, R45; reset none -/
  marks : Nat := 0
  /-- consecutive samples of differing digests, by partner unit, R42; reset 0 -/
  mismatch : List (Nat × Nat) := []
  deriving DecidableEq, Repr

/-- A command accepted and waiting for its f0 (R74, R76). -/
structure Cmd where
  /-- the U32 written, Tables 3-4, 3-5 -/
  word : Nat
  /-- a mode command (2201h) rather than an action command (2203h) -/
  isMode : Bool
  /-- frame number of the f0 at which it is due -/
  due : Nat
  /-- carried by a full mirror already: one that a follower knows only from a fast mirror waits until it is Lead (R87) -/
  sent : Bool := false
  deriving DecidableEq, Repr

/-- The mode manager (chapter 03). -/
structure ModeMgr where
  /-- mode in force 0-7, R66; reset 0 -/
  mode : Nat := 0
  /-- Joystick with yaw under control, R68; reset false -/
  autoHead : Bool := false
  /-- axes under control, bits 0-2 surge, sway, yaw, R79; reset 0 -/
  axes : Nat := 0
  /-- accepted commands not yet carried out, R74; reset none -/
  cmds : List Cmd := []
  /-- the last accepted command word, and whether it was a mode command, R72; reset 0, false -/
  lastWord : Nat := 0
  lastIsMode : Bool := false
  /-- ramp state, 2230h:08h, R82; reset 0 -/
  ramp : Nat := 0
  /-- set points north, east, heading, speed, R79; reset 0 (DESIGN CHOICE, log 1) -/
  spN : Rat := 0
  spE : Rat := 0
  spH : Rat := 0
  spV : Rat := 0
  /-- set points held, R82; reset false -/
  held : Bool := false
  /-- cross-track offset set point, R83; reset 0 -/
  cross : Rat := 0
  /-- along-track position on the leg in force, m, R83; reset 0 -/
  along : Rat := 0
  /-- leg in force, R83; reset 0 -/
  leg : Nat := 0
  /-- the last waypoint has been passed, R83; reset false -/
  trackEnd : Bool := false
  /-- targets in force at the last f0 (a new target releases a hold, R82); reset 0 -/
  lastTgt : List Rat := []
  deriving DecidableEq, Repr

/-- A Granary record (Table 20-1); link and CRC are filled when it is written. -/
structure Rec where
  code : Nat
  cls : Nat
  source : Nat
  seq : Nat
  time : Nat
  sample : Nat
  status : Nat
  /-- bytes 24-55 as four 64-bit parameters; for a signature record (R501) bytes 8-55 stand in `sig` instead -/
  params : List Nat
  sig : List Byte := []
  link : Nat := 0
  crc : Nat := 0
  /-- erase block, counted over the module's life, that holds it (R502) -/
  blk : Nat := 0
  deriving DecidableEq, Repr

/-- A signature block being made (R501): its first sequence number and when it began. -/
structure SigJob where
  seq : Nat
  start : Nat
  deriving DecidableEq, Repr

/-- Entry of the clear register (R506). -/
structure ClearEntry where
  seq : Nat
  time : Nat
  signer : List Byte
  crc : Nat
  deriving DecidableEq, Repr

/-- The Granary event recorder (chapter 20). -/
structure Granary where
  /-- next sequence number, U32, R500; reset 0 (the first record a module writes carries 0) -/
  next : Nat := 0
  /-- DRAM queue, oldest first, R502; reset empty -/
  queue : List Rec := []
  /-- records held in NAND, in sequence order, R502; reset none -/
  held : List Rec := []
  /-- CRC field of the record with the previous sequence number, R499; reset 0 (first record of the unit) -/
  lastCrc : Nat := 0
  /-- records assigned since the last signature block, R501; reset 0 -/
  since : Nat := 0
  /-- first sequence number the next signature block covers, R501; reset 0 -/
  cover : Nat := 0
  /-- signature block being made, R501; reset none -/
  sig : Option SigJob := none
  /-- records discarded since the last 1305h, R503; reset 0 -/
  lost : Nat := 0
  /-- event 1304h is in force, R503; reset false -/
  nearFull : Bool := false
  /-- erase counts by erase block 0-2047, R502; reset 0 -/
  erases : List (Nat × Nat) := []
  /-- challenge 4630h:01h, R505; reset free value -/
  challenge : Nat := 0
  /-- clear register, at most 256 entries, R506; reset empty -/
  reg : List ClearEntry := []
  /-- a clear whose erasure is not complete: its clear-through sequence, R506; reset none -/
  clearing : Option Nat := none
  /-- the clear waits for a block that another occasion has reserved, and then for its own, R506; reset false -/
  again : Bool := false
  /-- entries of the clear register whose clear has been carried out, R506; reset 0 -/
  carried : Nat := 0
  /-- the store is open (from start-up stage 5 on), R534; reset false -/
  isOpen : Bool := false
  deriving DecidableEq, Repr

/-- Firmware image header of a slot (Table 20-4). -/
structure Image where
  security : Nat
  product : Nat
  version : Nat
  bytes : List Byte
  deriving DecidableEq, Repr

/-- The Husk (chapter 20). -/
structure Husk where
  /-- firmware slots A and B, R513; reset: slot A holds an image of this product, slot B none (DESIGN CHOICE, log 1) -/
  slotA : Option Image := some { security := 0, product := 0x84701, version := 0, bytes := [] }
  slotB : Option Image := none
  /-- tamper condition in force, bit 0 of 4830h:03h, R515; reset false -/
  tamper : Bool := false
  /-- tamper latched while unpowered, bit 1, with its VBAT time, R515; reset none -/
  latched : Option Nat := none
  /-- a start has recorded the latched tamper, R515; reset false -/
  told : Bool := false
  /-- writes limited, bit 2, R515; reset false -/
  limited : Bool := false
  deriving DecidableEq, Repr

/-- The JTAG inputs at a rising edge of TCK: TRST_N low, TMS, TDI (R552). -/
structure TapEdge where
  trst : Bool := false
  tms : Bool
  tdi : Bool
  deriving DecidableEq, Repr

/-- The states of the test access port (IEEE 1149.1, R552). -/
inductive TapState where
  | reset | idle | selectDr | captureDr | shiftDr | exit1Dr | pauseDr | exit2Dr | updateDr
  | selectIr | captureIr | shiftIr | exit1Ir | pauseIr | exit2Ir | updateIr
  deriving DecidableEq, Repr

/-- The instructions of the test access port; any other code acts as BYPASS (R552). -/
inductive TapInstr where
  | bypass | idcode | sample | extest
  deriving DecidableEq, Repr

/-- The test access port (R552): its state, instruction, shift register (the bit at TDO first), the boundary cells' update
register, and TDO, which is high impedance but in the shift states; reset held in Test-Logic-Reset. -/
structure Tap where
  state : TapState := .reset
  instr : TapInstr := .idcode
  shift : List Bool := []
  update : List Bool := []
  tdo : Option Bool := none
  deriving DecidableEq, Repr

/-- The readings of one frame (R516): input power W, VIN V, four case sensors and three die sensors in degrees C, and
the predicted power of the frame (R517; the spec gives no formula for the admitted work, so it comes with the frame);
the pad of WAKE_N is low (R412); the newest sample of each analog input A0-A15 as a share of full scale (R401). -/
structure Readings where
  p : Rat
  vin : Rat
  case4 : List Rat
  die3 : List Rat
  predicted : Rat
  wake : Bool := false
  analog : List Rat := []
  /-- captures of the sample clocks in the frame before: group and device time ns of a 40,960th rising edge, R294 -/
  gck : List (Nat × Rat) := []
  /-- rising edges of TCK in the frame before, R552 -/
  jtag : List TapEdge := []
  deriving DecidableEq, Repr

/-- Power and heat (chapter 21). -/
structure Therm where
  /-- readings of the latest frame, R516; reset 12 V, 0 W, 0 °C (DESIGN CHOICE, log 1) -/
  now : Readings := { p := 0, vin := 12, case4 := [0, 0, 0, 0], die3 := [0, 0, 0], predicted := 0 }
  /-- excluded case sensors, bits 0-3, R516; reset 0 -/
  excluded : Nat := 0
  /-- frame since which each excluded sensor reads inside the band, R516; reset none -/
  inBand : List (Nat × Nat) := []
  /-- level 0-3, R518; reset 0 -/
  level : Nat := 0
  /-- case and die temperature of the latest frame, R516; reset 0 °C (DESIGN CHOICE, log 1) -/
  tc : Rat := 0
  tj : Rat := 0
  /-- consecutive frames in which a rise condition held, and a rise due at this frame with its cause, R519; reset 0 -/
  riseFrames : Nat := 0
  riseDue : Option Nat := none
  /-- frame since which every release condition held, and a fall due at this frame, R519; reset none -/
  releaseFrom : Option Nat := none
  fallDue : Bool := false
  /-- consecutive frames beyond the heat limit, R522; reset 0 -/
  heatFrames : Nat := 0
  /-- fast cap in this frame, R517; reset false -/
  cap : Bool := false
  /-- device time of the last event 1506h, R517; reset none -/
  capTime : Option Nat := none
  /-- Stook steps taken, R520, 4A40h:0Ah; reset 0 -/
  steps : Nat := 0
  deriving DecidableEq, Repr

/-- A health monitor's window (R527-R529). -/
structure Window where
  start : Nat := 0
  count : Nat := 0
  min : Rat := 0
  max : Rat := 0
  sum : Rat := 0
  bins : List (Nat × Nat) := []
  overs : Bool := false
  /-- the window has begun, R529 -/
  live : Bool := false
  deriving DecidableEq, Repr

/-- A health monitor (R527-R529). -/
structure Monitor where
  /-- window in progress; reset empty -/
  win : Window := {}
  /-- the completed window that 4C41h shows; reset empty -/
  done : Window := {}
  /-- end of the completed window; reset 0 -/
  doneAt : Nat := 0
  /-- paused while T2 is shed, R521; reset false -/
  paused : Bool := false
  deriving DecidableEq, Repr

/-- What the unit is doing (chapters 21, 22): unpowered; held in reset; in start-up stage 1-7; held in ROM; halted
after a failed self-test; recovery; running; stopped under F3; in Dormancy; waking. -/
inductive Power where
  | off | reset | starting (stage : Nat) | romHeld | halted | recovery | running | stopped | dormant | waking
  deriving DecidableEq, Repr

/-- Start-up and restart (chapter 22). -/
structure Start where
  /-- what the unit is doing; reset: start-up stage 1 of a cold start (log 9) -/
  power : Power := .starting 1
  /-- start kind 1 cold, 2 warm, 2022h:01h, R530; reset 1 -/
  kind : Nat := 1
  /-- cause 01h-08h, 2022h:02h; reset 01h VIN -/
  cause : Nat := 1
  /-- slot being started or running, 2022h:03h; reset 0 (A) -/
  slot : Nat := 0
  /-- slots abandoned in this start: bits 0, 1 with reason 1 or 2, R535; reset none -/
  tried : List (Nat × Nat) := []
  /-- device time at which the present start began, Table 22-1; reset 0 -/
  began : Nat := 0
  /-- straps BOOT2-BOOT0 as sampled, R536; reset 0 -/
  boot : Nat := 0
  /-- UNIT_ID1-UNIT_ID0 as sampled, R435; reset 0 -/
  unitId : Nat := 0
  /-- halts in a row, R537; reset 0 -/
  halts : Nat := 0
  /-- time of the halt, R537; reset 0 -/
  haltAt : Nat := 0
  /-- times of stops under F3, R532; reset none -/
  stops : List Nat := []
  /-- time at which an automatic restart falls due, R532; reset none -/
  restartDue : Option Nat := none
  /-- a restart ordered and waiting for its f0: 1 warm, 2 cold, R531; reset none -/
  ordered : Option Nat := none
  /-- handover asked for before an ordered restart, R531; reset false -/
  handing : Bool := false
  /-- self-test failure bits 2022h:05h, R537; reset 0 -/
  tests : Nat := 0
  /-- parts disabled by a failed self-test, Table 22-2 bit × 64 + instance, R537; reset none -/
  degraded : List Nat := []
  /-- events of stages 1 to 4, which wait for the store to open (R534): code, class, parameters; reset none -/
  notes : List (Nat × Nat × List Nat) := []
  /-- consecutive strap readings that differ from the sampled ones, R551; reset 0 -/
  strapMiss : Nat := 0
  /-- RESET_N is high, R544; reset true -/
  resetN : Bool := true
  /-- VIN is present, R530; reset true -/
  vin : Bool := true
  /-- role 0 Lead, 1 Shadow, 2 Reserve, 3 none, joining or stopping (Table 3-9 bits 4-3); reset 3 -/
  role : Nat := 3
  /-- frame of Dormancy entry and its device time, R524; reset none -/
  dormantAt : Option Nat := none
  /-- wake frame w and source, R525; reset none -/
  wake : Option (Nat × Nat) := none
  /-- stop-notice frames left and the cause's event code, R450, Table 17-2; reset 0 -/
  notice : Nat := 0
  noticeCode : Nat := 0
  deriving DecidableEq, Repr

/-- What a start-up stage finds (Tables 22-1, 22-2): its end; its own work passed (rails, ROM CRC, secure element); straps
BOOT2-BOOT0 and UNIT_ID1-UNIT_ID0 as sampled, the four samples agree, TEST0-TEST3 all low, VBAT in mV; in stage 4 the
digest and signature of the slot being tried hold (cold) or the image in DRAM matches its digest (warm); failed self-tests
as (bit of Table 22-2, instance). -/
structure StageIn where
  t : Nat
  ok : Bool := true
  boot : Nat := 0
  unit : Nat := 0
  agree : Bool := true
  testLow : Bool := true
  vbat : Nat := 3000
  image : Bool := true
  fails : List (Nat × Nat) := []
  deriving DecidableEq, Repr

/-- What a unit knows of another unit of its pair or triad (R441-R459, Table 17-8). -/
structure Partner where
  /-- frame in which a valid frame was last received from it, R449; reset none -/
  heard : Option Nat := none
  /-- heard direct (not by relay) in that frame, R438 -/
  direct : Bool := false
  /-- frame in which it was last seen on the field-network path, R449; reset none -/
  field : Option Nat := none
  /-- consecutive frames silent on Halur and on the field path, R450, R453; reset 0 -/
  silentH : Nat := 0
  silentF : Nat := 0
  /-- its stop notice received, Table 17-8; reset false -/
  stopped : Bool := false
  /-- lead epoch last seen, Table 17-8; reset 0 -/
  epoch : Nat := 0
  /-- priority last heard; reset 0 -/
  prio : Nat := 0
  /-- role last heard; reset 3 -/
  role : Nat := 3
  /-- NV lead epoch of its heartbeat, R457; reset 0 -/
  nvEpoch : Nat := 0
  /-- its shared-value digest 2011h:05h, R42; reset 0 -/
  digest : Nat := 0
  /-- its sample length in force, R30; reset 0 -/
  n : Nat := 0
  /-- its vessel status word; reset 0 -/
  status : Nat := 0
  /-- units it sees on the field-network path, R475; reset 0 -/
  seen : Nat := 0
  /-- its last Granary sequence number; reset 0 -/
  gran : Nat := 0
  /-- it has joined and holds a role under this Lead, R456; reset false -/
  joined : Bool := false
  /-- its mirror-degraded bit, from its Report, R458; reset false -/
  mirrorDeg : Bool := false
  /-- its last accepted Report block: result and object values, and the frame of its f(N-1), R50; reset none -/
  report : List (Nat × Val) := []
  reportRes : List (Nat × ResBuf) := []
  reportAt : Nat := 0
  deriving DecidableEq, Repr

/-- The Halur link (chapter 17). The lead epoch in force is 3E01h:01h. -/
structure Halur where
  /-- ports H0, H1 up, R439; reset down -/
  h0 : Bool := false
  h1 : Bool := false
  /-- the other units by number, R441; reset never heard -/
  units : List (Nat × Partner) := []
  /-- a claim: frame fd of the declaration and its epoch, R451; reset none -/
  claim : Option (Nat × Nat) := none
  /-- the unit whose loss the claim follows, R451; reset none -/
  lostLead : Option Nat := none
  /-- a yield to be sent: target and the frame f(N-1) in which it goes, R458; reset none -/
  yield : Option (Nat × Nat) := none
  /-- a yield received: target and the f0 at which it takes the Lead, R458; reset none -/
  yieldIn : Option (Nat × Nat) := none
  /-- consecutive samples without an accepted full mirror, R443; reset 0 -/
  missed : Nat := 0
  /-- a fast, a full message has been missed since the last accepted one, R442; reset false -/
  fastMiss : Bool := false
  fullMiss : Bool := false
  /-- mirror-degraded bit, R443; reset false -/
  mirrorDeg : Bool := false
  /-- Halur-degraded bit, R453; reset false -/
  degraded : Bool := false
  /-- Lead not seen on the field-network path, R453; reset false -/
  fieldPath : Bool := false
  /-- two Leads seen in this frame, R454; reset none -/
  twoLeads : Option Nat := none
  /-- this unit yields to another Lead in the next frame, R454; reset false -/
  yielding : Bool := false
  /-- unit number conflict, R435; reset false -/
  conflict : Bool := false
  /-- frames without a Lead while without a role, R457; reset 0 -/
  waited : Nat := 0
  /-- step of the join sequence reached, 0 none to 6, R456; reset 0 -/
  join : Nat := 0
  /-- the join sets device time from the Lead at the next whole second, R456; reset false -/
  joinTime : Bool := false
  /-- pair-shared values received in the join, R456; reset none -/
  joinVals : List (Nat × Val) := []
  /-- Panicle request to be sent, R427; reset false -/
  panReq : Bool := false
  /-- Halur offsets of the second in progress, ns, R448; reset none -/
  thetas : List Rat := []
  /-- consecutive frames for which the Shadow has not seen the Lead while the Lead hears it, R475; reset 0 -/
  offField : Nat := 0
  /-- frame in which the fast and the full message last went out, R441; reset none -/
  fastSent : Option Nat := none
  fullSent : Option Nat := none
  /-- sequence number by frame type, Table 17-1; reset 0 -/
  seq : List (Nat × Nat) := []
  deriving DecidableEq, Repr

end Sys2Proof.Machine
end

