-- ==== Sys2Proof/Machine/PartsSense.lean ====
section
/-! DEFINITION. The parts of the state of Sheaf (chapter 04), Winnow (05) and the vessel observer (07). -/
namespace Sys2Proof.Machine

/-- A buffered source sample of a stream (chapter 04): source stamp ns (modelled source), else the device time of its
measurement; arrival stamp ns; raw components as received; the source's own standard deviation; Chaff's restart mark
(R149). -/
structure Smp where
  stamp : Int
  arrival : Nat
  raw : List Rat
  sd : Option Rat := none
  mark : Bool := false
  /-- TAI time of the sentence's time field and its talker, for GST (R389) -/
  field : Option (Int × Nat) := none
  /-- reached Sheaf after f0 of the sample in progress: for later epochs only (R13) -/
  after : Bool := false
  deriving DecidableEq, Repr

/-- A stream brought to the epoch (R103): components, standard deviation, age ns, method 1 exact, 2 interpolated,
3 extrapolated. -/
structure Aligned where
  vals : List Rat
  sd : Rat
  age : Rat
  method : Nat
  deriving DecidableEq, Repr

/-- A stream of Sheaf (chapter 04). -/
structure Stream where
  /-- kind, binding, address, clock slot in force when the buffer was begun, R91; reset none (not enabled) -/
  cfg : Option (Nat × Nat × Nat × Nat) := none
  /-- the 8 newest accepted samples, oldest first; reset empty -/
  buf : List Smp := []
  /-- samples accepted since the previous handover (arrival, raw components), for the freeze test of Table 5-3 -/
  fresh : List (Nat × List Rat) := []
  /-- a sample was discarded since the previous epoch, Table 4-7 bit 6; reset false -/
  disc : Bool := false
  /-- newest sample marked invalid, bit 5; reset false -/
  invalid : Bool := false
  /-- silent, bit 11; reset false -/
  silent : Bool := false
  /-- uncompensated, bit 8; reset false -/
  uncomp : Bool := false
  /-- no heading, bit 7; reset false -/
  nohead : Bool := false
  /-- instant from which silence counts: last accepted arrival, or the later of start and enabling, R105 -/
  since : Nat := 0
  /-- geometry in force at the previous epoch, R109, R121 -/
  geo : List Rat := []
  /-- its drift window restarts at this epoch, R121 -/
  restart : Bool := true
  /-- status word published, Table 4-7; reset 0 -/
  status : Nat := 0
  /-- newest time of validity, ns; reset 0 -/
  newest : Rat := 0
  /-- value at the epoch, when delivered; reset none -/
  al : Option Aligned := none
  deriving DecidableEq, Repr

/-- A clock slot (R94-R99); its offset, rate, residual, state and count are reported at 2540h + k. -/
structure Slot where
  /-- offset o, ns; reset 0 -/
  o : Rat := 0
  /-- rate ρ; reset 0 -/
  rho : Rat := 0
  /-- source stamp of the last accepted update; none while learning has no seed, R96 -/
  t0 : Option Int := none
  /-- 0 unused, 1 learning, 2 tracking, 3 fault; reset 0 -/
  state : Nat := 0
  /-- accepted updates while learning, R96; reset 0 -/
  learned : Nat := 0
  /-- residuals of the consecutive updates refused for |e| > 1.25 ms, at most 8, R98; reset none -/
  refused : List Rat := []
  /-- consecutive clean updates in fault, R99; reset 0 -/
  clean : Nat := 0
  /-- pending observations: source stamp, arrival, R95; reset none -/
  obs : List (Int × Nat) := []
  /-- returned to learning since the last handover, R121; reset false -/
  relearn : Bool := false
  deriving DecidableEq, Repr

/-- Sheaf (chapter 04). -/
structure Sheaf where
  streams : List (Nat × Stream) := []
  slots : List (Nat × Slot) := []
  /-- samples in which Sheaf overran, R110; reset none -/
  overs : List Nat := []
  /-- Sheaf handed over at this epoch (false: no stream for it, R110); reset false -/
  handed : Bool := false
  deriving DecidableEq, Repr

/-- The freeze test of one component, or of a sample compared as a whole (Table 5-3): the arrival from which samples have been
equal, the count of differing ones in a row, the test holds, the span of the equal samples in s. -/
structure Frz where
  since : Nat
  diff : Nat := 0
  held : Bool := false
  span : Rat := 0
  deriving DecidableEq, Repr

/-- A stream of Winnow (chapter 05). -/
structure Win where
  /-- confidence in 1/256 counts, R127; reset 0 -/
  q : Nat := 0
  /-- tests holding it masked, bits 8-0 of Table 5-6; reset 0 -/
  mask : Nat := 0
  /-- deselected; reset false -/
  desel : Bool := false
  /-- the gate failed at this epoch, R118, Table 5-5 -/
  gateNow : Bool := false
  /-- consecutive failing and clearing gate epochs, R118; reset 0 -/
  gateFail : Nat := 0
  gateClear : Nat := 0
  pending : Bool := false
  /-- end of the step hold, device time, R117; reset none -/
  stepEnd : Option Nat := none
  /-- value at the last delivered epoch, and innovation where a prediction existed -/
  lastVal : Option (List Rat) := none
  lastNu : Option (List Rat) := none
  /-- innovations of the last 32 delivered epochs (none: no prediction), oldest first, R113; reset none -/
  nus : List (Option (List Rat)) := []
  /-- drift residuals, oldest first, R120; reset none -/
  drift : List (List Rat) := []
  /-- freeze: the last accepted raw sample, and the test of each component or of the whole, R115; reset none -/
  frzLast : Option (List Rat) := none
  frz : List Frz := []
  /-- stepped level 0-3, R131; reset 3 Isolated -/
  level : Nat := 3
  /-- device time from which the stepped dwell runs, R132; reset: from the first epoch -/
  dwell : Option Nat := none
  third : Bool := false
  /-- masked at the previous epoch, and the reason that last held it, R116; reset false, 0 -/
  masked : Bool := false
  reason : Nat := 0
  absent : Bool := false
  used : Bool := false
  /-- weight, R128; reset 0 -/
  w : Rat := 0
  /-- statistics shown in 2712h: |ν|, τ, drift mean magnitude, residual magnitude -/
  nuMag : Rat := 0
  tau : Rat := 0
  /-- latest statistic of each mask reason (Table 5-7), for event 0301h -/
  stats : List (Nat × Rat) := []
  driftMag : Rat := 0
  resMag : Rat := 0
  deriving DecidableEq, Repr

/-- A group of Winnow (chapter 05). -/
structure WGroup where
  eligible : Nat := 0
  maskedN : Nat := 0
  contra : Bool := false
  /-- the two streams that R123 judged last; reset none -/
  pair : Option (Nat × Nat) := none
  unresolved : Bool := false
  /-- drift was enabled at the previous epoch, R120 -/
  driftOn : Bool := true
  deriving DecidableEq, Repr

/-- Winnow (chapter 05). -/
structure Winnow where
  streams : List (Nat × Win) := []
  groups : List (Nat × WGroup) := []
  /-- samples in which Winnow overran, R135; reset none -/
  overs : List Nat := []
  /-- Winnow published for this epoch; reset false -/
  handed : Bool := false
  deriving DecidableEq, Repr

/-- A prediction of the observer for the next epoch (R165): its epoch, the classes' measured quantities and standard
deviations: position, heading, yaw rate, velocity; and the slow pose N, E, ψ, u, v, r. -/
structure Pred where
  epoch : Nat
  pos : Option (Rat × Rat)
  head : Option Rat
  yaw : Option Rat
  vel : Option (Rat × Rat)
  sPos : Rat
  sHead : Rat
  sYaw : Rat
  sVel : Rat
  pose : List Rat
  deriving DecidableEq, Repr

/-- An estimate of the observer (R177). -/
structure Est where
  sample : Nat := 0
  epoch : Nat := 0
  n : Rat := 0
  e : Rat := 0
  psi : Rat := 0
  u : Rat := 0
  v : Rat := 0
  r : Rat := 0
  /-- bias in body axes -/
  bias : List Rat := [0, 0, 0]
  wind : List Rat := [0, 0, 0]
  held : Bool := false
  deriving DecidableEq, Repr

/-- One sample of the thrust-mismatch history (R174): sample, ν̂, ψ̂, τ_thr, τ_wind, b̂. -/
structure Hist where
  sample : Nat
  nu : List Rat
  psi : Rat
  thr : List Rat
  wind : List Rat
  b : List Rat
  deriving DecidableEq, Repr

/-- The part of the observer's state that the full mirror carries (R178). -/
structure ObsCore where
  /-- N, E, ψ °, u, v, r °/s, b_N, b_E, b_ψ, ξ_N, ξ_E, ξ_ψ and their rates; reset 0 -/
  x : List Rat := List.replicate 15 0
  /-- covariance, 15 rows; reset 0 (DESIGN CHOICE, log 1) -/
  p : List (List Rat) := List.replicate 15 (List.replicate 15 0)
  /-- wave frequency f_w; reset 0.10 Hz, the default of 2A01h:02h -/
  fw : Rat := 1 / 10
  hInit : Bool := false
  pInit : Bool := false
  /-- position dead reckoning; reset false -/
  dr : Bool := false
  /-- last epoch with a position update and the age of its position; σ_h0, σ_v0 at it, R172, R177 -/
  lastPos : Nat := 0
  lastAge : Rat := 0
  sh0 : Rat := 0
  sv0 : Rat := 0
  radiusLim : Bool := false
  /-- wind force held; substituted since (device time), phase 0 none, 1 hold, 2 decay, R163 -/
  wind : List Rat := [0, 0, 0]
  windFrom : Nat := 0
  windSub : Nat := 0
  deriving DecidableEq, Repr

/-- The vessel observer (chapter 07). -/
structure Observer where
  core : ObsCore := {}
  /-- thruster and wind forces of the last epoch, held through the propagation, R165 -/
  tauThr : List Rat := [0, 0, 0]
  tauWind : List Rat := [0, 0, 0]
  /-- the latest estimate; reset none published -/
  est : Option Est := none
  /-- the prediction for the next epoch; reset none -/
  pred : Option Pred := none
  hDr : Bool := false
  subst : Bool := false
  waveLim : Bool := false
  adopted : Bool := false
  diverge : Bool := false
  divCount : Nat := 0
  pairDist : Rat := 0
  /-- wave statistics: the last 1,024 values of ξ_N and ξ_E, last signs, epochs of the last upward crossings, R166 -/
  xiN : List Rat := []
  xiE : List Rat := []
  crossN : List Nat := []
  crossE : List Nat := []
  /-- thrust mismatch: history, quiet samples left, count, best thruster, latched, clear count, R174-R176 -/
  hist : List Hist := []
  quiet : Nat := 0
  count : Nat := 0
  best : Option (Nat × Rat × Rat) := none
  eps : List Rat := [0, 0, 0]
  latched : Option Nat := none
  clear : Nat := 0
  /-- the last epoch was missed, to be propagated at the next f2, R179; reset false -/
  missed : Bool := false
  /-- event 050Ch recorded in this start, R158 -/
  warned : Bool := false
  /-- the model was incomplete at the last f2, R158, R167; reset false -/
  incomplete : Bool := false
  /-- observer reset ordered for the next f2, R169 -/
  reset : Bool := false
  overs : List Nat := []
  deriving DecidableEq, Repr

end Sys2Proof.Machine
end

