-- ==== Sys2Proof/Machine/PartsControl.lean ====
section
/-! DEFINITION. The parts of the state of Culm and the inner loops (chapter 08), Tiller (09), Stook and Stubble (10) and
the power-plant model (11). Lists of three are surge, sway, yaw. -/
namespace Sys2Proof.Machine

/-- The part of Culm's state that the full mirror carries (R187); the previous set points and the set-point velocity
they give are among it. -/
structure CulmCore where
  /-- integral contributions I, R188; reset 0 -/
  integ : List Rat := [0, 0, 0]
  /-- clamped bits, R189; reset false -/
  clamped : List Bool := [false, false, false]
  /-- a_sp filter states, R182; reset 0 -/
  asp : List Rat := [0, 0, 0]
  /-- set points N, E, ψ of the previous sample, R181; reset 0 (DESIGN CHOICE, log 1) -/
  prevSp : List Rat := [0, 0, 0]
  /-- ν_sp of the previous sample, R182; reset 0 -/
  prevVel : List Rat := [0, 0, 0]
  /-- τ_prev, the demand published for the previous sample, R185; reset 0 -/
  tauPrev : List Rat := [0, 0, 0]
  deriving DecidableEq, Repr

/-- Culm (chapter 08). -/
structure Culm where
  core : CulmCore := {}
  /-- sign of the limit that acted in the previous sample, R188; reset 0 -/
  lim : List Int := [0, 0, 0]
  /-- set number and gains used by the last law that completed, R190; reset none -/
  used : Option (Nat × List Rat) := none
  /-- axes that came under control since the last completed law, R185; reset 0 -/
  entered : Nat := 0
  /-- the demand of this sample with its held bit, R206; reset none published -/
  tau : List Rat := [0, 0, 0]
  held : Bool := false
  published : Bool := false
  /-- samples in which the law overran, R206; reset none -/
  overs : List Nat := []
  /-- the previous sample's law overran -/
  lastOver : Option Nat := none
  /-- an overrun of this sample has been counted, R205, R206; reset false -/
  residue : Bool := false
  deriving DecidableEq, Repr

/-- The inner-loop state of a thruster that the fast mirror carries (Table 17-3 block 02h, R203). -/
structure InnerCore where
  /-- azimuth command °, R199; reset 0 (DESIGN CHOICE, log 1) -/
  az : Rat := 0
  /-- rate command °/s of mode 1, R199; reset 0 -/
  rate : Rat := 0
  /-- speed command % before power-plant scaling, R200; reset 0 -/
  n : Rat := 0
  /-- ramp state n_r, R200; reset 0 -/
  nr : Rat := 0
  /-- I_az, I_n, R199, R200; reset 0 -/
  iaz : Rat := 0
  inn : Rat := 0
  /-- turn flag, R199; reset 0 -/
  turn : Nat := 0
  deriving DecidableEq, Repr

/-- The inner loops of a thruster (chapter 08). -/
structure Inner where
  core : InnerCore := {}
  /-- speed command emitted in this frame, after scaling (R284) -/
  emitN : Rat := 0
  /-- scaling acts on this thruster (Table 18-6) -/
  scaled : Bool := false
  /-- clamped bits of I_az and I_n, R202; reset false -/
  clAz : Bool := false
  clN : Bool := false
  /-- the integrator was clamped when new coefficients came into force at the f0 before this run, R202; reset false -/
  holdAz : Bool := false
  holdN : Bool := false
  /-- feedback lost, R201; reset false -/
  lost : Bool := false
  /-- measured azimuth and speed, 2CA0h; reset 0 -/
  mAz : Rat := 0
  mN : Rat := 0
  deriving DecidableEq, Repr

/-- One set point of an allocation: azimuth ° (rudder angle for kind 03h, log 20), gross thrust kN, command n* %, turn flag
(Table 9-8). -/
structure Point where
  az : Rat := 0
  t : Rat := 0
  n : Rat := 0
  turn : Nat := 0
  deriving DecidableEq, Repr

/-- An allocation in force (R15, R18). -/
structure Alloc where
  /-- set points by thruster -/
  pts : List (Nat × Point) := []
  /-- sample in which it was applied, R24 -/
  sample : Nat := 0
  /-- groups whose ramp-down limit its solve lifted, R285 -/
  lifted : Nat := 0
  /-- frame of the model result its solve took, R286; none for Stubble and Lever -/
  plant : Option Nat := none
  /-- equipment its case contains, (kind, number), when it came by a promotion -/
  covers : List (Nat × Nat) := []
  /-- no allocation has been applied since the restart -/
  any : Bool := false
  deriving DecidableEq, Repr

/-- A side change in progress (R216). -/
structure Side where
  /-- forbidden sector 0-3 being crossed -/
  sector : Nat
  /-- clockwise through the sector -/
  cw : Bool
  deriving DecidableEq, Repr

/-- The part of Tiller's state that the full mirror carries (R232). -/
structure TillCore where
  /-- ADMM iterates of the last solve, R222; reset none -/
  x : List Rat := []
  z : List Rat := []
  y : List Rat := []
  /-- the previous solution, by thruster its stages (azimuth ° or rudder angle, thrust kN): the references of R217 -/
  plan : List (Nat × List (Rat × Rat)) := []
  /-- side changes in progress and dwell counts at a sector edge (edge number 2 × sector + end), R216 -/
  side : List (Nat × Side) := []
  dwell : List (Nat × (Nat × Nat)) := []
  /-- samples left before a new side change may start, R216 -/
  block : List (Nat × Nat) := []
  /-- the next solve cold-starts, with its cause 1-4 in the order of R222; reset 1 -/
  cold : Option Nat := some 1
  deriving DecidableEq, Repr

/-- A solve that has completed (R221): its plan, the residuals and what gave way. -/
structure Solve where
  sample : Nat
  plan : List (Nat × List (Rat × Rat))
  rp : Rat
  rd : Rat
  merit : Rat
  it : Nat
  cold : Bool
  promoted : Bool
  lifted : Nat
  short : Nat
  /-- bounds P̄ by group after R220 and the group of each thruster (15 none) at the start of f4 -/
  bounds : List Rat
  groups : List Nat
  /-- thrusters available at f4 -/
  avail : Nat
  /-- demand τ -/
  tau : List Rat
  /-- stage 0, and the references of stage 1 (Table 9-3, "the reference command") -/
  stage0 : List (Nat × (Rat × Rat))
  refs : List (Nat × (Rat × Rat))
  /-- frame of the model result taken -/
  plant : Nat
  deriving DecidableEq, Repr

/-- The solution of a promoted case (R230): its plan without the terminal stage, the stages of that plan, and its x, z and y
where the unit solved the case itself; from the mirror the plan alone (R444). -/
structure CaseStart where
  plan : List (Nat × List (Rat × Rat))
  stages : Nat
  sol : Option (List Rat × List Rat × List Rat)
  deriving DecidableEq, Repr

/-- Tiller (chapter 09). -/
structure Tiller where
  core : TillCore := {}
  /-- the solve of this sample, until it is published -/
  sol : Option Solve := none
  /-- the last completed solution and what was applied of it, R228 -/
  last : Option Solve := none
  /-- set points published in this sample, to be applied at f8 -/
  out : Option Alloc := none
  /-- delivered force published (R224) -/
  delivered : List Rat := [0, 0, 0]
  /-- saturation and shortfall signs as at the last publication (R188) -/
  sat : Nat := 0
  satSign : Nat := 0
  clip : Bool := false
  held : Bool := false
  conv : Bool := true
  /-- a numeric fault of this sample -/
  fault : Bool := false
  /-- sample of the last solve, and whether it started cold, R222, R239 -/
  solved : Option Nat := none
  cold : Bool := false
  /-- overruns, R228 -/
  overs : List Nat := []
  lastOver : Option Nat := none
  /-- available thrusters at the last solve, event 070Ch -/
  avail : Nat := 0
  /-- a case was promoted at this sample's f0, R230, and its solution as the warm start -/
  promoted : Option Nat := none
  start : Option CaseStart := none
  deriving DecidableEq, Repr

/-- One removal in force (R250-R254): equipment kind as the type codes of Table 10-1 (1 thruster, 2 section, 3 generator,
4 tie), number, source (1 drive status, 2 breaker feedback, 3 mismatch), joined by a promotion. -/
structure Removal where
  kind : Nat
  num : Nat
  source : Nat
  promoted : Bool
  /-- device time since which its equipment has reported restored, R254 -/
  since : Option Nat := none
  /-- a clear was commanded (3002h) -/
  clear : Bool := false
  deriving DecidableEq, Repr

/-- A case of the case set (chapter 10). -/
structure CaseSt where
  /-- stage plans, R217; stage H_c + 1 last -/
  plan : List (Nat × List (Rat × Rat)) := []
  /-- stages of that plan, the terminal one among them -/
  stages : Nat := 0
  /-- its next solve starts cold, R237, R239 -/
  cold : Bool := false
  x : List Rat := []
  z : List Rat := []
  y : List Rat := []
  /-- stage-1 set points (R223) -/
  pts : List (Nat × Point) := []
  margin : Nat := 255
  shortfall : List Rat := [0, 0, 0]
  merit : Rat := 0
  age : Nat := 0
  invalid : Bool := false
  skipped : Bool := false
  notConv : Bool := false
  lifted : Nat := 0
  /-- frame of the model result its solve took -/
  plant : Nat := 0
  /-- removal set it was last solved for -/
  rem : List (Nat × Nat) := []
  deriving DecidableEq, Repr

/-- The case set as published at f(N-1) and carried by the full mirror (Table 17-3 block 14h). -/
structure CaseEntry where
  num : Nat
  margin : Nat
  rank : Nat
  plan : List (Nat × List (Rat × Rat))
  /-- stage-1 set points formed under R223 -/
  pts : List (Nat × Point) := []
  lifted : Nat
  deriving DecidableEq, Repr

/-- Stook (chapter 10). -/
structure Stook where
  cases : List (Nat × CaseSt) := []
  /-- detections latched since the previous f0: kind, number, source -/
  det : List (Nat × Nat × Nat) := []
  /-- the Lead's detections as its fast mirrors carry them, R253 -/
  leadDet : List (Nat × Nat × Nat) := []
  /-- removals in force, R250; reset none -/
  rem : List Removal := []
  /-- last promoted case, FFh none, 3040h:0Eh -/
  lastCase : Nat := 255
  promotedNow : Bool := false
  unmatched : Bool := false
  /-- consequence alarm, R245; reset false -/
  alarm : Bool := false
  below : Nat := 0
  full : Nat := 0
  /-- ranking published, case numbers -/
  ranking : List Nat := []
  /-- cases swept in this sample -/
  swept : Nat := 0
  /-- horizon in force, R237; reset 0 before the first f0 -/
  horizon : Nat := 0
  /-- case set published for the previous sample, whether by this unit, and the Lead's as last accepted, R26, R253 -/
  set : List CaseEntry := []
  setOwn : Bool := false
  lead : List CaseEntry := []
  /-- the sweep and the case set of the sample in progress are still to come, R54, R576; reset false -/
  sweepDue : Bool := false
  /-- cases of the sweep in progress that the fast cap has left unstarted so far, R517; reset none -/
  waiting : List Nat := []
  setDue : Bool := false
  /-- not-ready records in a row and frame of the last record, by thruster, Table 10-3 -/
  notReady : List (Nat × Nat) := []
  /-- thrusters whose silence has latched since their last record, Table 10-3 -/
  silent : List Nat := []
  /-- thrusters whose not-ready records have latched since their last ready record, Table 10-3 -/
  down : List Nat := []
  /-- device time since which every record has reported ready, by thruster -/
  readyFrom : List (Nat × Nat) := []
  deriving DecidableEq, Repr

/-- The part of Stubble's state that the full mirror carries (R272). -/
structure StubCore where
  /-- integrators I_S, internal units, R257; reset 0 -/
  integ : List Int := [0, 0, 0]
  /-- driving, R262; reset false -/
  driving : Bool := false
  /-- blend direction (true to Stubble) and step 1-10, R264; reset none -/
  blend : Option (Bool × Nat) := none
  /-- frozen allocation, R263 -/
  frozen : List (Nat × Point) := []
  /-- a handover cause decided in this sample, to begin at the next f0, R262, and whether it was decided in modes 2 to 5, so
  that it blends, R269 -/
  cause : Option Nat := none
  blends : Bool := false
  /-- a return decided at f8, 1 automatic, 2 on request, R266 -/
  ret : Option Nat := none
  locked : Bool := false
  /-- device times of handovers, and the cause of the last, R267; reset none -/
  history : List Nat := []
  lastCause : Nat := 0
  deriving DecidableEq, Repr

/-- Stubble (chapter 10). -/
structure Stubble where
  core : StubCore := {}
  /-- sign of the limit that acted, R257 -/
  lim : List Int := [0, 0, 0]
  clamped : List Bool := [false, false, false]
  /-- axes that came under control since the last run, R257 -/
  entered : Nat := 0
  /-- demand of the previous run, internal units, R257 -/
  tauPrev : List Int := [0, 0, 0]
  /-- set points and delivered force of this sample -/
  pts : List (Nat × Point) := []
  delivered : List Rat := [0, 0, 0]
  published : Bool := false
  clipped : Bool := false
  fallback : Bool := false
  lost : Bool := false
  good : Nat := 0
  /-- divergence count, the last d, dwell count, R261, R266 -/
  count : Nat := 0
  d : Rat := 0
  divergent : Bool := false
  countHeld : Bool := false
  dwell : Nat := 0
  /-- the last sample had an overrun of Culm or Tiller or no convergence (breaks the dwell, R266) -/
  bad : Bool := false
  /-- the law took a held estimate, bit 0 of 3212h:04h -/
  estHeld : Bool := false
  deriving DecidableEq, Repr

/-- A published result of the power-plant model (R280, R281). -/
structure PlantRes where
  frame : Nat := 0
  online : Nat := 0
  ties : Nat := 0
  energised : Nat := 0
  /-- group of each section, 15 dead or disabled -/
  group : List Nat := List.replicate 8 15
  /-- the set of joined sections that each enabled section belongs to, by its lowest, whether it has a generator or not; 15
  disabled, R280 step 3 -/
  label : List Nat := List.replicate 8 15
  /-- non-thruster load by section, R281 -/
  load : List Rat := List.replicate 8 0
  c : List Rat := List.replicate 8 0
  l : List Rat := List.replicate 8 0
  r : List Rat := List.replicate 8 0
  bound : List Rat := List.replicate 8 0
  plr : List Rat := List.replicate 8 0
  deriving DecidableEq, Repr

/-- A breaker or ready reading (R278, R279): 0-15 generator breakers, 16-23 ties, 32-47 ready inputs. -/
structure Contact where
  /-- confirmed state; reset false (open, not ready; DESIGN CHOICE, log 1) -/
  closed : Bool := false
  /-- the reading sampled now and for how many frames it has stood -/
  cand : Option Bool := none
  count : Nat := 0
  /-- frames in which the two contacts have read alike -/
  alike : Nat := 0
  disc : Bool := false
  lost : Bool := false
  deriving DecidableEq, Repr

/-- The part of the plant's state that the fast mirror carries (R289). -/
structure PlantCore where
  /-- LR lines asserted, with the time of assertion, R288; reset none -/
  lr : List (Nat × Nat) := []
  /-- time since which a line's release condition has held -/
  calm : List (Nat × Nat) := []
  /-- scaled groups: group, frame fx of the first event and of the last, R284, R286 -/
  scaled : List (Nat × (Nat × Nat)) := []
  deriving DecidableEq, Repr

/-- The power-plant model (chapter 11). -/
structure Plant where
  core : PlantCore := {}
  contacts : List (Nat × Contact) := []
  /-- newest result, and the one published in f3 of this sample, R219 -/
  res : PlantRes := {}
  f3 : PlantRes := {}
  /-- λ by group and thruster power at the emitted commands -/
  lambda : List Rat := List.replicate 8 1
  power : List Rat := List.replicate 8 0
  /-- groups scaled in this frame (R284, R287) -/
  now : Nat := 0
  /-- a split in this frame; groups changed in this frame; groups of it whose event 0A04h is still to be recorded -/
  split : Bool := false
  changed : Nat := 0
  untold : Nat := 0
  /-- equipment detected, by frame, for R286 -/
  seen : List (Nat × (Nat × Nat)) := []
  /-- overruns by frame, R291 -/
  overs : List Nat := []
  overNow : Bool := false
  deriving DecidableEq, Repr

/-- Everything of chapters 08 to 11. -/
structure Control where
  culm : Culm := {}
  inner : List (Nat × Inner) := []
  /-- frames in which the inner-loop slot overran, R204 -/
  innerOver : List Nat := []
  /-- the allocation in force, R15; reset none applied -/
  alloc : Alloc := {}
  till : Tiller := {}
  stook : Stook := {}
  stub : Stubble := {}
  plant : Plant := {}
  /-- set points of Lever: 2220h and 2221h as they stood at f0, from f8 on, R198; while the loops track, their commands (log
  144); reset none -/
  lever : List (Nat × Point) := []
  /-- the inner loops take `lever`, not the allocation in force, R18, R198; reset false -/
  leverOn : Bool := false
  /-- azimuth and speed commands in force at the epoch, R161 -/
  atEpoch : List (Nat × (Rat × Rat)) := []
  deriving DecidableEq, Repr

end Sys2Proof.Machine
end

