-- ==== Sys2Proof/Machine/PartsField.lean ====
section
/-! DEFINITION. The part of the state of the field network (chapter 18). -/
namespace Sys2Proof.Machine

/-- What is known of a node (R468, R470, R471). -/
structure NodeSt where
  /-- last accepted sequence; none after a restart or a loss, R470 -/
  seq : Option Nat := none
  /-- frame of the last valid arrival on networks A and B, R466 -/
  onA : Option Nat := none
  onB : Option Nat := none
  /-- device time of the last arrival -/
  at' : Nat := 0
  /-- lost, R468; reset false -/
  lost : Bool := false
  /-- device time of the last event 1007h, R470 -/
  noted : Option Nat := none
  /-- newest node data record: its words and the frame it came in -/
  data : List Nat := []
  dataAt : Nat := 0
  deriving DecidableEq, Repr

/-- Newest accepted feedback record of a thruster's drive (Table 18-5). -/
structure Drive where
  status : Nat := 0
  az : Rat := 0
  n : Rat := 0
  thrust : Rat := 0
  power : Rat := 0
  /-- the fields are finite numbers -/
  ok : Bool := true
  frame : Nat := 0
  deriving DecidableEq, Repr

/-- A record sent (Table 18-3, 18-4): type, node, time of validity, words. -/
structure KppRec where
  type : Nat
  node : Nat
  tov : Nat
  words : List Nat
  deriving DecidableEq, Repr

/-- A KPP frame sent (Table 18-3): its tag, the IPv4 group, the UDP port of source and destination and the TTL (R462, R469), the
source node, sequence, R-TAG sequence, vessel status word, frame counter, records. -/
structure KppOut where
  tag : VlanTag := {}
  group : Nat := 0
  port : Nat := 0
  ttl : Nat := 1
  node : Nat := 0
  seq : Nat
  rtag : Nat
  status : Nat
  frame : Nat
  recs : List KppRec
  deriving DecidableEq, Repr

/-- An external port of the switch (R460). -/
structure NetPort where
  up : Bool := false
  speed : Nat := 0
  deriving DecidableEq, Repr

/-- The field network (chapter 18). -/
structure Net where
  nodes : List (Nat × NodeSt) := []
  /-- feedback by thruster; reset none received -/
  drives : List (Nat × Drive) := []
  /-- thruster command records the Lead emits in this frame, R24; reset none -/
  cmds : List KppRec := []
  /-- KPP frames queued in this frame and not yet transmitted, R464 -/
  queued : List KppOut := []
  /-- frame from which the silence of a node never heard counts, R468; reset 0 -/
  since : Nat := 0
  /-- KPP sequence and R-TAG sequence of this unit, R465, R469; reset 0 (DESIGN CHOICE, log 1) -/
  seq : Nat := 0
  rtag : Nat := 0
  /-- R-TAG history by source MAC: newest numbers received and the time of the last, R465 -/
  recov : List (Nat × (List Nat × Nat)) := []
  /-- frames without arrivals and with arrivals by network 0 A, 1 B, and lost, R466; reset 0, false -/
  quiet : List (Nat × Nat) := []
  good : List (Nat × Nat) := []
  /-- networks on which something valid arrived in this frame -/
  heard : Nat := 0
  lostNets : Nat := 0
  /-- frames since the last window loss, R464, and a loss in this frame -/
  winGood : Nat := 0
  winLoss : Bool := false
  ports : List (Nat × NetPort) := []
  /-- device time at which start-up configured the ports, R461; reset 0 -/
  phyFrom : Nat := 0
  /-- console records: node × 8 + record, words -/
  console : List (Nat × List Nat) := []
  /-- receive map: last value written successfully by entry number, and the value of a recorded refusal, R474 -/
  wrote : List (Nat × Nat) := []
  refused : List (Nat × Nat) := []
  /-- off the field-network path, Table 18-9 bit 2 -/
  offPath : Bool := false
  deriving DecidableEq, Repr

end Sys2Proof.Machine
end

