-- ==== Sys2Proof/Machine/PartsIO.lean ====
section
/-! DEFINITION. The parts of the state of Chaff (chapter 06), the feedback channels (14) and the ports (15). -/
namespace Sys2Proof.Machine

/-- A stage of a Chaff chain (Table 6-4) with its running state. -/
structure ChStage where
  kind : Nat
  variant : Nat
  length : Nat
  dec : Nat
  shift : Nat
  declared : Nat
  /-- parameters A and B -/
  a : Rat
  b : Rat
  coeffs : List Int
  /-- delay line (FIR, newest first) or states (IIR, notch, low-pass), in 2^-31; reset 0, R148 -/
  st : List Int := []
  /-- input samples consumed since the restart, R149 -/
  fed : Nat := 0
  /-- notch centre in force, R144; reset 0.10 Hz -/
  fc : Rat := 1 / 10
  /-- the last retune met the 2 % step limit -/
  stepLimited : Bool := false
  deriving DecidableEq, Repr

/-- An output of a Chaff channel: index at its rate, time of validity ns, value in 2^-31, delivered, restart mark. -/
structure ChOut where
  idx : Nat
  tov : Rat
  y : Int
  delivered : Bool
  mark : Bool
  deriving DecidableEq, Repr

/-- A Chaff channel (chapter 06). -/
structure Chan where
  /-- the chain in force as its channel record (Table 6-4), R153; reset none (a chain of 0 stages) -/
  record : List Byte := []
  /-- the running chain: its stages, reference frequency, input and output scales and offset; it follows `record` at a
  restart (R148) -/
  stages : List ChStage := []
  ref : Rat := 0
  inScale : Rat := 1
  outScale : Rat := 1
  outOff : Rat := 0
  /-- source and address of the running chain, R139, R148 -/
  src : Nat := 0
  addr : Nat := 0
  /-- restarts that wait for the first input sample at or after their epoch: epoch ns, cause, record (R148); reset none -/
  due : List (Nat × Nat × List Byte) := []
  /-- the upstream channel has restarted and this one has not yet, R148 -/
  up : Bool := false
  /-- instant ns before which input samples belong to a configuration that has gone, R148 -/
  fromT : Nat := 0
  /-- retunes that wait for the first input sample at or after their epoch: epoch ns, wave frequency Hz (R144); reset none -/
  tunes : List (Nat × Rat) := []
  /-- settling after a restart, R149, and its cause -/
  settling : Bool := false
  cause : Nat := 0
  /-- the next delivered output carries the restart mark, R150 -/
  mark : Bool := false
  /-- device time before which analog samples are discarded, R149 -/
  fillUntil : Nat := 0
  /-- outputs of this frame -/
  outs : List ChOut := []
  /-- latched input that the next slot processes: instant ns and value, R138, R141 -/
  latch : Option (Nat × Rat) := none
  /-- a delivered output exists, and the frame of the last one -/
  last : Option (Rat × Rat) := none
  lastFrame : Nat := 0
  /-- the last output saturated; overrun in the last frame -/
  satLast : Bool := false
  overLast : Bool := false
  /-- the slot has run in this frame -/
  ran : Bool := false
  deriving DecidableEq, Repr

/-- Chaff (chapter 06). -/
structure Chaff where
  chans : List (Nat × Chan) := []
  /-- frames of overruns of any channel, R152 -/
  overs : List Nat := []
  /-- channels to restart at the next frame, with the cause of event 0406h: 1 restart, 2 source, 3 set, 4 upstream; reset
  none -/
  pend : List (Nat × Nat) := []
  /-- decimator samples of the frame before by analog input, as the first slot of the frame that used them gave them (R140) -/
  grid : List (Nat × List Rat) := []
  deriving DecidableEq, Repr

/-- A compare position (R376-R379). -/
structure Compare where
  armed : Bool := false
  behind : Bool := false
  fired : Bool := false
  /-- compare count c* -/
  count : Int := 0
  /-- written and waiting for the next frame, R376 -/
  pending : Bool := false
  /-- mode 3A20h + n:05h-08h in force since the arming instant, R376 -/
  mode : Nat := 0
  deriving DecidableEq, Repr

/-- Latched estimate of a channel (R372, R373). -/
structure ChEst where
  p : Rat := 0
  v : Rat := 0
  a : Rat := 0
  posOk : Bool := false
  spdOk : Bool := false
  deriving DecidableEq, Repr

/-- An encoder channel (chapter 14). -/
structure Enc where
  /-- filtered levels A, B, Z; reset 0 -/
  lv : List Bool := [false, false, false]
  /-- count, unwrapped for the observer in modulo mode; reset 0 -/
  count : Int := 0
  /-- tracking observer p, v, a in counts and time of its last update, R371; reset 0 -/
  p : Rat := 0
  v : Rat := 0
  a : Rat := 0
  tu : Rat := 0
  /-- an update since the restart has occurred -/
  begun : Bool := false
  missing : Bool := false
  /-- an illegal transition in this update period, R362 -/
  bad : Bool := false
  /-- frame of the last non-missing update, R373 -/
  goodAt : Option Nat := none
  referenced : Bool := false
  /-- device time of the channel's restart -/
  restartAt : Nat := 0
  fault : Bool := false
  atLimit : Bool := false
  /-- device times of illegal transitions in the last second, and the last -/
  illegal : List Nat := []
  lastIllegal : Nat := 0
  /-- consecutive missing and passing reads, R367 -/
  miss : Nat := 0
  pass : Nat := 0
  /-- 0 standing, 1 increasing, 2 decreasing, and the last non-standing value, R375 -/
  dir : Nat := 0
  lastDir : Nat := 0
  /-- home is armed, and the home event has occurred since, R370 -/
  armed : Bool := false
  homed : Bool := false
  /-- SSI: this unit drives the clock; frame of the last clock edge seen; read in progress latched at; previous read -/
  driving : Bool := false
  edgeAt : Option Nat := none
  reading : Option Nat := none
  prev : Option (Int × Nat) := none
  /-- a read that waits for the observer's update: its latch instant and whether it was missing -/
  upd : Option (Nat × Bool) := none
  compares : List Compare := [{}, {}, {}, {}]
  est : ChEst := {}
  deriving DecidableEq, Repr

/-- A magnetic-switch input (R380). -/
structure Mag where
  level : Bool := false
  deriving DecidableEq, Repr

/-- A serial port (chapter 15). -/
structure Serial where
  /-- bytes being sent, R386; reset none -/
  tx : Option (List Byte) := none
  /-- time of the last event 1201h and the error counts then -/
  noted : Option Nat := none
  base : Nat := 0
  deriving DecidableEq, Repr

/-- GST information of a port and talker (R389): stamp and σ, device time. -/
structure Gst where
  stamp : Int
  sigma : Rat
  at' : Nat
  deriving DecidableEq, Repr

/-- An IMU port (R396-R400). -/
structure Imu where
  /-- DRDY stamp of the read in progress; reset none -/
  reading : Option Nat := none
  lastEdge : Nat := 0
  bad : Nat := 0
  good : Nat := 0
  fault : Bool := false
  /-- the port has been enabled since this device time -/
  since : Nat := 0
  /-- newest fields, Table 15-4, and time of validity; reset 0 -/
  fields : List Rat := [0, 0, 0, 0, 0, 0, 0]
  tov : Nat := 0
  deriving DecidableEq, Repr

/-- Serial, IMU, analog and discrete ports (chapter 15). -/
structure Ports where
  serial : List (Nat × Serial) := []
  /-- GST by port × 65536 + talker -/
  gst : List (Nat × Gst) := []
  /-- datagrams accepted within 1.0 s: "s:", "n:", time, R394 -/
  dup : List (List Byte × List Byte × Nat) := []
  /-- labels for PPS edges (R338, R390): source × 2^24 + code × 2^16 + talker, with the TAI time and the arrival -/
  labels : List (Nat × (Int × Nat)) := []
  imu : List (Nat × Imu) := []
  /-- analog range in force by input, R403; reset 0 -/
  ranges : List (Nat × Nat) := []
  /-- newest analog samples, share of full scale, and overload bits; reset 0 -/
  analog : List (Nat × Rat) := []
  overload : Nat := 0
  /-- voltage of AREF1 as last reported; AREF1 is low, R402; reset 2.5 V (DESIGN CHOICE, log 1), false -/
  arefV : Rat := 5 / 2
  /-- boundary scan, R552; reset in Test-Logic-Reset -/
  tap : Tap := {}
  aref : Bool := false
  /-- DIO pad levels, filtered, R405; reset 0 -/
  dio : Nat := 0
  /-- levels that Panicle owns (R404), and compare pulses by line with their end -/
  panDio : Nat := 0
  pulses : List (Nat × Nat) := []
  /-- lines driven and levels driven; lines held at their fail level -/
  driven : Nat := 0
  level : Nat := 0
  /-- SAFE levels, R409; reset 00h -/
  safe : Nat := 0
  /-- SAFE overcurrent bits, LR overcurrent bits, 4E30h:09h -/
  overs : Nat := 0
  overLr : Nat := 0
  /-- time of the last attempt on an overcurrent SAFE line, R410 -/
  retry : List (Nat × Nat) := []
  /-- supervisor drove every line low (R408), until a restart -/
  latchedLow : Bool := false
  /-- WAKE_N pad is low -/
  wake : Bool := false
  deriving DecidableEq, Repr

/-- The feedback channels (chapter 14). -/
structure Feedback where
  enc : List (Nat × Enc) := []
  mag : List (Nat × Mag) := []
  deriving DecidableEq, Repr

end Sys2Proof.Machine
end

