-- ==== Sys2Proof/Machine/PartsTime.lean ====
section
/-! DEFINITION. The parts of the state of the GNSS baseband (chapter 12) and the timebase (13), and what their commands
carry. -/
namespace Sys2Proof.Machine

/-! What a measurement epoch brings: the outputs of the correlators, the least-squares solver and the ambiguity search,
for which chapter 12 gives no computation (log 40). -/

/-- A tracked channel's measurement at the epoch (Table 12-8); `flags` bits 15, 14, 13, 12, 8 and 3 of Table 12-9;
`jump` the phase jump in cycles over a coast that has ended; `el` the satellite's elevation in degrees. -/
structure GMeas where
  chan : Nat
  sys : Nat
  sat : Nat
  sig : Nat
  ant : Nat
  flags : Nat
  range : Nat
  phase : Int
  doppler : Int
  cn0 : Nat
  rangeSd : Nat
  phaseSd : Nat
  jump : Rat
  el : Rat
  deriving DecidableEq, Repr

/-- A least-squares solution with its residual test statistic and the satellite that fits worst. -/
structure GSol where
  sats : List Nat
  stat : Rat
  worst : Nat
  /-- latitude, longitude in 10^-9 degrees -/
  lat : Int
  lon : Int
  h : Rat
  /-- velocity N, E, D -/
  vel : List Rat
  sH : Rat
  sV : Rat
  sVel : Rat
  pdop : Rat
  /-- clock offset ns and drift ps/s -/
  clock : Int
  drift : Int
  deriving DecidableEq, Repr

/-- The ambiguity search of a baseline: satellites in carrier lock on both antennas for 2 s, ratio of the second-best to
the best residual sum, fixed vector N, E, D, double-difference RMS in cycles, line bias. -/
structure GBase where
  ant : Nat
  sats : Nat
  ratio : Rat
  vec : List Rat
  rms : Rat
  bias : Rat
  deriving DecidableEq, Repr

/-- A satellite of the direction test (R321): line of sight N, E, D, measured single differences by antenna, cycles. -/
structure GDir where
  id : Nat
  los : List Rat
  phi : List (Nat × Rat)
  deriving DecidableEq, Repr

/-- A measurement epoch (R308). -/
structure GEpoch where
  t : Nat
  meas : List GMeas
  /-- solutions with 0, 1 and 2 satellites excluded -/
  sols : List GSol
  bases : List GBase
  /-- rotation solved from two or more non-collinear fixed baselines: heading, pitch, roll -/
  rot : List Rat
  /-- their standard deviations; heave of the reference centre, high-passed at 0.02 Hz -/
  rotSd : List Rat
  heave : Rat
  dirs : List GDir
  /-- magnitude-bit duty of the ports -/
  duty : List Rat
  deriving DecidableEq, Repr

/-- A sample port (R295, R319). -/
structure GPort where
  /-- conditions of R295 that hold: bit 0 no clock, 1 off frequency, 2 duty stuck, 3 front end (R298); reset 0 -/
  cond : Nat := 0
  fault : Bool := false
  /-- device time since which none has held -/
  okFrom : Option Nat := none
  /-- clock offset ppm and duty, 3644h; reset 0 -/
  ppm : Rat := 0
  duty : Rat := 0
  /-- device time since which the duty is out of limits, the C/N0 drop holds -/
  dutyFrom : Option Nat := none
  dropFrom : Option Nat := none
  /-- indicators power, C/N0, R319; reset false -/
  power : Bool := false
  cn0 : Bool := false
  /-- excluded by an indicator, R320 -/
  excl : Bool := false
  /-- the newest sample at a captured edge, I and Q, R293; reset none -/
  sample : Option (Int × Int) := none
  deriving DecidableEq, Repr

/-- What a component integrates over (R304). -/
inductive Integ where
  | codePeriod | dataBit | coherent (ms : Nat)
  deriving DecidableEq, Repr

/-- The loops of a tracking channel (R304, R305): the PLL's bandwidth in force, the FLL assisting, the carrier-aided DLL's
bandwidth, discriminator and spacing, what its data and pilot components integrate over, and the carrier (Hz) and code
(chip/s) of its oscillators; reset closed on nothing. -/
structure GLoop where
  pll : Rat := 0
  fll : Bool := false
  dll : Rat := 0
  doubleDelta : Bool := false
  spacing : Rat := 0
  data : Integ := .codePeriod
  pilot : Option Integ := none
  nco : Rat × Rat := (0, 0)
  deriving DecidableEq, Repr

/-- A sample clock pair (R294): rising edges counted at the newest capture, and the captures of the last 66 ms as edge count
and device time ns; reset none. -/
structure GClock where
  edges : Nat := 0
  caps : List (Nat × Rat) := []
  deriving DecidableEq, Repr

/-- A tracking channel (R303-R307). -/
structure GChan where
  sys : Nat := 0
  sat : Nat := 0
  sig : Nat := 0
  ant : Nat := 0
  /-- 1 pulling in, 2 tracking, 3 coasting -/
  state : Nat := 1
  /-- device time from which the lock time counts, and the lock time held over a coast -/
  lockAt : Nat := 0
  coastAt : Nat := 0
  slip : Bool := false
  /-- consecutive side-peak checks, and the code moved, in half chips -/
  side : Nat := 0
  moved : Int := 0
  el : Rat := 0
  /-- bit synchronisation is found, and the loops, R304 -/
  bitSync : Bool := false
  loop : GLoop := {}
  deriving DecidableEq, Repr

/-- A detection that waits for lock (R299). -/
structure GDet where
  port : Nat
  sys : Nat
  sat : Nat
  sig : Nat
  until' : Nat
  deriving DecidableEq, Repr

/-- A snapshot (Table 12-13). -/
structure Snap where
  seq : Nat
  cause : Nat
  ms : Nat
  trigger : Nat
  ports : Nat
  /-- bytes 96-171 of the container, fixed at capture -/
  tail : List Byte
  /-- bytes 32-95 of the container, and by port the count of the first sample, in the run of the sample clocks that began at
  device time `era` -/
  first : List Byte := []
  from' : List (Nat × Nat) := []
  era : Nat := 0
  keep : Bool := false
  await : Bool := false
  deriving DecidableEq, Repr

/-- A navigation record (Table 12-10). -/
structure NavRec where
  seq : Nat
  sys : Nat
  sat : Nat
  sig : Nat
  msg : Nat
  first : Nat
  bits : Nat
  check : Nat
  ant : Nat
  bytes : List Byte
  deriving DecidableEq, Repr

/-- The GNSS baseband (chapter 12). -/
structure Gnss where
  ports : List (Nat × GPort) := []
  /-- clock pairs GCK0 (L1) and GCK1 (L5), R294; reset none -/
  clocks : List (Nat × GClock) := []
  /-- GFE_EN0, GFE_EN1 asserted, with the time of assertion, R296; reset none -/
  en : List (Nat × Nat) := []
  /-- the script is to run from this device time, R296, R297; reset none -/
  scriptDue : Option Nat := none
  /-- the next retry after a failure, R298; reset none -/
  retry : Option Nat := none
  /-- SPI transfers of the last run: chip select, address, value -/
  spi : List (Nat × Nat × Nat) := []
  chans : List (Nat × GChan) := []
  dets : List GDet := []
  /-- last measurement epoch, R308; reset 0 -/
  epoch : Nat := 0
  /-- the latest epoch had a valid position output, R309; reset false -/
  valid : Bool := false
  fixed : Bool := false
  /-- loss began, R327 -/
  lossAt : Option Nat := none
  lastSearch : Nat := 0
  cold : Bool := false
  /-- return hold; time since which there is no exclusion after the return -/
  hold : Bool := false
  cleanFrom : Nat := 0
  /-- field decided (bits 16-14 take it at the next frame) and time since which it is 000b; reset 001b -/
  field : Nat := 1
  nominalFrom : Option Nat := none
  /-- the offset offered to the timebase, R310; reset not offered -/
  offered : Bool := false
  offset : Int := 0
  /-- clock drift of the last solution, ps/s, R305; reset 0 -/
  drift : Int := 0
  /-- an exclusion under R308 at the latest epoch, Table 12-11; reset false -/
  excluded : Bool := false
  jammed : Nat := 0
  calmFrom : List (Nat × Nat) := []
  /-- coincident set, R322, R323 -/
  set : List Nat := []
  suspected : Bool := false
  lastSet : Nat := 0
  lastPair : Nat := 0
  spanFrom : Option Nat := none
  declared : Bool := false
  clearReq : Bool := false
  motion : Bool := false
  velInc : Rat := 0
  /-- velocity differences of 5 s; heading and yaw-rate integral of 10 s, R324 -/
  vels : List (Nat × List Rat) := []
  heads : List (Nat × Rat) := []
  yawInt : Rat := 0
  /-- fixed baselines by antenna: line bias and fixed vector, R315-R317 -/
  bases : List (Nat × (Rat × List Rat)) := []
  /-- C/N0 baselines by signal, antenna, elevation bin: sum of dB-Hz × s, and s, R319 -/
  base : List (Nat × (Rat × Rat)) := []
  /-- DRAM slots and archive, R328-R330; the sequence, kept through restart; reset 0 (DESIGN CHOICE, log 1) -/
  snaps : List (Nat × Snap) := []
  archive : List Snap := []
  snapSeq : Nat := 0
  /-- navigation queue, R312, and the next sequence -/
  nav : List NavRec := []
  navSeq : Nat := 0
  /-- newest checked message by system, satellite, message, with its time: ephemerides and almanac -/
  eph : List (Nat × (Nat × List Byte)) := []
  /-- vector mode acts, R305, with the antenna velocities that drive the channels, N, E, D m/s -/
  vector : Bool := false
  drive : List (Nat × List Rat) := []
  /-- position at Dormancy entry, and the time of the last check, R332 -/
  dormPos : Option (Int × Int × Rat) := none
  /-- latest valid position, R308; reset none -/
  lastPos : Option (Int × Int × Rat) := none
  dormCheck : Nat := 0
  /-- a Dormancy check has moved, Table 21-4 bit 2 -/
  moved : Bool := false
  /-- device time since which the baseband runs, for the time to first fix -/
  runFrom : Option Nat := none
  deriving DecidableEq, Repr

/-- An entry of the source table (R337-R344). -/
structure Src where
  /-- the last three measurements, oldest first: device time, θ ns -/
  meas : List (Nat × Rat) := []
  qualified : Bool := false
  refused : Bool := false
  /-- a measurement that waits for TIME_MEASUREMENT -/
  next : Option Rat := none
  /-- PPS: the last two edges, oldest first, ns; the edge last measured; an edge off the 1 s grid; the time of the last
  labelled edge -/
  edges : List Rat := []
  done : Option Rat := none
  off : Bool := false
  labelled : Nat := 0
  /-- single measurements beyond the jump threshold, discarded (R344); reset 0 -/
  outliers : Nat := 0
  deriving DecidableEq, Repr

/-- A grandmaster's dataset as an Announce carries it (R357). -/
structure Dataset where
  prio1 : Nat
  cls : Nat
  accuracy : Nat
  variance : Nat
  prio2 : Nat
  identity : Nat
  steps : Nat
  timeSource : Nat
  deriving DecidableEq, Repr

/-- PTP (R352-R357). -/
structure Ptp where
  /-- grandmaster in use, its port and the time of its last Announce and Sync; reset none -/
  gm : Option Dataset := none
  port : Nat := 0
  announced : Nat := 0
  synced : Nat := 0
  /-- last Sync: t1 and t2 ns -/
  sync : Option (Int × Int) := none
  /-- mean path delay ns, 3840h:0Dh; reset 0 -/
  delay : Rat := 0
  /-- mean link delay by port, peer profile; reset 0 -/
  link : List (Nat × Rat) := []
  /-- sequence numbers of this unit's Sync and Delay_Req -/
  syncSeq : Nat := 0
  delaySeq : Nat := 0
  /-- exchanges under way: (messageType, sequenceId, port) sent, and their egress times once read -/
  sent : List (Nat × Nat × Nat) := []
  times : List (Nat × Nat × Nat) := []
  /-- transmit timestamp queues of N0-N3: (messageType, sequenceId, time), and overflow flags -/
  queues : List (Nat × List (Nat × Nat × Nat)) := []
  overflow : Nat := 0
  lostNow : Nat := 0
  /-- Follow_Up messages sent: sequence, origin time -/
  followUps : List (Nat × Nat) := []
  /-- correctionField of the last forwarded event, 2^-16 ns -/
  forwarded : Int := 0
  deriving DecidableEq, Repr

/-- The timebase (chapter 13). -/
structure TimeB where
  /-- device time of the next frame boundary, R335; reset 1.25 ms -/
  next : Nat := 1250000
  srcs : List (Nat × Src) := []
  /-- entry in use 0-7, 8 the Lead over Halur; reset none -/
  use : Option Nat := none
  /-- rate term r and correction y, ppb, R342; reset 0 -/
  r : Rat := 0
  y : Rat := 0
  /-- time of the previous measurement of the source in use -/
  last : Option Nat := none
  theta : Rat := 0
  /-- consecutive measurements inside the lock threshold, locked, slewing, R348 -/
  inLock : Nat := 0
  locked : Bool := false
  slewing : Bool := false
  /-- measurements of the source in use for the next decision -/
  dec : List (Nat × Rat) := []
  /-- r_n while locked (time, r), R343, with the time from which the window counts; learned -/
  rates : List (Nat × Rat) := []
  learnFrom : Nat := 0
  learned : Bool := false
  rMean : Rat := 0
  /-- quality, reset 11b -/
  quality : Nat := 3
  /-- holdover began, R349; a loss whose holdover begins at the next frame -/
  holdFrom : Option Nat := none
  lost : Bool := false
  /-- step pending: second, Δ, and whether it is the initial set, R345, R347 -/
  step : Option (Nat × Int × Bool) := none
  lastStep : Int := 0
  refusedTheta : Int := 0
  /-- the initial set has taken place, R347; reset false -/
  initial : Bool := false
  /-- REF10 present, in use, R336; reset false -/
  ref10 : Bool := false
  onRef10 : Bool := false
  /-- PPS_OUT0, 1 squelched, high until, R350 -/
  squelch : Nat := 0
  ppsHigh : List (Nat × Nat) := []
  /-- TAI - UTC decoded from navigation data, and the announced change: end of its day, new value, R351 -/
  navTai : Option Int := none
  leap : Option (Nat × Int) := none
  ptp : Ptp := {}
  deriving DecidableEq, Repr

end Sys2Proof.Machine
end

