-- ==== Sys2Proof/Machine/PartsLogic.lean ====
section
/-! DEFINITION. The part of the state of the Panicle cyclic logic (chapter 16). -/
namespace Sys2Proof.Machine

/-- A variable record (Table 16-2). -/
structure PVar where
  id : Nat
  ty : Nat
  flags : Nat
  init : Nat
  deriving DecidableEq, Repr

/-- An instance record. -/
structure PInst where
  id : Nat
  kind : Nat
  flags : Nat
  deriving DecidableEq, Repr

/-- An instruction record: opcode, inversion, instance, operands A-E, results R1-R3. -/
structure PIns where
  op : Nat
  inv : Nat
  inst : Nat
  args : List Nat
  res : List Nat
  deriving DecidableEq, Repr

/-- A binding record. -/
structure PBind where
  var : Nat
  dir : Nat
  kind : Nat
  index : Nat
  sub : Nat
  bit : Nat
  addr : Nat
  deriving DecidableEq, Repr

/-- A program (R419); instances stand timers first, then counters, then edge detectors. -/
structure Prog where
  version : Nat
  pid : Nat
  nT : Nat
  nC : Nat
  nE : Nat
  vars : List PVar
  insts : List PInst
  ins : List PIns
  binds : List PBind
  deriving DecidableEq, Repr

/-- State of an instance (R422, Table 16-4): ET in 250 us, running, Q, CV, memories of the two inputs; a memory of none
is taken from its input at the first execution. -/
structure PSt where
  et : Nat := 0
  run : Bool := false
  q : Bool := false
  cv : Int := 0
  m1 : Option Bool := some false
  m2 : Option Bool := some false
  deriving DecidableEq, Repr

/-- A retain copy (R433): identifier × 256 + type or kind, with its value or state. -/
structure Retain where
  serial : Nat := 0
  valid : Bool := false
  vars : List (Nat × Val) := []
  insts : List (Nat × PSt) := []
  deriving DecidableEq, Repr

/-- A force (R430). -/
structure Force where
  id : Nat
  raw : Nat
  on : Bool
  deriving DecidableEq, Repr

/-- Panicle (chapter 16). -/
structure Panicle where
  /-- the running program; reset none -/
  prog : Option Prog := none
  /-- values by variable index, states by instance index -/
  vals : List Val := []
  sts : List PSt := []
  /-- the program and state before an exchange, until the match at the next execute phase, R428 -/
  old : Option (Prog × List Val × List PSt) := none
  /-- values and states at the preceding output phase but one, for the mirror, R427 -/
  prevVals : List Val := []
  prevSts : List PSt := []
  /-- scan length in force, R415; reset 8 -/
  len : Nat := 8
  /-- first frame of the scan, scan number since restart, inputs latched, executed -/
  start : Nat := 0
  scan : Nat := 0
  inputs : List (Nat × Val) := []
  latched : Bool := false
  executed : Bool := false
  /-- restart pending, kind 1 warm, 2 cold, and its cause 1 start, 2 command, 3 run -/
  restart : Option (Nat × Nat) := none
  /-- bits of Table 16-8 -/
  first : Bool := false
  cold : Bool := false
  firstCold : Bool := false
  exchanged : Bool := false
  unsync : Bool := false
  adopted : Bool := false
  retainInvalid : Bool := false
  /-- an accepted image waits for its scan boundary, R428 -/
  exchange : Bool := false
  /-- execute time of the last scan and the largest, us -/
  time : Rat := 0
  maxTime : Rat := 0
  forces : List Force := []
  /-- role of the session that last wrote the force list, event 0E07h -/
  forceRole : Nat := 0
  /-- output bindings whose refusal is recorded, R426 -/
  refused : List Nat := []
  /-- the Lead's changed values and states, or its full state, to be adopted at offset 1, R427 -/
  adopt : Option (List (Nat × Val) × List (Nat × PSt) × Bool) := none
  /-- this unit follows and did not accept the fast mirror of the input frame -/
  missed : Bool := false
  /-- a partner has asked for the full state, R427 -/
  asked : Bool := false
  copyA : Retain := {}
  copyB : Retain := {}
  retainAt : Nat := 0
  deriving DecidableEq, Repr

end Sys2Proof.Machine
end

