-- ==== Sys2Proof/Machine/PartsHalur.lean ====
section
/-! DEFINITION. The messages of the Halur link (chapter 17) and what a unit holds of them. -/
namespace Sys2Proof.Machine

/-- Header of a received Halur message and how it came (Table 17-1, R438, R442): every fragment valid; µs from the start of
the frame to its last fragment; ingress stamp, ns. -/
structure HHead where
  sender : Nat
  role : Nat
  epoch : Nat
  frame : Nat
  sample : Nat
  seq : Nat
  hop : Nat
  valid : Bool
  us : Nat
  rx : Int
  deriving DecidableEq, Repr

/-- Heartbeat, block 01h (Table 17-3); `rx` by unit the frame number and ingress stamp of R448. -/
structure Beat where
  status : Nat
  prio : Nat
  nvEpoch : Nat
  seen : Nat
  tx : Int
  rx : List (Nat × (Nat × Int))
  gran : Nat
  digest : Nat
  n : Nat
  deriving DecidableEq, Repr

/-- Blocks 02h to 07h of the Lead's fast message. -/
structure FastLead where
  inner : List (Nat × InnerCore)
  lastWord : Nat
  lastIsMode : Bool
  /-- 2202h:01h and whether it is set -/
  lastSeq : Nat
  seqSet : Bool
  cmds : List Cmd
  det : List (Nat × Nat × Nat)
  rem : List Removal
  plant : PlantCore
  lambda : List Rat
  step : Option (Nat × Int × Bool)
  pan : Option (List (Nat × Val) × List (Nat × PSt))
  deriving DecidableEq, Repr

/-- Blocks 10h to 17h of the Lead's full message; `commits` the completed DOMAIN writes of block 16h. -/
structure FullLead where
  mode : ModeMgr
  /-- targets 2224h:01h-04h, R86 -/
  targets : List Val
  lastSeq : Nat
  seqSet : Bool
  obs : ObsCore
  obsHeld : Bool
  culm : CulmCore
  till : TillCore
  cases : List CaseEntry
  stub : StubCore
  writes : List Pend
  commits : List Nat
  pan : Option (List (Nat × Val) × List (Nat × PSt))
  deriving DecidableEq, Repr

/-- Block 18h: objects and result buffers of the indices it lists. -/
structure Report where
  objs : List (Nat × Val)
  res : List (Nat × ResBuf)
  mirrorDeg : Bool
  deriving DecidableEq, Repr

/-- Messages of types 03h to 09h as a unit sends them (Table 17-2). -/
inductive HMsg where
  | claim (epoch prio : Nat)
  | yield (target : Nat)
  | stop (code : Nat)
  | join (prio nvEpoch : Nat)
  /-- key, length of the whole, fragments by number -/
  | bulk (key length : Nat) (frags : List (Nat × List Byte))
  | ack (key : Nat) (frags : List Nat)
  | panicle
  deriving DecidableEq, Repr

/-- Halur messages held and sent (chapter 17). -/
structure Mirror where
  /-- the Lead's fast message accepted, with its frame, R442; reset none -/
  fastIn : Option (Nat × FastLead) := none
  /-- the Lead's full message accepted, with its frame, R442; reset none -/
  fullIn : Option (Nat × FullLead) := none
  /-- last fast and full messages sent; reset none -/
  fastOut : Option (Beat × Option FastLead) := none
  fullOut : Option (Option FullLead × Report) := none
  /-- stamps of R448: own fast frame sent (frame, t), ingress of each unit's last fast frame received direct (frame, t),
  and the Lead's transmit stamp of that frame; reset none -/
  tx : Option (Nat × Int) := none
  rx : List (Nat × (Nat × Int)) := []
  leadTx : Option (Nat × Int) := none
  /-- pairs (frame, t1, t2, t3) that wait for the Lead's t4 -/
  wait : Option (Nat × Int × Int × Int) := none
  /-- newest sequence seen by sender × 16 + type, and sender × 16 + type forwarded in this frame, R438; reset none -/
  seen : List (Nat × Nat) := []
  relayed : List Nat := []
  /-- fragments of a bulk transfer to acknowledge in the next frame: key, numbers; reset none -/
  ack : Option (Nat × List Nat) := none
  /-- completed DOMAIN writes whose commit waits for its full mirror: object key, frame of the f0 at which they come into
  force, R41, R447; reset none -/
  commits : List (Nat × Nat) := []
  /-- epoch that a surviving Lead takes in the next frame, R454; reset none -/
  bump : Option Nat := none
  /-- yield, join request, bulk, acknowledgement and Panicle request sent in the frame in progress, Table 17-2; reset none -/
  out : List HMsg := []
  deriving DecidableEq, Repr

end Sys2Proof.Machine
end

