-- ==== Sys2Proof/Machine/PartsCan.lean ====
section
/-! DEFINITION. The part of the state of the CAN FD controllers (chapter 19). -/
namespace Sys2Proof.Machine

/-- What a message to be sent is. -/
inductive CanKind where
  /-- command record of a thruster -/
  | command (j : Nat)
  /-- unit status message -/
  | status
  /-- TPDO of event-timer type (cyclic) or sent on a change -/
  | tpdo (n : Nat) (timer : Bool)
  | reference
  | sdo
  | emcy
  | heartbeat
  deriving DecidableEq, Repr

/-- The cyclic messages (R485). -/
def CanKind.cyclic : CanKind → Bool
  | .command _ | .status | .reference => true
  | .tpdo _ t => t
  | _ => false

/-- A message in a transmit buffer: identifier with bit 31 for an extended one, FD, data, start of frame sent. -/
structure CanMsg where
  id : Nat
  kind : CanKind
  fd : Bool
  data : List Byte
  begun : Bool := false
  deriving DecidableEq, Repr

/-- A received frame in a FIFO: identifier with bit 31 for an extended one, data, start-of-frame stamp. -/
structure CanRx where
  id : Nat
  data : List Byte
  sof : Nat
  /-- node ID in force when it arrived as an SDO request, R38; 0 for every other frame -/
  node : Nat := 0
  deriving DecidableEq, Repr

/-- An SDO transfer in progress (R493, CiA 301). -/
inductive SdoKind where
  | download | upload | blockDown | blockUp
  deriving DecidableEq, Repr

structure Sdo where
  kind : SdoKind
  idx : Nat
  sub : Nat
  /-- bytes received, or to be sent -/
  buf : List Byte
  /-- size indicated, 0 none -/
  size : Nat
  /-- toggle expected; the last request and its response (empty while it is withheld, R447), R57 -/
  toggle : Bool
  last : Option (List Byte × List Byte)
  /-- block transfers: segments a block, CRC wanted, sequence of the last good segment, bytes acknowledged, and the end
  of the data has been reached -/
  blk : Nat
  crc : Bool
  seq : Nat
  done : Nat
  ended : Bool
  /-- time of the last frame -/
  at' : Nat
  deriving DecidableEq, Repr

/-- A controller (chapter 19). -/
structure CanCtl where
  /-- error counters, R486; reset 0 -/
  tec : Nat := 0
  rec' : Nat := 0
  /-- warning, passive, bus-off as reported; reset false -/
  warn : Bool := false
  passive : Bool := false
  off : Bool := false
  /-- time of the last bus-off, the times of those within 60 s, recovery under way, held off, R487, R488; reset none -/
  offAt : Nat := 0
  offs : List Nat := []
  recovering : Bool := false
  held : Bool := false
  /-- frames of nothing but acknowledgement errors; attempts and acknowledgement errors of this frame; a frame from
  another node received; alone, R489; reset 0, false -/
  aloneFrames : Nat := 0
  tries : Nat := 0
  ackErr : Nat := 0
  heard : Bool := false
  alone : Bool := false
  /-- transmit buffers, R484; reset empty -/
  tx : List CanMsg := []
  /-- the two receive FIFOs, oldest first, R481, R483; reset empty -/
  fifo0 : List CanRx := []
  fifo1 : List CanRx := []
  /-- SDO requests drained and not yet served, with the node ID at their arrival, R38, R483; reset none -/
  sdoIn : List (Nat × List Byte) := []
  /-- node ID at the arrival of the request served last, on whose identifier the server responds, R38; reset 0 -/
  sdoNode : Nat := 0
  sdo : Option Sdo := none
  /-- SDO frames waiting for their turn in a transmit buffer, with their identifier, R493; reset none -/
  sdoOut : List (Nat × List Byte) := []
  /-- time of the last event 110Bh, R483; reset none -/
  lossAt : Option Nat := none
  /-- rate detection, R479: candidate and since when, frames received without error, data candidate and its frames,
  locked; reset first candidate -/
  cand : Nat := 0
  since : Nat := 0
  good : Nat := 0
  dCand : Nat := 0
  dGood : Nat := 0
  locked : Bool := false
  dLocked : Bool := false
  /-- frames since the last command cancelled, R485; reset none cancelled -/
  calm : Nat := 0
  /-- cycle count of the reference message, R497; reset 0 -/
  cycle : Nat := 0
  /-- frame in which the last reference message was queued, and its bytes as last sent, R497; reset none -/
  refAt : Option Nat := none
  refSent : List Byte := []
  /-- received heartbeats by node: time, and lost, R496; reset none -/
  beats : List (Nat × (Nat × Bool)) := []
  deriving DecidableEq, Repr

/-- The CAN controllers and what they share (chapter 19). -/
structure Can where
  ctls : List (Nat × CanCtl) := []
  /-- sequence of command records by identifier, R490; reset 0 (DESIGN CHOICE, log 1) -/
  seq : List (Nat × Nat) := []
  /-- newest feedback sequence by thruster, R490; reset none -/
  fbSeq : List (Nat × Nat) := []
  /-- RPDOs received in the frame before, with their controller, R495; reset none -/
  rpdo : List (Nat × CanRx) := []
  /-- values whose refusal is recorded, by RPDO number × 64 + entry, R495; reset none -/
  refused : List (Nat × Nat) := []
  /-- TPDOs by number: last data sent, its time, R494; reset none -/
  tpdo : List (Nat × (List Byte × Nat)) := []
  /-- time of the last producer heartbeat, R496; reset 0 -/
  beatAt : Nat := 0
  deriving DecidableEq, Repr

end Sys2Proof.Machine
end

