-- ==== Sys2Proof/Syntax.lean ====
section
/-! DEFINITION. The commands of the DW8: one constructor for each row of the table of operations and events, in its order.
What a row needs from outside the unit stands in its operands; times are device time in ns. -/
namespace Sys2Proof
open Machine

/-- A command: a step of the unit, a message or frame that reaches it, a write or read of a client, an event on a ball. -/
inductive Instr where
  /-- FRAME_BOUNDARY (R335): the readings of R516 for the frame that begins. -/
  | frameBoundary (r : Readings)
  /-- INNER_LOOP_RUN (R198): in the inner-loop slot of every frame of a running unit. -/
  | innerLoopRun
  /-- INNER_LOOP_SLOT_OVERRUN (R204): the slot has not finished; a residue failure names its lane and stage. -/
  | innerLoopSlotOverrun (lane : Option (Nat × Nat))
  /-- CHAFF_SLOT (R138): channel n, with the ten decimator samples of the frame before for an analog source. -/
  | chaffSlot (n : Nat) (xs : List Rat)
  /-- CHAFF_SLOT_OVERRUN (R152). -/
  | chaffSlotOverrun (n : Nat)
  /-- POWER_PLANT_MODEL_RUN (R280): in every frame of a running unit. -/
  | powerPlantModelRun
  /-- BREAKER_STATE_CONFIRMED (R278): contact `k` (0-15 generator breakers, 16-23 ties, 32-47 ready inputs) has been
  read alike in the confirm count of frames and differs from its confirmed state. -/
  | breakerStateConfirmed (k : Nat)
  /-- LR_RELEASE (R288): line k, 0-3. -/
  | lrRelease (k : Nat)
  /-- BREAKER_DISCREPANCY (R279): contact `k` has read alike at both contacts, or its binding has not updated. -/
  | breakerDiscrepancy (k : Nat)
  /-- POWER_PLANT_MODEL_OVERRUN (R291): the previous frame's result stands. -/
  | powerPlantModelOverrun
  /-- SAMPLE_BOUNDARY (R270): at f0, after its frame boundary. -/
  | sampleBoundary
  /-- SHEAF_ALIGNMENT (R102): at f1 of a running unit. -/
  | sheafAlignment
  /-- SHEAF_OVERRUN (R110): no stream for this epoch; F1; a third overrun within 100 samples stops the unit. -/
  | sheafOverrun
  /-- STREAM_SILENT (R105): a stream has accepted nothing for 10 nominal periods. -/
  | streamSilent (k : Nat)
  /-- WINNOW_RUN (R112): in f1, on Sheaf's handover. -/
  | winnowRun
  /-- WINNOW_OVERRUN (R135): the observer receives no stream; the work of the epoch is abandoned. -/
  | winnowOverrun
  /-- OBSERVER_UPDATE (R165): at f2 of a running unit. -/
  | observerUpdate
  /-- OBSERVER_OVERRUN (R179): the prediction stands as the estimate, held. -/
  | observerOverrun
  /-- CULM_LAW (R181): at f3 of a running unit. -/
  | culmLaw
  /-- CULM_LAW_OVERRUN (R206): at f3; a residue failure names its lane and stage. -/
  | culmLawOverrun (lane : Option (Nat × Nat))
  /-- STUBBLE_LAW (R255): at f3 of a running unit. -/
  | stubbleLaw
  /-- STUBBLE_LOST (R260): at the end of f3; `residue` tells the two grounds apart. -/
  | stubbleLost (residue : Bool)
  /-- TILLER_NOMINAL_SOLVE (R221): from f4; `forced` a numeric fault of kind 2 or 4 with its lane. -/
  | tillerNominalSolve (forced : Option (Nat × Nat))
  /-- TILLER_PUBLISH (R223): at f7 of a running unit, from the solve of this sample. -/
  | tillerPublish
  /-- TILLER_OVERRUN (R228): at f7, when nothing has been published for this sample. -/
  | tillerOverrun
  /-- ALLOCATION_APPLY (R15): at f8. -/
  | allocationApply
  /-- STOOK_SWEEP (R236): from f4 of a running unit, in every mode except Dormancy. -/
  | stookSweep (faults : List (Nat × Nat))
  /-- CASE_SET_PUBLISH (R238): at the end of f(N-1). -/
  | caseSetPublish
  /-- CONSEQUENCE_ALARM (R245): the counts of the last publication have reached a delay. -/
  | consequenceAlarm
  /-- DRIVE_SILENCE_DETECTION (R246): thruster j. -/
  | driveSilenceDetection (j : Nat)
  /-- FAST_MIRROR_SEND (R441): 60 µs into each frame every unit with a number sends its fast message; `t` its egress
  stamp. -/
  | fastMirrorSend (t : Int)
  /-- FULL_MIRROR_SEND (R27, R441): in f(N-1) every joined unit sends its full message. -/
  | fullMirrorSend
  /-- SHARED_VALUE_DIGEST_MISMATCH (R42): the digests of Lead and partner have differed for 8 samples. -/
  | sharedValueDigestMismatch (u : Nat)
  /-- PANICLE_INPUT_PHASE (R414, R424): at the start of a scan's first frame, after the changes of Table 10-7. -/
  | panicleInputPhase
  /-- PANICLE_EXECUTE_PHASE (R414): from offset 1, with the time it took. -/
  | panicleExecutePhase (us : Rat)
  /-- PANICLE_OUTPUT_PHASE (R414, R426): in the last 100 µs of offset S - 1, of a scan whose execution has ended. -/
  | panicleOutputPhase
  /-- PANICLE_SCAN_OVERRUN (R416): offset S-1 ends without execution having ended; no output is written. -/
  | panicleScanOverrun
  /-- PANICLE_RETAIN_WRITE (R433): every 3C00h:04h. -/
  | panicleRetainWrite (t : Nat)
  /-- GENERIC_WRITE (R38, R577): a write of any object. -/
  | genericWrite (p : Path) (idx sub : Nat) (b : List Byte)
  /-- RESULT_SAMPLE_READ (R55): a read of subindex 01h of a result object latches its buffer. -/
  | resultSampleRead (p : Path) (idx : Nat)
  /-- RESULT_LATCH_TIMEOUT (R55): 2 s have passed since the session's latch. -/
  | resultLatchTimeout (p : Path) (t : Nat)
  /-- STORE_PARAMETERS (R44): a write of 1010h. -/
  | storeParameters (p : Path) (sub : Nat) (b : List Byte)
  /-- STORE_COMPLETE (R46). -/
  | storeComplete
  /-- RESTORE_DEFAULTS (R45): a write of 1011h. -/
  | restoreDefaults (p : Path) (sub : Nat) (b : List Byte)
  /-- CONFIGURATION_SET_LOAD (R62): a write of 2010h:00h. -/
  | configurationSetLoad (p : Path) (b : List Byte)
  /-- SAMPLE_LENGTH_WRITE (R29): a write of 2030h:01h. -/
  | sampleLengthWrite (p : Path) (b : List Byte)
  /-- MODE_COMMAND_STANDBY (R68, R71). -/
  | modeCommandStandby (p : Path) (hi : Nat)
  /-- MODE_COMMAND_LEVER (R68, R71). -/
  | modeCommandLever (p : Path) (hi : Nat)
  /-- MODE_COMMAND_JOYSTICK (R68, R71); bit 8 of the word, bit 5 of `hi`, selects auto heading. -/
  | modeCommandJoystick (p : Path) (hi : Nat)
  /-- MODE_COMMAND_AUTO_HEADING (R68, R71). -/
  | modeCommandAutoHeading (p : Path) (hi : Nat)
  /-- MODE_COMMAND_AUTO_POSITION (R68, R71). -/
  | modeCommandAutoPosition (p : Path) (hi : Nat)
  /-- MODE_COMMAND_TRACK (R68, R71). -/
  | modeCommandTrack (p : Path) (hi : Nat)
  /-- MODE_COMMAND_MAINTENANCE (R68, R71). -/
  | modeCommandMaintenance (p : Path) (hi : Nat)
  /-- MODE_COMMAND_DORMANCY (R68, R71). -/
  | modeCommandDormancy (p : Path) (hi : Nat)
  /-- ACTION_CAPTURE_POSITION (R71, R82). -/
  | actionCapturePosition (p : Path) (hi : Nat)
  /-- ACTION_CAPTURE_HEADING (R71, R82). -/
  | actionCaptureHeading (p : Path) (hi : Nat)
  /-- ACTION_HOLD_RAMPS (R71, R82). -/
  | actionHoldRamps (p : Path) (hi : Nat)
  /-- ACTION_RELEASE_RAMPS (R71, R82). -/
  | actionReleaseRamps (p : Path) (hi : Nat)
  /-- STREAM_DESCRIPTOR_WRITE (R91): a write of 2400h + k. -/
  | streamDescriptorWrite (p : Path) (k sub : Nat) (b : List Byte)
  /-- CLOCK_SLOT_RESET (R96): a write of 2540h + k:04h; a 1 returns the slot to learning at the next f1. -/
  | clockSlotReset (p : Path) (k : Nat) (b : List Byte)
  /-- GROUP_MEMBERSHIP_WRITE (R114): a write of 2600h + k:01h. -/
  | groupMembershipWrite (p : Path) (k : Nat) (b : List Byte)
  /-- REFERENCE_SELECTION (R129): a write of 2240h. -/
  | referenceSelection (p : Path) (sub : Nat) (b : List Byte)
  /-- CHAFF_COEFFICIENT_SET (R155): a write of 2900h:00h. -/
  | chaffCoefficientSet (p : Path) (b : List Byte)
  /-- CHAFF_STICKY_READ (R151): a read of 2910h or 2911h. -/
  | chaffStickyRead (p : Path) (upper : Bool) (sub : Nat)
  
  | observerReset (p : Path) (b : List Byte)
  /-- GAIN_SET_SELECTION (R190): a write of 2C00h:01h; the swap falls at the f0 at which it takes effect. -/
  | gainSetSelection (p : Path) (b : List Byte)
  /-- CULM_COEFFICIENT_SET (R210): a write of 2C01h:00h. -/
  | culmCoefficientSet (p : Path) (b : List Byte)
  /-- CULM_STICKY_READ (R197): a read of 2C50h:01h-03h. -/
  | culmStickyRead (p : Path) (sub : Nat)
  /-- THRUSTER_DESCRIPTOR_WRITE (R214): a write of 2E80h-2EDFh. -/
  | thrusterDescriptorWrite (p : Path) (idx sub : Nat) (b : List Byte)
  /-- CASE_DESCRIPTOR_WRITE (R235): a write of 3080h-30FFh. -/
  | caseDescriptorWrite (p : Path) (c sub : Nat) (b : List Byte)
  /-- CLEAR_MISMATCH_REMOVALS (R246): a write of 3002h:00h. -/
  | clearMismatchRemovals (p : Path) (b : List Byte)
  /-- STUBBLE_SET (R274): a write of 3200h:00h. -/
  | stubbleSet (p : Path) (b : List Byte)
  /-- RETURN_REQUEST (R266): a write of 3203h:00h. -/
  | returnRequest (p : Path) (b : List Byte)
  /-- STUBBLE_STICKY_READ (R256, R197): a read of 3204h:01h-04h. -/
  | stubbleStickyRead (p : Path) (sub : Nat)
  /-- PLANT_DESCRIPTOR_WRITE (R275): a write of 3400h-34DFh. -/
  | plantDescriptorWrite (p : Path) (idx sub : Nat) (b : List Byte)
  /-- FRONT_END_SCRIPT_WRITE (R297): a write of 3601h:02h; an accepted one makes the master run the script. -/
  | frontEndScriptWrite (p : Path) (b : List Byte)
  /-- SPOOFING_CLEAR (R325): a write of 3611h:00h. -/
  | spoofingClear (p : Path) (b : List Byte)
  /-- SNAPSHOT_CAPTURE_COMMAND (R328): a write of 3620h:01h. -/
  | snapshotCaptureCommand (p : Path) (b : List Byte)
  /-- ARCHIVE_SELECTED (R330): a write of 3621h:03h. -/
  | archiveSelected (p : Path) (b : List Byte)
  /-- KEEP_SELECTED (R329): a write of 3621h:04h. -/
  | keepSelected (p : Path) (b : List Byte)
  /-- NAVIGATION_RECORDS_READ (R313): a read of 3645h:00h. -/
  | navigationRecordsRead (p : Path)
  /-- ACCEPT_JUMP (R346): a write of 3802h:00h. -/
  | acceptJump (p : Path) (b : List Byte)
  /-- QUEUE_OVERFLOW_READ (R356): a read of 3842h:01h-04h. -/
  | queueOverflowRead (p : Path) (sub : Nat)
  /-- CHANNEL_DESCRIPTOR_WRITE (R365): a write of 3A00h + n. -/
  | channelDescriptorWrite (p : Path) (n sub : Nat) (b : List Byte)
  /-- COMPARE_POSITION_WRITE (R376): a write of 3A20h + n. -/
  | comparePositionWrite (p : Path) (n sub : Nat) (b : List Byte)
  /-- FEEDBACK_STICKY_READ (R197): a read of 3A90h. -/
  | feedbackStickyRead (p : Path) (sub : Nat)
  /-- COMPARE_STATUS_READ (R379): a read of 3A93h returns the status and clears the fired bits. -/
  | compareStatusRead (p : Path) (sub : Nat)
  /-- SERIAL_TRANSMIT (R386): a write of 4420h + p:00h. -/
  | serialTransmit (path : Path) (p : Nat) (b : List Byte)
  /-- IMU_DESCRIPTOR_WRITE (R397): a write of 4470h or 4471h. -/
  | imuDescriptorWrite (path : Path) (i sub : Nat) (b : List Byte)
  /-- PROGRAM_IMAGE_LOAD (R419, R423): a write of 3C01h:00h; event 0E01h when it is accepted for exchange. -/
  | programImageLoad (p : Path) (b : List Byte)
  /-- PANICLE_RESTART_WARM (R432): 1 written to 3C03h:00h. -/
  | panicleRestartWarm (p : Path)
  /-- PANICLE_RESTART_COLD (R432): 2 written to 3C03h:00h. -/
  | panicleRestartCold (p : Path)
  /-- PANICLE_RUN_WRITE (R432, R434): a write of 3C00h:02h; scans stop, or Panicle restarts, when it comes into
  force. -/
  | panicleRunWrite (p : Path) (b : List Byte)
  /-- SCAN_LENGTH_WRITE (R415): a write of 3C00h:01h. -/
  | scanLengthWrite (p : Path) (b : List Byte)
  /-- FORCE_LIST_WRITE (R430): a write of 3C10h:00h; the session's role goes into event 0E07h. -/
  | forceListWrite (p : Path) (b : List Byte)
  /-- ARITHMETIC_STICKY_READ (R421, R197): a read of 3C51h:00h returns the bit and clears it. -/
  | arithmeticStickyRead (p : Path)
  /-- HAND_LEAD_TO_UNIT (R458): a write of 3E20h:00h on the Lead. -/
  | handLeadToUnit (p : Path) (b : List Byte)
  /-- GATE_CONTROL_LIST_WRITE (R463): a write of 4010h:00h. -/
  | gateControlListWrite (p : Path) (b : List Byte)
  /-- NODE_TABLE_WRITE (R467): a write of 4020h:00h. -/
  | nodeTableWrite (p : Path) (b : List Byte)
  /-- PROCESS_MAP_WRITE (R473): a write of 4030h:00h, or of 4032h:00h where `receive`. -/
  | processMapWrite (p : Path) (receive : Bool) (b : List Byte)
  /-- CAN_TIMING_WRITE (R478): a write of 4200h + c:03h-0Ah. -/
  | canTimingWrite (p : Path) (c sub : Nat) (b : List Byte)
  /-- FILTER_LIST_WRITE (R482): a write of 4210h + c:00h. -/
  | filterListWrite (p : Path) (c : Nat) (b : List Byte)
  /-- CAN_RESTART (R488): a write of 4200h + c:0Dh. -/
  | canRestart (p : Path) (c : Nat) (b : List Byte)
  /-- GRANARY_READ (R504): a read of 4620h:02h. -/
  | granaryRead (p : Path)
  /-- CLEARING_TOKEN (R505, R506): a write of 4630h:02h. -/
  | clearingToken (p : Path) (b : List Byte)
  /-- OWNER_CA_ENROLMENT (R512): a write of 4810h:00h. -/
  | ownerCaEnrolment (p : Path) (b : List Byte)
  /-- REVOCATION_LIST_LOAD (R512): a write of 4811h:00h. -/
  | revocationListLoad (p : Path) (b : List Byte)
  /-- FIRMWARE_SLOT_WRITE (R514): a write of 4821h:01h or 02h, slot 0 A, 1 B. -/
  | firmwareSlotWrite (p : Path) (slot : Nat) (b : List Byte)
  /-- ANTI_ROLLBACK_COMMIT (R514): a write of 4820h:04h. -/
  | antiRollbackCommit (p : Path) (b : List Byte)
  /-- TAMPER_CLEAR (R515): a write of 4830h:02h. -/
  | tamperClear (p : Path) (b : List Byte)
  /-- RESTART_WARM_COMMAND (R531): a write of 1 to 2020h:00h. -/
  | restartWarmCommand (p : Path)
  /-- RESTART_COLD_COMMAND (R531): a write of 2 to 2020h:00h. -/
  | restartColdCommand (p : Path)
  /-- SERIAL_CHARACTER_ERROR (R383). -/
  | serialCharacterError (p : Nat)
  /-- SENTENCE_RECEIVED (R387): its characters from "$" to LF, and the arrival stamp of R385. -/
  | sentenceReceived (p arrival : Nat) (text : List Byte)
  /-- RAW_FRAME_RECEIVED (R391): the bytes of a delimited frame and its arrival stamp. -/
  | rawFrameReceived (p arrival : Nat) (b : List Byte)
  /-- SERIAL_TRANSMIT_COMPLETE (R386). -/
  | serialTransmitComplete (p : Nat)
  /-- INTAKE_DATAGRAM (R393): for an enabled entry, received on an Ethernet port. -/
  | intakeDatagram (e port arrival : Nat) (d : List Byte)
  /-- IMU_DRDY (R396): the active edge at device time `t`. -/
  | imuDrdy (i t : Nat)
  /-- IMU_READ_COMPLETE (R399). -/
  | imuReadComplete (i : Nat) (b : List Byte)
  /-- IMU_PORT_FAULT (R400). -/
  | imuPortFault (i : Nat)
  /-- AREF1_LOW (R402): AREF1 reads `v` volts. -/
  | aref1Low (v : Rat)
  /-- AREF1_RESTORED (R402): AREF1 has stood at `v` volts, above 1.0 V, for 10 ms. -/
  | aref1Restored (v : Rat)
  /-- DIO_LEVEL_CHANGE (R405): line d has a new filtered level from device time `t` on. -/
  | dioLevelChange (d t : Nat) (level : Bool)
  /-- COMPARE_PULSE_END (R404). -/
  | comparePulseEnd (d : Nat)
  /-- SUPERVISOR_REFRESH_MISSED (R408): two frames in a row without a refresh. -/
  | supervisorRefreshMissed
  /-- SAFE_OVERCURRENT (R410): a line driven high has read low for 2 frames. -/
  | safeOvercurrent (k : Nat)
  /-- SAFE_OVERCURRENT_RETRY (R410): 1.0 s after the last attempt the line is driven high for one frame; `follows`
  tells whether the pad follows. -/
  | safeOvercurrentRetry (k : Nat) (follows : Bool)
  /-- LR_OVERCURRENT (R411): line k, 0-3, asserted; fault instance 8 + k. -/
  | lrOvercurrent (k : Nat)
  /-- WAKE_N_ASSERTED (R412): a fall of WAKE_N in every state but Dormancy; the level follows at each frame
  (Readings). -/
  | wakeNAsserted
  /-- QUADRATURE_EDGE (R361): filtered levels of A, B and Z of channel n from device time t on. -/
  | quadratureEdge (n t : Nat) (a b z : Bool)
  /-- CHANNEL_FAULT_CLEAR (R363): 10 s without an illegal transition. -/
  | channelFaultClear (n : Nat)
  /-- HOME_EVENT (R370): in the sample in which the armed event occurs. -/
  | homeEvent (n : Nat)
  /-- TRACKING_OBSERVER_UPDATE (R371). -/
  | trackingObserverUpdate (n : Nat)
  /-- SSI_READ_START (R364): the read latched at device time t; the driving unit clocks it, a listener follows its
  edges. -/
  | ssiReadStart (n t : Nat)
  /-- SSI_READ_COMPLETE (R367). -/
  | ssiReadComplete (n : Nat) (idleLow : Bool) (word : Nat)
  /-- SSI_CLOCK_TAKEN (R366): no clock edge for the unit's wait; a listener records event 0D09h. -/
  | ssiClockTaken (n : Nat)
  /-- SSI_CLOCK_YIELDED (R366): a driving unit sees a clock edge it did not make. -/
  | ssiClockYielded (n : Nat)
  /-- MAGNETIC_INPUT_CHANGE (R380): a new filtered level of Mm from device time t on. -/
  | magneticInputChange (m t : Nat) (level : Bool)
  /-- GNSS_PORT_FAULT (R295): port p's readings at time t: clock present, its rate in Hz, magnitude-bit duty. -/
  | gnssPortFault (p t : Nat) (clock : Bool) (hz duty : Rat)
  /-- GNSS_PORT_FAULT_CLEAR (R295): no condition has held on port p for 1.0 s. -/
  | gnssPortFaultClear (p t : Nat)
  /-- FRONT_END_ENABLE (R296): the master asserts group g's enable while the group is selected. -/
  | frontEndEnable (g : Nat)
  /-- FRONT_END_SCRIPT_RUN (R297): the master runs the script that is due; `reads` the words read back. -/
  | frontEndScriptRun (t : Nat) (reads : List Nat)
  /-- FRONT_END_ATTENTION (R297): GFE_ATTN_N low for 1 us: the verify entries run again. -/
  | frontEndAttention (t : Nat) (reads : List Nat)
  /-- FRONT_END_SCRIPT_RETRY (R298): 10 s after a failure the whole script runs again. -/
  | frontEndScriptRetry (t : Nat) (reads : List Nat)
  /-- ACQUISITION_SEARCH (R299, R300): a search ends with its largest cell; `kind` 1 aided, 2 cold, 3 handover. -/
  | acquisitionSearch (p sys sat sig kind t : Nat) (peak noise : Rat)
  /-- ACQUISITION_LOCK_TIMEOUT (R299): a detection has not been brought to lock within 500 ms. -/
  | acquisitionLockTimeout (p sys sat sig t : Nat)
  /-- CHANNEL_FADE (R306): channel c's C/N0, 0.01 dB-Hz, is below its loss threshold. -/
  | channelFade (c t cn0 : Nat)
  /-- COAST_EXPIRY (R306): a coasting channel has not recovered within its coast time; its satellite returns to
  search. -/
  | coastExpiry (c t : Nat)
  /-- SIDE_PEAK_CHECK (R307): a BOC channel's very-early, prompt and very-late powers. -/
  | sidePeakCheck (c : Nat) (ve pr vl : Rat)
  /-- MEASUREMENT_EPOCH (R308): at a whole multiple of the measurement interval. -/
  | measurementEpoch (m : GEpoch)
  /-- JAMMING (R320): indicators hold on two enabled ports of group g, or on its only one. -/
  | jamming (g t : Nat)
  /-- JAMMING_ENDED (R320): no indicator has held on any port of the group for the clear time. -/
  | jammingEnded (g t : Nat)
  /-- SNAPSHOT_ARCHIVE (R330): T3 work archives the snapshot of slot k that awaits it. -/
  | snapshotArchive (k : Nat)
  /-- TIME_OFFER (R310): the field has read 000b for the return hold. -/
  | timeOffer (t : Nat)
  /-- NAVIGATION_MESSAGE (R312). -/
  | navigationMessage (r : NavRec) (utc : Option (Int × Option (Nat × Int)))
  /-- LOSS_AIDED_SEARCH (R327): every 1 s in loss; cold search resumes after 600 s. -/
  | lossAidedSearch (t : Nat)
  /-- DORMANCY_GNSS_CHECK (R332): the coarse-time position, latitude and longitude in 10^-9 degrees and height. -/
  | dormancyGnssCheck (t : Nat) (pos : Option (Int × Int × Rat))
  /-- TIME_MEASUREMENT (R342): the measurement of entry e that is ready, decided at t. -/
  | timeMeasurement (e t : Nat)
  /-- TIME_STEP (R345): device time t has reached the second of the pending step. -/
  | timeStep (t : Nat)
  /-- SOURCE_LOST (R337): entry e meets the loss condition of its kind at t. -/
  | sourceLost (e t : Nat)
  /-- HOLDOVER_ENTRY (R349): at the start of the frame after the last source was lost. -/
  | holdoverEntry
  /-- HOLDOVER_LIMIT (R349). -/
  | holdoverLimit (t : Nat)
  /-- REFERENCE_CHANGE (R336): REF10 is present and in range, or not. -/
  | referenceChange (present : Bool)
  /-- PPS_IN_EDGE (R338): an edge of PPS_INp stamped t. -/
  | ppsInEdge (p t : Nat)
  /-- PPS_OUT_PULSE (R350): output n at a whole second t of device time less its advance. -/
  | ppsOutPulse (n t : Nat)
  /-- LEAP_SECOND_CHANGE (R351): the end of the UTC day that an announced change names. -/
  | leapSecondChange (t : Nat)
  /-- PTP_SYNC (R352): a Sync on a port and domain; `resp` the newest answer to a delay request. -/
  | ptpSync (domain port t : Nat) (capture : Rat) (t1 corr : Int) (resp : Option (Nat × Int × Int))
  /-- PTP_ANNOUNCE (R357). -/
  | ptpAnnounce (domain port t : Nat) (d : Dataset)
  /-- ANNOUNCE_RECEIPT_TIMEOUT (Table 13-1): three Announce intervals without one (log 48), or three Syncs missing. -/
  | announceReceiptTimeout (t : Nat)
  /-- PTP_EVENT_FORWARD (R354): an event message forwarded between ports of one network; residence, and the link
  delay for a Sync of the peer profile, enter its correction field (2^-16 ns). -/
  | ptpEventForward (inPort outPort type : Nat) (capIn capOut : Rat) (corr : Int)
  /-- TRANSMIT_TIMESTAMP (R356). -/
  | transmitTimestamp (port type seq : Nat) (capture : Rat)
  /-- HALUR_TIME_MEASUREMENT (R340, R448): at a whole second, a follower's mean Halur offset drives its servo; an
  offset beyond the jump threshold raises F1 and the unit leaves its role. -/
  | halurTimeMeasurement (t : Nat)
  /-- CAN_REFERENCE_MESSAGE (R358, R497): the frame boundary that opens a basic cycle; an unsent one is cancelled,
  and the cycle count advances. -/
  | canReferenceMessage (c : Nat)
  /-- HALUR_FAST_FRAME (R442). -/
  | halurFastFrame (h : HHead) (b : Beat) (m : Option FastLead)
  /-- HALUR_FULL_FRAME (R442). -/
  | halurFullFrame (h : HHead) (m : Option FullLead) (r : Report)
  /-- LEAD_LOSS_DECLARATION (R450, R451): at the end of the third silent frame, or of a frame with a stop notice;
  that frame fd is the one before the frame in progress, in which the first claim goes. -/
  | leadLossDeclaration
  /-- CLAIM (R451): a claim of a unit of higher precedence makes this unit withdraw its own. -/
  | claim (h : HHead) (epoch prio : Nat)
  /-- TAKE_LEAD (R452): the claim stands at the start of fd + 5. -/
  | takeLead
  /-- YIELD (R454, R458): a yield names the unit that takes the Lead at the next f0, FFh none. -/
  | yield (h : HHead) (target : Nat)
  /-- STOP_NOTICE (Table 17-2): the sender stops under F3. -/
  | stopNotice (h : HHead) (code : Nat)
  /-- JOIN_REQUEST (R456). -/
  | joinRequest (h : HHead) (prio nvEpoch : Nat)
  /-- ELECTION (R437, R457): no Lead has been heard for the join wait; a unit that works alone takes the Lead, else
  the unit of highest precedence among those without a role claims. -/
  | election
  /-- BULK_FRAME (R447): a fragment of the object `key` (0: the pair-shared values of a join), with the length of the
  whole. -/
  | bulkFrame (h : HHead) (key length k : Nat) (data : List Byte)
  /-- BULK_ACKNOWLEDGEMENT (R447): fragments that the sender has received. -/
  | bulkAcknowledgement (h : HHead) (key : Nat) (frags : List Nat)
  /-- BULK_TRANSFER_TIMEOUT (R447): 64 frames from its start; the write changes nothing on any unit. -/
  | bulkTransferTimeout
  /-- PANICLE_REQUEST (R427): the Lead sends its complete Panicle state in its next full mirror. -/
  | panicleRequest (h : HHead)
  /-- HALUR_PORT_CHANGE (R439): block lock has held for 1 ms, or has failed for 10 µs. -/
  | halurPortChange (port : Nat) (isUp : Bool)
  /-- MIRROR_DEGRADED (R443): no full mirror accepted for 3E00h:05h samples. -/
  | mirrorDegraded
  /-- HALUR_DEGRADED (Table 17-4): a partner silent on Halur for 3 frames and seen on the field-network path; a
  follower takes time from its own entries (R340). -/
  | halurDegraded
  /-- PHY_LINK_CHANGE (R460): the SGMII control word of port n reports a link, its speed in Mbit/s and duplex; 10
  Mbit/s and half duplex hold the port down. -/
  | phyLinkChange (n : Nat) (link : Bool) (speed : Nat) (full : Bool)
  /-- KPP_FRAME (R470). -/
  | kppFrame (port mac : Nat) (tag : Option Nat) (arrival : Nat) (b : List Byte)
  /-- KPP_QUEUE (R464): at the opening of the first class 6 entry, the unit status record and, on the Lead, the
  command records of the frame. -/
  | kppQueue
  /-- KPP_WINDOW_CLOSE (R464): the last `k` frames of the queue have not begun; they are discarded. -/
  | kppWindowClose (k : Nat)
  /-- PUBLISHED_RECORD_SEND (R473): record k, every divisor frames from frame 0 of the counter. -/
  | publishedRecordSend (k : Nat)
  /-- NETWORK_LOST (R466). -/
  | networkLost (x : Nat)
  /-- NETWORK_RESTORED (R466): 800 frames with arrivals. -/
  | networkRestored (x : Nat)
  /-- NODE_LOST (R468). -/
  | nodeLost (id : Nat)
  /-- LEAD_OFF_FIELD_PATH (R475): 16 frames; the Lead hands over to the Shadow where R458 lets it. -/
  | leadOffFieldPath
  /-- KDP_CONNECTION (R476): session number, remote address, network, key identifier of the client certificate, TLS
  handshake within R476. -/
  | kdpConnection (id t peer net : Nat) (kid : List Byte) (tls : Bool)
  /-- KDP_IDLE_TIMEOUT (R476). -/
  | kdpIdleTimeout (id t : Nat)
  /-- KDP_READ (R477): a message of operation 01h; `rest` is the message from byte 9 on. -/
  | kdpRead (id t req : Nat) (rest : List Byte)
  /-- KDP_WRITE (R477): a message of operation 02h. -/
  | kdpWrite (id t req : Nat) (rest : List Byte)
  /-- KDP_WHOLE_RECORD_READ (R55, R477): a message of operation 03h. -/
  | kdpWholeRecordRead (id t req : Nat) (rest : List Byte)
  /-- KDP_KEEPALIVE (R477): a message of operation 04h, or of an unknown operation, which closes the session. -/
  | kdpKeepalive (id t req : Nat) (op : Byte) (rest : List Byte)
  /-- CAN_FRAME_RECEIVED (R481): controller, identifier (bit 31 extended), FD with bit-rate switch, data,
  start-of-frame stamp, received without error. -/
  | canFrameReceived (c id : Nat) (fd : Bool) (data : List Byte) (sof : Nat) (good : Bool)
  /-- CAN_CYCLIC_QUEUE (R485): 60 µs into a frame; `begun` lists the messages (controller, identifier) whose start of
  frame has been sent. -/
  | canCyclicQueue (begun : List (Nat × Nat))
  /-- CAN_TRANSMIT_DONE (R484): the attempt of controller c's next message has ended, with its start-of-frame stamp:
  result 0 acknowledged, 1 acknowledgement error, 2 another error. -/
  | canTransmitDone (c result sof : Nat)
  /-- CAN_ERROR_STATE_CHANGE (R486): the error counters of controller c; they stand still in modes 1 and 2 (R480). -/
  | canErrorStateChange (c tec recv : Nat)
  /-- BUS_OFF_RECOVERY_START (R487): after the recovery delay. -/
  | busOffRecoveryStart (c : Nat)
  /-- BUS_OFF_RECOVERED (R487): the first queue holds the cyclic messages of the frame in progress. -/
  | busOffRecovered (c : Nat)
  /-- CONTROLLER_ALONE (R489): at the end of the third frame. -/
  | controllerAlone (c : Nat)
  /-- BIT_RATE_CANDIDATE (R479): 100 ms on a candidate without lock. -/
  | bitRateCandidate (c : Nat)
  /-- SDO_INITIATE (R493): the oldest request of controller c at time t is an initiate, an abort, or no command of
  CiA 301. -/
  | sdoInitiate (c t : Nat)
  /-- SDO_SEGMENT (R57, R493): the oldest request is a segment. -/
  | sdoSegment (c t : Nat)
  /-- SDO_BLOCK_SEGMENT (R57, R493): the oldest request belongs to a block transfer. -/
  | sdoBlockSegment (c t : Nat)
  /-- SDO_TRANSFER_TIMEOUT (R493): no frame for 1.0 s. -/
  | sdoTransferTimeout (c t : Nat)
  /-- RPDO_RECEIVED (R495): a frame on the receive identifier of an enabled RPDO. -/
  | rpdoReceived (c id : Nat) (fd : Bool) (data : List Byte) (sof : Nat)
  /-- TPDO_EVENT_TIMER (R494): TPDO n at its event timer, or on a change outside its inhibit time. -/
  | tpdoEventTimer (n t : Nat)
  /-- PRODUCER_HEARTBEAT (R496). -/
  | producerHeartbeat (t : Nat)
  /-- CONSUMER_HEARTBEAT_LOSS (R496): a heartbeat heard before has not come within its time. -/
  | consumerHeartbeatLoss (c node : Nat)
  /-- NMT_COMMAND (R496): ignored. -/
  | nmtCommand (c cmd node : Nat)
  /-- GRANARY_PAGE_WRITE (R502): `worn` an erase block that the write retires. -/
  | granaryPageWrite (worn : Option Nat)
  /-- SIGNATURE_BLOCK_COMPLETE (R501). -/
  | signatureBlockComplete
  /-- TAMPER (R515): TAMPER_N low for 1 ms; without VIN, and in reset, where nothing records, it is latched with its
  time. -/
  | tamper
  /-- LEVEL_RAISED (R519): at the start of a frame that follows the raise dwell. -/
  | levelRaised
  /-- LEVEL_LOWERED (R519): at the start of a frame that follows the release time. -/
  | levelLowered
  /-- HEAT_LIMIT_EXCEEDED (R522): 80 frames. -/
  | heatLimitExceeded
  /-- CASE_SENSOR_RESTORE (R516): 10 s inside the band. -/
  | caseSensorRestore (i : Nat)
  /-- MONITOR_WINDOW_END (R529); a paused monitor stays in its window (R521). -/
  | monitorWindowEnd (m : Nat)
  /-- WAKE_SOURCE (R525): an enabled source holds at the start of a frame of Dormancy: 0 WAKE_N, low for 1.0 ms as
  the command says, 1 the wake timer, 2 the GNSS check. -/
  | wakeSource (b : Nat)
  /-- WAKE_COMPLETE (R526): at the start of frame w + 144 the unit is Standby-ready; a failed self-test goes on as a
  cold start. -/
  | wakeComplete (ok : Bool)
  /-- VIN_APPLIED (R530, R347): VIN has stood in range; device time starts from the VBAT-held count. -/
  | vinApplied (t : Nat)
  /-- START_UP_STAGE (R534). -/
  | startUpStage (x : StageIn)
  /-- BOOT_WATCHDOG (R535): a slot that has passed R513 is not Standby-ready within 10 s; the start that follows
  tries the other slot. -/
  | bootWatchdog (t : Nat)
  /-- SELF_TEST_HALT_RETRY (R537): 10 s after a halt; not after three in a row. -/
  | selfTestHaltRetry (t : Nat)
  /-- REPEATABLE_SELF_TEST (R537): T3 work, so only at level 0; tests 0 to 4, 6 and 10 repeat. -/
  | repeatableSelfTest (item inst : Nat) (pass : Bool)
  /-- RESET_N_LOW (R544): the queued records are written as R508 step 1 writes them; the internal reset follows. -/
  | resetNLow
  /-- VIN_FALLING (R508, R560): the flush, the power-fail record, Panicle's retain copy; then the unit is unpowered. -/
  | vinFalling
  /-- SUPERVISOR_RESET (R533): 80 frames without a refresh. -/
  | supervisorReset (frames t : Nat)
  /-- AUTOMATIC_RESTART (R532): the restart delay is over; `refresh` whether DRAM entered self-refresh, without which
  the start is cold. -/
  | automaticRestart (t : Nat) (refresh : Bool)
  /-- RECOVERY_IMAGE (R536): checked under R513 and written to slot A; the ROM holds. -/
  | recoveryImage (b : List Byte)
  /-- STRAP_CHECK (R551): the straps as read, BOOT in bits 2-0 and UNIT_ID in bits 4-3. -/
  | strapCheck (boot unit : Nat)
  /-- RESET_N_RELEASE (R530): the next start is cold. -/
  | resetNRelease (t : Nat)
  /-- ROM_RETRY (R534, R535): every 10 s. -/
  | romRetry (t : Nat)
  /-- TAMPER_ENDED (R515): bit 0 of 4830h:03h clears. -/
  | tamperEnded
  /-- KDP_CONNECTION_CLOSED (R59): the client closes or resets the connection. -/
  | kdpConnectionClosed (id t : Nat)
  /-- PTP_SYNC_TRANSMIT (R353): a unit that acts as PTP master sends a two-step Sync. -/
  | ptpSyncTransmit (port : Nat)
  /-- PTP_DELAY_REQ_TRANSMIT (R353): Delay_Req (type 1), or Pdelay_Req (type 2) in the peer profile and 802.1AS. -/
  | ptpDelayReqTransmit (port : Nat)
  deriving DecidableEq, Repr

end Sys2Proof
end

