-- ==== Sys2Proof/Decode.lean ====
section
/-! DEFINITION. Commands spelled by the bits of the table of operations and events: the table gives no row any bits, so no
word spells a command. -/
namespace Sys2Proof

/-- The command that the low `nbits` bits of `w` spell by the table: none, since no row has bits. -/
def decodeTableWord (_nbits _w : Nat) : Option Instr := none

end Sys2Proof
end

