-- ==== Sys2Proof/Machine/Mat.lean ====
section
/-! DEFINITION. Matrices and vectors of rationals as lists, and the solution of a linear system. -/
namespace Sys2Proof.Machine

abbrev Vec := List Rat
abbrev Mat := List (List Rat)

def vget (v : Vec) (i : Nat) : Rat := nth 0 v i
def mget (m : Mat) (i j : Nat) : Rat := nth 0 (nth [] m i) j
def vadd (a b : Vec) : Vec := List.zipWith (· + ·) a b
def vsub (a b : Vec) : Vec := List.zipWith (· - ·) a b
def vscale (k : Rat) (a : Vec) : Vec := a.map (k * ·)
def dot (a b : Vec) : Rat := rsum (List.zipWith (· * ·) a b)
def zeroVec (n : Nat) : Vec := List.replicate n 0
def zeroMat (n : Nat) : Mat := List.replicate n (zeroVec n)
/-- A matrix from its elements. -/
def mkMat (r c : Nat) (f : Nat → Nat → Rat) : Mat := (List.range r).map fun i => (List.range c).map fun j => f i j
def ident (n : Nat) : Mat := mkMat n n fun i j => if i = j then 1 else 0
def transpose (m : Mat) : Mat :=
  match m with
  | [] => []
  | r :: _ => (List.range r.length).map fun j => m.map fun row => vget row j
def madd (a b : Mat) : Mat := List.zipWith vadd a b
def msub (a b : Mat) : Mat := List.zipWith vsub a b
def mscale (k : Rat) (a : Mat) : Mat := a.map (vscale k)
def mvec (m : Mat) (v : Vec) : Vec := m.map fun r => dot r v
def mmul (a b : Mat) : Mat := a.map fun r => (transpose b).map fun c => dot r c
/-- Set row and column `i` to zero but for the diagonal element `d`. -/
def isolate (m : Mat) (i : Nat) (d : Rat) : Mat :=
  (List.range m.length).map fun a => (List.range m.length).map fun b =>
    if a = i ∧ b = i then d else if a = i ∨ b = i then 0 else mget m a b

/-- Larger eigenvalue of the symmetric matrix with rows (a, b), (b, c). -/
def eigMax (a b c : Rat) : Rat := (a + c) / 2 + rsqrt (rsq ((a - c) / 2) + rsq b)

/-- One forward step of Gaussian elimination on augmented rows: take the row `pivot`, eliminate its leading element from
the others, and drop the leading column. -/
def eliminate (pivot : Vec) (rows : List Vec) : List Vec :=
  match pivot with
  | [] => []
  | p :: pt => rows.map fun r =>
    match r with
    | [] => []
    | a :: rt => vsub rt (vscale (a / p) pt)

/-- Solve a square system given as augmented rows, by elimination in the rows' order; none when a leading element is at
or below `tiny` (R227, pivot). Structural on the number of unknowns. -/
def solveRows (tiny : Rat) : Nat → List Vec → Option Vec
  | 0, _ => some []
  | n + 1, rows =>
    match rows with
    | [] => none
    | p :: rest =>
      match p with
      | [] => none
      | a :: pt =>
        if a ≤ tiny then none else
        match solveRows tiny n (eliminate p rest) with
        | none => none
        | some xs =>
          let b := nth 0 pt (pt.length - 1)
          some ((b - dot pt xs) / a :: xs)

/-- Solve the system `k x = b` with the positive definite `k`; none on a pivot at or below 10^-12 times the largest
diagonal element (R227). -/
def solveSpd (k : Mat) (b : Vec) : Option Vec :=
  let big := ((List.range k.length).map fun i => mget k i i).foldl rmax 0
  solveRows (big / 1000000000000) k.length (List.zipWith (fun r x => r ++ [x]) k b)

end Sys2Proof.Machine
end

