-- ==== Sys2Proof/Machine/State.lean ====
section
/-! DEFINITION. The state of the DW8, the reasons a step can stop, and the state right after reset. -/
namespace Sys2Proof.Machine

/-- Why a step can stop with a fault. -/
inductive Fault where
  /-- Raised by no meaning: every effect the spec gives the DW8 ends in a next state. Safe. -/
  | none
  deriving DecidableEq, Repr

/-- Why a command has no meaning. -/
inductive Refusal where
  /-- Raised by an arm of `exec` whose command is not modelled. Safe. -/
  | notModelled (mnemonic : String)
  deriving DecidableEq, Repr

/-- The whole unit. -/
structure State where
  /-- commands waiting, first in first out -/
  pending : List Instr := []
  /-- counter of free values drawn (the model's own field, log 3); DESIGN CHOICE 0 -/
  free : Nat := 0
  /-- device time, frames, samples -/
  clk : Clock := {}
  /-- the object store as a client reads it: rising keys index × 256 + subindex, no entry at its default -/
  obj : List (Nat × Val) := []
  /-- the object store as the unit uses it (R38, R41) -/
  force : List (Nat × Val) := []
  /-- result objects by index, each with its two buffers (R52); reset never published -/
  res : List (Nat × ResPair) := []
  /-- faults in force (R575) -/
  faults : List Flt := []
  acc : Access := {}
  mode : ModeMgr := {}
  gran : Granary := {}
  husk : Husk := {}
  therm : Therm := {}
  /-- health monitors HM0-HM63 -/
  mons : List (Nat × Monitor) := []
  st : Start := {}
  hal : Halur := {}
  sheaf : Sheaf := {}
  win : Winnow := {}
  obs : Observer := {}
  ctl : Control := {}
  net : Net := {}
  chaff : Chaff := {}
  fb : Feedback := {}
  io : Ports := {}
  gn : Gnss := {}
  tb : TimeB := {}
  pan : Panicle := {}
  mir : Mirror := {}
  can : Can := {}
  deriving DecidableEq, Repr

/-- The state right after reset. -/
def State.reset : State := {}

end Sys2Proof.Machine
end

