-- ==== Sys2Proof/Machine/Ops.lean ====
section
/-! DEFINITION. The operations every chapter shares: objects of the dictionary by index and subindex, results, event
records, faults and the stop under F3, free values, the clock. -/
namespace Sys2Proof.Machine

abbrev Out := Host.Outcome State Fault Refusal

/-! Objects (chapter 02). -/

/-- The key of an object in the stores. -/
def okey (idx sub : Nat) : Nat := idx * 256 + sub

/-- Does a row of the table hold this object? -/
def Row.holds (r : Row) (idx sub : Nat) : Bool :=
  Nat.ble r.base idx && Nat.blt idx (r.base + r.count) && Nat.ble r.sub0 sub && Nat.blt sub (r.sub0 + r.subs)

/-- The rows of an index's page of 256 indexes, in the table's order. -/
def pageRows (page : Nat) : List Row :=
  if page < 0x20 then rows02a
  else if page < 0x2A then
    if page = 0x20 then rows01a ++ (rows02a ++ rows22a)
    else if page = 0x22 then rows03a ++ rows05a
    else if page < 0x26 then rows04a
    else if page < 0x28 then rows05a else rows06a
  else if page < 0x36 then
    if page = 0x2A then rows07a else if page = 0x2C then rows08a else if page = 0x2E then rows09a
    else if page = 0x34 then rows11a else rows10a
  else if page < 0x40 then
    if page = 0x36 then rows12a ++ rows12b else if page = 0x38 then rows13a else if page = 0x3A then rows14a
    else if page = 0x3C then rows16a else rows17a
  else if page = 0x40 then rows18a else if page = 0x42 then rows19a else if page = 0x44 then rows15a
  else if page = 0x4E then rows15a ++ rows15b
  else if page < 0x4A then rows20a else rows21a

/-- The table's row of an object. -/
def findRow (idx sub : Nat) : Option Row := (pageRows (idx / 256)).find? (fun r => r.holds idx sub)
/-- The table's row of a result object. -/
def findRes (idx : Nat) : Option ResRow := resRows.find? (fun r => r.index == idx)

/-- The default of an object (R31); a key that no row holds has no value and reads 0. -/
def dfltAt (key : Nat) : Val :=
  match findRow (key / 256) (key % 256) with
  | some r => r.dflt
  | none => .u 0

/-- An object's value in a store: its entry, else its default. -/
def getV (store : List (Nat × Val)) (key : Nat) : Val :=
  match tfind store key with
  | some v => v
  | none => dfltAt key

/-- Write an object into a store, keeping the canonical form: no entry at its default. -/
def putV (store : List (Nat × Val)) (key : Nat) (v : Val) : List (Nat × Val) :=
  if v = dfltAt key then tdel store key else tset store key v

def Val.asNat : Val → Nat
  | .u n => n
  | .i z => z.toNat
  | .f _ => 0
  | .d _ => 0
def Val.asInt : Val → Int
  | .u n => n
  | .i z => z
  | .f _ => 0
  | .d _ => 0
def Val.asRat : Val → Rat
  | .u n => n
  | .i z => z
  | .f w => F32.toRat w
  | .d _ => 0
def Val.asBytes : Val → List Byte
  | .d b => b
  | _ => []
def rv (x : Rat) : Val := .f (F32.ofRat x)

namespace State

/-- The value a client reads. -/
def objV (s : State) (idx sub : Nat) : Val := getV s.obj (okey idx sub)
def objU (s : State) (idx sub : Nat) : Nat := (s.objV idx sub).asNat
def objI (s : State) (idx sub : Nat) : Int := (s.objV idx sub).asInt
def objR (s : State) (idx sub : Nat) : Rat := (s.objV idx sub).asRat
def objD (s : State) (idx sub : Nat) : List Byte := (s.objV idx sub).asBytes
/-- The value the unit uses (R38, R41). -/
def cfgV (s : State) (idx sub : Nat) : Val := getV s.force (okey idx sub)
def cfgU (s : State) (idx sub : Nat) : Nat := (s.cfgV idx sub).asNat
def cfgI (s : State) (idx sub : Nat) : Int := (s.cfgV idx sub).asInt
def cfgR (s : State) (idx sub : Nat) : Rat := (s.cfgV idx sub).asRat
def cfgD (s : State) (idx sub : Nat) : List Byte := (s.cfgV idx sub).asBytes
def cfgB (s : State) (idx sub : Nat) : Bool := s.cfgU idx sub != 0

/-- Set an object that the unit itself writes (RO, or a stored result). -/
def putObj (s : State) (idx sub : Nat) (v : Val) : State := { s with obj := putV s.obj (okey idx sub) v }
def putU (s : State) (idx sub n : Nat) : State := s.putObj idx sub (.u n)
def putI (s : State) (idx sub : Nat) (z : Int) : State := s.putObj idx sub (.i z)
def putR (s : State) (idx sub : Nat) (x : Rat) : State := s.putObj idx sub (rv x)
def putB (s : State) (idx sub : Nat) (b : Bool) : State := s.putObj idx sub (.u (b2n b))
/-- Set an object and its value in force at once. -/
def putBoth (s : State) (idx sub : Nat) (v : Val) : State :=
  { s with obj := putV s.obj (okey idx sub) v, force := putV s.force (okey idx sub) v }

/-- Width in bits of an object's type. -/
def width (idx sub : Nat) : Nat :=
  match findRow idx sub with
  | some r => match r.ty with
    | .u8 | .bool | .i8 => 8
    | .u16 | .i16 => 16
    | .u64 | .i64 | .time64 => 64
    | _ => 32
  | none => 32

/-- Add to a counter, which wraps at its type's width. -/
def addU (s : State) (idx sub k : Nat) : State := s.putU idx sub ((s.objU idx sub + k) % 2 ^ width idx sub)
def incU (s : State) (idx sub : Nat) : State := s.addU idx sub 1

/-! The clock. -/

/-- Frame offset within the sample: 0 for f0 (R12). -/
def fOff (s : State) : Nat := s.clk.frame - s.clk.f0
/-- The unit runs its chain (between Standby-ready and a stop, reset or Dormancy). -/
def up (s : State) : Bool := s.st.power == .running
/-- The present instant becomes device time `t` where `t` is later (log 10: steps come in time order). -/
def at' (s : State) (t : Nat) : State := { s with clk := { s.clk with time := max s.clk.time t } }
/-- Length of a sample in seconds. -/
def T (s : State) : Rat := (s.clk.n : Rat) / 800
/-- Draw one free natural number (log 3). -/
def freeN (s : State) : Nat × State := (Config.freeNat s.free, { s with free := s.free + 1 })
/-- Draw one free real (log 3). -/
def freeR (s : State) : Rat × State := (Config.freeReal s.free, { s with free := s.free + 1 })

/-! Results (R51-R56). -/

/-- Publish a result: the sample and epoch in progress, valid, not stale, not held. -/
def publish (s : State) (idx : Nat) (vals : List Val) : State :=
  { s with res := tset s.res idx { front := ⟨s.clk.sample, s.clk.epoch, 0x80, vals⟩ } }
/-- Publish with an epoch of its own (a window's end, R529). -/
def publishAt (s : State) (idx epoch : Nat) (vals : List Val) : State :=
  { s with res := tset s.res idx { front := ⟨s.clk.sample, epoch, 0x80, vals⟩ } }
/-- Fill the second buffer of a result; it becomes the readable one at the end of the frame (R52). -/
def publishEnd (s : State) (idx : Nat) (vals : List Val) : State :=
  { s with res := tmod {} s.res idx fun r => { r with back := some ⟨s.clk.sample, s.clk.epoch, 0x80, vals⟩ } }
/-- The frame has ended: every buffer that was filled in it becomes the readable one (R52). -/
def exchange (s : State) : State :=
  { s with res := s.res.map fun p => (p.1, match p.2.back with
    | some b => { front := b }
    | none => p.2) }
/-- The readable buffer of a result. -/
def result (s : State) (idx : Nat) : ResBuf := (tget {} s.res idx).front
/-- The newest buffer of a result, whether readable already or not. -/
def freshest (s : State) (idx : Nat) : ResBuf := ((tget {} s.res idx).back).getD (s.result idx)
/-- A value of a readable result, by subindex from 04h on. -/
def resV (s : State) (idx sub : Nat) : Val := nth (.u 0) (s.result idx).vals (sub - 4)
/-- The due publication has not occurred: the stale bit sets in the readable buffer, and what the second buffer holds of it is
discarded (R54, R205). -/
def stale (s : State) (idx : Nat) : State :=
  { s with res := tmod {} s.res idx fun r => { front := { r.front with status := r.front.status ||| 0x40 } } }
/-- Change one value of the readable buffer of a result. -/
def patchRes (s : State) (idx i : Nat) (f : Val → Val) : State :=
  { s with res := tmod {} s.res idx fun r => { r with front := { r.front with
      vals := putNth r.front.vals i (f (nth (.u 0) r.front.vals i)) } } }
/-- The chain uses the buffer again in place of a missed result (Table 2-5 bit 5). -/
def heldRes (s : State) (idx : Nat) : State :=
  { s with res := tmod {} s.res idx fun r => { front := { r.front with status := r.front.status ||| 0x60 } } }

/-- A part that a failed self-test has disabled (R537): bit of Table 22-2 and instance. -/
def degraded (s : State) (bit' inst : Nat) : Bool := s.st.degraded.contains (bit' * 64 + inst)

/-! Messages to the CAN controllers (chapter 19). -/

def canC (s : State) (c : Nat) : CanCtl := tget {} s.can.ctls c
def setCanC (s : State) (c : Nat) (x : CanCtl) : State := { s with can := { s.can with ctls := tset s.can.ctls c x } }

/-- Controller c transmits: enabled, in operating mode 0, neither bus-off nor held off (R480, R487, R488, R498); from
start-up stage 7 on, for the heartbeat before Standby (R496, log 58). -/
def canSends (s : State) (c : Nat) : Bool :=
  c < 4 && (s.up || s.st.power == .starting 7) && !s.degraded 9 c && s.cfgB (0x4200 + c) 1 && s.cfgU (0x4200 + c) 2 == 0 && !(s.canC c).held && !(s.canC c).off

/-- Put a message into a transmit buffer of controller c; it has 64 (chapter 19). -/
def canQueue (s : State) (c : Nat) (m : CanMsg) : State :=
  let x := s.canC c
  if s.canSends c && x.tx.length < 64 then s.setCanC c { x with tx := x.tx ++ [m] } else s

/-! Faults (R575, R10). -/

def faultIs (s : State) (code inst : Nat) : Bool := s.faults.any fun f => f.code == code && f.inst == inst
/-- The highest class in force (R10). -/
def faultClass (s : State) : Nat := maxNat (s.faults.map (·.cls))

/-- Error register 1001h:00h (Table 2-3). -/
def errorReg (s : State) : Nat :=
  let comm := s.faults.any fun f => f.code / 256 == 0x10 || f.code / 256 == 0x11 || f.code / 256 == 0x0F
  let low : Rat := mkRat 108 10
  let high : Rat := mkRat 132 10
  bitAt (2 ≤ s.faultClass) 7 + bitAt comm 4 + bitAt (0 < s.therm.level) 3 +
    bitAt (decide (s.therm.now.vin < low) || decide (high < s.therm.now.vin)) 2 +
    bitAt (s.io.overs != 0 || s.io.overLr != 0) 1 + bitAt (1 ≤ s.faultClass) 0

/-- EMCY on every controller when a fault of F1 or above is raised or cleared (R496); bit 31 of 1014h turns it off. -/
def emcy (s : State) (code : Nat) : State :=
  let cob := s.cfgU 0x1014 0
  if bit cob 31 then s else
  let err := if s.faultClass = 0 then 0 else 0xFF00 + s.faultClass
  let data := natLe 2 err ++ natLe 1 s.errorReg ++ natLe 2 code ++ natLe 3 ((s.gran.next + 2 ^ 32 - 1) % 2 ^ 32)
  let id := if bit cob 29 then cob % 2 ^ 29 + 2 ^ 31 else cob % 2048
  foldS s (List.range 4) fun s c => s.canQueue c { id := id, kind := .emcy, fd := false, data := data }

/-- The faults but for one. -/
def dropFault (s : State) (code inst : Nat) : State :=
  { s with faults := s.faults.filter fun f => !(f.code == code && f.inst == inst) }
/-- Lower a fault: its condition has cleared. -/
def lower (s : State) (code inst : Nat) : State :=
  if s.faultIs code inst then (s.dropFault code inst).emcy code else s
/-- Raise a fault; one already in force takes the new class and is not added again (R575). -/
def raise (s : State) (code inst cls : Nat) : State :=
  let s' := { s with faults := (s.dropFault code inst).faults ++ [⟨code, inst, cls⟩] }
  if s.faultIs code inst then s' else s'.emcy code

/-! Event records (chapter 20). -/

/-- The unit's source byte (Table 20-2), the flushed bit clear. -/
def sourceByte (s : State) : Nat := s.st.role * 16 + s.st.unitId

/-- Records the store holds (R502). -/
def storeSize : Nat := 4194304

/-- Reserve the next two sequence numbers for a signature block (R501). -/
def reserveSig (s : State) : State :=
  if s.gran.sig.isSome then s else
  { s with gran := { s.gran with
      sig := some ⟨s.gran.next, s.clk.time⟩, next := (s.gran.next + 2) % 2 ^ 32, since := 0 } }

/-- Put a record into the DRAM queue with the next sequence number; the 4,096th since the last block reserves a
signature block (R500, R501). -/
def pushRec (s : State) (code cls : Nat) (params : List Nat) : State :=
  let r : Rec := { code := code, cls := cls, source := s.sourceByte, seq := s.gran.next, time := s.clk.time,
                   sample := s.clk.sample, status := s.objU 0x2200 1,
                   params := (params ++ [0, 0, 0, 0]).take 4 |>.map (· % 2 ^ 64) }
  let s := { s with gran := { s.gran with
      queue := s.gran.queue ++ [r], next := (s.gran.next + 1) % 2 ^ 32, since := s.gran.since + 1 } }
  if s.gran.since = 4096 then s.reserveSig else s

/-- Room for an ordinary record: the queue is not full, and under the halt policy more than the 64 reserved records are
free (R502, R503). -/
def granRoom (s : State) : Bool :=
  s.gran.queue.length < 4096 &&
    !(s.cfgU 0x4600 1 == 1 && storeSize - 64 ≤ s.gran.held.length + s.gran.queue.length)

/-- A record that finds no room takes no sequence number and is counted (R503). -/
def discardRec (s : State) : State :=
  { s.incU 0x4601 4 with gran := { s.gran with lost := s.gran.lost + 1 } }

/-- The discarded records are reported in one event 1305h once space returns (R503). -/
def reportLost (s : State) : State :=
  if s.gran.lost = 0 then s
  else { s.pushRec 0x1305 0 [s.gran.lost] with gran := { (s.pushRec 0x1305 0 [s.gran.lost]).gran with lost := 0 } }

/-- Record an event (R499, R503). A unit without VIN or in reset records nothing. -/
def record (s : State) (code cls : Nat) (params : List Nat) : State :=
  if s.st.power = .off ∨ s.st.power = .reset then s
  else if s.granRoom then s.reportLost.pushRec code cls params
  else s.discardRec

/-- Record an F0 event. -/
def note (s : State) (code : Nat) (params : List Nat) : State := s.record code 0 params
/-- Record an event of class F1 or F2 and raise its fault for an instance of the condition. -/
def alarm (s : State) (code inst cls : Nat) (params : List Nat) : State :=
  (s.record code cls params).raise code inst cls

/-- A signed parameter, sign-extended to 64 bits (R499). -/
def pI (z : Int) : Nat := ofSigned 64 z
/-- A real parameter, an F32 in the low 32 bits (R499). -/
def pR (x : Rat) : Nat := (F32.ofRat x).toNat
/-- A parameter that names items numbered below 256, 8 bits each, ascending (R499). -/
def pItems (l : List Nat) : Nat :=
  (sortBy (fun a b => decide (a < b)) l).foldr (fun a acc => a % 256 + 256 * acc) 0
/-- A parameter that names items numbered in 16 bits (R499). -/
def pItems16 (l : List Nat) : Nat :=
  (sortBy (fun a b => decide (a < b)) l).foldr (fun a acc => a % 65536 + 65536 * acc) 0
/-- A long identifier as its first 8 bytes (R499), read little-endian (log 11). -/
def pId (b : List Byte) : Nat := leNat (b.take 8)

/-! The stop under F3 (Table 0-4, R532) and the overrun rules (R16, R576). -/

/-- A number of seconds in ns. -/
def ns (x : Rat) : Nat := (x * 1000000000).floor.toNat

/-- Stop under F3: the cause's fault is in force; an automatic restart is set up or withheld with 000Bh (R532); the unit
leaves its role and sends the stop notice in the frame of the stop and the two after it (Table 17-2). The condition that
caused it holds class F3 from now on (R575). -/
def unitStop (s : State) (code : Nat) (inst : Nat := 0) : State :=
  if s.st.power = .stopped then s else
  let s := s.raise code inst 3
  let stops := (s.st.stops.filter fun t => s.clk.time < t + 3600000000000) ++ [s.clk.time]
  let auto := s.cfgB 0x2021 1 && stops.length < s.cfgU 0x2021 3
  let s := if auto then s else s.note 0x000B [stops.length]
  -- a stopped unit cancels every pending CAN message (R498)
  let quiet : Can := { s.can with ctls := s.can.ctls.map fun (p : Nat × CanCtl) => (p.1, { p.2 with tx := [], sdoOut := [] }) }
  { s with
    can := quiet,
    st := { s.st with
      power := .stopped, role := 3, stops := stops, notice := 3, noticeCode := code, ordered := none,
      restartDue := if auto then some (s.clk.time + ns (s.cfgR 0x2021 2)) else none } }

/-- Samples of the last 100 in which a stage overran, this one included (R110, R135, R179). -/
def overruns100 (s : State) (l : List Nat) : List Nat :=
  (l.filter fun x => (s.clk.sample + 2 ^ 32 - x) % 2 ^ 32 < 100) ++ [s.clk.sample]

end State
end Sys2Proof.Machine
end

