-- ==== Sys2Proof/Machine/Access.lean ====
section
/-! DEFINITION. Access to the object dictionary (chapter 02): encodings, the tests of R577 in their order, acceptance of
a write (R38-R41), reads and result latches (R51-R56), the application of accepted writes at f0. -/
namespace Sys2Proof.Machine

/-! Abort codes (Table 2-8). -/
def abToggle : Nat := 0x05030000
def abTimeout : Nat := 0x05040000
def abCommand : Nat := 0x05040001
def abBlockSize : Nat := 0x05040002
def abSeq : Nat := 0x05040003
def abCrc : Nat := 0x05040004
def abWriteOnly : Nat := 0x06010001
def abReadOnly : Nat := 0x06010002
def abNoObject : Nat := 0x06020000
def abMap : Nat := 0x06040041
def abMapLen : Nat := 0x06040042
def abIncompat : Nat := 0x06040043
def abLength : Nat := 0x06070010
def abNoSub : Nat := 0x06090011
def abValue : Nat := 0x06090030
def abHigh : Nat := 0x06090031
def abLow : Nat := 0x06090032
def abStore : Nat := 0x08000020
def abMode : Nat := 0x08000022
def abRole : Nat := 0x08000101
def abSign : Nat := 0x08000102
def abSet : Nat := 0x08000103
def abNotLead : Nat := 0x08000104
def abMirror : Nat := 0x08000105
def abBusy : Nat := 0x08000106
def abReused : Nat := 0x08000107
def abOld : Nat := 0x08000108

/-! Encodings (Table 2-1). -/

/-- Size in bytes of a fixed-size type. -/
def Ty.size : Ty → Option Nat
  | .bool | .u8 | .i8 => some 1
  | .u16 | .i16 => some 2
  | .u32 | .i32 | .f32 => some 4
  | .u64 | .i64 | .time64 => some 8
  | .str | .dom => none

/-- Type code of Table 2-1. -/
def Ty.code : Ty → Nat
  | .bool => 0x01 | .i8 => 0x02 | .i16 => 0x03 | .i32 => 0x04 | .u8 => 0x05 | .u16 => 0x06 | .u32 => 0x07
  | .f32 => 0x08 | .str => 0x09 | .dom => 0x0F | .i64 => 0x15 | .u64 => 0x1B | .time64 => 0x80

/-- The octets of a value of a type. -/
def encodeVal (t : Ty) (v : Val) : List Byte :=
  match t.size, v with
  | some k, .u n => natLe k n
  | some k, .i z => natLe k (ofSigned (8 * k) z)
  | some _, .f w => natLe 4 w.toNat
  | _, .d b => b
  | none, _ => []

/-- The value of octets of a type; lengths are tested before (R33). -/
def decodeVal (t : Ty) (b : List Byte) : Val :=
  match t with
  | .bool | .u8 | .u16 | .u32 | .u64 | .time64 => .u (leNat b)
  | .i8 => .i (toSigned 8 (leNat b))
  | .i16 => .i (toSigned 16 (leNat b))
  | .i32 => .i (toSigned 32 (leNat b))
  | .i64 => .i (toSigned 64 (leNat b))
  | .f32 => .f (BitVec.ofNat 32 (leNat b))
  | .str | .dom => .d b

/-- Test a value against a union of intervals (R37): 0 when it lies in one, else the abort. -/
def intervals {α : Type} (lt : α → α → Bool) (l : List (α × α)) (x : α) : Nat :=
  if l.any fun p => !lt x p.1 && !lt p.2 x then 0
  else if l.all fun p => lt p.2 x then abHigh
  else if l.all fun p => lt x p.1 then abLow
  else abValue

/-- Step 4 of R577: the length (R33): of the type, or within the bounds that the object states. -/
def lengthAbort (r : Row) (b : List Byte) : Nat :=
  match r.ty.size with
  | some k => if b.length = k then 0 else abLength
  | none =>
    let top := if r.ty = .str then 255 else 16 * 1024 * 1024
    match r.range with
    | .bytes lo hi u => if lo ≤ b.length ∧ b.length ≤ hi ∧ b.length % u = 0 then 0 else abLength
    | _ => if b.length ≤ top then 0 else abLength

/-- Step 5 of R577: range, enumeration and reserved bits (R37, Table 2-1). -/
def rangeAbort (r : Row) (v : Val) : Nat :=
  match r.ty, v with
  | .bool, .u n => if n ≤ 1 then 0 else abValue
  | .f32, .f w =>
    if !F32.finite w then abValue else
    match r.range with
    | .f l =>
      let x := F32.toRat w
      if l.any fun p => F32.toRat (BitVec.ofNat 32 p.1) ≤ x &&
          (if p.2.2 then x < F32.toRat (BitVec.ofNat 32 p.2.1) else x ≤ F32.toRat (BitVec.ofNat 32 p.2.1)) then 0
      else if l.all fun p => F32.toRat (BitVec.ofNat 32 p.2.1) ≤ x then abHigh
      else if l.all fun p => x < F32.toRat (BitVec.ofNat 32 p.1) then abLow
      else abValue
    | .nonzero => if F32.toRat w = 0 then abValue else 0
    | _ => 0
  | _, .u n =>
    match r.range with
    | .u l => intervals (fun a b => decide (a < b)) l n
    | .mask m => if n &&& m = n then 0 else abValue
    | .bind => if n / 2 ^ 24 ≤ 3 ∧ (n / 2 ^ 24 = 1 → n % 32 < 24) then 0 else abValue
    | .cob m => if n &&& m = n ∧ (bit n 29 ∨ n % 2 ^ 29 < 2048) then 0 else abValue
    | _ => 0
  | _, .i z =>
    match r.range with
    | .i l => intervals (fun a b => decide (a < b)) l z
    | _ => 0
  | _, _ => 0

/-! Objects that exist (R4, R32, R43, Table 0-1). -/

/-- Number of values of a result object, 04h onward. -/
def ResRow.count (r : ResRow) : Nat := nsum (r.segs.map (·.1))
/-- Types of the values of a result object in order. -/
def ResRow.types (r : ResRow) : List Ty := (r.segs.map fun p => List.replicate p.1 p.2).flatten

/-- Highest subindex in use of an index (R32); none where the index does not exist. -/
def highestSub (idx : Nat) : Option Nat :=
  match findRes idx with
  | some r => some (3 + r.count)
  | none =>
    let l := rows.filter fun r => r.base ≤ idx && idx < r.base + r.count
    if l.isEmpty then none else some (maxNat (l.map fun r => r.sub0 + r.subs - 1))

namespace State

/-- The GNSS baseband is present: the product code is that of a DW8G-A1 (Table 0-1). -/
def hasGnss (s : State) : Bool := s.objU 0x1018 2 == 0x00084701

/-- An index that this ordering code has: 3600h-37FFh are those of a DW8G-A1 alone (R1, Table 0-1). -/
def hasIndex (s : State) (idx : Nat) : Bool := s.hasGnss || !(Nat.ble 0x3600 idx && Nat.ble idx 0x37FF)

/-- Abort for an index or subindex that does not exist, else 0 (step 1 of R577). -/
def existsAbort (s : State) (idx sub : Nat) : Nat :=
  if idx < 0x1000 ∨ 0x5000 ≤ idx then abNoObject
  else if !s.hasIndex idx then abNoObject
  else match highestSub idx with
    | none => abNoObject
    | some h =>
      if sub = 0 ∨ (findRes idx).isSome then (if sub ≤ h then 0 else abNoSub)
      else if (findRow idx sub).isSome then 0 else abNoSub

/-! Sessions and roles (R48, R49). -/

/-- Where a path's session is kept. -/
def sessKey : Path → Nat
  | .can c => c
  | .rpdo c => 4 + c
  | .panicle => 8
  | .recvMap => 9
  | .kdp id => 16 + id
  | .mirror id _ => 16 + id

def session (s : State) (p : Path) : Session := tget {} s.acc.sessions (sessKey p)
def setSession (s : State) (p : Path) (x : Session) : State :=
  { s with acc := { s.acc with sessions := tset s.acc.sessions (sessKey p) x } }

/-- The role an access acts with (R48, R426, R474, R495). -/
def roleOf (s : State) : Path → Role
  | .can _ | .rpdo _ => if s.cfgU 0x1F01 0 = 1 then .engineer else .operator
  | .panicle => .engineer
  | .recvMap => .operator
  | .kdp id => (s.session (.kdp id)).role
  | .mirror id u => (s.session (.mirror id u)).role

/-- Artefacts loaded owner-signed by an Engineer (Table 2-4). -/
def isArtefact (idx : Nat) : Bool := idx == 0x2010 || idx == 0x2900 || idx == 0x2C01 || idx == 0x3200 || idx == 0x3C01

/-- Write rights by role (Table 2-4). The first row is read as every writable object of 2200h-23FFh (log 12). -/
def mayWrite (r : Role) (idx sub : Nat) : Bool :=
  if 0x2200 ≤ idx ∧ idx ≤ 0x23FF then r == .operator || r == .engineer
  else if isArtefact idx then r == .engineer
  else if idx = 0x4630 ∨ (idx = 0x4830 ∧ sub = 2) then r == .auditor
  else if 0x4800 ≤ idx ∧ idx ≤ 0x49FF then r == .service
  else r == .engineer || r == .service

/-- Answer a request (R65). -/
def answer (s : State) (code : Nat) (value : List Byte := []) : State :=
  { s with acc := { s.acc with answer := ⟨code, value⟩ } }

/-- A store is in progress (R46); that of a configuration set begins with the acceptance of the set. -/
def storing (s : State) : Bool := s.acc.store.isSome || s.acc.fresh.any fun p => p.key == okey 0x2010 0

/-- Steps 1 to 6 of R577 and the store test of step 7, in their order; a failure at step 6 records 0102h (R77). -/
def writeTests (s : State) (p : Path) (idx sub : Nat) (b : List Byte) : Except (Nat × State) (Row × Val) :=
  let e := s.existsAbort idx sub
  if e ≠ 0 then .error (e, s) else
  match findRow idx sub with
  | none => .error (abReadOnly, s)
  | some r =>
    if r.acc = .ro ∨ r.acc = .konst ∨ r.per = .fac then .error (abReadOnly, s) else
    match p with
    | .mirror _ _ => .error (abMirror, s)
    | _ =>
    if !mayWrite (s.roleOf p) idx sub then .error (abRole, s)
    else if s.husk.limited && !(s.roleOf p == .auditor || s.roleOf p == .service) then .error (abRole, s)
    else if !r.loc && s.st.role ≠ 0 then .error (abNotLead, s)
    else
      let l := lengthAbort r b
      if l ≠ 0 then .error (l, s) else
      let v := decodeVal r.ty b
      let a := rangeAbort r v
      let a := if a ≠ 0 then a
        else if idx = 0x2201 then
          (if v.asNat / 512 % 128 ≠ 0 ∨ v.asNat / 8 % 32 ≠ 0 ∨ (bit v.asNat 8 ∧ v.asNat % 8 ≠ 2) then abValue else 0)
        else if idx = 0x2203 then
          (if v.asNat / 256 % 256 ≠ 0 ∨ v.asNat % 256 = 0 ∨ 4 < v.asNat % 256 then abValue else 0)
        else 0
      if a ≠ 0 then .error (a, s)
      else if r.acc = .rwm ∧ !bit r.modes s.mode.mode then
        .error (abMode, s.note 0x0102 [idx * 256 + sub, s.mode.mode, (s.roleOf p).code,
          if idx = 0x2201 ∨ idx = 0x2203 then v.asNat / 65536 else 0])
      else if s.storing && (idx = 0x1010 || idx = 0x1011 || idx = 0x2010) then .error (abBusy, s)
      else .ok (r, v)

/-- The verdict of an object's own rules (step 7 of R577). -/
inductive Verdict where
  /-- take the value -/
  | store
  /-- refuse, with the state after the refusal's own event -/
  | refuse (abort : Nat) (s : State)
  /-- carried out; nothing is stored -/
  | done (s : State)
  deriving DecidableEq, Repr

/-- Frame number of the f0 at which a pair-shared write accepted now takes effect (R41, R74): accepted before f(N-1),
the next f0; accepted in f(N-1), one sample later. -/
def sharedDue (s : State) : Nat :=
  if s.fOff + 1 < s.clk.n then s.clk.f0 + s.clk.n else s.clk.f0 + 2 * s.clk.n
/-- Frame number of the next f0. -/
def nextF0 (s : State) : Nat := s.clk.f0 + s.clk.n

/-- Unit-local objects that the chain reads once per sample: they take effect at the next f0 (R38, log 13). -/
def perSample (idx : Nat) : Bool := idx == 0x2511 || idx == 0x2711 || idx == 0x2E10 || idx == 0x3003

/-- Accept a value: a read returns it at once; it comes into force at once for a unit-local object, at its f0
otherwise (R38, R41). An accepted write of an NV object sets 2011h:03h (Table 2-7). -/
def acceptVal (s : State) (r : Row) (idx sub : Nat) (v : Val) : State :=
  let k := okey idx sub
  let s := if r.per = .nv then s.putU 0x2011 3 1 else s
  let s := { s with obj := putV s.obj k v }
  if r.loc && !perSample idx then { s with force := putV s.force k v }
  else { s with acc := { s.acc with fresh := s.acc.fresh ++ [⟨k, v, if r.loc then s.nextF0 else s.sharedDue⟩] } }

/-- Accept a pair-shared object that reads a constant: its value goes to the f0 without showing in reads (R38, R41). -/
def acceptAction (s : State) (idx sub : Nat) (v : Val) : State :=
  { s with acc := { s.acc with fresh := s.acc.fresh ++ [⟨okey idx sub, v, s.sharedDue⟩] } }

/-- Units joined to this Lead (R447). -/
def joined (s : State) : List Nat := (s.hal.units.filter fun p => p.2.joined).map (·.1)

/-- Number of 8,192-byte fragments of a message (R440). -/
def fragCount (n : Nat) : Nat := max 1 ((n + 8191) / 8192)

/-- What the answer shows while the response to a request is withheld (R447). -/
def noAnswer : Nat := 0xFFFFFFFF

/-- Put a pair-shared DOMAIN write in the transfer queue; its response waits for the partners (R447). -/
def queueBulk (s : State) (p : Path) (idx sub : Nat) (b : List Byte) : State :=
  { s with acc := { s.acc with
      answer := ⟨noAnswer, []⟩,
      bulk := s.acc.bulk ++ [⟨okey idx sub, b, p, none, s.joined.map fun u => (u, List.range (fragCount b.length)),
        s.clk.frame, []⟩] } }

/-- A pair-shared DOMAIN write on a Lead with a joined partner goes by Bulk frames before it is accepted (R447). -/
def needsBulk (s : State) (r : Row) : Bool := r.ty == .dom && !r.loc && !s.joined.isEmpty

/-- Write an object under the rules of R577 and the object's own rules. -/
def writeWith (own : State → Path → Nat → Nat → Val → Verdict) (s : State) (p : Path) (idx sub : Nat)
    (b : List Byte) : State :=
  match s.writeTests p idx sub b with
  | .error (a, s') => s'.answer a
  | .ok (r, v) =>
    match own s p idx sub v with
    | .refuse a s' => s'.answer a
    | .done s' => s'.answer 0
    | .store =>
      if s.needsBulk r then s.queueBulk p idx sub v.asBytes
      else (s.acceptVal r idx sub v).answer 0

/-- An object without rules of its own. -/
def noRule (_ : State) (_ : Path) (_ _ : Nat) (_ : Val) : Verdict := .store

/-- Apply the accepted writes that are due at this f0: each value comes into force (R38, R41); among several of one
object the last accepted one stands. -/
def applyDue (s : State) : State :=
  let due := s.acc.fresh.filter fun p => p.due ≤ s.clk.frame
  let rest := s.acc.fresh.filter fun p => !(p.due ≤ s.clk.frame)
  { s with force := due.foldl (fun f p => putV f p.key p.val) s.force, acc := { s.acc with fresh := rest } }

/-- Was a value of this object among the accepted writes due at this f0? -/
def dueAt (s : State) (idx sub : Nat) : Bool :=
  s.acc.fresh.any fun p => p.due ≤ s.clk.frame && p.key == okey idx sub

/-! Reads (R31-R34, R51-R56). -/

/-- The whole record of a result buffer: 01h, 02h, 03h, then the values (R51). -/
def ResBuf.vals3 (b : ResBuf) : List Val := .u b.sample :: .u b.epoch :: .u b.status :: b.vals

/-- One subindex of a result buffer, encoded. While the valid bit is clear, values read 0 (Table 2-5). -/
def resSub (r : ResRow) (b : ResBuf) (sub : Nat) : List Byte :=
  match sub with
  | 0 => natLe 1 (3 + r.count)
  | 1 => natLe 4 b.sample
  | 2 => natLe 8 b.epoch
  | 3 => natLe 1 b.status
  | n + 4 => encodeVal (nth .u8 r.types n) (nth (.u 0) b.vals n)

/-- The buffer a session's read of a result returns: the latched one while the latch lasts, else the published one
(R55). -/
def latched (s : State) (p : Path) (idx : Nat) : ResBuf :=
  match (s.session p).latch with
  | some (i, b, t) => if i = idx ∧ s.clk.time < t + 2000000000 then b else s.result idx
  | none => s.result idx

/-- A read of a result object by a session: 01h latches the published buffer; a read of another result object ends the
latch (R55). -/
def readResult (s : State) (p : Path) (r : ResRow) (sub : Nat) : State :=
  let ses := s.session p
  if sub = 1 then
    (s.setSession p { ses with latch := some (r.index, s.result r.index, s.clk.time) }).answer 0
      (resSub r (s.result r.index) 1)
  else
    let keep := match ses.latch with
      | some (i, _, t) => i == r.index && s.clk.time < t + 2000000000
      | none => false
    (if keep then s else s.setSession p { ses with latch := none }).answer 0 (resSub r (s.latched p r.index) sub)

/-- Read an object that has no side effect: `live` gives the objects computed from the state. -/
def readWith (live : State → Nat → Nat → Option Val) (s : State) (p : Path) (idx sub : Nat) : State :=
  let e := s.existsAbort idx sub
  if e ≠ 0 then s.answer e else
  match findRes idx with
  | some r => s.readResult p r sub
  | none =>
    match findRow idx sub with
    | none => s.answer 0 (natLe 1 ((highestSub idx).getD 0))
    | some r =>
      if r.acc = .wo then s.answer abWriteOnly
      else s.answer 0 (encodeVal r.ty ((live s idx sub).getD (s.objV idx sub)))

/-! The pair-shared and stored values (R42, R61, R64). -/

/-- Every object of the table as (index, subindex, row), ascending. -/
def objects : List (Nat × Nat × Row) :=
  sortBy (fun a b => decide (a.1 * 256 + a.2.1 < b.1 * 256 + b.2.1))
    (rows.flatMap fun r => (List.range r.count).flatMap fun i => (List.range r.subs).map fun j =>
      (r.base + i, r.sub0 + j, r))

/-- An entry of a configuration set (R64): index, subindex, type code, length, value, padding to 4 bytes. -/
def setEntry (idx sub : Nat) (t : Ty) (v : Val) : List Byte :=
  let b := encodeVal t v
  let e := natLe 2 idx ++ natLe 1 sub ++ natLe 1 t.code ++ natLe 2 b.length ++ b
  e ++ List.replicate ((4 - e.length % 4) % 4) 0

/-- The objects of the table that this ordering code has. -/
def ownObjects (s : State) : List (Nat × Nat × Row) := objects.filter fun o => s.hasIndex o.1

/-- Pair-shared NV values as a set body (R42, R456). -/
def sharedBody (s : State) : List Byte :=
  ((s.ownObjects.filter fun o => !o.2.2.loc && o.2.2.per == .nv && (o.2.2.acc == .rw || o.2.2.acc == .rwm)).map fun o =>
    setEntry o.1 o.2.1 o.2.2.ty (s.cfgV o.1 o.2.1)).flatten

/-- Shared-value digest 2011h:05h: the first 8 bytes of SHA-384 (Table 2-7). -/
def sharedDigest (s : State) : Nat := leNat ((Config.sha384 s.sharedBody).take 8)

/-- Objects a configuration set may hold (R61). -/
def inSet (idx : Nat) (r : Row) : Bool :=
  r.per == .nv && (r.acc == .rw || r.acc == .rwm) && !isArtefact idx && !(0x4800 ≤ idx && idx ≤ 0x49FF)

/-- The present values as an unsigned set (Table 2-7, 2010h:00h). Its created time is the present device time, its signer
field 20 zero bytes, and a value of more than 65,535 octets shows the low 16 bits of its length (DESIGN CHOICE, log 132). -/
def presentSet (s : State) : List Byte :=
  let l := s.ownObjects.filter fun o => inSet o.1 o.2.2
  let body := (l.map fun o => setEntry o.1 o.2.1 o.2.2.ty (s.objV o.1 o.2.1)).flatten
  ascii "KCFG" ++ natLe 2 1 ++ natLe 2 0 ++ natLe 4 (s.objU 0x1018 2) ++ natLe 4 (s.objU 0x2011 2) ++
    natLe 8 s.clk.time ++ natLe 4 l.length ++ natLe 4 body.length ++ Config.sha384 body ++ body ++
    List.replicate 20 0 ++ natLe 2 0

end State
end Sys2Proof.Machine
end

