-- ==== Sys2Proof/Machine/Monitor.lean ====
section
/-! DEFINITION. The health monitors' counting (R527-R529): every place where a probe publishes hands its value here. -/
namespace Sys2Proof.Machine

/-- Bin of a magnitude (R528): bin k from 1 on begins at b × 2^((k-1)/2), compared by squares. -/
def binOf (b v : Rat) : Nat :=
  if v < b then 0 else 1 + ((List.range 30).filter fun i => decide (b * b * ((2 ^ (i + 1) : Nat) : Rat) ≤ v * v)).length

namespace State

def monitor (s : State) (m : Nat) : Monitor := tget {} s.mons m
def setMonitor (s : State) (m : Nat) (x : Monitor) : State := { s with mons := tset s.mons m x }

/-- Monitor m takes a value, unless T2 is shed (R521, R527, R529). -/
def takeValue (s : State) (m : Nat) (v : Rat) : State :=
  let x := s.monitor m
  if !x.win.live || decide (2 ≤ s.therm.level) then s else
  let w := x.win
  let a := rabs v
  let lim := s.cfgR (0x4C00 + m) 5
  let beyond : Bool := decide (lim ≠ 0) && decide (lim < a)
  let w' : Window := { w with
    count := min (w.count + 1) (2 ^ 32 - 1), min := if w.count = 0 then v else rmin w.min v,
    max := if w.count = 0 then v else rmax w.max v, sum := w.sum + v, overs := w.overs || beyond,
    bins := tmod 0 w.bins (binOf (s.cfgR (0x4C00 + m) 3) a) fun n => min (n + 1) (2 ^ 32 - 1) }
  let s := s.setMonitor m { x with win := w' }
  if beyond && !w.overs then
    if s.cfgU (0x4C00 + m) 6 = 1 then s.alarm 0x1601 m 1 [m, pR v, pR lim] else s.note 0x1601 [m, pR v, pR lim]
  else s

/-- Monitors attached to a probe with its argument (Table 21-6). -/
def attached (s : State) (code arg : Nat) : List Nat :=
  (List.range 64).filter fun m => s.cfgU (0x4C00 + m) 1 == code &&
    (s.cfgU (0x4C00 + m) 2 == arg || [2, 3, 4, 7, 9, 10].contains code)

/-- Probe `code` with argument `arg` publishes a value. -/
def probe (s : State) (code arg : Nat) (v : Rat) : State := foldS s (s.attached code arg) fun s m => s.takeValue m v

/-- A probe of a time that the spec leaves to the hardware: a free value, drawn only for an attached monitor (log 3). -/
def probeFree (s : State) (code : Nat) : State :=
  if s.attached code 0 = [] then s else
  let f := s.freeR
  f.2.probe code 0 f.1

end State
end Sys2Proof.Machine
end

