-- ==== Sys2Proof/Machine/Nodes.lean ====
section
/-! DEFINITION. The node table 4020h:00h (R467, Table 18-2), which streams, drives and plant bindings name. -/
namespace Sys2Proof.Machine

/-- A node entry (Table 18-2). -/
structure Node where
  id : Nat
  kind : Nat
  nets : Nat
  mac : List Byte
  thruster : Nat
  fields : Nat
  ints : Nat
  timeout : Nat
  lossClass : Nat
  failAction : Nat
  driveTimeout : Nat
  deriving DecidableEq, Repr

/-- One 32-byte entry. -/
def parseNode (b : List Byte) : Node :=
  { id := leAt b 0 2, kind := leAt b 2 1, nets := leAt b 3 1, mac := slice b 4 6, thruster := leAt b 10 1,
    fields := leAt b 11 1, ints := leAt b 12 8, timeout := leAt b 20 2, lossClass := leAt b 22 1,
    failAction := leAt b 23 1, driveTimeout := leAt b 24 2 }

/-- Entries of fixed size in an octet string. -/
def chunks (size : Nat) (b : List Byte) : List (List Byte) :=
  (List.range (b.length / size)).map fun i => slice b (i * size) size

def parseNodes (b : List Byte) : List Node := (chunks 32 b).map parseNode

namespace State
/-- The node table in force. -/
def nodes (s : State) : List Node := parseNodes (s.cfgD 0x4020 0)
def node (s : State) (id : Nat) : Option Node := s.nodes.find? (·.id == id)
/-- The drive node of a thruster. -/
def driveNode (s : State) (j : Nat) : Option Node := s.nodes.find? fun n => n.kind == 1 && n.thruster == j
end State

/-- Does a field of a data node hold an F32 (an integer bit clear)? -/
def Node.isReal (n : Node) (k : Nat) : Bool := k < n.fields && !bit n.ints k
def Node.isInt (n : Node) (k : Nat) : Bool := k < n.fields && bit n.ints k

end Sys2Proof.Machine
end

