-- ==== Sys2Proof/Machine/Sheaf.lean ====
section
/-! DEFINITION. Sheaf: stream descriptors, clock slots, intake and alignment to the epoch (chapter 04). -/
namespace Sys2Proof.Machine

/-- Bindings that can deliver a kind, and its number of components (Table 4-2). -/
def kindBindings : Nat → List Nat
  | 0x01 => [1, 2, 3, 7] | 0x02 => [8, 7] | 0x03 => [5] | 0x04 => [7, 2] | 0x05 => [1, 2, 3, 7] | 0x06 => [1, 2, 4, 7]
  | 0x07 => [3, 4, 7] | 0x08 => [1, 2, 3, 7] | 0x09 => [1, 2, 7] | 0x0A => [5, 7] | 0x0B => [6, 7] | 0x0C => [6, 7, 8]
  | 0x0D => [2, 7] | _ => []
def kindSize : Nat → Nat
  | 0x01 | 0x07 => 3
  | 0x02 | 0x03 | 0x04 | 0x08 | 0x09 | 0x0D => 2
  | _ => 1

/-- Kinds fed by a sentence code (Table 15-1). -/
def sentenceKinds : Nat → List Nat
  | 0x01 | 0x02 => [0x01] | 0x04 | 0x05 => [0x05] | 0x06 => [0x06] | 0x07 => [0x08] | 0x08 => [0x09]
  | 0x0A => [0x01, 0x08] | _ => []
/-- Sentences without a time field bind only with slot FFh (R92). -/
def untimed (code : Nat) : Bool := 0x04 ≤ code && code ≤ 0x08

/-- The fields of a node can deliver a kind from field `first` on (R471). -/
def nodeDelivers (nodes : List Node) (kind addr : Nat) : Bool :=
  match nodes.find? (·.id == addr % 4096) with
  | none => false
  | some n =>
    let first := field addr 16 8
    if n.kind = 1 then (kind == 0x0A && first == 1) || (kind == 0x0B && first == 3)
    else if n.kind = 2 then
      (List.range (kindSize kind)).all fun k =>
        if kind == 0x01 && k < 2 then n.isInt (first + k) else n.isReal (first + k)
    else false

/-- R91 and R92 for one descriptor: can the stream be enabled? -/
def streamOk (gnss : Bool) (nodes : List Node) (kind binding addr slot : Nat) : Bool :=
  (kindBindings kind).contains binding &&
  (match binding with
    | 1 | 2 =>
      let code := field addr 8 8
      (sentenceKinds code).contains kind && slot != 0xFE && (!untimed code || slot == 0xFF)
    | 3 => gnss && slot == 0xFE && (match addr % 4 with
        | 0 => kind == 0x01 | 1 => kind == 0x05 | 2 => kind == 0x07 | _ => kind == 0x08)
    | 4 | 5 | 6 => slot == 0xFE
    | 7 => nodeDelivers nodes kind addr
    | 8 => slot == 0xFF
    | _ => false)

namespace State

/-- Value of a descriptor's subindex as a write would leave it. -/
def wouldU (s : State) (idx sub k n : Nat) : Nat := if sub = k then n else s.objU idx k

/-- Own rules of the stream descriptors 2400h-24FFh (R91, Table 4-4) and of the member's class (R114, in Winnow). A raw
field map of a type above 100b is refused. -/
def ruleStream (s : State) (_ : Path) (idx sub : Nat) (v : Val) : Verdict :=
  let n := v.asNat
  if 0x11 ≤ sub ∧ sub ≤ 0x13 then (if 4 < field n 28 3 then .refuse abValue s else .store)
  else if sub < 1 ∨ 5 < sub then .store
  else
    let w := fun k => s.wouldU idx sub k n
    if w 1 = 1 && !streamOk s.hasGnss (parseNodes (s.objD 0x4020 0)) (w 2) (w 3) (w 4) (w 5) then
      .refuse abValue (s.note 0x0208 [idx - 0x2400, w 2, w 3])
    else .store

/-! Time of validity (R92-R94). -/

def stream (s : State) (k : Nat) : Stream := tget {} s.sheaf.streams k
def setStream (s : State) (k : Nat) (x : Stream) : State :=
  { s with sheaf := { s.sheaf with streams := tset s.sheaf.streams k x } }
def slot (s : State) (k : Nat) : Slot := tget {} s.sheaf.slots k
def setSlot (s : State) (k : Nat) (x : Slot) : State :=
  { s with sheaf := { s.sheaf with slots := tset s.sheaf.slots k x } }

/-- Device time of a sample's validity, ns (R92, R94). A slot without a seed takes the sample's own observation
(R96): arrival less L. -/
def tov (s : State) (k slotNo : Nat) (x : Smp) : Rat :=
  if slotNo = 0xFE then x.stamp
  else if slotNo = 0xFF then (x.arrival : Rat) - s.cfgR (0x2400 + k) 6 * 1000000
  else
    let m := s.slot slotNo
    match m.t0 with
    | none => (x.arrival : Rat) - s.cfgR (0x2540 + slotNo) 1 * 1000000
    | some t0 => (x.stamp : Rat) + m.o + m.rho * ((x.stamp : Rat) - t0)

/-- The stream is enabled and its buffer begun under the descriptor in force. -/
def streamCfg (s : State) (k : Nat) : Option (Nat × Nat × Nat × Nat) :=
  if s.cfgB (0x2400 + k) 1 then
    some (s.cfgU (0x2400 + k) 2, s.cfgU (0x2400 + k) 3, s.cfgU (0x2400 + k) 4, s.cfgU (0x2400 + k) 5)
  else none

def periodNs (s : State) (k : Nat) : Rat := 1000000000 / s.cfgR (0x2400 + k) 7

/-! Intake (R13, chapter 04 "Bringing a stream to the epoch"). -/

/-- A sample that its source marks invalid: discarded, both bits set, counted. -/
def sheafInvalid (s : State) (k : Nat) : State :=
  (s.incU 0x2501 5).setStream k { s.stream k with disc := true, invalid := true }

/-- An arriving measurement of an enabled stream is accepted into its buffer or discarded. `valid` is false where the
source marks it invalid. -/
def sheafAccept (s : State) (k : Nat) (x : Smp) (valid : Bool) : State :=
  match (s.stream k).cfg with
  | none => s
  | some (_, _, _, sl) =>
    if !valid then s.sheafInvalid k else
    let st := s.stream k
    let t := s.tov k sl x
    let stale := match st.buf.getLast? with
      | some y => decide (t ≤ s.tov k sl y)
      | none => false
    if stale then (s.incU 0x2501 3).setStream k { st with disc := true }
    else if (x.arrival : Rat) + 1250000 < t then (s.incU 0x2501 4).setStream k { st with disc := true }
    else
      let was := st.silent
      let st := { st with
        buf := lastN 8 ((if x.mark then [] else st.buf) ++ [{ x with after := decide (1 ≤ s.fOff) }]), fresh := st.fresh ++ [(x.arrival, x.raw)], invalid := false, silent := false,
        since := x.arrival }
      let s := (s.incU 0x2501 1).setStream k st
      let s := if 1 ≤ s.fOff ∧ t ≤ s.clk.epoch then s.incU 0x2501 2 else s
      let s := if sl < 64 then
          s.setSlot sl { s.slot sl with obs := (s.slot sl).obs ++ [(x.stamp, x.arrival)],
                                        state := max 1 (s.slot sl).state }
        else s
      if was then s.note 0x0205 [k] else s

/-- R93: a UTC time of day in ns becomes TAI on the day nearest to the arrival stamp. -/
def utcToTai (s : State) (tod arrival : Nat) : Int :=
  let day : Int := 86400000000000
  let base : Int := (tod : Int) + (s.objI 0x3801 1) * 1000000000
  let d : Int := roundAway (((arrival : Int) - base : Int) / (day : Rat))
  base + d * day

/-! Clock slots (R94-R99). -/

/-- Report a slot at 2540h + k (Table 4-5). -/
def putSlot (s : State) (k : Nat) (m : Slot) : State :=
  let s := s.setSlot k m
  (((s.putI (0x2540 + k) 5 (roundAway m.o)).putR (0x2540 + k) 6 (m.rho * 1000000)).putU (0x2540 + k) 8 m.state)

/-- A slot that restarts learning (R96). -/
def relearned (m : Slot) : Slot := { m with
  o := 0, rho := 0, t0 := none, state := 1, learned := 0, refused := [], clean := 0, relearn := true }

/-- The update of one slot at f1 from its pending observations (R95-R99). -/
def slotUpdate (s : State) (k : Nat) : State :=
  let m := s.slot k
  let reset := s.cfgU (0x2540 + k) 4 = 1
  let m : Slot := if reset then relearned m else m
  let s := if reset then s.putBoth (0x2540 + k) 4 (.u 0) else s
  let L := s.cfgR (0x2540 + k) 1 * 1000000
  let all := m.obs
  let m : Slot := { m with obs := [] }
  match all with
  | [] => s.putSlot k m
  | (t1, a1) :: rest =>
    let (m, obs) : Slot × List (Int × Nat) := match m.t0 with
      | none => ({ m with o := (a1 : Rat) - L - t1, rho := 0, t0 := some t1 }, rest)
      | some _ => (m, all)
    match m.t0, obs with
    | some t0, (tf, af) :: more =>
      let res := fun (p : Int × Nat) => (p.2 : Rat) - L - p.1 - (m.o + m.rho * ((p.1 : Rat) - t0))
      let e := (more.map res).foldl rmin (res (tf, af))
      let t := (more.map (·.1)).foldl max tf
      let delta : Rat := (t : Rat) - t0
      let drift := rabs m.rho * delta
      let rho' := m.rho + s.cfgR (0x2540 + k) 3 * e / delta
      let big := 1250000 < rabs e
      let ok := !big && (decide (delta ≤ 0) || (drift ≤ 1250000 && rabs rho' ≤ 1 / 2000))
      let s := s.putI (0x2540 + k) 7 (roundAway e)
      if ok then
        let m : Slot := if delta ≤ 0 then { m with o := m.o + s.cfgR (0x2540 + k) 2 * e }
          else { m with o := m.o + m.rho * delta + s.cfgR (0x2540 + k) 2 * e, rho := rho', t0 := some t }
        let m : Slot := { m with refused := [] }
        let s := s.incU (0x2540 + k) 9
        if m.state = 1 then
          let n := m.learned + 1
          s.putSlot k { m with learned := n, state := if 8 ≤ n then 2 else 1 }
        else if m.state = 3 then
          let c : Nat := if rabs e ≤ 625000 ∧ drift ≤ 625000 then m.clean + 1 else 0
          if 16 ≤ c then (s.putSlot k { m with clean := 0, state := 2 }).note 0x0202 [k]
          else s.putSlot k { m with clean := c }
        else s.putSlot k m
      else if m.state = 1 then s.putSlot k (relearned m)
      else
        let s := if m.state = 2 then s.note 0x0201 [k, pI (roundAway e), pI (roundAway drift)] else s
        let refs := if big then lastN 8 (m.refused ++ [e]) else []
        let m : Slot := { m with state := 3, clean := 0, refused := refs }
        let mean := rsum refs / 8
        if refs.length = 8 ∧ refs.all (fun x => rabs (x - mean) ≤ 625000) then
          (s.putSlot k { m with o := m.o + mean, refused := [] }).note 0x0203
            [k, pI (roundAway m.o), pI (roundAway (m.o + mean))]
        else s.putSlot k m
    | _, _ => s.putSlot k m

/-! Bringing a stream to an instant (R103, R104). -/

/-- Components of a kind that are angles taken along the shorter arc (R103). -/
def angular (kind c : Nat) : Bool := (kind == 0x05 && c == 0) || (kind == 0x0A && c == 0) || ((kind == 0x02 || kind == 0x09) && c == 1)

/-- Linear interpolation or extrapolation of components by the fraction `fr` from `a` to `b`. -/
def lerp (kind : Nat) (a b : List Rat) (fr : Rat) : List Rat :=
  (List.range a.length).map fun c =>
    let x := nth 0 a c
    let y := nth 0 b c
    if angular kind c then wrap360 (x + fr * wrap180 (y - x)) else x + fr * (y - x)

/-- The samples that R103 takes for instant `t` from (time of validity, components) in order: the method and one or
two samples; none when expired. -/
def method {α : Type} (items : List (Rat × α)) (t period : Rat) (horizon : Nat) : Option (Nat × List (Rat × α)) :=
  match argMin (fun p => rabs (p.1 - t)) items with
  | none => none
  | some near =>
    if rabs (near.1 - t) ≤ 1000 then some (1, [near]) else
    let before := items.filter fun p => p.1 ≤ t
    let after := items.filter fun p => t < p.1
    match before.getLast?, after with
    | some a, b :: _ => if b.1 - a.1 ≤ 4 * period then some (2, [a, b]) else none
    | some a, [] => if t - a.1 ≤ horizon * period then some (3, lastN 2 items) else none
    | none, _ => none

/-- Combine the samples taken, for a kind extrapolated linearly (R103, R104). -/
def combine (kind : Nat) (used : List (Rat × List Rat)) (t : Rat) : List Rat :=
  match used with
  | [a] => a.2
  | [a, b] => lerp kind a.2 b.2 ((t - a.1) / (b.1 - a.1))
  | _ => []

/-- The buffered samples of a stream that reached Sheaf in time for the present epoch (R13), with their times of validity
under the model in force. -/
def items (s : State) (k slotNo : Nat) : List (Rat × Smp) :=
  sortBy (fun a b => decide (a.1 < b.1)) (((s.stream k).buf.filter fun x => !x.after).map fun x => (s.tov k slotNo x, x))

/-- A stream of a kind brought to an instant for compensation (R106); none for a learning slot. -/
def bring (s : State) (k kind : Nat) (t : Rat) : Option (List Rat) :=
  match (s.stream k).cfg with
  | none => none
  | some (kd, _, _, sl) =>
    if kd ≠ kind ∨ (sl < 64 ∧ (s.slot sl).state ≤ 1) then none else
    match method (s.items k sl) t (s.periodNs k) (s.cfgU (0x2400 + k) 8) with
    | none => none
    | some (_, used) => some (combine kind (used.map fun p => (p.1, p.2.raw)) t)

/-- Heading for compensation at an instant (R106): the first unmasked compensation stream, else the observer's for the
previous epoch with its yaw rate. Before Winnow's first epoch every stream counts as unmasked (DESIGN CHOICE, log 140). -/
def compHeading (s : State) (t : Rat) : Option Rat :=
  let try' := fun (k : Nat) =>
    let h := s.cfgU 0x2500 k
    if h = 0xFF ∨ (tget {} s.win.streams h).masked then none
    else (s.bring h 0x05 t).map fun l => nth 0 l 0
  match try' 5, try' 6, try' 7 with
  | some x, _, _ => some x
  | none, some x, _ => some x
  | none, none, some x => some x
  | none, none, none =>
    match s.obs.est with
    | some e => if s.obs.core.hInit then some (wrap360 (e.psi + e.r * (t - e.epoch) / 1000000000)) else none
    | none => none

/-- Body-to-earth rotation Rz(ψ) Ry(θ) Rx(φ) of a vector, angles in degrees (R106). -/
def rotate (roll pitch psi : Rat) (l : Rat × Rat × Rat) : Rat × Rat × Rat :=
  let (x, y, z) := l
  let y1 := cosd roll * y - sind roll * z
  let z1 := sind roll * y + cosd roll * z
  let x2 := cosd pitch * x + sind pitch * z1
  let z2 := cosd pitch * z1 - sind pitch * x
  (cosd psi * x2 - sind psi * y1, sind psi * x2 + cosd psi * y1, z2)

/-- WGS 84 latitude, longitude (degrees) and height to earth-centred coordinates (R108; the ellipsoid's constants are
those of WGS 84, PRESUMED, log 14), in 64-bit arithmetic: every operation is rounded to binary64 (log 4). -/
def ecef (lat lon h : Rat) : Rat × Rat × Rat :=
  let f : Rat := f64r (1000000000 / 298257223563)
  let e2 := f64r (f * f64r (2 - f))
  let sl := f64r (sind lat)
  let cl := f64r (cosd lat)
  let n := f64r (6378137 / f64r (rsqrt (f64r (1 - f64r (e2 * f64r (sl * sl))))))
  let r := f64r (f64r (n + h) * cl)
  (f64r (r * f64r (cosd lon)), f64r (r * f64r (sind lon)), f64r (f64r (f64r (n * f64r (1 - e2)) + h) * sl))

/-- A geodetic fix as north, east, down about the origin 2500h (R108). -/
def geodetic (s : State) (lat lon h : Rat) : Rat × Rat × Rat :=
  let lat0 : Rat := (s.cfgI 0x2500 1 : Rat) / 1000000000
  let lon0 : Rat := (s.cfgI 0x2500 2 : Rat) / 1000000000
  let (x, y, z) := ecef lat lon h
  let (x0, y0, z0) := ecef lat0 lon0 (s.cfgR 0x2500 3)
  let dx := f64r (x - x0)
  let dy := f64r (y - y0)
  let dz := f64r (z - z0)
  let sl := f64r (sind lat0)
  let cl := f64r (cosd lat0)
  let so := f64r (sind lon0)
  let co := f64r (cosd lon0)
  -- towards the meridian, and across it
  let a := f64r (f64r (co * dx) + f64r (so * dy))
  (f64r (f64r (cl * dz) - f64r (sl * a)), f64r (f64r (co * dy) - f64r (so * dx)), -f64r (f64r (cl * a) + f64r (sl * dz)))

/-- A position sample compensated at its own time of validity (R106-R108): its components and whether roll and pitch
were taken as 0; none for lack of heading. -/
def position (s : State) (k kind : Nat) (t : Rat) (raw : List Rat) : Option (List Rat × Bool) :=
  match s.compHeading t with
  | none => none
  | some psi =>
    let i := 0x2400 + k
    let try' := fun a => if a = 0xFF then none else s.bring a 0x07 t
    let att := match try' (s.cfgU i 0x0C) with
      | some x => some x
      | none => try' (s.cfgU 0x2500 4)
    let (roll, pitch) := match att with
      | some l => (nth 0 l 0, nth 0 l 1)
      | none => (0, 0)
    let A := s.cfgR i 0x0D
    let B := s.cfgR i 0x0E
    let C := s.cfgR i 0x0F
    let r0 := nth 0 raw 0
    let r1 := nth 0 raw 1
    let p : Rat × Rat × Rat :=
      if kind = 0x01 then s.geodetic r0 r1 (nth 0 raw 2)
      else if kind = 0x02 then (A - r0 * cosd (psi + r1), B - r0 * sind (psi + r1), 0)
      else if kind = 0x03 then
        let w := rotate roll pitch psi (C * Config.tan (deg2rad r0), C * Config.tan (deg2rad r1), C)
        (A - w.1, B - w.2.1, -w.2.2)
      else (r0, r1, 0)
    let l := rotate roll pitch psi (s.cfgR i 9, s.cfgR i 0x0A, s.cfgR i 0x0B)
    let q := [p.1 - l.1, p.2.1 - l.2.1] ++ (if kind = 0x01 then [p.2.2 - l.2.2] else [])
    some (q, att.isNone)

/-- Kind 08h: ψ̇ × (-y, x) in earth axes is subtracted (R108). The heading that turns it to earth axes is that of R106 at the
sample's time of validity, else the observer's (the rule names none; DESIGN CHOICE, log 140). -/
def compVelocity (s : State) (k : Nat) (t : Rat) (raw : List Rat) : List Rat :=
  match s.obs.est with
  | none => raw
  | some e =>
    let psi := (s.compHeading t).getD e.psi
    let w := deg2rad e.r
    let cx := -w * s.cfgR (0x2400 + k) 0x0A
    let cy := w * s.cfgR (0x2400 + k) 9
    [nth 0 raw 0 - (cosd psi * cx - sind psi * cy), nth 0 raw 1 - (sind psi * cx + cosd psi * cy)]

/-- The observer's horizontal velocity for the previous epoch in north and east (R104). -/
def obsVelocity (s : State) : Option (Rat × Rat) :=
  match s.obs.est with
  | none => none
  | some e => some (e.u * cosd e.psi - e.v * sind e.psi, e.u * sind e.psi + e.v * cosd e.psi)

/-- One stream brought to the epoch, with its new status word (R102-R108, Table 4-7). -/
def alignStream (s : State) (k : Nat) : State :=
  let st := s.stream k
  match st.cfg with
  | none => s
  | some (kind, _, _, sl) =>
    let E : Rat := s.clk.epoch
    let period := s.periodNs k
    let nowSilent := !st.silent && decide (10 * period ≤ E - st.since)
    let s := if nowSilent then s.note 0x0204 [k] else s
    let st := { st with silent := st.silent || nowSilent }
    let its := s.items k sl
    let modelled := decide (sl < 64)
    let ck := s.slot sl
    let base := kind * 2 ^ 24 + 16 + bitAt st.disc 6 + bitAt st.invalid 5 + bitAt st.silent 11 +
      bitAt (modelled && ck.state == 3) 10
    let newest := match its.getLast? with
      | some p => p.1
      | none => 0
    let st := { st with disc := false, al := none, newest := newest }
    if modelled && ck.state ≤ 1 then
      s.setStream k { st with status := base + 512, nohead := false, uncomp := false }
    else
    match method its E period (s.cfgU (0x2400 + k) 8) with
    | none => s.setStream k { st with status := base + 4096, nohead := false, uncomp := false }
    | some (m, used) =>
      let first := match used with
        | p :: _ => p.1
        | [] => E
      let done := fun (s : State) (st : Stream) (vals : List Rat) (from' : Rat) (sd : Option Rat) (extra : Nat) =>
        s.setStream k { st with
          al := some ⟨vals, sd.getD (s.cfgR (0x2400 + k) 0x10), rmax 0 (E - from'), m⟩,
          status := base + extra + 0x8000 + m * 8192 }
      let sd := match used.getLast? with
        | some p => p.2.sd
        | none => none
      if 1 ≤ kind ∧ kind ≤ 4 then
        let todo := if m = 3 then lastN 1 used else used
        let conv := todo.map fun p => (p.1, s.position k kind p.1 p.2.raw)
        if conv.any (fun p => p.2.isNone) then
          (if st.nohead then s else s.note 0x0206 [k, 7]).setStream k
            { st with nohead := true, uncomp := false, status := base + 128 }
        else
          let vals := conv.map fun p => (p.1, (p.2.getD ([], false)).1)
          let un := conv.any fun p => (p.2.getD ([], false)).2
          let s := if un && !st.uncomp then s.note 0x0206 [k, 8] else s
          let st := { st with nohead := false, uncomp := un }
          if m = 3 then
            let a := match vals with
              | p :: _ => p
              | [] => (E, [])
            let dt := (E - a.1) / 1000000000
            let out := match s.obsVelocity with
              | some (vn, ve) => (nth 0 a.2 0 + vn * dt) :: (nth 0 a.2 1 + ve * dt) :: a.2.drop 2
              | none => a.2
            done s st out a.1 sd (bitAt un 8)
          else done s st (combine 0 vals E) first sd (bitAt un 8)
      else
        let un := kind == 0x08 && s.obs.est.isNone
        let st := { st with nohead := false, uncomp := un }
        let vals := used.map fun p => (p.1, if kind = 0x08 then s.compVelocity k p.1 p.2.raw else p.2.raw)
        done s st (combine kind vals E) first sd (bitAt un 8)

/-- What Winnow is handed of a stream besides its value: the samples accepted since the last handover and the restart
of its drift window (R112, R121). -/
def markRestart (s : State) (k : Nat) : State :=
  let st := s.stream k
  match st.cfg with
  | none => s
  | some (_, _, _, sl) =>
    let g := [s.cfgR (0x2400 + k) 0x0D, s.cfgR (0x2400 + k) 0x0E, s.cfgR (0x2400 + k) 0x0F]
    s.setStream k { st with
      geo := g, restart := decide (g ≠ st.geo) || (decide (sl < 64) && (s.slot sl).relearn) }

/-- The status word of a stream at the last handover; the kind alone when it is not enabled (Table 4-7). -/
def streamWord (s : State) (k : Nat) : Nat :=
  match (s.stream k).cfg with
  | some _ => (s.stream k).status
  | none => s.cfgU (0x2400 + k) 2 * 2 ^ 24

def streamAge (s : State) (k : Nat) : Nat :=
  match (s.stream k).al with
  | some a => min (2 ^ 32 - 1) (roundAway (a.age / 1000)).toNat
  | none => 0

/-- Publish Table 4-8, at the end of f1 (Table 1-2). -/
def publishSheaf (s : State) : State :=
  let w := fun lo => (List.range 128).map fun i => Val.u (s.streamWord (lo + i))
  let a := fun lo => (List.range 128).map fun i => Val.u (s.streamAge (lo + i))
  let k := s.cfgU 0x2511 0
  let comps := match (s.stream k).al with
    | some x => x.vals
    | none => []
  ((((s.publishEnd 0x2520 (w 0)).publishEnd 0x2521 (w 128)).publishEnd 0x2522 (a 0)).publishEnd 0x2523 (a 128)).publishEnd 0x2510
    [.u (s.streamWord k), .u (s.streamAge k), rv (nth 0 comps 0), rv (nth 0 comps 1), rv (nth 0 comps 2),
     .u (roundAway (s.stream k).newest).toNat]

/-- Follow the descriptors in force at f0 (R90, R91): a stream that is enabled, or whose kind, binding, address or slot
has changed, begins with an empty buffer and counts silence from here. -/
def refreshStreams (s : State) : State :=
  foldS s (List.range 256) fun s k =>
    let now := s.streamCfg k
    if now = (s.stream k).cfg then s
    else
      -- a newly enabled stream starts in the passing state of the drift test (R121)
      let s : State := if (s.stream k).cfg.isSome then s else
        { s with win := { s.win with streams := tmod {} s.win.streams k fun w => { w with mask := setBit w.mask 3 false, drift := [] } } }
      let s := s.setStream k { cfg := now, since := s.clk.epoch }
      match now with
      | some (_, _, _, sl) => if sl < 64 then s.setSlot sl { s.slot sl with state := max 1 (s.slot sl).state } else s
      | none => s

/-- The handover of f1 (R102): slots, mapping, compensation, alignment, publication. -/
def sheafRun (s : State) : State :=
  let reset := (List.range 64).filter fun k => s.cfgU (0x2540 + k) 4 == 1 || (tfind s.sheaf.slots k).isSome
  let s := foldS s reset slotUpdate
  let s := foldS s (List.range 256) fun s k => (s.markRestart k).alignStream k
  let s := { s with sheaf := { s.sheaf with
    handed := true, slots := s.sheaf.slots.map fun (p : Nat × Slot) => (p.1, { p.2 with relearn := false }) } }
  let s := foldS s ((List.range 256).filter fun k => (s.stream k).al.isSome) fun s k => s.probe 1 k (s.streamAge k : Rat)
  (s.publishSheaf).lower 0x0207 0

end State

/-- SHEAF_ALIGNMENT (R102): at f1 of a running unit. -/
def execSheafAlignment (s : State) : Out :=
  if s.up && s.fOff == 1 then .next s.sheafRun else .next s

/-- SHEAF_OVERRUN (R110): no stream for this epoch; F1; a third overrun within 100 samples stops the unit. -/
def execSheafOverrun (s : State) : Out :=
  if !(s.up && s.fOff == 1) then .next s else
  let s := [0x2510, 0x2520, 0x2521, 0x2522, 0x2523].foldl State.stale s
  let s := s.incU 0x2501 6
  let l := s.overruns100 s.sheaf.overs
  let s := { s with sheaf := { s.sheaf with
    overs := l, handed := false,
    streams := s.sheaf.streams.map fun (p : Nat × Stream) => (p.1, { p.2 with al := none }) } }
  let s := s.alarm 0x0207 0 1 []
  .next (if 3 ≤ l.length then s.unitStop 0x0207 else s)

/-- STREAM_SILENT (R105): a stream has accepted nothing for 10 nominal periods. -/
def execStreamSilent (k : Nat) (s : State) : Out :=
  let st := s.stream k
  if s.up && st.cfg.isSome && !st.silent && decide (10 * s.periodNs k ≤ (s.clk.time : Rat) - st.since) then
    .next ((s.setStream k { st with silent := true }).note 0x0204 [k])
  else .next s

/-- CLOCK_SLOT_RESET (R96): a write of 2540h + k:04h; a 1 returns the slot to learning at the next f1. -/
def execClockSlotReset (p : Path) (k : Nat) (b : List Byte) (s : State) : Out :=
  if !s.up ∨ 64 ≤ k then .next s else .next (s.writeWith State.noRule p (0x2540 + k) 4 b)

end Sys2Proof.Machine
end

