-- ==== Sys2Proof/Machine/Winnow.lean ====
section
/-! DEFINITION. Winnow: groups, tests, voting, confidence and weight (chapter 05). -/
namespace Sys2Proof.Machine

/-- Class of a quantity kind (Table 5-1); 0 none. -/
def kindClass : Nat → Nat
  | 0x01 | 0x02 | 0x03 | 0x04 => 1 | 0x05 => 2 | 0x06 => 3 | 0x07 => 4 | 0x08 => 5 | 0x09 => 6 | 0x0A => 7 | 0x0B => 8
  | 0x0C => 9 | 0x0D => 10 | _ => 0
/-- Classes tested component by component (R115). -/
def separate (cls : Nat) : Bool := cls == 4 || cls == 6
/-- Component compared along the shorter arc (Table 5-1). -/
def clsAngle (cls c : Nat) : Bool := (cls == 2 && c == 0) || (cls == 6 && c == 1) || (cls == 7 && c == 0)
/-- The components a class compares: the down component of kind 01h is never tested (R115). -/
def clsVals (cls : Nat) (l : List Rat) : List Rat := if cls = 1 then l.take 2 else l
/-- Component differences a - b. -/
def clsDiff (cls : Nat) (a b : List Rat) : List Rat :=
  (List.range a.length).map fun c =>
    let d := nth 0 a c - nth 0 b c
    if clsAngle cls c then wrap180 d else d
/-- Does a difference exceed a threshold (R115)? A distance is compared by its square. -/
def exceeds (cls : Nat) (d : List Rat) (t : Rat) : Bool :=
  if separate cls then d.any fun x => t < rabs x else decide (rsq t < rsum (d.map rsq))
/-- Size of a difference: the largest component of a class tested separately, else the Euclidean distance. -/
def magnitude (cls : Nat) (d : List Rat) : Rat :=
  match d with
  | [x] => rabs x
  | _ => if separate cls then (d.map rabs).foldl rmax 0 else rsqrt (rsum (d.map rsq))
/-- Mean of vectors. -/
def vmean (l : List (List Rat)) : List Rat :=
  match l with
  | [] => []
  | a :: _ => (List.range a.length).map fun c => rsum (l.map fun v => nth 0 v c) / l.length

namespace State

def winS (s : State) (k : Nat) : Win := tget {} s.win.streams k
def setWin (s : State) (k : Nat) (w : Win) : State :=
  { s with win := { s.win with streams := tset s.win.streams k w } }
def winG (s : State) (g : Nat) : WGroup := tget {} s.win.groups g
def setWinG (s : State) (g : Nat) (w : WGroup) : State :=
  { s with win := { s.win with groups := tset s.win.groups g w } }

/-- Class of a stream by its kind in force. -/
def streamClass (s : State) (k : Nat) : Nat := kindClass (s.cfgU (0x2400 + k) 2)
/-- Members of a group. -/
def members (s : State) (g : Nat) : List Nat := (List.range 256).filter fun k => s.cfgU (0x2600 + k) 1 == g
/-- Class of a group, 00h while it is empty (Table 5-2, 27xxh:05h). -/
def groupClass (s : State) (g : Nat) : Nat :=
  match s.members g with
  | k :: _ => s.streamClass k
  | [] => 0
/-- Selected by the operator (Table 5-4). -/
def selected (s : State) (k : Nat) : Bool := bit (s.cfgU 0x2240 (k / 32 + 1)) (k % 32)
def stepped (s : State) (k : Nat) : Bool := s.cfgU (0x2600 + k) 2 == 1

/-- Other members of group `g` as the latest accepted writes leave them. -/
def otherMembers (s : State) (g k : Nat) : List Nat :=
  (List.range 256).filter fun j => j ≠ k && s.objU (0x2600 + j) 1 == g

/-- Own rule of 2600h + s:01h (R114). -/
def ruleGroup (s : State) (_ : Path) (idx sub : Nat) (v : Val) : Verdict :=
  let k := idx - 0x2600
  let g := v.asNat
  if sub ≠ 1 ∨ g = 0xFF then .store else
  let others := s.otherMembers g k
  let cls := kindClass (s.objU (0x2400 + k) 2)
  if others.length < 16 ∧ others.all (fun j => kindClass (s.objU (0x2400 + j) 2) == cls) then .store
  else .refuse abValue (s.note 0x0308 [g, k, cls])

/-- Own rules of a stream descriptor: R91, and R114 for a new kind of a group's member. -/
def ruleDescriptor (s : State) (p : Path) (idx sub : Nat) (v : Val) : Verdict :=
  let k := idx - 0x2400
  let g := s.objU (0x2600 + k) 1
  let cls := kindClass v.asNat
  if sub = 2 ∧ g ≠ 0xFF ∧ !(s.otherMembers g k).all (fun j => kindClass (s.objU (0x2400 + j) 2) == cls) then
    .refuse abValue (s.note 0x0308 [g, k, cls])
  else s.ruleStream p idx sub v

/-- Own rule of 2240h: each change of a stream's selection records 0306h (Table 5-4). -/
def ruleSelection (s : State) (p : Path) (idx sub : Nat) (v : Val) : Verdict :=
  let old := s.objU idx sub
  let changed := (List.range 32).filter fun b => bit old b != bit v.asNat b
  let s' := foldS s changed fun s b => s.note 0x0306 [32 * (sub - 1) + b, b2n (bit v.asNat b), (s.roleOf p).code]
  if changed.isEmpty then .store else
  match findRow idx sub with
  | some r => .done (s'.acceptVal r idx sub v)
  | none => .store

/-- The observer's prediction for the epoch in progress; after an overrun it has published none for it (R179, log 136). -/
def predNow (s : State) : Option Pred := if s.obs.missed then none else s.obs.pred

/-- The observer's prediction for a class and its standard deviation (R113, Table 5-1). -/
def predFor (s : State) (cls : Nat) : Option (List Rat × Rat) :=
  match s.predNow with
  | none => none
  | some p =>
    match cls with
    | 1 => p.pos.map fun x => ([x.1, x.2], p.sPos)
    | 2 => p.head.map fun x => ([x], p.sHead)
    | 3 => p.yaw.map fun x => ([x], p.sYaw)
    | 5 => p.vel.map fun x => ([x.1, x.2], p.sVel)
    | _ => none

/-- The components that the freeze test compares together (R115): each alone for the classes tested separately; the two of a
geodetic fix, whose height is never tested; else the whole sample. -/
def freezeParts (cls kind n : Nat) : List (List Nat) :=
  if separate cls then (List.range n).map fun c => [c] else [List.range (if kind = 1 then min n 2 else n)]

/-- The freeze test of one part on a sample and its predecessor (Table 5-3); of a part of several components each must lie
within the tolerance (log 142). -/
def freezePart (kind : Nat) (tol time : Rat) (at' : Nat) (prev cur : List Rat) (cs : List Nat) (f : Frz) : Frz :=
  let d := fun c => let x := nth 0 cur c - nth 0 prev c
    if angular kind c then wrap180 x else x
  if cs.all fun c => rabs (d c) ≤ tol then
    let span : Rat := ((at' - f.since : Nat) : Rat) / 1000000000
    { f with diff := 0, span := span, held := f.held || decide (time ≤ span) }
  else
    let n := f.diff + 1
    { f with since := at', diff := n, span := 0, held := f.held && !(5 ≤ n : Bool) }

/-- The freeze test on the samples accepted since the last handover (Table 5-3). -/
def freezeTest (cls kind : Nat) (tol time : Rat) (w : Win) (l : List (Nat × List Rat)) : Win :=
  let w := l.foldl (fun w p =>
    let parts := freezeParts cls kind p.2.length
    match w.frzLast with
    | none => { w with frzLast := some p.2, frz := parts.map fun _ => { since := p.1 } }
    | some prev =>
      let fs := (List.range parts.length).map fun i =>
        freezePart kind tol time p.1 prev p.2 (nth [] parts i) (nth { since := p.1 } w.frz i)
      { w with frzLast := some p.2, frz := fs, stats := tset w.stats 4 ((fs.map (·.span)).foldl rmax 0) }) w
  { w with mask := setBit w.mask 0 (w.frz.any (·.held)) }

/-- Step 2 of R112 for one stream: clock, freeze, variance, step, gate; and the integrity mask (R126). -/
def winTests (s : State) (k : Nat) : State :=
  let st := s.stream k
  let cls := s.streamClass k
  let i := 0x2600 + k
  let w := s.winS k
  let w := { w with
    desel := !s.selected k, absent := st.al.isNone, third := false, gateNow := false,
    mask := setBit (setBit w.mask 5 (bit st.status 10)) 8
      (s.cfgU (0x2400 + k) 3 == 3 && (let f := field (s.objU 0x2200 1) 14 3; f == 3 || f == 4 || f == 5)) }
  let w := if s.cfgR i 4 = 0 then { w with mask := setBit w.mask 0 false, frzLast := none, frz := [] }
    else freezeTest cls (s.cfgU (0x2400 + k) 2) (s.cfgR i 5) (s.cfgR i 4) w st.fresh
  let pred := s.predFor cls
  let held := match w.stepEnd with
    | some e => decide (s.clk.time < e)
    | none => false
  let w := if held then w else { w with stepEnd := none }
  let s := s.setStream k { st with fresh := [] }
  match st.al with
  | none =>
    let w := if pred.isNone then { w with gateFail := 0, gateClear := 0, pending := false, mask := setBit w.mask 4 false } else w
    s.setWin k { w with mask := setBit w.mask 2 held }
  | some al =>
    let y := clsVals cls al.vals
    let nu := pred.map fun p => clsDiff cls y p.1
    -- variance
    let nus := lastN 32 (w.nus ++ [nu])
    let have' := nus.filterMap id
    let mean := vmean have'
    let ms := rsum (have'.map fun v => rsum ((clsDiff cls v mean).map rsq)) / have'.length
    let useRms := decide (2 ≤ have'.length) && pred.isSome
    let lim := s.cfgR i 6
    let overs := fun (t : Rat) => decide (t < al.sd) || (useRms && decide (rsq t < ms))
    let varNow := if overs lim then true else if overs (4 / 5 * lim) then bit w.mask 1 else false
    let sStat := if useRms then rmax al.sd (rsqrt ms) else al.sd
    -- step
    let d := match nu, w.lastNu, w.lastVal with
      | some a, some b, _ => some (clsDiff cls a b)
      | _, _, some b => some (clsDiff cls y b)
      | _, _, none => none
    let stepFail := match d with
      | some d => exceeds cls d (s.cfgR i 7)
      | none => false
    let stepEnd := if stepFail then some (s.clk.time + ns (s.cfgR i 8)) else w.stepEnd
    let stepMask := match stepEnd with
      | some e => decide (s.clk.time < e) || stepFail
      | none => false
    let stepStat := match d with
      | some d => magnitude cls d
      | none => 0
    let w := { w with
      nus := nus, lastNu := nu, lastVal := some y, stepEnd := stepEnd,
      mask := setBit (setBit w.mask 1 varNow) 2 stepMask,
      stats := tset (tset w.stats 6 sStat) 5 stepStat }
    -- gate
    match nu, pred with
    | some v, some (_, sp) =>
      let g2 := rsq (s.cfgR i 9) * (rsq al.sd + rsq sp)
      let fl := s.cfgR i 0x0A
      let tau2 := rmax g2 (rsq fl)
      let beyond := fun (share : Rat) =>
        if separate cls then v.any (fun x => rsq share * tau2 < rsq x) else decide (rsq share * tau2 < rsum (v.map rsq))
      let fail := beyond 1
      let cnt := if fail then w.gateFail + 1 else 0
      let was := bit w.mask 4
      let clr := if beyond (3 / 4) then 0 else w.gateClear + 1
      let now := if was then !(10 ≤ clr : Bool) else decide (s.cfgU i 0x0B ≤ cnt)
      let tau := rmax (s.cfgR i 9 * rsqrt (rsq al.sd + rsq sp)) fl
      s.setWin k { w with
        gateFail := cnt, gateClear := if was && !now then 0 else clr, gateNow := fail, pending := fail && !now,
        mask := setBit w.mask 4 now, nuMag := magnitude cls v, tau := tau, stats := tset w.stats 7 (magnitude cls v) }
    | _, _ =>
      s.setWin k { w with
        gateFail := 0, gateClear := 0, pending := false, mask := setBit w.mask 4 false, nuMag := 0, tau := 0 }

/-- The tests holding a stream masked, bits 8-0 of Table 5-6; in the stepped scheme variance and drift do not mask (Table
5-5). -/
def holds (s : State) (k : Nat) : Nat :=
  let m := (s.winS k).mask
  if s.stepped k then setBit (setBit m 1 false) 3 false else m
/-- Held masked by steps 2 and 3 (R112). -/
def masked23 (s : State) (k : Nat) : Bool := setBit (setBit (s.holds k) 6 false) 7 false != 0
/-- Passed step 2: no test of it fails or holds. -/
def passed2 (s : State) (k : Nat) : Bool :=
  setBit (setBit (setBit (s.winS k).mask 3 false) 6 false) 7 false == 0

def yOf (s : State) (k : Nat) : List Rat :=
  match (s.stream k).al with
  | some a => clsVals (s.streamClass k) a.vals
  | none => []

/-- Drift residual of a delivered stream (R119) from the weights and drift masks of the previous epoch. -/
def residual (s : State) (cls : Nat) (mem : List Nat) (k : Nat) : Option (List Rat) :=
  let y := s.yOf k
  let others := mem.filter fun j =>
    j ≠ k && (s.stream j).al.isSome && s.passed2 j && !bit (s.holds j) 3 && s.selected j
  let dv := others.map fun j => ((s.winS j).w, clsDiff cls (s.yOf j) y)
  if others.isEmpty then (s.predFor cls).map fun p => clsDiff cls y p.1
  else
    let sw := rsum (dv.map (·.1))
    let mean := (List.range y.length).map fun c =>
      if sw = 0 then rsum (dv.map fun p => nth 0 p.2 c) / dv.length
      else rsum (dv.map fun p => p.1 * nth 0 p.2 c) / sw
    some (mean.map fun x => -x)

/-- Step 3: the drift test of a group (R119-R121). -/
def driftGroup (s : State) (g : Nat) : State :=
  let mem := s.members g
  let cls := s.groupClass g
  let on := s.cfgB (0x2700 + g) 4
  let grp := s.winG g
  let s := s.setWinG g { grp with driftOn := on }
  if !on then foldS s mem fun s k => s.setWin k { s.winS k with mask := setBit (s.winS k).mask 3 false, drift := [] } else
  let W := (roundAway (s.cfgR (0x2700 + g) 3 / s.T)).toNat
  let res := (mem.filter fun k => (s.stream k).al.isSome).map fun k => (k, s.residual cls mem k)
  let s := foldS s mem fun s k =>
    let w := s.winS k
    if (s.stream k).restart ∨ !grp.driftOn then
      s.setWin k { w with drift := [], mask := if grp.driftOn then w.mask else setBit w.mask 3 false }
    else s
  foldS s res fun s p =>
    match p.2 with
    | none => s
    | some r =>
      let w := s.winS p.1
      let win := lastN W (w.drift ++ [r])
      let m := vmean win
      let lim := s.cfgR (0x2700 + g) 2
      let now :=
        if 2 * win.length < W then bit w.mask 3
        else if exceeds cls m lim then true else if exceeds cls m (lim / 2) then bit w.mask 3 else false
      s.setWin p.1 { w with
        drift := win, mask := setBit w.mask 3 now, driftMag := magnitude cls m, resMag := magnitude cls r,
        stats := tset w.stats 8 (magnitude cls m) }

/-- Component-wise median of eligible values (R122). -/
def medianOf (cls : Nat) (about : List Rat) (vals : List (List Rat)) : List Rat :=
  (List.range about.length).map fun c =>
    if clsAngle cls c then nth 0 about c + median (vals.map fun v => wrap180 (nth 0 v c - nth 0 about c))
    else median (vals.map fun v => nth 0 v c)

def setMask (s : State) (k b : Nat) (on : Bool) : State :=
  s.setWin k { s.winS k with mask := setBit (s.winS k).mask b on }
def clearMasks (s : State) (l : List Nat) (b : Nat) : State := foldS s l fun s k => s.setMask k b false

/-- An unresolved contradiction ends: F1 is lowered and 0304h recorded for each stream cleared (R124). -/
def endUnresolved (s : State) (g : Nat) (cleared : List Nat) : State :=
  if (s.winG g).unresolved then
    (foldS (s.setWinG g { s.winG g with unresolved := false }) cleared fun s k => s.note 0x0304 [g, k]).lower 0x0303 g
  else s

/-- Steps 4 and 5: vote or contradiction of a group (R122-R125). -/
def voteGroup (s : State) (g : Nat) : State :=
  let mem := s.members g
  let cls := s.groupClass g
  let lim := s.cfgR (0x2700 + g) 1
  let el := mem.filter fun k => (s.stream k).al.isSome && s.selected k && !s.masked23 k
  let s := s.setWinG g { s.winG g with eligible := el.length }
  let pred := (s.predFor cls).map (·.1)
  let held := mem.filter fun k => bit (s.winS k).mask 7
  let near := fun (s : State) (k : Nat) (t : Rat) => match pred with
    | some p => !exceeds cls (clsDiff cls (s.yOf k) p) t
    | none => false
  match el with
  | a :: b :: _ :: _ =>
    let s := (s.clearMasks mem 7).endUnresolved g held
    let s := s.setWinG g { s.winG g with contra := false, pair := none }
    let about := match pred with
      | some p => p
      | none => s.yOf (min a b)
    let med := medianOf cls about (el.map s.yOf)
    foldS s el fun s k =>
      let d := clsDiff cls (s.yOf k) med
      let now := if exceeds cls d lim then true else if exceeds cls d (3 / 4 * lim) then bit (s.winS k).mask 6 else false
      let s := s.setMask k 6 now
      s.setWin k { s.winS k with stats := tset (s.winS k).stats 9 (magnitude cls d) }
  | [a, b] =>
    let s := s.clearMasks mem 6
    let d := clsDiff cls (s.yOf a) (s.yOf b)
    let grp := s.winG g
    -- another pair brings no contradiction with it
    let same := grp.pair == some (a, b)
    let contra := if exceeds cls d lim then true else if exceeds cls d (3 / 4 * lim) then same && grp.contra else false
    let s := s.setWinG g { grp with contra := contra, pair := some (a, b) }
    let s := foldS s [a, b] fun s k => s.setWin k { s.winS k with stats := tset (s.winS k).stats 10 (magnitude cls d) }
    if !contra then (s.clearMasks mem 7).endUnresolved g held
    else match pred with
      | none => (s.setMask a 7 true).setMask b 7 true
      | some _ =>
        if grp.unresolved && same then
          let ca := near s a (3 / 4 * lim)
          let cb := near s b (3 / 4 * lim)
          let s := ((s.setMask a 7 (!ca)).setMask b 7 (!cb))
          if ca || cb then s.endUnresolved g ([a, b].filter fun k => if k = a then ca else cb) else s
        else
          let pa := near s a lim
          let pb := near s b lim
          if pa && pb then ((s.setMask a 7 false).setMask b 7 false).endUnresolved g [a, b]
          else if pa || pb then
            let s := ((s.setMask a 7 (!pa)).setMask b 7 (!pb)).endUnresolved g [if pa then a else b]
            (s.setWin a { s.winS a with third := true }).setWin b { (s.setWin a { s.winS a with third := true }).winS b with third := true }
          else
            let s := (s.setMask a 7 true).setMask b 7 true
            (s.setWinG g { s.winG g with unresolved := true }).alarm 0x0303 g 1
              [g, min a b + 256 * max a b, pR (magnitude cls d)]
  | _ =>
    let s := s.clearMasks mem 6
    foldS s held fun s k =>
      if (s.stream k).al.isSome && near s k (3 / 4 * lim) then (s.setMask k 7 false).endUnresolved g [k] else s

/-- Lowest mask reason code among those holding a stream (Table 5-7, R133). -/
def maskReason (s : State) (k : Nat) : Nat :=
  let m := s.holds k
  if (s.winS k).desel then 1 else if bit m 8 then 2 else if bit m 5 then 3 else if bit m 0 then 4
  else if bit m 2 then 5 else if bit m 1 then 6 else if bit m 4 then 7 else if bit m 3 then 8
  else if bit m 6 then 9 else if bit m 7 then 10 else 0

/-- Threshold of a reason's test, for event 0301h. -/
def reasonLimit (s : State) (k : Nat) (w : Win) (r : Nat) : Rat :=
  let g := s.cfgU (0x2600 + k) 1
  match r with
  | 4 => s.cfgR (0x2600 + k) 4
  | 5 => s.cfgR (0x2600 + k) 7
  | 6 => s.cfgR (0x2600 + k) 6
  | 7 => w.tau
  | 8 => s.cfgR (0x2700 + g) 2
  | 9 | 10 => s.cfgR (0x2700 + g) 1
  | _ => 0

/-- Round a confidence step to the nearest 1/256 count, half up (R127). -/
def qStep (rate T : Rat) : Nat := (rate * T * 256 + 1 / 2).floor.toNat

/-- Confidence of a stepped level (Table 5-5). -/
def levelConf (l : Nat) : Nat := match l with
  | 0 => 255 | 1 => 128 | 2 => 32 | _ => 0

/-- Step 6 and 7 for one stream: level or confidence, mask events, weight (R116, R127-R132). -/
def winFinish (s : State) (k : Nat) : State :=
  let w := s.winS k
  let i := 0x2600 + k
  let st := s.stepped k
  let delivered := (s.stream k).al.isSome
  let hard := w.desel || setBit (setBit w.mask 1 false) 3 false != 0
  let target := if hard then 3 else if bit w.mask 1 || bit w.mask 3 then 2 else if w.gateNow then 1 else 0
  let failing := target != 0
  let lvl0 := w.level
  let from' := w.dwell.getD s.clk.time
  let (lvl, dwell) : Nat × Nat :=
    if !st then (3, s.clk.time)
    else if failing || !delivered then (max lvl0 target, s.clk.time)
    else if 0 < lvl0 ∧ from' + ns (s.cfgR i 0x10) ≤ s.clk.time then (lvl0 - 1, s.clk.time)
    else (lvl0, from')
  let s := if st && lvl != lvl0 then s.note 0x0305 [k, lvl0, lvl] else s
  let masked := if st then lvl == 3 else w.desel || w.mask != 0
  let T := s.T
  let q :=
    if st then levelConf lvl * 256
    else if masked then w.q - qStep (s.cfgR i 0x0E) T
    else if !delivered then w.q - qStep (s.cfgR i 0x0F) T
    else if w.pending then w.q - s.cfgU i 0x0C * 256
    else min (255 * 256) (w.q + qStep (s.cfgR i 0x0D) T)
  let r := s.maskReason k
  let s := if masked && !w.masked && r != 0 then
      s.note 0x0301 [k, r, pR (tget 0 w.stats r), pR (s.reasonLimit k w r)]
    else if !masked && w.masked then s.note 0x0302 [k, w.reason] else s
  let wt := match (s.stream k).al with
    | some a => if masked ∨ a.sd = 0 then 0 else ((q / 256 : Nat) : Rat) / 255 / rsq a.sd
    | none => 0
  s.setWin k { w with
    q := q, level := lvl, dwell := some dwell, masked := masked, reason := if r = 0 then w.reason else r, w := wt,
    used := delivered && !masked && decide (0 < wt) }

/-- Winnow status word (Table 5-6). -/
def winWord (s : State) (k : Nat) : Nat :=
  let w := s.winS k
  s.cfgU (0x2600 + k) 1 * 2 ^ 24 + (if w.masked then s.maskReason k else 0) * 2 ^ 20 +
    (if s.stepped k then w.level * 2 ^ 18 + 2 ^ 17 else 0) + bitAt w.masked 16 + bitAt w.absent 15 + bitAt w.desel 14 +
    bitAt w.pending 13 + bitAt w.third 12 + bitAt w.used 11 + s.holds k % 512

def groupWord (s : State) (g : Nat) : Nat :=
  let w := s.winG g
  w.eligible % 256 + (w.maskedN % 256) * 256 + bitAt w.contra 16 + bitAt w.unresolved 17

/-- Publish Table 5-8 (R134). -/
def publishWinnow (s : State) : State :=
  let col := fun (f : Nat → Val) (lo : Nat) => (List.range 128).map fun i => f (lo + i)
  let word := fun k => Val.u (s.winWord k)
  let conf := fun k => Val.u ((s.winS k).q / 256)
  let wt := fun k => rv (s.winS k).w
  let k := s.cfgU 0x2711 0
  let w := s.winS k
  let left : Rat := if s.stepped k ∧ 0 < w.level then
      rmax 0 (((w.dwell.getD s.clk.time : Nat) : Rat) / 1000000000 + s.cfgR (0x2600 + k) 0x10 - (s.clk.time : Rat) / 1000000000) else 0
  let s := (((((s.publishEnd 0x2720 (col word 0)).publishEnd 0x2721 (col word 128)).publishEnd 0x2722 (col conf 0)).publishEnd 0x2723
    (col conf 128)).publishEnd 0x2724 (col wt 0)).publishEnd 0x2725 (col wt 128)
  (s.publishEnd 0x2726 ((List.range 16).map fun g => Val.u (s.groupWord g))).publishEnd 0x2712
    [.u (s.winWord k), .u (w.q / 256), rv w.w, rv w.nuMag, rv w.tau, rv w.driftMag, rv w.resMag, rv left]

/-- Winnow's work of an epoch, in the order of R112; a stream that is not enabled is one that Sheaf has not delivered. -/
def winnowRun (s : State) : State :=
  let s := foldS s (List.range 256) winTests
  let s := foldS s (List.range 16) driftGroup
  let s := foldS s (List.range 16) voteGroup
  let s := foldS s (List.range 256) winFinish
  let s := foldS s (List.range 16) fun s g =>
    s.setWinG g { s.winG g with maskedN := ((s.members g).filter fun k => (s.winS k).masked).length }
  ({ s with win := { s.win with handed := true } }.publishWinnow).lower 0x0307 0

end State

/-- WINNOW_RUN (R112): in f1, on Sheaf's handover. -/
def execWinnowRun (s : State) : Out :=
  if s.up && s.fOff == 1 then .next s.winnowRun else .next s

/-- WINNOW_OVERRUN (R135): the observer receives no stream; the work of the epoch is abandoned. -/
def execWinnowOverrun (s : State) : Out :=
  if !(s.up && s.fOff == 1) then .next s else
  let s := [0x2712, 0x2720, 0x2721, 0x2722, 0x2723, 0x2724, 0x2725, 0x2726].foldl State.stale s
  let s := s.incU 0x2710 1
  let l := s.overruns100 s.win.overs
  let s := { s with win := { s.win with overs := l, handed := false } }
  let s := s.alarm 0x0307 0 1 []
  .next (if 3 ≤ l.length then s.unitStop 0x0307 else s)

/-- STREAM_DESCRIPTOR_WRITE (R91): a write of 2400h + k. -/
def execStreamDescriptorWrite (p : Path) (k sub : Nat) (b : List Byte) (s : State) : Out :=
  if !s.up ∨ 256 ≤ k then .next s else .next (s.writeWith State.ruleDescriptor p (0x2400 + k) sub b)

/-- GROUP_MEMBERSHIP_WRITE (R114): a write of 2600h + k:01h. -/
def execGroupMembershipWrite (p : Path) (k : Nat) (b : List Byte) (s : State) : Out :=
  if !s.up ∨ 256 ≤ k then .next s else .next (s.writeWith State.ruleGroup p (0x2600 + k) 1 b)

/-- REFERENCE_SELECTION (R129): a write of 2240h. -/
def execReferenceSelection (p : Path) (sub : Nat) (b : List Byte) (s : State) : Out :=
  if !s.up then .next s else .next (s.writeWith State.ruleSelection p 0x2240 sub b)

end Sys2Proof.Machine
end

