-- ==== Sys2Proof/Machine/Thrust.lean ====
section
/-! DEFINITION. Thruster descriptors and the thrust model (chapter 09, Tables 9-1, 9-2, R212), and a thruster's
feedback. -/
namespace Sys2Proof.Machine

/-- A thruster descriptor in force (Table 9-1). -/
structure Desc where
  kind : Nat
  x : Rat
  y : Rat
  tp : Rat
  tm : Rat
  pmax : Rat
  p0 : Rat
  kappa : Rat
  slew : Rat
  ramp : Rat
  fixed : Rat
  range : Rat
  kR : Rat
  cross : Rat
  mult : Rat
  enable : Bool
  sectors : List (Rat × Rat)
  loss : List Rat
  deriving DecidableEq, Repr

/-- F32 values of an octet string. -/
def f32s (b : List Byte) : List Rat :=
  (List.range (b.length / 4)).map fun i => F32.toRat (BitVec.ofNat 32 (leAt b (4 * i) 4))

namespace State

def desc (s : State) (j : Nat) : Desc :=
  let r := fun sub => s.cfgR (0x2E80 + j) sub
  { kind := s.cfgU (0x2E80 + j) 1, x := r 2, y := r 3, tp := r 4, tm := r 5, pmax := r 6, p0 := r 7, kappa := r 8,
    slew := r 9, ramp := r 0x0A, fixed := r 0x0B, range := r 0x0C, kR := r 0x0D, cross := r 0x0E, mult := r 0x0F,
    enable := s.cfgB (0x2E80 + j) 0x10,
    sectors := (List.range 4).map fun i => (s.cfgR (0x2EA0 + j) (2 * i + 1), s.cfgR (0x2EA0 + j) (2 * i + 2)),
    loss := f32s (s.cfgD (0x2EC0 + j) 0) }

/-- Thrusters whose descriptor has a kind (R211). -/
def thrusters (s : State) : List Nat := (List.range 32).filter fun j => s.cfgU (0x2E80 + j) 1 != 0

end State

/-- Gross thrust of a command n in % (R212). -/
def thrustOf (d : Desc) (n : Rat) : Rat :=
  if 0 ≤ n then d.tp * rpower (n / 100) d.kappa else -(d.tm * rpower (-n / 100) d.kappa)

/-- Command n in % of a gross thrust (R212 inverted, R223 step 3); 0 for a rating of 0. -/
def commandOf (d : Desc) (t : Rat) : Rat :=
  if 0 ≤ t then (if d.tp = 0 then 0 else 100 * rpower (t / d.tp) (1 / d.kappa))
  else if d.tm = 0 then 0 else -(100 * rpower (-t / d.tm) (1 / d.kappa))

/-- Loss factor η in a direction, interpolated linearly from the table (R212). -/
def eta (d : Desc) (dir : Rat) : Rat :=
  let a := wrap360 dir / 10
  let i := a.floor.toNat
  let fr := a - i
  nth 1 d.loss (i % 36) * (1 - fr) + nth 1 d.loss ((i + 1) % 36) * fr

/-- Delivered force in body axes at a gross thrust and an azimuth, or a rudder angle δ in degrees for kind 03h
(Table 9-2, R212). -/
def forceOf (d : Desc) (az t : Rat) : Rat × Rat :=
  let along := fun (a : Rat) =>
    let e := eta d (if 0 ≤ t then a else a + 180)
    (e * t * cosd a, e * t * sind a)
  match d.kind with
  | 1 | 4 => along az
  | 2 => along d.fixed
  | 3 =>
    let f := along d.fixed
    let side := d.kR * rmax t 0 * deg2rad az
    (f.1 - side * sind d.fixed, f.2 + side * cosd d.fixed)
  | _ => (0, 0)

/-- B_j f = (F_x, F_y, x F_y - y F_x) (R218). -/
def place (d : Desc) (f : Rat × Rat) : List Rat := [f.1, f.2, d.x * f.2 - d.y * f.1]

/-- Shaft power (R212). -/
def powerOf (d : Desc) (t : Rat) : Rat :=
  let top := if 0 ≤ t then d.tp else d.tm
  if top = 0 then d.p0 else d.p0 + d.pmax * rpower (rabs t / top) (3 / 2)

/-- Sum of vectors of three. -/
def sum3 (l : List (List Rat)) : List Rat := l.foldl vadd [0, 0, 0]

namespace State

def inner (s : State) (j : Nat) : Inner := tget {} s.ctl.inner j
def setInner (s : State) (j : Nat) (x : Inner) : State :=
  { s with ctl := { s.ctl with inner := tset s.ctl.inner j x } }

def drive (s : State) (j : Nat) : Option Drive := tfind s.net.drives j
/-- The latest feedback record reports ready (R213, G1). -/
def ready (s : State) (j : Nat) : Bool :=
  match s.drive j with
  | some d => bit d.status 0
  | none => false

/-- Force that the inner loops command for a thruster (R161, R229). -/
def commandedForce (s : State) (j : Nat) : List Rat :=
  let d := s.desc j
  place d (forceOf d (s.inner j).core.az (thrustOf d (s.inner j).emitN))

/-! Detections for Stook (R246, Table 10-3). -/

/-- Latch a detection: recorded with event 0801h; equipment kinds are coded as the types of Table 10-1; the codes of
the sources, which the model numbers as Table 10-3 orders them, are free (log 21). -/
def detect (s : State) (kind num source : Nat) : State :=
  let p := s.ctl.plant
  let s := { s with ctl := { s.ctl with plant := { p with
    seen := (p.seen.filter fun (q : Nat × (Nat × Nat)) => s.clk.frame < q.1 + 800) ++ [(s.clk.frame, (kind, num))] } } }
  let s := (s.note 0x0801 [Config.reason 0x0801 source, kind, num]).incU 0x3050 1
  if s.ctl.stook.det.any (fun (p : Nat × Nat × Nat) => p.1 == kind && p.2.1 == num) then s else
  { s with ctl := { s.ctl with stook := { s.ctl.stook with det := s.ctl.stook.det ++ [(kind, num, source)] } } }

/-- Streams used at the epoch, of one class (Table 5-6 bit 11); none where Winnow has not handed over (R135). -/
def usedOf (s : State) (cls : Nat) : List Nat :=
  if !s.win.handed then [] else
  (List.range 256).filter fun k => (s.stream k).cfg.isSome && (s.winS k).used && s.streamClass k == cls
def isUsed (s : State) (k : Nat) : Bool := s.win.handed && k < 256 && (s.stream k).cfg.isSome && (s.winS k).used

/-- Is the position state of the observer good for guard G3 (R67, R168)? -/
def posGood (s : State) : Bool := s.obs.core.pInit && !s.obs.core.dr

end State
end Sys2Proof.Machine
end

