-- ==== Sys2Proof/Machine/Observer.lean ====
section
/-! DEFINITION. The vessel observer and dead reckoning (chapter 07). Angles of the state are in degrees, rates in
degrees per second. -/
namespace Sys2Proof.Machine

/-- The vessel model of 2A00h (R157). -/
structure Model where
  m : List Rat
  d : List Rat
  l : Rat
  ok : Bool
  deriving DecidableEq, Repr

namespace State

def model (s : State) : Model :=
  let g := fun k => s.cfgR 0x2A00 k
  { m := [g 1 + g 2, g 1 + g 3, g 4 + g 5], d := [g 6, g 7, g 8], l := g 9,
    ok := g 1 != 0 && g 4 != 0 && g 6 != 0 && g 7 != 0 && g 8 != 0 }

/-! Known inputs (R160-R163). -/

/-- The streams that give thruster j's force at the epoch: none where it is substituted (R160, R161). -/
def forceStreams (s : State) (j : Nat) : List Nat :=
  let sa := s.cfgU (0x2A20 + j) 1
  let st := s.cfgU (0x2A20 + j) 2
  if st = 255 ∨ !s.isUsed st then [] else st :: (if sa ≠ 255 ∧ s.isUsed sa then [sa] else [])

/-- Thruster j's force and whether it is substituted (R160, R161). Thrust feedback in % is a share of rated thrust
(log 24); a named azimuth stream that is not used gives way to the commanded azimuth (log 24). A rudder without an azimuth
stream stands amidships: its fixed azimuth is the propeller's, not the rudder's (log 24). -/
def thrusterForce (s : State) (j : Nat) : List Rat × Bool :=
  let d := s.desc j
  let sa := s.cfgU (0x2A20 + j) 1
  let st := s.cfgU (0x2A20 + j) 2
  let cmd := tget (0, 0) s.ctl.atEpoch j
  if st = 255 ∨ !s.isUsed st then (place d (forceOf d cmd.1 (thrustOf d cmd.2)), true)
  else
    let pct := nth 0 (s.yOf st) 0
    let t := if 0 ≤ pct then d.tp * pct / 100 else d.tm * pct / 100
    let az := if sa = 255 then (if d.kind = 3 then 0 else d.fixed) else if s.isUsed sa then nth 0 (s.yOf sa) 0 else cmd.1
    (place d (forceOf d az t), false)

/-- Weighted fused components of a class about a reference (R164). -/
def fuse (s : State) (cls : Nat) (about : Option (List Rat)) : Option (List Rat × Rat) :=
  let l := s.usedOf cls
  match l with
  | [] => none
  | k :: _ =>
    let ref := about.getD (s.yOf k)
    let sw := rsum (l.map fun j => (s.winS j).w)
    if sw = 0 then none else
    let avg := (List.range ref.length).map fun c =>
      rsum (l.map fun j => (s.winS j).w * nth 0 (clsDiff cls (s.yOf j) ref) c) / sw
    some (vadd ref avg, 1 / sw)

/-- Wind force of a relative speed and direction (R162). -/
def windForce (s : State) (v dir : Rat) : List Rat :=
  let t := f32s (s.cfgD 0x2A04 0)
  let a := wrap360 dir / 10
  let i := a.floor.toNat
  let fr := a - i
  let c := fun k => nth 0 t (3 * (i % 36) + k) * (1 - fr) + nth 0 t (3 * ((i + 1) % 36) + k) * fr
  let q := s.cfgR 0x2A03 1 * rsq v / 2000
  let af := s.cfgR 0x2A03 2
  let al := s.cfgR 0x2A03 3
  [q * af * c 0, q * al * c 1, q * al * s.cfgR 0x2A00 9 * c 2]

end State

/-- The rotated bias R(ψ)ᵀ b, or body velocity from earth axes. -/
def toBody (psi : Rat) (v : List Rat) : List Rat :=
  let c := cosd psi
  let s := sind psi
  [c * vget v 0 + s * vget v 1, c * vget v 1 - s * vget v 0, vget v 2]

/-- Work of one f2 on the core: state, covariance, flags. -/
abbrev Obs15 := List Rat × Mat

/-- Measurement row of one observed quantity: coefficients by state number. -/
def hRow (l : List (Nat × Rat)) : Vec := (List.range 15).map fun i => tget 0 l i

/-- Measured quantity and Jacobian rows of a class (R159): 1 position, 2 heading, 3 yaw rate, 5 velocity. -/
def measure (cls : Nat) (x : Vec) : List Rat × Mat :=
  let g := vget x
  match cls with
  | 1 => ([g 0 + g 9, g 1 + g 10], [hRow [(0, 1), (9, 1)], hRow [(1, 1), (10, 1)]])
  | 2 => ([g 2 + g 11], [hRow [(2, 1), (11, 1)]])
  | 3 => ([g 5 + g 14], [hRow [(5, 1), (14, 1)]])
  | 5 =>
    let c := cosd (g 2)
    let s := sind (g 2)
    let k := Config.pi / 180
    ([g 3 * c - g 4 * s + g 12, g 3 * s + g 4 * c + g 13],
     [hRow [(2, k * (-(g 3 * s) - g 4 * c)), (3, c), (4, -s), (12, 1)],
      hRow [(2, k * (g 3 * c - g 4 * s)), (3, s), (4, c), (13, 1)]])
  | _ => ([], [])

/-- Inverse of a 1 × 1 or symmetric 2 × 2 matrix. -/
def inv12 (m : Mat) : Mat :=
  match m with
  | [[a]] => [[1 / a]]
  | [[a, b], [c, d]] =>
    let det := a * d - b * c
    [[d / det, -b / det], [-c / det, a / det]]
  | _ => m

/-- One measurement update (R165); `frozen` states receive no gain (R170). -/
def kalman (cls : Nat) (y : List Rat) (var : Rat) (frozen : List Nat) (o : Obs15) : Obs15 :=
  let (hx, h) := measure cls o.1
  let nu := clsDiff cls y hx
  let ph := mmul o.2 (transpose h)
  let sm := mmul h ph
  let sm := (List.range sm.length).map fun i => (List.range sm.length).map fun j =>
    mget sm i j + (if i = j then var else 0)
  let gain := mmul ph (inv12 sm)
  let gain := (List.range 15).map fun i => if frozen.contains i then (nth [] gain i).map (fun _ => 0) else nth [] gain i
  let x := vadd o.1 (mvec gain nu)
  let x := putNth x 2 (wrap360 (vget x 2))
  (x, mmul (msub (ident 15) (mmul gain h)) o.2)

/-- 1/M of an axis: a mass of 0, which R158 leaves without a model, gives a free value (log 143). -/
def invMass (m : Model) (i : Nat) : Rat := if vget m.m i = 0 then Config.noMass i else 1 / vget m.m i

/-- Time derivative of the state under the model with forces held (R157, R159). -/
def deriv (m : Model) (zeta w0 : Rat) (tau : List Rat) (x : Vec) : Vec :=
  let g := vget x
  let c := cosd (g 2)
  let s := sind (g 2)
  let b := toBody (g 2) [g 6, g 7, g 8]
  let acc := fun (i : Nat) => (vget tau i + vget b i - vget m.d i * g (3 + i)) * invMass m i
  [g 3 * c - g 4 * s, g 3 * s + g 4 * c, g 5, acc 0, acc 1, rad2deg (acc 2), 0, 0, 0, g 12, g 13, g 14] ++
    [0, 1, 2].map (fun i => -(2 * zeta * w0 * g (12 + i)) - w0 * w0 * g (9 + i))

/-- Jacobian of the derivative (R165, "linearise at x"). -/
def jacobian (m : Model) (zeta w0 : Rat) (x : Vec) : Mat :=
  let g := vget x
  let c := cosd (g 2)
  let s := sind (g 2)
  let k := Config.pi / 180
  let mi := invMass m
  let bx := toBody (g 2) [g 6, g 7, g 8]
  [ hRow [(2, k * (-(g 3 * s) - g 4 * c)), (3, c), (4, -s)],
    hRow [(2, k * (g 3 * c - g 4 * s)), (3, s), (4, c)],
    hRow [(5, 1)],
    hRow [(2, k * vget bx 1 * mi 0), (3, -(vget m.d 0) * mi 0), (6, c * mi 0), (7, s * mi 0)],
    hRow [(2, -(k * vget bx 0 * mi 1)), (4, -(vget m.d 1) * mi 1), (6, -s * mi 1), (7, c * mi 1)],
    hRow [(5, rad2deg (-(vget m.d 2) * mi 2)), (8, rad2deg (mi 2))],
    zeroVec 15, zeroVec 15, zeroVec 15, hRow [(12, 1)], hRow [(13, 1)], hRow [(14, 1)] ] ++
  [0, 1, 2].map (fun i => hRow [(9 + i, -(w0 * w0)), (12 + i, -(2 * zeta * w0))])

namespace State

/-- Propagation by one sample: x by its second-order expansion, p by phi = i + at + (at)²/2 and q t (R165). `yaw` is the
used yaw rate, which carries the heading while it is in dead reckoning (R171). The wave densities of 2A02h drive the rates
of the wave states, as w_ξ of R159 does (log 22). -/
def propagate (s : State) (dr : Bool) (fw : Rat) (tau : List Rat) (yaw : Option Rat) (o : Obs15) : Obs15 :=
  let m := s.model
  let T := s.T
  let zeta := s.cfgR 0x2A01 1
  let w0 := 2 * Config.pi * fw
  let f := deriv m zeta w0 tau o.1
  let a := jacobian m zeta w0 o.1
  let x := vadd o.1 (vadd (vscale T f) (vscale (T * T / 2) (mvec a f)))
  let psi := match yaw with
    | some r => vget o.1 2 + r * T
    | none => vget x 2
  let x := putNth x 2 (wrap360 psi)
  let at' := mscale T a
  let phi := madd (madd (ident 15) at') (mscale (1 / 2) (mmul at' at'))
  let n := fun k => s.cfgR 0x2A02 k
  let bias := if dr then 0 else n 1
  let q := [0, 0, 0, n 5, n 5, Config.yawNoise (n 5), bias, bias, n 2, 0, 0, 0, n 3, n 3, n 4]
  let p := mmul (mmul phi o.2) (transpose phi)
  (x, (List.range 15).map fun i => (List.range 15).map fun j =>
    mget p i j + (if i = j then rsq (vget q i) * T else 0))

/-- The states that every initialisation sets: velocity, bias and waves (R167); the wave rates take the same 1.0
(log 25). -/
def initStates (o : Obs15) : Obs15 :=
  let sig := fun (i : Nat) => if i < 6 then 1 else if i < 8 then 500 else if i = 8 then 50000 else (1 : Rat)
  (List.range 12).foldl (fun (o : Obs15) k =>
    let i := k + 3
    (putNth o.1 i 0, isolate o.2 i (rsq (sig i)))) o

/-- Upward zero crossing between two values (R166). -/
def upCross (a b : Rat) : Bool := decide (a < 0) && decide (0 ≤ b)

def variance (l : List Rat) : Rat :=
  if l.isEmpty then 0 else
  let m := rsum l / l.length
  rsum (l.map fun x => rsq (x - m)) / l.length

/-- Adapt the wave frequency (R166): crossings of each axis are kept, the last 8, and the mean of the 7 periods between
them gives f_zc (log 26). -/
def adaptWave (s : State) : State :=
  let o := s.obs
  let c := o.core
  let xn := vget c.x 9
  let xe := vget c.x 10
  let crossN := if upCross (o.xiN.getLast?.getD 0) xn then lastN 8 (o.crossN ++ [s.clk.epoch]) else o.crossN
  let crossE := if upCross (o.xiE.getLast?.getD 0) xe then lastN 8 (o.crossE ++ [s.clk.epoch]) else o.crossE
  let xiN := lastN 1024 (o.xiN ++ [xn])
  let xiE := lastN 1024 (o.xiE ++ [xe])
  let vn := variance xiN
  let ve := variance xiE
  let cross := if vn < ve then crossE else crossN
  let o := { o with xiN := xiN, xiE := xiE, crossN := crossN, crossE := crossE }
  if !s.cfgB 0x2A01 6 ∨ rmax vn ve < rsq (1 / 50) ∨ c.dr ∨ cross.length < 8 then
    { s with obs := { o with waveLim := false } }
  else
    let span : Rat := (nth 0 cross 7 - nth 0 cross 0 : Nat)
    let fzc := 7 * 1000000000 / span
    let f := c.fw + s.T / s.cfgR 0x2A01 5 * (fzc - c.fw)
    let g := rclamp (s.cfgR 0x2A01 3) (s.cfgR 0x2A01 4) f
    { s with obs := { o with core := { c with fw := g }, waveLim := decide (g ≠ f) } }

/-- Begin the wave statistics again: at a restart, a reset, or an initialisation. -/
def clearWave (s : State) : State :=
  { s with obs := { s.obs with
      xiN := [], xiE := [], crossN := [], crossE := [], waveLim := false,
      core := { s.obs.core with fw := s.cfgR 0x2A01 2 } } }

/-- An uninitialised observer (R167). -/
def obsUninit (s : State) : State :=
  let c := s.obs.core
  let s := { s with obs := { s.obs with
    core := { ({} : ObsCore) with wind := c.wind, windFrom := c.windFrom, windSub := c.windSub, fw := c.fw },
    pred := none, hist := [], count := 0, hDr := false } }
  ((s.clearWave).lower 0x0502 0).lower 0x0504 0

/-- The wind input of this epoch (R162, R163). -/
def windInput (s : State) : State :=
  let c := s.obs.core
  match s.fuse 6 none with
  | some (y, _) =>
    let s := if c.windSub ≠ 0 then s.note 0x050B [0] else s
    let w := s.windForce (nth 0 y 0) (nth 0 y 1)
    { s with obs := { s.obs with tauWind := w, subst := s.obs.subst, core := { c with wind := w, windSub := 0 } } }
  | none =>
    let s := if c.windSub = 0 then s.note 0x050B [1] else s
    let from' := if c.windSub = 0 then s.clk.epoch else c.windFrom
    let t : Rat := ((s.clk.epoch - from' : Nat) : Rat) / 1000000000
    let hold := s.cfgR 0x2A03 4
    let dec := s.cfgR 0x2A03 5
    let sub := if t ≤ hold then 1 else 2
    let s := if sub = 2 ∧ c.windSub ≠ 2 then s.note 0x050B [2] else s
    let k := if t ≤ hold then 1 else rmax 0 (1 - (t - hold) / dec)
    { s with obs := { s.obs with tauWind := vscale k c.wind, core := { c with windFrom := from', windSub := sub } } }

/-- Combined thruster force of the epoch (R160, R161). -/
def thrustInput (s : State) : State :=
  let l := s.thrusters.map fun j => s.thrusterForce j
  { s with obs := { s.obs with tauThr := sum3 (l.map (·.1)), subst := l.any (·.2) } }

/-! The thrust-mismatch test (R174-R176). -/

/-- ε_i of two neighbouring samples of the history (R174); b is the bias from before the window. -/
def epsOf (m : Model) (T : Rat) (b : List Rat) (prev cur : Hist) : List Rat :=
  (List.range 3).map fun a =>
    let dv := (vget cur.nu a - vget prev.nu a) / T
    let inert := vget m.m a * (if a = 2 then deg2rad dv else dv)
    inert + vget m.d a * vget prev.nu a - vget prev.thr a - vget prev.wind a - vget (toBody prev.psi b) a

/-- Pairs of neighbours. -/
def pairsOf {α : Type} (l : List α) : List (α × α) := List.zip l (l.drop 1)

/-- Run the test on the estimate of this epoch. -/
def mismatch (s : State) : State :=
  let o := s.obs
  let m := s.model
  let K := s.cfgU 0x2A08 1
  let now : Hist := { sample := s.clk.sample, nu := (o.core.x.drop 3).take 3, psi := vget o.core.x 2,
                      thr := o.tauThr, wind := o.tauWind, b := (o.core.x.drop 6).take 3 }
  let chain := match o.hist.getLast? with
    | some h => if (h.sample + 1) % 2 ^ 32 = s.clk.sample then o.hist else []
    | none => []
  let hist := lastN (K + 1) (chain ++ [now])
  let quiet := o.quiet
  let s := { s with obs := { o with hist := hist } }
  if !s.posGood ∨ 0 < quiet ∨ hist.length < K + 1 then s else
  match hist with
  | [] => s
  | h0 :: _ =>
    let eps := sum3 ((pairsOf hist).map fun p => epsOf m s.T h0.b p.1 p.2)
    let mean := vscale (1 / (K : Rat)) eps
    let sc := fun (v : List Rat) => [vget v 0, vget v 1, vget v 2 / m.l]
    let e := sc mean
    let ee := dot e e
    let floor := s.cfgR 0x2A08 5
    let cands := s.thrusters.filterMap fun j =>
      let (g, sub) := s.thrusterForce j
      let h := sc g
      if sub ∨ dot h h < rsq floor ∨ ee = 0 then none else
      let mj := -(dot e h) / dot h h
      let r := vadd e (vscale mj h)
      some (j, mj, 1 - dot r r / ee)
    let best := argMax (fun (p : Nat × Rat × Rat) => p.2.2) cands
    let s := { s with obs := { s.obs with eps := mean, best := best } }
    let fail := match best with
      | some (_, mj, xj) => decide (rsq floor ≤ ee) && decide (s.cfgR 0x2A08 2 ≤ mj) && decide (s.cfgR 0x2A08 3 ≤ xj)
      | none => false
    let need := s.cfgU 0x2A08 4
    let prevBest := match o.best with
      | some (j, _, _) => some j
      | none => none
    match fail, best with
    | true, some (j, mj, xj) =>
      let cnt := if prevBest = some j then o.count + 1 else 1
      let s := { s with obs := { s.obs with count := cnt, clear := 0 } }
      if need ≤ cnt ∧ s.obs.latched ≠ some j then
        ({ s with obs := { s.obs with latched := some j } }.note 0x0505 [j, pR mj, pR xj]).detect 1 j 3
      else s
    | _, _ =>
      let c := o.clear + 1
      let s := { s with obs := { s.obs with count := 0, clear := c } }
      match o.latched with
      | some j => if need ≤ c then { s with obs := { s.obs with latched := none, clear := 0 } }.note 0x0506 [j] else s
      | none => s

/-! Results (R172, R177). -/

/-- Seconds since the last epoch with a position update. -/
def drTime (s : State) : Rat := ((s.clk.epoch - s.obs.core.lastPos : Nat) : Rat) / 1000000000
/-- 95 % radius (R172). -/
def drRadius (s : State) : Rat :=
  let c := s.obs.core
  let t := s.drTime
  2 * c.sh0 + 2 * c.sv0 * t + s.cfgR 0x2A10 2 * t * t / 2

/-- Observer status word (Table 7-3); the Held bit sets at an overrun (`execObserverOverrun`). -/
def obsWord (s : State) : Nat :=
  let o := s.obs
  let c := o.core
  bitAt c.hInit 15 + bitAt c.pInit 14 + bitAt (c.dr || !c.pInit) 13 + bitAt o.hDr 12 + bitAt c.radiusLim 11 +
    bitAt (c.windSub != 0) 10 + bitAt o.subst 9 + bitAt o.adopted 8 + bitAt o.diverge 7 + bitAt o.latched.isSome 6 +
    bitAt o.waveLim 4

/-- Age of the oldest contribution, µs (R177). -/
def obsAge (s : State) : Nat :=
  let l := [1, 2, 3, 5, 6].flatMap s.usedOf ++ s.thrusters.flatMap s.forceStreams
  let ages := l.map fun k => match (s.stream k).al with
    | some a => a.age
    | none => 0
  let a := ages.foldl rmax 0
  let a := if s.obs.core.dr then rmax a (s.drTime * 1000000000 + s.obs.core.lastAge) else a
  (roundAway (a / 1000)).toNat

/-- Standard deviation of the diagonal element `i`. -/
def sdev (p : Mat) (i : Nat) : Rat := rsqrt (mget p i i)

/-- Publish 2A40h, 2A42h and 2A43h for e_k (R177). -/
def publishEst (s : State) : State :=
  let o := s.obs
  let c := o.core
  let g := vget c.x
  let b := toBody (g 2) [g 6, g 7, g 8]
  let est : Est := { sample := s.clk.sample, epoch := s.clk.epoch, n := g 0, e := g 1, psi := g 2, u := g 3, v := g 4,
                     r := g 5, bias := b, wind := o.tauWind, held := false }
  let s := s.publishEnd 0x2A40 ([.u s.obsWord, rv (g 0), rv (g 1), rv (g 2), rv (g 3), rv (g 4), rv (g 5)] ++ b.map rv ++
    [rv (sdev c.p 0), rv (sdev c.p 1), rv (sdev c.p 2), rv c.fw] ++ o.tauWind.map rv ++ [.u s.obsAge])
  let (bn, bm, bx) : Nat × Rat × Rat := o.best.getD (255, 0, 0)
  let s := s.publishEnd 0x2A42 ([.u (o.latched.getD 255), .u o.count] ++ o.eps.map rv ++ [rv bm, rv bx, .u bn])
  let s := s.publishEnd 0x2A43 [rv (if c.dr then s.drTime else 0), rv (if c.dr then s.drRadius else 0), rv o.pairDist,
    .u (b2n o.adopted)]
  { s with obs := { s.obs with est := some est } }

/-- Publish the prediction for epoch `e1` (R165, R178): classes whose state is not initialised have none (R167). -/
def publishPred (s : State) (e1 : Nat) : State :=
  let c := s.obs.core
  let pp := fun i j => mget c.p i j
  let sum2 := fun (i j k l : Nat) => pp i j + pp i l + pp k j + pp k l
  let sPos := rsqrt (eigMax (sum2 0 0 9 9) (sum2 0 1 9 10) (sum2 1 1 10 10))
  let sHead := rsqrt (sum2 2 2 11 11)
  let sYaw := rsqrt (sum2 5 5 14 14)
  let h := (measure 5 c.x).2
  let vp := mmul h (mmul c.p (transpose h))
  let sVel := rsqrt (eigMax (mget vp 0 0) (mget vp 0 1) (mget vp 1 1))
  let mv := fun cls => (measure cls c.x).1
  let pred : Pred := {
    epoch := e1, pos := if c.pInit then some (nth 0 (mv 1) 0, nth 0 (mv 1) 1) else none,
    head := if c.hInit then some (nth 0 (mv 2) 0) else none,
    yaw := if c.hInit then some (nth 0 (mv 3) 0) else none,
    vel := if c.hInit then some (nth 0 (mv 5) 0, nth 0 (mv 5) 1) else none,
    sPos := sPos, sHead := sHead, sYaw := sYaw, sVel := sVel, pose := c.x.take 6 }
  let s := { s with obs := { s.obs with pred := some pred } }
  s.publishEnd 0x2A41 ([.u e1] ++ (c.x.take 6).map rv ++ [rv sPos, rv sHead, rv sYaw, rv sVel])

/-! The update at f2 (R165, R167, R170-R173). -/

def setCore (s : State) (c : ObsCore) : State := { s with obs := { s.obs with core := c } }

/-- The states that receive no update in position dead reckoning (R170). -/
def frozen (c : ObsCore) : List Nat := if c.dr then [0, 1, 6, 7] else []

/-- The mismatch test does not run at this epoch and in the K samples after it (R175). -/
def holdTest (s : State) : State := { s with obs := { s.obs with quiet := s.cfgU 0x2A08 1 + 1 } }

/-- The heading class: initialise where the model is complete (R158, R167), or update; dead reckoning (R171). -/
def fuseHeading (s : State) (ok : Bool) : State :=
  let c := s.obs.core
  match s.fuse 2 (if c.hInit then some [vget c.x 2 + vget c.x 11] else none) with
  | none => { s with obs := { s.obs with hDr := true } }
  | some (y, var) =>
    let s := { s with obs := { s.obs with hDr := false } }
    if c.hInit then
      let o := kalman 2 y var (frozen c) (c.x, c.p)
      s.setCore { c with x := o.1, p := o.2 }
    else if !ok then s
    else
      let o := initStates (putNth c.x 2 (wrap360 (nth 0 y 0)), isolate c.p 2 var)
      let s := s.setCore { c with x := o.1, p := o.2, hInit := true }
      (s.holdTest.clearWave).note 0x0501 [1]

/-- No class 01h group is in contradiction (R125, R167). -/
def noContradiction (s : State) : Bool :=
  (List.range 16).all fun g => s.groupClass g != 1 || !(s.winG g).contra

/-- Larger position and velocity deviations and the age at an epoch with a position update (R172, R177). -/
def markPos (s : State) : State :=
  let c := s.obs.core
  let p := fun i j => mget c.p i j
  let ages := (s.usedOf 1).map fun k => match (s.stream k).al with
    | some a => a.age
    | none => 0
  s.setCore { c with lastPos := s.clk.epoch, lastAge := ages.foldl rmax 0,
                     sh0 := rsqrt (eigMax (p 0 0) (p 0 1) (p 1 1)),
                     sv0 := rsqrt (eigMax (p 3 3) (p 3 4) (p 4 4)) }

/-- The position class (R167, R170, R173). `head` tells whether the position may initialise: the heading was initialised
before this epoch and the model is complete (R158). -/
def fusePosition (s : State) (head : Bool) : State :=
  let c := s.obs.core
  let ref := if c.pInit then some [vget c.x 0 + vget c.x 9, vget c.x 1 + vget c.x 10] else none
  match s.fuse 1 ref with
  | none =>
    if c.pInit && !(c.dr && s.faultIs 0x0502 0) then (s.setCore { c with dr := true }).alarm 0x0502 0 1 [] else s
  | some (y, var) =>
    if c.pInit then
      let o := kalman 1 y var [] (c.x, c.p)
      let dn := vget o.1 0 - vget c.x 0
      let de := vget o.1 1 - vget c.x 1
      let t := s.drTime
      let s := s.setCore { c with x := o.1, p := o.2, dr := false, radiusLim := false }
      if c.dr then ((s.note 0x0503 [pR t, pR (rsqrt (rsq dn + rsq de))]).lower 0x0502 0).lower 0x0504 0 else s
    else if head && s.noContradiction then
      let p := isolate (isolate c.p 0 var) 1 var
      let o := initStates (putNth (putNth c.x 0 (nth 0 y 0)) 1 (nth 0 y 1), p)
      let s := s.setCore { c with x := o.1, p := o.2, pInit := true, dr := false }
      (s.holdTest.clearWave).note 0x0501 [2]
    else s

/-- A class that only updates: yaw rate or velocity, while the heading is initialised. -/
def fuseOther (s : State) (cls : Nat) : State :=
  let c := s.obs.core
  if !c.hInit then s else
  match s.fuse cls (some (measure cls c.x).1) with
  | none => s
  | some (y, var) =>
    let o := kalman cls y var (frozen c) (c.x, c.p)
    s.setCore { c with x := o.1, p := o.2 }

/-- A covariance diagonal element is negative (R180; a rational is always finite). -/
def badCore (c : ObsCore) : Bool := (List.range 15).any fun i => mget c.p i i < 0

/-- A reset ordered is carried out (R169); an incomplete model is recorded once (R158), and one that has become valid leaves
the observer uninitialised (R167). -/
def observerOrders (s : State) (ok : Bool) : State :=
  let s := if s.obs.reset then (s.note 0x0509 []).obsUninit else s
  let s := if ok && s.obs.incomplete then s.obsUninit else s
  let s := if !ok && !s.obs.warned then s.note 0x050C [] else s
  { s with obs := { s.obs with reset := false, incomplete := !ok, warned := s.obs.warned || !ok } }

/-- State and covariance one sample on, with the forces held (R165). -/
def coreAhead (s : State) (yaw : Option Rat) : ObsCore :=
  let c := s.obs.core
  if !c.hInit then c else
  let o := s.propagate c.dr c.fw (vadd s.obs.tauThr s.obs.tauWind) yaw (c.x, c.p)
  { c with x := o.1, p := o.2 }

/-- The used yaw rate, which carries the heading through its dead reckoning (R171). -/
def drYaw (s : State) : Option Rat :=
  if s.obs.hDr then (s.fuse 3 none).map fun y => nth 0 y.1 0 else none

/-- The classes that the observer fuses, in the order of R165; deviations and age are taken when every class has updated
(R172). -/
def fuseAll (s : State) (ok : Bool) : State :=
  let head := s.obs.core.hInit && ok
  let s := (((s.fusePosition head).fuseHeading ok).fuseOther 3).fuseOther 5
  if s.obs.core.pInit && !s.obs.core.dr then s.markPos else s

/-- The radius limit in dead reckoning (R172). -/
def radiusTest (s : State) : State :=
  let c := s.obs.core
  let overs : Bool := c.dr && decide (s.cfgR 0x2A10 3 < s.drRadius)
  let s := if overs && !s.faultIs 0x0504 0 then s.alarm 0x0504 0 1 [pR s.drRadius] else s
  s.setCore { s.obs.core with radiusLim := c.dr && (overs || c.radiusLim) }

/-- One of the K samples in which the mismatch test does not run has passed (R175). -/
def quietStep (s : State) : State := { s with obs := { s.obs with quiet := s.obs.quiet - 1 } }

/-- The whole of f2 (R165). -/
def observerRun (s : State) : State :=
  let c0 := s.obs.core
  let ok := s.model.ok
  let s := s.observerOrders ok
  -- the missed epoch is propagated without an update (R179)
  let s := if s.obs.missed then s.setCore (s.coreAhead none) else s
  let s := (s.thrustInput.windInput).fuseAll ok
  if badCore s.obs.core then ((s.record 0x0508 3 []).setCore c0).unitStop 0x0508 else
  let s := s.mismatch.quietStep
  let s := if s.obs.core.pInit then s.adaptWave else s
  let s := s.radiusTest.publishEst
  let c := s.coreAhead s.drYaw
  if badCore c then (s.record 0x0508 3 []).unitStop 0x0508 else
  let s := s.setCore c
  let s := { s with obs := { s.obs with missed := false, adopted := false } }
  (s.publishPred (s.clk.epoch + s.clk.n * 1250000)).lower 0x0507 0

/-- The estimate that stands in for a missed one: the prediction for the epoch (R179). -/
def heldEst (s : State) : Est :=
  let g := vget s.obs.core.x
  { sample := s.clk.sample, epoch := s.clk.epoch, n := g 0, e := g 1, psi := g 2, u := g 3, v := g 4, r := g 5,
    bias := toBody (g 2) [g 6, g 7, g 8], wind := s.obs.tauWind, held := true }

/-- No publication by the end of f2 (R179): the prediction for the epoch is the estimate, held; where the epoch before was
missed too, it is that prediction propagated once more (log 136). The Held bit shows in the readable 2A40h (log 136). -/
def observerMiss (s : State) : State :=
  let s := ([0x2A40, 0x2A42, 0x2A43].foldl State.stale s).heldRes 0x2A41
  let s := s.patchRes 0x2A40 0 fun v => .u (v.asNat ||| 0x20)
  let s := if s.obs.missed then s.setCore (s.coreAhead none) else s
  let s := { s with obs := { s.obs with missed := true, est := some s.heldEst } }
  s.quietStep

/-- A Shadow or Reserve takes the Lead's observer state at f0 as its own prediction for the epoch (R178); `held` where the
Lead's update was missed, so that the state is its prediction for the epoch before. -/
def adoptObserver (s : State) (lead : Nat) (c : ObsCore) (held : Bool) : State :=
  let own := s.obs.core
  let d := rsqrt (rsq (vget own.x 0 - vget c.x 0) + rsq (vget own.x 1 - vget c.x 1))
  let far := decide (s.cfgR 0x2A10 4 < d)
  let cnt := if far then s.obs.divCount + 1 else 0
  let now := decide (s.cfgU 0x2A10 5 ≤ cnt)
  let s := if now && !s.obs.diverge then s.alarm 0x050A 0 1 [pR d, lead] else if now then s else s.lower 0x050A 0
  let v := (s.freshest 0x2A43).vals
  let s := s.publishEnd 0x2A43 [nth (.u 0) v 0, nth (.u 0) v 1, rv d, .u 1]
  let s := { s with obs := { s.obs with core := c, pairDist := d, divCount := cnt, diverge := now, adopted := true, missed := held } }
  s.publishPred s.clk.epoch

end State

/-- OBSERVER_RESET (R169): a write of 2A10h:01h; a 1 resets the observer at the next f2. -/
def State.ruleObsReset (s : State) (_ : Path) (idx sub : Nat) (v : Val) : Verdict :=
  if idx = 0x2A10 ∧ sub = 1 then
    if v.asNat = 1 then .done { s with obs := { s.obs with reset := true } } else .done s
  else .store

def execObserverReset (p : Path) (b : List Byte) (s : State) : Out :=
  .next (if s.up then s.writeWith State.ruleObsReset p 0x2A10 1 b else s)

end Sys2Proof.Machine
end

