-- ==== Sys2Proof/Machine/Sets.lean ====
section
/-! DEFINITION. Signed sets (R63, R64, Table 2-6), which configuration sets, coefficient sets and program images share,
and the parameter store (R46). -/
namespace Sys2Proof.Machine

/-- The parts of a set (Table 2-6). -/
structure SetParts where
  product : Nat
  version : Nat
  created : Nat
  count : Nat
  digest : List Byte
  body : List Byte
  signer : List Byte
  signature : List Byte
  /-- bytes 0 to the end of the signer field -/
  signed : List Byte
  deriving DecidableEq, Repr

/-- The structure of a set: magic, format, flags, lengths, signer and signature fields (R63). -/
def parseSet (magic : String) (b : List Byte) : Option SetParts :=
  let n := leAt b 28 4
  let sigLen := leAt b (100 + n) 2
  if slice b 0 4 = ascii magic ∧ leAt b 4 2 = 1 ∧ leAt b 6 2 = 0 ∧ 102 + n ≤ b.length ∧ sigLen ≤ 104 ∧
      b.length = 102 + n + sigLen then
    some { product := leAt b 8 4, version := leAt b 12 4, created := leAt b 16 8, count := leAt b 24 4,
           digest := slice b 32 48, body := slice b 80 n, signer := slice b (80 + n) 20,
           signature := slice b (102 + n) sigLen, signed := b.take (100 + n) }
  else none

/-- First 8 bytes of a set's digest, as the digest objects show it. -/
def SetParts.digest8 (p : SetParts) : Nat := leNat (p.digest.take 8)

namespace State

/-- Time quality in force (bits 18-17 of the vessel status word). -/
def timeQuality (s : State) : Nat := field (s.objU 0x2200 1) 17 2

/-- A certificate of a key identifier confers a role (R511): chain, revocation, dates. Event 1403h on a refusal, whose
reason codes the spec does not list (log 27); event 140Ah when the dates are not checked. -/
def certOk (s : State) (role : Nat) (kid : List Byte) : Bool × State :=
  let s := if s.timeQuality = 3 then s.note 0x140A [] else s
  if s.objD 0x4810 0 = [] ∨ Config.signerRole (s.objD 0x4810 0) (s.objD 0x4811 0) kid ≠ role then
    (false, s.note 0x1403 [Config.reason 0x1403 1, pId kid])
  else if s.timeQuality ≠ 3 && !Config.datesHold kid s.clk.time then (false, s.note 0x1403 [Config.reason 0x1403 2, pId kid])
  else (true, s)

/-- The checks of R63 after the structural one: product code, digest, signature under an Engineer certificate. -/
def setSigned (s : State) (p : SetParts) : Bool × State :=
  if p.product ≠ s.objU 0x1018 2 ∨ Config.sha384 p.body ≠ p.digest then (false, s)
  else
    let c := s.certOk 2 p.signer
    if c.1 && Config.ecdsaVerify (Config.publicKey p.signer) p.signed p.signature then (true, c.2) else (false, c.2)

/-! The parameter store (R46). -/

/-- The newest copy whose CRC is good. -/
def newestCopy (s : State) : Option StoreCopy :=
  match s.acc.copyA.valid, s.acc.copyB.valid with
  | true, true => if s.acc.copyA.serial < s.acc.copyB.serial then some s.acc.copyB else some s.acc.copyA
  | true, false => some s.acc.copyA
  | false, true => some s.acc.copyB
  | false, false => none

/-- Write the older copy. -/
def writeCopy (s : State) (vals : List (Nat × Val)) (version : Nat) : State :=
  let serial := match s.newestCopy with
    | some c => c.serial + 1
    | none => 1
  let c : StoreCopy := { vals := vals, serial := serial, version := version, valid := true }
  let older := if s.acc.copyA.valid && (!s.acc.copyB.valid || decide (s.acc.copyB.serial < s.acc.copyA.serial)) then
      { s.acc with copyB := c } else { s.acc with copyA := c }
  { s with acc := older }

/-- NV objects of a store command's area (R44): 1 all, 2 those of 1000h-1FFFh, 3 those of 2000h-4FFFh. -/
def inArea (area idx : Nat) : Bool :=
  area == 1 || (area == 2 && idx < 0x2000) || (area == 3 && 0x2000 ≤ idx)

/-- The present value of every NV object of a list, merged into the newest copy. -/
def storeKeys (s : State) (keys : List Nat) : State :=
  let base := match s.newestCopy with
    | some c => c.vals
    | none => []
  s.writeCopy (keys.foldl (fun l k => putV l k (getV s.obj k)) base) (s.objU 0x2011 2)

/-- NV keys of an area. -/
def nvKeys (s : State) (area : Nat) : List Nat :=
  (s.ownObjects.filter fun o => o.2.2.per == .nv && inArea area o.1).map fun o => okey o.1 o.2.1

end State
end Sys2Proof.Machine
end

