-- ==== Sys2Proof/Machine/Culm.lean ====
section
/-! DEFINITION. Culm: block-floating numerics, the three-axis law, coefficient sets, overruns (chapter 08). -/
namespace Sys2Proof.Machine

/-! Block floating (R194-R196). -/

/-- Round a vector to 24-bit mantissas under one exponent: the exponent normalises the largest magnitude to 2^22 to
2^23 - 1, no lower than the -128 of a signed 8-bit exponent; each element is rounded once, ties to even. A vector of zeros
stays. No ceiling comes near the upper end of the exponent (R196). -/
def blockRound (l : List Rat) : List Rat :=
  let top := (l.map rabs).foldl rmax 0
  if top = 0 then l else
  let e := max (log2Floor top - 22) (-128)
  let m := l.map fun x => roundEven (x * pow2 (-e))
  let (e, m) := if m.any (fun k => k.natAbs = 2 ^ 23) then (e + 1, l.map fun x => roundEven (x * pow2 (-(e + 1)))) else (e, m)
  m.map fun (k : Int) => (k : Rat) * pow2 e

/-- A three-axis vector, yaw divided by L while it is rounded (R194). -/
def block3 (L : Rat) (v : List Rat) : List Rat :=
  match blockRound [vget v 0, vget v 1, vget v 2 / L] with
  | [a, b, c] => [a, b, c * L]
  | _ => v

/-- Zip with the axis number. -/
def axes3 {α : Type} (f : Nat → α) : List α := [f 0, f 1, f 2]

namespace State

/-- Set sticky bits of a word (R197); the first flag set after a clear records event 0606h where `tell`. -/
def stick (s : State) (idx sub bits : Nat) (tell : Bool := true) : State :=
  let w := s.objU idx sub
  if bits = 0 then s else
  let w' := w ||| bits
  let s := s.putU idx sub w'
  if w = 0 && tell then s.note 0x0606 [idx * 256 + sub, w'] else s

/-- A read of sticky flags returns them and clears exactly those (R197). -/
def readSticky (s : State) (p : Path) (idx sub : Nat) : State :=
  let s' := s.readWith (fun _ _ _ => none) p idx sub
  if s'.acc.answer.code = 0 ∧ sub ≠ 0 then s'.putU idx sub 0 else s'

/-! Inputs of the law (R181). -/

/-- Set points N, E, ψ as published in 2230h (F32). -/
def setPoint (s : State) : List Rat := [f32r s.mode.spN, f32r s.mode.spE, f32r s.mode.spH]

/-- The estimate the law takes: pose, velocity, wind force and bias in body axes; before the first publication they are
free (log 28). -/
def lawEst (s : State) : List Rat × List Rat × List Rat × List Rat :=
  match s.obs.est with
  | some e => ([f32r e.n, f32r e.e, f32r e.psi], [f32r e.u, f32r e.v, f32r e.r], e.wind.map f32r, e.bias.map f32r)
  | none =>
    let free := fun (k : Nat) => [Config.noEstimate k, Config.noEstimate (k + 1), Config.noEstimate (k + 2)]
    (free 0, free 3, free 6, free 9)

/-- Errors e and the set-point velocity ν_sp in body axes, from vectors converted by `rnd` (R181). -/
def lawErr (s : State) (rnd : List Rat → List Rat) : List Rat × List Rat :=
  let (pose, _, _, _) := s.lawEst
  let p := rnd pose
  let sp := rnd s.setPoint
  let spp := rnd (s.ctl.culm.core.prevSp.map f32r)
  let T := s.T
  let d := toBody (vget p 2) [vget sp 0 - vget p 0, vget sp 1 - vget p 1, wrap180 (vget sp 2 - vget p 2)]
  let v := toBody (vget p 2)
    [(vget sp 0 - vget spp 0) / T, (vget sp 1 - vget spp 1) / T, wrap180 (vget sp 2 - vget spp 2) / T]
  (d, v)

/-- Axes that came under control at an f0 since the last completed law (R185). -/
def newAxes (s : State) : Nat := s.mode.axes &&& s.ctl.culm.entered

/-- The axes under control have changed at f0 from `before`: an axis that comes under control enters at the next completed
law (R185); one that leaves has an integrator of 0 and an a_sp filter state of 0 from this sample on (R184, R186). -/
def axesBoundary (s : State) (before : Nat) : State :=
  let k := s.ctl.culm
  let c := k.core
  let on := fun a => bit s.mode.axes a
  { s with ctl := { s.ctl with culm := { k with
      entered := (k.entered ||| (7 - before)) &&& s.mode.axes,
      core := { c with
        integ := axes3 fun a => if on a then vget c.integ a else 0,
        asp := axes3 fun a => if on a then vget c.asp a else 0,
        clamped := axes3 fun a => on a && nth false c.clamped a } } } }

/-- Operator axes, which take the demand 2222h (Table 8-1). -/
def operatorAxes (s : State) : Nat := if s.mode.mode = 2 ∨ s.mode.mode = 3 then 7 - s.mode.axes else 0

/-- Wind compensation acts on operator axes (Table 8-1). -/
def windComp (s : State) : Bool := s.operatorAxes != 0 && s.cfgB 0x2C03 1

/-! Gains (R190, Table 8-6). -/

/-- The 18 gains of a set: K_p, K_i, K_d, I_max, τ_max each three, k_w, k_b, k_a. -/
def gains (s : State) (n : Nat) : List Rat := (List.range 18).map fun k => s.objR (0x2C10 + n) (k + 1)
def gainsInForce (s : State) : Nat × List Rat := (s.objU 0x2C00 2, s.gains (s.objU 0x2C00 2))

end State

def gKp (g : List Rat) (a : Nat) : Rat := vget g a
def gKi (g : List Rat) (a : Nat) : Rat := vget g (3 + a)
def gKd (g : List Rat) (a : Nat) : Rat := vget g (6 + a)
def gImax (g : List Rat) (a : Nat) : Rat := vget g (9 + a)
def gTmax (g : List Rat) (a : Nat) : Rat := vget g (12 + a)
def gKw (g : List Rat) : Rat := vget g 15
def gKb (g : List Rat) : Rat := vget g 16
def gKa (g : List Rat) : Rat := vget g 17

/-- Saturate each element at its ceiling; the elements that saturated. -/
def ceilAt (v c : List Rat) : List Rat × List Bool :=
  (axes3 fun a => rclamp (-(vget c a)) (vget c a) (vget v a), axes3 fun a => decide (vget c a < rabs (vget v a)))

namespace State

/-- One stage of the law (R195): saturate at the ceiling with its sticky flag, renormalise. -/
def stage (s : State) (n : Nat) (L : Rat) (v c : List Rat) : State × List Rat :=
  let (x, hit) := ceilAt v c
  let s := foldS s [0, 1, 2] fun s a => if nth false hit a then s.stick 0x2C50 (a + 1) (2 ^ (n - 1)) else s
  (s, block3 L x)

/-- P, D and f of a gain set (R181, Table 8-1), through stages 3, 4 and 6. `law` the axes of the law, `op` operator
axes with wind compensation. -/
def lawTerms (s : State) (g : List Rat) (law op : Nat) (e ev asp wind bias : List Rat) (tell : Bool) :
    State × List Rat × List Rat × List Rat :=
  let L := s.cfgR 0x2A00 9
  let m := s.model.m
  let c4 := axes3 fun a => 4 * gTmax g a
  let pr := axes3 fun a => if bit law a then gKp g a * vget e a else 0
  let dr := axes3 fun a => if bit law a then gKd g a * vget ev a else 0
  let fr := axes3 fun a =>
    if bit law a then
      gKa g * vget m a * (if a = 2 then deg2rad (vget asp a) else vget asp a) - gKw g * vget wind a - gKb g * vget bias a
    else if bit op a then -(gKw g * vget wind a) else 0
  if tell then
    let (s, p) := s.stage 3 L pr c4
    let (s, d) := s.stage 4 L dr c4
    let (s, f) := s.stage 6 L fr c4
    (s, p, d, f)
  else (s, block3 L (ceilAt pr c4).1, block3 L (ceilAt dr c4).1, block3 L (ceilAt fr c4).1)

/-- Sign with which Tiller reported an axis saturated, 0 where it did not (R188). -/
def satSignOf (s : State) (a : Nat) : Int :=
  if bit s.ctl.till.sat a then (if bit s.ctl.till.satSign a then -1 else 1) else 0

/-- The integrator step of one axis (R185, R188, R189, R191): new I, clamped bit, stage-5 flag, withheld, swap step. -/
structure IStep where
  i : Rat
  clamped : Bool
  flag : Bool
  withheld : Bool
  step : Rat

/-- R185 and R193: bumpless entry of an axis. -/
def entryStep (tauPrev sum imax : Rat) : IStep :=
  let raw := tauPrev - sum
  ⟨rclamp (-imax) imax raw, decide (imax < rabs raw), decide (imax < rabs raw), false, 0⟩

/-- R188, R189, R191: increment, transfer, clamp of an axis under control before. -/
def integStep (i inc : Rat) (hold clamped swap : Bool) (uOld uNew imax : Rat) : IStep :=
  let inc' := if hold then 0 else inc
  if swap && clamped then
    let i' := rclamp (-imax) imax i
    ⟨i', true, true, false, (uNew - uOld) + (i' - i)⟩
  else
    let raw := i + inc' + (if swap then uOld - uNew else 0)
    let i' := rclamp (-imax) imax raw
    let hit := decide (imax < rabs raw)
    ⟨i', hit, hit, hold, if swap then i' - raw else 0⟩

/-- The law's run at f3 (R181-R193, R207). -/
def culmRun (s : State) : State :=
  let k := s.ctl.culm
  let c := k.core
  let L := s.cfgR 0x2A00 9
  let T := s.T
  let ctl := s.mode.axes
  let new := s.newAxes
  let op := if s.windComp then s.operatorAxes else 0
  let (set, g) := s.gainsInForce
  let empty := ofBits ([0, 1, 2].filter fun a => bit ctl a && decide (gTmax g a = 0))
  let law := ctl &&& (7 - empty)
  let (_, nu, wind, bias) := s.lawEst
  let (err, vsp) := s.lawErr (block3 L)
  let live := fun a => bit ctl a && !bit new a
  let nuSp := axes3 fun a => if live a then vget vsp a else 0
  let ta := s.cfgR 0x2C03 3
  let asp := axes3 fun a =>
    if live a then vget c.asp a + T / (ta + T) * ((vget nuSp a - vget c.prevVel a) / T - vget c.asp a) else 0
  let (s, e) := s.stage 1 L (axes3 fun a => if bit law a then vget err a else 0) [1000, 1000, 180]
  let nuv := block3 L nu
  let (s, ev) := s.stage 2 L (axes3 fun a => if bit law a then vget nuSp a - vget nuv a else 0) [20, 20, 20]
  let wv := block3 L wind
  let bv := block3 L bias
  let (s, P, D, F) := s.lawTerms g law op e ev asp wv bv true
  let swap := match k.used with
    | some u => decide (u ≠ (set, g))
    | none => false
  let og := match k.used with
    | some u => u
    | none => (set, g)
  let (_, P0, D0, F0) := s.lawTerms og.2 law op e ev asp wv bv false
  let aw := s.cfgB 0x2C03 2
  let sgn := fun (x : Rat) => rsign x
  let steps : List IStep := axes3 fun a =>
    if !bit law a then ⟨0, false, false, false, 0⟩ else
    let uNew := vget P a + vget D a + vget F a
    if bit new a then entryStep (vget c.tauPrev a) uNew (gImax g a)
    else
      let inc := gKi (if swap then og.2 else g) a * T * vget e a
      let hold := inc ≠ 0 && (sgn inc == nth 0 k.lim a || (aw && sgn inc == s.satSignOf a))
      integStep (vget c.integ a) inc hold (nth false c.clamped a) swap
        (vget P0 a + vget D0 a + vget F0 a) uNew (gImax g a)
  let s := foldS s [0, 1, 2] fun s a =>
    if (steps.map (·.flag))[a]?.getD false then s.stick 0x2C50 (a + 1) 0x10 else s
  let I := block3 L (steps.map (·.i))
  let base := block3 L (axes3 fun a => if bit s.operatorAxes a then s.cfgR 0x2222 (a + 1) else 0)
  let tmax := axes3 fun a => gTmax g a
  let (s, sum) := s.stage 7 L (axes3 fun a => vget P a + vget D a + vget I a + vget F a + vget base a)
    (tmax.map (8 * ·))
  let limited := axes3 fun a => decide (vget tmax a < rabs (vget sum a))
  let (s, tau) := s.stage 8 L sum tmax
  let cut := axes3 fun a =>
    if swap && bit law a && !bit new a && nth false limited a && decide (rabs (vget sum a) ≤ gTmax og.2 a) then
      rclamp (-(vget tmax a)) (vget tmax a) (vget sum a) - vget sum a else 0
  let step := axes3 fun a => vget (steps.map (·.step)) a + vget cut a
  let was := c.clamped
  let s := if empty ≠ 0 ∧ !s.faultIs 0x060C 0 then s.alarm 0x060C 0 1 [] else if empty = 0 then s.lower 0x060C 0 else s
  let s := if swap then
      foldS (s.note 0x0604 [og.1, set]) [0, 1, 2] fun s a =>
        if vget step a = 0 then s else s.note 0x0605 [a, pR (vget step a), b2n (nth false was a)]
    else s
  let clamped := steps.map (·.clamped)
  let held := match s.obs.est with
    | some x => x.held
    | none => false
  let word := bitAt (empty != 0) 14 + bitAt held 13 + bitAt swap 12 + bitAt (step.any (· != 0)) 11 +
    bitAt (new &&& law != 0) 10 + bitAt (op != 0) 9 +
    nsum (axes3 fun a => bitAt (nth false clamped a) (6 + a) + bitAt (nth false limited a) (3 + a) +
      bitAt (nth false (steps.map (·.withheld)) a) a)
  let core : CulmCore := { c with integ := I, clamped := clamped, asp := asp, prevVel := nuSp, tauPrev := tau }
  let lim := axes3 fun a => if nth false limited a then rsign (vget sum a) else 0
  let s := { s with ctl := { s.ctl with culm := { k with
    core := core, lim := lim, used := some (set, g), entered := 0, tau := tau, held := false, published := true } } }
  let s := s.publishEnd 0x2C40 (tau.map rv ++ [.u word, .u ctl, .u set])
  let s := s.publishEnd 0x2C41 (P.map rv ++ I.map rv ++ D.map rv ++ F.map rv ++ step.map rv)
  let s := s.publishEnd 0x2C42 (e.map rv ++ ev.map rv ++ asp.map rv)
  let recent := k.overs.filter fun x => (s.clk.sample + 2 ^ 32 - x) % 2 ^ 32 < 100
  ((s.putU 0x2C58 2 0).putU 0x2C58 3 recent.length).lower 0x0601 0

/-! Coefficient sets (R208-R210, Table 8-5). -/

/-- Records of a body: type, number, F32 words. -/
def culmRecords : Nat → List Byte → Option (List (Nat × Nat × List Nat))
  | 0, b => if b = [] then some [] else none
  | n + 1, b =>
    match b with
    | [] => some []
    | t :: _ =>
      let size := if t = 1 then 76 else if t = 2 then 28 else 0
      if size = 0 ∨ b.length < size ∨ leAt b 2 2 ≠ 0 then none else
      match culmRecords n (b.drop size) with
      | some l => some ((t.toNat, leAt b 1 1, (List.range ((size - 4) / 4)).map fun i => leAt b (4 + 4 * i) 4) :: l)
      | none => none

/-- Record number of the first record out of order or repeated (R208). -/
def culmDisorder (l : List (Nat × Nat × List Nat)) : Option Nat :=
  (List.range l.length).find? fun i =>
    let r := nth (0, 0, []) l i
    let before := l.take i
    before.any (fun (q : Nat × Nat × List Nat) => (q.1 == r.1 && q.2.1 == r.2.1) || (q.1 == 2 && r.1 == 1))

/-- Reason of R209 for one record, 0 when it passes. -/
def culmReason (r : Nat × Nat × List Nat) : Nat :=
  let w := r.2.2
  let x := fun i => F32.toRat (BitVec.ofNat 32 (nth 0 w i))
  let inn := fun i (hi : Rat) => F32.finite (BitVec.ofNat 32 (nth 0 w i)) && decide (0 ≤ x i) && decide (x i ≤ hi)
  if r.1 = 1 then
    if 7 < r.2.1 ∨ !(List.range 9).all (fun i => inn i 10000000) then 1
    else if !([15, 16, 17].all fun i => inn i (3 / 2)) then 2
    else if !([0, 1, 2].all fun a => inn (9 + a) (x (12 + a)) && F32.finite (BitVec.ofNat 32 (nth 0 w (12 + a)))) then 3
    else if 20000 < x 12 ∨ 20000 < x 13 ∨ 2000000 < x 14 then 4
    else 0
  else if 31 < r.2.1 ∨ !(List.range 6).all (fun i => inn i 10000000) then 1 else 0

/-- Own rule of 2C01h:00h (R63, R208-R210). -/
def ruleCulmSet (s : State) (_ : Path) (_ _ : Nat) (v : Val) : Verdict :=
  let refuse := fun (s : State) (a w : Nat) => Verdict.refuse a ((if a = abSet then s.putU 0x2C02 3 w else s).note 0x0608 [w])
  match parseSet "KCUL" v.asBytes with
  | none => refuse s abSet 0
  | some p =>
    match culmRecords p.count p.body with
    | none => refuse s abSet 0
    | some l =>
      if l.length ≠ p.count then refuse s abSet 0 else
      match culmDisorder l with
      | some i => refuse s abSet (5 * 65536 + i * 256)
      | none =>
        let (ok, s) := s.setSigned p
        if !ok then refuse s abSign 0 else
        match (List.range l.length).find? (fun i => culmReason (nth (0, 0, []) l i) ≠ 0) with
        | some i => refuse s abSet (culmReason (nth (0, 0, []) l i) * 65536 + i * 256)
        | none => .store

/-- Set an object that a loaded set gives, in both stores. -/
def putLoaded (s : State) (idx sub w : Nat) : State := s.putBoth idx sub (.f (BitVec.ofNat 32 w))

/-- Apply an accepted Culm set at f0 (R210): its records, version, digest, the store, event 0607h. -/
def applyCulmSet (s : State) : State :=
  match parseSet "KCUL" (s.cfgD 0x2C01 0) with
  | none => s
  | some p =>
    match culmRecords p.count p.body with
    | none => s
    | some l =>
      let put := fun (s : State) (r : Nat × Nat × List Nat) =>
        let (base, first) := if r.1 = 1 then (0x2C10 + r.2.1, 1) else (0x2C80 + r.2.1, 6)
        foldS s (List.range r.2.2.length) fun s i => s.putLoaded base (first + i) (nth 0 r.2.2 i)
      let s := foldS s l put
      let s := (s.putBoth 0x2C02 1 (.u p.version)).putBoth 0x2C02 2 (.u p.digest8)
      let keys := l.flatMap fun (r : Nat × Nat × List Nat) =>
        let (base, first) := if r.1 = 1 then (0x2C10 + r.2.1, 1) else (0x2C80 + r.2.1, 6)
        (List.range r.2.2.length).map fun i => okey base (first + i)
      (s.storeKeys ([okey 0x2C01 0, okey 0x2C02 1, okey 0x2C02 2] ++ keys)).note 0x0607 [p.version, l.length]

end State

/-- CULM_LAW (R181): at f3 of a running unit. -/
def execCulmLaw (s : State) : Out :=
  if s.up && s.fOff == 3 then .next (s.culmRun.probeFree 2) else .next s

/-- GAIN_SET_SELECTION (R190): a write of 2C00h:01h; the swap falls at the f0 at which it takes effect. -/
def execGainSetSelection (p : Path) (b : List Byte) (s : State) : Out :=
  .next (if s.up then s.writeWith State.noRule p 0x2C00 1 b else s)

/-- CULM_COEFFICIENT_SET (R210): a write of 2C01h:00h. -/
def execCulmCoefficientSet (p : Path) (b : List Byte) (s : State) : Out :=
  .next (if s.up then s.writeWith State.ruleCulmSet p 0x2C01 0 b else s)

/-- CULM_STICKY_READ (R197): a read of 2C50h:01h-03h. -/
def execCulmStickyRead (p : Path) (sub : Nat) (s : State) : Out :=
  .next (if s.up then s.readSticky p 0x2C50 sub else s)

end Sys2Proof.Machine
end

