-- ==== Sys2Proof/Machine/Plant.lean ====
section
/-! DEFINITION. The power-plant model and load reduction (chapter 11). -/
namespace Sys2Proof.Machine

/-- Sections of a plant: labels by lowest joined section. -/
abbrev Labels := List Nat

/-- One relaxation of the labels over the closed ties. -/
def joinTies (ends : List (Nat × Nat)) (l : Labels) : Labels :=
  ends.foldl (fun l (p : Nat × Nat) =>
    let m := min (nth 15 l p.1) (nth 15 l p.2)
    putNth (putNth l p.1 m) p.2 m) l

namespace State

def nodeData (s : State) (id k : Nat) : Option Nat :=
  match tfind s.net.nodes id with
  | some n => if n.lost ∨ n.data = [] ∨ n.dataAt + 8 ≤ s.clk.frame then none else some (nth 0 n.data k)
  | none => none

/-- Level of a discrete line (R405). -/
def dioLevel (s : State) (d : Nat) : Bool := bit s.io.dio d

/-- Reading of a state binding (Table 11-1, R277); none where it has not updated. -/
def stateBinding (s : State) (b : Nat) : Option Bool :=
  match field b 24 8 with
  | 1 => some (s.dioLevel (b % 32) != bit b 8)
  | 2 => (s.nodeData (b % 4096) (field b 16 8)).map fun w => bit w (field b 12 4)
  | _ => none

/-- Reading of a load binding, kW. -/
def loadBinding (s : State) (b : Nat) : Option Rat :=
  match field b 24 8 with
  | 2 => (s.nodeData (b % 4096) (field b 16 8)).map fun w => F32.toRat (BitVec.ofNat 32 w)
  | 3 => match (tget {} s.chaff.chans (b % 256) : Chan).last with
    | some o => some o.2
    | none => none
  | _ => none

/-! Descriptors in force (Table 11-2). -/
def genSection (s : State) (g : Nat) : Nat := s.cfgU (0x3480 + g) 1
def genShare (s : State) (g : Nat) : Rat := s.cfgR (0x3480 + g) 2 * s.cfgR (0x3480 + g) 3
def gens (s : State) : List Nat := (List.range 16).filter fun g => s.genSection g != 255
def tieEnds (s : State) (t : Nat) : Nat × Nat := (s.cfgU (0x34B0 + t) 1, s.cfgU (0x34B0 + t) 2)
def ties (s : State) : List Nat := (List.range 8).filter fun t => (s.tieEnds t).1 != 255 && (s.tieEnds t).2 != 255
def sectionOn (s : State) (b : Nat) : Bool := b < 8 && s.cfgB (0x34A0 + b) 1
def feed (s : State) (j : Nat) : Nat := s.cfgU (0x34C0 + j) 1

def contact (s : State) (k : Nat) : Contact := tget {} s.ctl.plant.contacts k
def setContact (s : State) (k : Nat) (c : Contact) : State :=
  { s with ctl := { s.ctl with plant := { s.ctl.plant with contacts := tset s.ctl.plant.contacts k c } } }
def setPlant (s : State) (p : Plant) : State := { s with ctl := { s.ctl with plant := p } }

/-- Groups, capacities and bounds of a plant with the generators and ties given by masks (R280, R281). -/
def plantOf (s : State) (online closed : Nat) (load : List Rat) : PlantRes :=
  let start : Labels := (List.range 8).map fun b => if s.sectionOn b then b else 15
  let ends := (s.ties.filter fun t => bit closed t && s.sectionOn (s.tieEnds t).1 && s.sectionOn (s.tieEnds t).2).map s.tieEnds
  let lab := (List.range 8).foldl (fun l _ => joinTies ends l) start
  let gensOf := fun (g : Nat) => s.gens.filter fun k => bit online k && nth 15 lab (s.genSection k) == g
  let live := (List.range 8).filter fun g => !(gensOf g).isEmpty
  let made := (List.range 8).filter fun g => lab.contains g
  let grp := lab.map fun g => if live.contains g then g else 15
  let c := (List.range 8).map fun g => rsum ((gensOf g).map s.genShare)
  let l := (List.range 8).map fun g =>
    rsum (((List.range 8).filter fun b => nth 15 lab b == g).map fun b => nth 0 load b)
  let r := (List.range 8).map fun g =>
    if !made.contains g then 0 else
    let base := rmax (s.cfgR 0x3400 2 * nth 0 c g) (s.cfgR 0x3400 3)
    if s.cfgB 0x3400 4 then ((gensOf g).map s.genShare).foldl rmax base else base
  let at' := fun (x : List Rat) (g : Nat) => nth 0 x g
  { frame := s.clk.frame, online := online, ties := closed,
    energised := ofBits ((List.range 8).filter fun b => nth 15 grp b != 15), group := grp, label := lab, load := load, c := c, l := l,
    r := r,
    bound := (List.range 8).map fun g => if live.contains g then rmax 0 (at' c g - at' l g - at' r g) else 0,
    plr := (List.range 8).map fun g =>
      if live.contains g then rmax 0 (at' c g - at' l g - s.cfgR 0x3400 5 * at' c g) else 0 }

/-- Non-thruster load by section: bound, else the estimate (R279, R281). -/
def sectionLoads (s : State) : List Rat :=
  (List.range 8).map fun b => (s.loadBinding (s.cfgU (0x34A0 + b) 2)).getD (s.cfgR (0x34A0 + b) 3)

/-- Online generators and closed ties from the confirmed states (R280 step 1). -/
def onlineMask (s : State) : Nat :=
  ofBits (s.gens.filter fun g =>
    (s.contact g).closed && (s.cfgU (0x3480 + g) 6 == 0 || (s.contact (32 + g)).closed))
def closedMask (s : State) : Nat := ofBits (s.ties.filter fun t => (s.contact (16 + t)).closed)

/-- Group of a thruster in a result: none for a feed section of FFh, 15 where it is not fed. -/
def thrGroup (s : State) (r : PlantRes) (j : Nat) : Option Nat :=
  if s.feed j = 255 then none else some (nth 15 r.group (s.feed j))
/-- Fed (R280 step 4). -/
def fedIn (s : State) (r : PlantRes) (j : Nat) : Bool := s.thrGroup r j != some 15

/-- Thrusters of a group. -/
def groupThrusters (s : State) (r : PlantRes) (g : Nat) : List Nat :=
  s.thrusters.filter fun j => s.thrGroup r j == some g

/-- Power of a group at speed commands (R284). -/
def groupPower (s : State) (r : PlantRes) (g : Nat) (n : Nat → Rat) : Rat :=
  rsum ((s.groupThrusters r g).map fun j => powerOf (s.desc j) (thrustOf (s.desc j) (n j)))

/-- λ_g at speed commands (R284). -/
def lambdaOf (s : State) (r : PlantRes) (g : Nat) (n : Nat → Rat) : Rat :=
  let l := s.groupThrusters r g
  let p0 := rsum (l.map fun j => (s.desc j).p0)
  let dp := s.groupPower r g n - p0
  if dp ≤ 0 then 1 else
  let x := nth 0 r.plr g - p0
  if x ≤ 0 then 0 else if dp ≤ x then 1 else rclamp 0 1 (rpower (x / dp) (2 / 3))

/-- The unscaled and the emitted speed command of a thruster. -/
def cmdN (s : State) (j : Nat) : Rat := (s.inner j).core.n
def emitN (s : State) (j : Nat) : Rat := (s.inner j).emitN

/-- Drive is by Lever, Stubble, or a blend to or from it (R287). -/
def alwaysScaled (s : State) : Bool :=
  s.mode.mode == 1 || s.ctl.stub.core.driving || s.ctl.stub.core.blend.isSome

/-- Groups to be scaled in this frame (R284, R287); none while 3400h:06h is 0. -/
def scaledNow (s : State) : List Nat :=
  if !s.cfgB 0x3400 6 then [] else
  let r := s.ctl.plant.res
  let listed := (s.ctl.plant.core.scaled.filter fun p => p.2.1 < s.clk.frame).map (·.1)
  (List.range 8).filter fun g =>
    listed.contains g || (s.alwaysScaled && decide (s.lambdaOf r g s.cmdN < 1) && nth 0 r.c g != 0)

/-! The frame's run (R277-R288). -/

/-- One reading sampled into a contact. -/
def sampleContact (c : Contact) (closed opened : Option (Option Bool)) : Contact :=
  match closed, opened with
  | some (some x), none => { c with cand := some x, count := if c.cand = some x then c.count + 1 else 1, alike := 0 }
  | some (some x), some (some y) =>
    if x = y then { c with cand := none, count := 0, alike := c.alike + 1 }
    else { c with cand := some x, count := if c.cand = some x then c.count + 1 else 1, alike := 0 }
  | _, _ => { c with cand := none, count := 0, alike := 0 }

/-- A binding as read: none where it is not configured. -/
def readBinding (s : State) (b : Nat) : Option (Option Bool) := if field b 24 8 = 0 then none else some (s.stateBinding b)

/-- Bindings of a contact number: closed and open, ready alone, or a section's load (48-55). -/
def bindingsOf (s : State) (k : Nat) : Nat × Nat :=
  if k < 16 then (s.cfgU (0x3480 + k) 4, s.cfgU (0x3480 + k) 5)
  else if k < 24 then (s.cfgU (0x34B0 + (k - 16)) 3, s.cfgU (0x34B0 + (k - 16)) 4)
  else if k < 48 then (s.cfgU (0x3480 + (k - 32)) 6, 0)
  else (s.cfgU (0x34A0 + (k - 48)) 2, 0)

/-- Contacts that exist, and the load bindings on nodes, which can only be lost (R279). -/
def contactsOf (s : State) : List Nat :=
  s.gens ++ s.ties.map (16 + ·) ++ (s.gens.filter fun g => s.cfgU (0x3480 + g) 6 != 0).map (32 + ·) ++
    ((List.range 8).filter fun b => s.sectionOn b && field (s.cfgU (0x34A0 + b) 2) 24 8 == 2).map (48 + ·)

/-- A binding that has not updated (R279): none where both have. -/
def lostBinding (s : State) (k : Nat) : Option Nat :=
  let (c, o) := s.bindingsOf k
  if 48 ≤ k then (if (s.loadBinding c).isNone then some c else none)
  else if s.readBinding c == some none then some c
  else if s.readBinding o == some none then some o else none
def contactLost (s : State) (k : Nat) : Bool := (s.lostBinding k).isSome

/-- Sample every binding; consistent confirmed readings end a hold, and for a load its return (R277-R279). -/
def sampleAll (s : State) : State :=
  foldS s s.contactsOf fun s k =>
    if 48 ≤ k then
      (if (s.contact k).lost && !s.contactLost k then (s.setContact k {}).lower 0x0A09 k else s)
    else
    let (c, o) := s.bindingsOf k
    let x := sampleContact (s.contact k) (s.readBinding c) (s.readBinding o)
    if s.cfgU 0x3400 1 ≤ x.count && (x.disc || x.lost) then
      ((s.setContact k { x with disc := false, lost := false }).lower 0x0A08 k).lower 0x0A09 k
    else s.setContact k x

/-- Publish 3440h and 3441h. -/
def publishPlant (s : State) : State :=
  let p := s.ctl.plant
  let r := p.res
  let asserted := ofBits (p.core.lr.map (·.1))
  let dead := s.thrusters.any fun j => s.thrGroup r j == some 15 && s.sectionOn (s.feed j)
  let lift := (s.thrusters.any fun j => match s.thrGroup r j with
    | some g => (!s.ctl.leverOn && bit s.ctl.alloc.lifted g) || bit p.now g
    | none => false)
  let word := bitAt p.overNow 7 + bitAt dead 6 + bitAt lift 5 + bitAt (asserted != 0) 4 + bitAt (p.now != 0) 3 +
    bitAt p.split 2 + bitAt (p.contacts.any (fun c => c.2.lost)) 1 + bitAt (p.contacts.any (fun c => c.2.disc)) 0
  let gw := nsum ((List.range 8).map fun b => nth 15 r.group b * 16 ^ b)
  let s := s.publishEnd 0x3440 [.u s.clk.frame, .u word, .u r.online, .u r.ties, .u r.energised, .u gw, .u asserted]
  s.publishEnd 0x3441 ((r.c ++ r.l ++ r.r ++ r.bound ++ r.plr ++ p.power ++ p.lambda).map rv)

/-- λ and power of every group at the commands of this frame (Table 11-3). -/
def plantPower (s : State) : State :=
  let p := s.ctl.plant
  s.setPlant { p with
    power := (List.range 8).map fun g => if nth 0 p.res.c g = 0 then 0 else s.groupPower p.res g s.emitN,
    lambda := (List.range 8).map fun g => if bit p.now g then s.lambdaOf p.res g s.cmdN else 1 }

/-- Groups that hold a section of a line's mask (R288). -/
def lrGroups (s : State) (k : Nat) : List Nat :=
  let mask := s.cfgU 0x3401 (k + 1)
  (List.range 8).filter fun g => (List.range 8).any fun b => bit mask b && nth 15 s.ctl.plant.res.label b == g

/-- Assert the LR lines of the groups that changed in the previous frame, at the start of this one (R288). -/
def assertLr (s : State) (changed : Nat) : State :=
  let r := s.ctl.plant.res
  foldS s (List.range 4) fun s k =>
    let hit := (s.lrGroups k).find? fun g =>
      bit changed g && decide (nth 0 r.c g - nth 0 r.r g < s.groupPower r g s.cmdN + nth 0 r.l g)
    match hit with
    | some g =>
      if (tfind s.ctl.plant.core.lr k).isSome then s else
      let p := s.ctl.plant
      (s.setPlant { p with core := { p.core with lr := tset p.core.lr k s.clk.bound, calm := tdel p.core.calm k } }).note
        0x0A06 [k, pR (s.groupPower r g s.cmdN + nth 0 r.l g), pR (nth 0 r.c g - nth 0 r.r g)]
    | none => s

/-- Keep the release timers of the asserted lines, at the commands emitted in this frame (R288). -/
def calmLr (s : State) : State :=
  let r := s.ctl.plant.res
  foldS s (s.ctl.plant.core.lr.map (·.1)) fun s k =>
    let low := (s.lrGroups k).all fun g => decide (s.groupPower r g s.emitN + nth 0 r.l g ≤ nth 0 r.c g - nth 0 r.r g)
    let p := s.ctl.plant
    let calm := if !low then tdel p.core.calm k else if (tfind p.core.calm k).isSome then p.core.calm
      else tset p.core.calm k s.clk.bound
    s.setPlant { p with core := { p.core with calm := calm } }

/-- End the scaling of groups, on the unscaled commands of this frame (R286). -/
def endScaling (s : State) : State :=
  foldS s s.ctl.plant.core.scaled fun s (p : Nat × (Nat × Nat)) =>
    let pl := s.ctl.plant
    let fx := p.2.2
    let fresh := match s.ctl.alloc.plant with
      | some f => decide (fx < f)
      | none => false
    let seen := (pl.seen.filter fun (q : Nat × (Nat × Nat)) => q.1 == fx).map (·.2)
    let covered := !s.ctl.alloc.covers.isEmpty && seen.all fun e => s.ctl.alloc.covers.contains e
    if fx < s.clk.frame && (fresh || covered) && decide (s.lambdaOf pl.res p.1 s.cmdN = 1) then
      (s.setPlant { pl with core := { pl.core with scaled := tdel pl.core.scaled p.1 } }).note 0x0A05 [p.1]
    else s

/-- Groups whose scaling a trip or split has started and whose event 0A04h is due: λ of every change of the frame (R284). -/
def tellScaling (s : State) : State :=
  let p := s.ctl.plant
  let s := s.setPlant { p with untold := 0 }
  foldS s (bitsOf 8 p.untold) fun s g => s.note 0x0A04 [g, pR (s.lambdaOf p.res g s.cmdN)]

/-- The start of a frame: the LR lines of the groups that changed in the frame before assert (R288). -/
def plantFrame (s : State) : State :=
  let s := s.tellScaling.assertLr s.ctl.plant.changed
  s.setPlant { s.ctl.plant with changed := 0, split := false, overNow := false }

/-- What follows the commands emitted and the result of a frame: release timers, power, publication (R288, Table 11-3). -/
def plantTail (s : State) : State := s.calmLr.plantPower.publishPlant

/-- A new result; the one that stands at the end of f3 is Tiller's (R219). -/
def setResult (s : State) (res : PlantRes) : State :=
  let s := s.setPlant { s.ctl.plant with res := res }
  if s.fOff = 3 then s.setPlant { s.ctl.plant with f3 := res } else s

/-- Removals whose equipment the model reports restored, with the time at which it first did (R254, Table 10-3). -/
def plantRestored (s : State) : State :=
  let r := s.ctl.plant.res
  let ok := fun (x : Removal) =>
    if x.kind = 2 then nth 15 r.group x.num != 15 else if x.kind = 3 then bit r.online x.num else bit r.ties x.num
  let rem := s.ctl.stook.rem.map fun (x : Removal) =>
    if x.kind = 1 then x else { x with since := if ok x then (if x.since.isSome then x.since else some s.clk.bound) else none }
  { s with ctl := { s.ctl with stook := { s.ctl.stook with rem := rem } } }

/-- The frame's run. -/
def plantRun (s : State) : State :=
  let s := s.sampleAll
  let res := s.plantOf s.onlineMask s.closedMask s.sectionLoads
  let s := (s.setResult res).plantRestored
  let s := foldS s (List.range 8) fun s g =>
    if s.faultIs 0x0A0C g && (nth 15 res.group g != 15) then s.lower 0x0A0C g else s
  s.plantTail.lower 0x0A0A 0

/-! A confirmed change (R278, R283, R290). -/

/-- A group has changed in this frame: it is scaled from the next frame on (R284), and stays so where it was scaled already. A
group without a generator has no fed thruster to scale. -/
def startScaling (s : State) (g : Nat) : State :=
  let p := s.ctl.plant
  let p := { p with changed := p.changed ||| 2 ^ g }
  if !s.cfgB 0x3400 6 ∨ nth 0 p.res.c g = 0 then s.setPlant p else
  match tfind p.core.scaled g with
  | some x => s.setPlant { p with core := { p.core with scaled := tset p.core.scaled g (x.1, s.clk.frame) } }
  | none => s.setPlant { p with
      untold := p.untold ||| 2 ^ g, core := { p.core with scaled := tset p.core.scaled g (s.clk.frame, s.clk.frame) } }

/-- Sections that were energised and are so no more: section detections and dead groups (R283, Table 10-3). -/
def deadSections (s : State) (before : PlantRes) : State :=
  let now := s.ctl.plant.res
  let lost := (List.range 8).filter fun b => nth 15 before.group b != 15 && nth 15 now.group b == 15
  let s := foldS s lost fun s b => s.detect 2 b 2
  let groups := (List.range 8).filter fun g =>
    lost.any (fun b => nth 15 now.label b == g) && s.thrusters.any fun j => s.feed j < 8 && nth 15 now.label (s.feed j) == g
  foldS s groups fun s g => if s.faultIs 0x0A0C g then s else s.alarm 0x0A0C g 1 [g]

/-- A tie confirmed closed or open: a return (R290), or a split where it divides a group (R283). -/
def tieChanged (s : State) (before : PlantRes) (t : Nat) (closed : Bool) : State :=
  if closed then (s.note 0x0A03 []).lower 0x0A02 t else
  let res := s.ctl.plant.res
  let (a, b) := s.tieEnds t
  let ga := nth 15 res.label a
  let gb := nth 15 res.label b
  if nth 15 before.group a == nth 15 before.group b && nth 15 before.group a != 15 && ga != gb then
    let s := (s.alarm 0x0A02 t 1 [t, pItems [ga, gb]]).incU 0x3450 2
    let s := (s.setPlant { s.ctl.plant with split := true }).detect 4 t 2
    (s.startScaling ga).startScaling gb
  else s

/-- A generator that has left the online set trips, one that has joined it returns (R283, R290). -/
def generatorChanged (s : State) (before : PlantRes) (g : Nat) : State :=
  let res := s.ctl.plant.res
  let q := nth 15 res.label (s.genSection g)
  if bit before.online g && !bit res.online g then
    let s := (s.alarm 0x0A01 g 1 [g, s.genSection g, pR (nth 0 res.c q)]).incU 0x3450 1
    let s := s.detect 3 g 2
    if q < 8 then s.startScaling q else s
  else if !bit before.online g && bit res.online g then (s.note 0x0A03 []).lower 0x0A01 g else s

/-- A contact whose new reading has stood for the confirm count (R278). -/
def confirmDue (s : State) (k : Nat) : Bool :=
  let c := s.contact k
  s.contactsOf.contains k && k < 48 && c.cand.isSome && c.cand != some c.closed && decide (s.cfgU 0x3400 1 ≤ c.count)

/-- The confirmed state of contact `k` takes the reading that has stood (R278) with the effects of R283 and R290; event 0A04h
follows the last contact that is due in the frame. -/
def confirm (s : State) (k : Nat) : State :=
  let c := s.contact k
  match c.cand with
  | none => s
  | some x =>
    let before := s.ctl.plant.res
    let s := s.setContact k { c with closed := x }
    let s := s.setResult (s.plantOf s.onlineMask s.closedMask before.load)
    let s := if 16 ≤ k ∧ k < 24 then s.tieChanged before (k - 16) x else s.generatorChanged before (if k < 16 then k else k - 32)
    let s := s.deadSections before
    let s := if s.contactsOf.any s.confirmDue then s else s.tellScaling
    s.plantTail

/-! Descriptor writes (R275). -/

/-- Value of an object as a write would leave it. -/
def would (s : State) (i0 s0 : Nat) (v : Val) (idx sub : Nat) : Nat :=
  if i0 = idx ∧ s0 = sub then v.asNat else s.objU idx sub

/-- R275 holds of the descriptors with one object replaced. -/
def plantOk (s : State) (idx sub : Nat) (v : Val) : Bool :=
  let w := s.would idx sub v
  let on := fun b => decide (b < 8) && w (0x34A0 + b) 1 == 1
  let endsOf := fun t => (w (0x34B0 + t) 1, w (0x34B0 + t) 2)
  let used := (List.range 8).filter fun t => (endsOf t).1 != 255 && (endsOf t).2 != 255
  (List.range 16).all (fun g => w (0x3480 + g) 1 == 255 || (on (w (0x3480 + g) 1) && field (w (0x3480 + g) 4) 24 8 != 0)) &&
  (List.range 32).all (fun j => w (0x34C0 + j) 1 == 255 || on (w (0x34C0 + j) 1)) &&
  used.all (fun t => (endsOf t).1 != (endsOf t).2 && field (w (0x34B0 + t) 3) 24 8 != 0 &&
    used.all fun u => t == u || !((endsOf t == endsOf u) || (endsOf t == ((endsOf u).2, (endsOf u).1))))

def rulePlant (s : State) (_ : Path) (idx sub : Nat) (v : Val) : Verdict :=
  if s.plantOk idx sub v then .store else .refuse abValue (s.note 0x0A0B [idx, sub])

end State

/-- POWER_PLANT_MODEL_RUN (R280): in every frame of a running unit. -/
def execPowerPlantModelRun (s : State) : Out :=
  if s.up then .next s.plantRun else .next s

/-- BREAKER_STATE_CONFIRMED (R278): contact `k` (0-15 generator breakers, 16-23 ties, 32-47 ready inputs) has been read
alike in the confirm count of frames and differs from its confirmed state. -/
def execBreakerStateConfirmed (k : Nat) (s : State) : Out :=
  if s.up && s.confirmDue k then .next (s.confirm k) else .next s

/-- LR_RELEASE (R288): line k, 0-3. -/
def execLrRelease (k : Nat) (s : State) : Out :=
  let p := s.ctl.plant
  match tfind p.core.lr k, tfind p.core.calm k with
  | some t, some c =>
    if s.up && decide (t + State.ns (s.cfgR 0x3400 7) ≤ s.clk.time) && decide (c + State.ns (s.cfgR 0x3400 8) ≤ s.clk.time) then
      .next ((s.setPlant { p with core := { p.core with lr := tdel p.core.lr k, calm := tdel p.core.calm k } }).note 0x0A07 [k])
    else .next s
  | _, _ => .next s

/-- BREAKER_DISCREPANCY (R279): contact `k` has read alike at both contacts, or its binding, or load binding 48 + b of section
b, has not updated. -/
def execBreakerDiscrepancy (k : Nat) (s : State) : Out :=
  let c := s.contact k
  if !(s.up && s.contactsOf.contains k) then .next s
  else if s.contactLost k && !c.lost then
    .next ((s.setContact k { c with lost := true }).alarm 0x0A09 k 1 [(s.lostBinding k).getD 0]).publishPlant
  else if decide (s.cfgU 0x3400 1 ≤ c.alike) && !c.disc then
    .next ((s.setContact k { c with disc := true }).alarm 0x0A08 k 1 [k]).publishPlant
  else .next s

/-- POWER_PLANT_MODEL_OVERRUN (R291): the previous frame's result stands for this frame, in f3 for Tiller too. -/
def execPowerPlantModelOverrun (s : State) : Out :=
  if !s.up then .next s else
  let p := s.ctl.plant
  let l := (p.overs.filter fun f => s.clk.frame < f + 800) ++ [s.clk.frame]
  let s := (s.setPlant { p with overs := l, overNow := true }).incU 0x3450 3
  let s := (s.setResult p.res).publishPlant
  let s := s.alarm 0x0A0A 0 1 []
  .next (if 3 ≤ l.length then s.unitStop 0x0A0A else s)

/-- PLANT_DESCRIPTOR_WRITE (R275): a write of 3400h-34DFh. -/
def execPlantDescriptorWrite (p : Path) (idx sub : Nat) (b : List Byte) (s : State) : Out :=
  if s.up && decide (0x3400 ≤ idx) && decide (idx ≤ 0x34DF) then .next (s.writeWith State.rulePlant p idx sub b) else .next s

end Sys2Proof.Machine
end

