-- ==== Sys2Proof/Machine/Tiller.lean ====
section
/-! DEFINITION. Tiller: the allocation problem, its solution, projection and publication (chapter 09). Stook solves the
same problem with other removals and groups. The formulation takes thrust in kN, azimuth in degrees and power in kW as
the variables of a stage; the internal scaling is not exposed and is free (R221, log 23). -/
namespace Sys2Proof.Machine

/-- One thruster of a problem. -/
structure Thr where
  j : Nat
  d : Desc
  avail : Bool
  /-- stage 0: azimuth (unwrapped reference) and thrust -/
  az0 : Rat
  t0 : Rat
  /-- references by stage, R217 -/
  refs : List (Rat × Rat)
  /-- power group, none when never bounded -/
  group : Option Nat
  side : Option Side
  deriving DecidableEq, Repr

/-- A problem of R217 to R220. -/
structure Prob where
  thr : List Thr
  h : Nat
  /-- a terminal stage H + 1 without ramp, slew and trust rows (R236) -/
  terminal : Bool
  tau : List Rat
  bounds : List Rat
  lifted : Nat
  L : Rat
  q : List Rat
  w : List Rat
  T : Rat
  deriving DecidableEq, Repr

/-- A linear row with its bounds; none is unbounded. -/
structure Row2 where
  c : List (Nat × Rat)
  lo : Option Rat
  hi : Option Rat
  deriving DecidableEq, Repr

/-! Sectors (R215, R216). -/

/-- Used sectors: start differs from end (Table 9-1). -/
def Desc.used (d : Desc) : List (Rat × Rat) := if d.kind = 1 then d.sectors.filter fun p => p.1 != p.2 else []
/-- Is an azimuth strictly inside a sector? -/
def inSector (p : Rat × Rat) (az : Rat) : Bool :=
  let a := wrap360 (az - p.1)
  decide (0 < a) && decide (a < wrap360 (p.2 - p.1))
/-- The free arc that contains an azimuth, unwrapped about it (R215); none without sectors. An azimuth inside a sector is
taken at the nearer edge (log 29). -/
def freeArc (d : Desc) (az : Rat) : Option (Rat × Rat) :=
  match d.used with
  | [] => none
  | l =>
    let base := match l.find? (fun p => inSector p az) with
      | some p =>
        let toEnd := wrap360 (p.2 - az)
        let toStart := wrap360 (az - p.1)
        if toEnd ≤ toStart then az + toEnd else az - toStart
      | none => az
    let up := (l.map fun p => wrap360 (p.1 - base)).foldl rmin 360
    let down := (l.map fun p => wrap360 (base - p.2)).foldl rmin 360
    some (base - down, base + up)

/-- Angle still to turn through the sector of a side change to its far edge; 0 once the azimuth is nearer to the far edge from
beyond it than to the near edge (R216). -/
def sideLeft (d : Desc) (az : Rat) (sd : Side) : Rat :=
  let p := nth (0, 0) d.sectors sd.sector
  let past := wrap360 (az - p.2)
  let short := wrap360 (p.1 - az)
  if sd.cw then (if !inSector p az && decide (past < short) then 0 else wrap360 (p.2 - az))
  else if !inSector p az && decide (short < past) then 0 else wrap360 (az - p.1)

/-- The far edge of a side change, unwrapped about the azimuth. -/
def farEdge (d : Desc) (az : Rat) (sd : Side) : Rat :=
  let p := nth (0, 0) d.sectors sd.sector
  let left := sideLeft d az sd
  if sd.cw then (if left = 0 then az - wrap360 (az - p.2) else az + left)
  else if left = 0 then az + wrap360 (p.1 - az) else az - left

/-- The free arc beyond a sector that is being crossed, unwrapped about the azimuth (R216). -/
def arcBeyond (d : Desc) (az : Rat) (sd : Side) : Option (Rat × Rat) := freeArc d (farEdge d az sd)

/-- Azimuth bounds of a thruster (Table 9-3: sector, angle range). -/
def azBounds (t : Thr) : Option Rat × Option Rat :=
  match t.d.kind with
  | 1 =>
    let arc := match t.side with
      | some sd => arcBeyond t.d t.az0 sd
      | none => freeArc t.d t.az0
    match arc with
    | some a => (some a.1, some a.2)
    | none => (none, none)
  | 2 => (some t.d.fixed, some t.d.fixed)
  | 3 => (some (-t.d.range), some t.d.range)
  | 4 =>
    let c := t.az0 + wrap180 (t.d.fixed - t.az0)
    (some (c - t.d.range), some (c + t.d.range))
  | _ => (none, none)

/-- On a side change, the azimuth of stage i on the turn, until it passes the far edge (R216). -/
def turnAz (T : Rat) (t : Thr) (i : Nat) : Option Rat :=
  match t.side with
  | none => none
  | some sd =>
    let far := sideLeft t.d t.az0 sd
    let gone := t.d.slew * T * i
    if far ≤ gone then none else some (if sd.cw then t.az0 + gone else t.az0 - gone)

/-- Thrust bounds of a stage (Table 9-3): availability, crossing thrust. -/
def thrustBounds (T : Rat) (t : Thr) (i : Nat) : Rat × Rat :=
  if !t.avail then (0, 0) else
  let inside := match turnAz T t i, t.side with
    | some a, some sd => inSector (nth (0, 0) t.d.sectors sd.sector) a
    | _, _ => false
  let x := t.d.cross / 100 * t.d.tp
  if inside then (rmax (-t.d.tm) (-x), rmin t.d.tp x) else (-t.d.tm, t.d.tp)

/-- Ramp limit of a stage, kN per sample (Table 9-3). -/
def rampOf (T : Rat) (t : Thr) (i : Nat) : Rat :=
  let n := commandOf t.d (nth (0, 0) t.refs (i - 1)).2
  let top := if 0 ≤ n then t.d.tp else t.d.tm
  top * t.d.kappa * rpower (rmax (rabs n) 10 / 100) (t.d.kappa - 1) * t.d.ramp / 100 * T

/-- Table 9-4. -/
def secants : List (Rat × Rat) :=
  [(1 / 2, 0), (914214 / 1000000, -(103553 / 1000000)), (1183864 / 1000000, -(238379 / 1000000)),
   (1401924 / 1000000, -(401924 / 1000000))]
/-- Power of Table 9-4 at a thrust. -/
def secantPower (d : Desc) (t : Rat) : Rat :=
  if d.tp = 0 then d.p0 else
  d.p0 + d.pmax * (secants.map fun p => p.1 * (rabs t / d.tp) + p.2).foldl rmax 0

/-- Stage count. -/
def Prob.stages (p : Prob) : Nat := p.h + b2n p.terminal
/-- Number of the variable `v` (0 thrust, 1 azimuth, 2 power) of thruster position `a` at stage i. -/
def Prob.var (p : Prob) (i a v : Nat) : Nat := ((i - 1) * p.thr.length + a) * 3 + v
def Prob.nVars (p : Prob) : Nat := p.stages * p.thr.length * 3
/-- Thrusters by position. -/
def Prob.items (p : Prob) : List (Nat × Thr) := List.zip (List.range p.thr.length) p.thr

/-- Linearised force of a thruster at its reference: columns of thrust, azimuth and the constant, as surge, sway, yaw
(R217). -/
def linForce (t : Thr) (i : Nat) : List Rat × List Rat × List Rat :=
  let (az, tr) := nth (0, 0) t.refs (i - 1)
  let d := t.d
  let floor := d.tp / 10
  let tb := if tr < 0 then rmin tr (-floor) else rmax tr floor
  match d.kind with
  | 2 =>
    let e := eta d (if 0 ≤ tr then d.fixed else d.fixed + 180)
    (place d (e * cosd d.fixed, e * sind d.fixed), [0, 0, 0], [0, 0, 0])
  | 3 =>
    let e := eta d (if 0 ≤ tr then d.fixed else d.fixed + 180)
    let k := if tb < 0 then 0 else d.kR * Config.pi / 180
    let nx := -(sind d.fixed)
    let ny := cosd d.fixed
    let tp := rmax tb 0
    (place d (e * cosd d.fixed + k * az * nx, e * sind d.fixed + k * az * ny),
     place d (k * tp * nx, k * tp * ny), place d (-(k * tp * az * nx), -(k * tp * az * ny)))
  | _ =>
    let e := eta d (if 0 ≤ tb then az else az + 180)
    let k := e * tb * Config.pi / 180
    (place d (e * cosd az, e * sind az), place d (-(k * sind az), k * cosd az),
     place d (k * az * sind az, -(k * az * cosd az)))

/-- Squares of the objective of a stage (R218): weight, linear part, constant. A kind 03h thruster with T_max+ 0 has no t of
its own: its thrust terms are left out (log 146). -/
def objective (p : Prob) (i : Nat) : List (Rat × List (Nat × Rat) × Rat) :=
  let f := p.items.map fun a => (a.1, linForce a.2 i)
  let S := [100, 100, 100 * p.L]
  let short := (List.range 3).map fun a =>
    (vget p.q a / rsq (vget S a),
     f.flatMap (fun (x : Nat × (List Rat × List Rat × List Rat)) =>
       [(p.var i x.1 0, -(vget x.2.1 a)), (p.var i x.1 1, -(vget x.2.2.1 a))]),
     vget p.tau a - rsum (f.map fun x => vget x.2.2.2 a))
  let use := p.items.flatMap fun (a : Nat × Thr) =>
    let t := a.2
    let prev := i - 1
    let rad := Config.pi / 180
    let dt := if prev = 0 then ([(p.var i a.1 0, 1 / t.d.tp)], -(t.t0 / t.d.tp))
      else ([(p.var i a.1 0, 1 / t.d.tp), (p.var prev a.1 0, -(1 / t.d.tp))], 0)
    let da := if prev = 0 then ([(p.var i a.1 1, rad)], -(t.az0 * rad))
      else ([(p.var i a.1 1, rad), (p.var prev a.1 1, -rad)], 0)
    let slew := (t.d.mult * vget p.w 1, da.1, da.2)
    if t.d.tp = 0 then [slew] else
    [(t.d.mult * vget p.w 0, [(p.var i a.1 0, 1 / t.d.tp)], 0), slew, (t.d.mult * vget p.w 2, dt.1, dt.2)]
  short ++ use

/-- Rows of a stage (Table 9-3), always the same number for a thruster: thrust, ramp, slew, trust region, sector or
range, power eight times; then a row for each power group. -/
def stageRows (p : Prob) (i : Nat) : List Row2 :=
  let term := decide (p.h < i)
  let each := p.items.flatMap fun (a : Nat × Thr) =>
    let t := a.2
    let v := fun k => p.var i a.1 k
    let (tlo, thi) := thrustBounds p.T t i
    let r := rampOf p.T t i
    let free := term || !t.avail
    let lift := match t.group with
      | some g => bit p.lifted g
      | none => false
    let down := lift && decide (0 ≤ t.t0)
    let upf := lift && decide (t.t0 < 0)
    let ramp : Row2 :=
      if i = 1 then ⟨[(v 0, 1)], if free || down then none else some (t.t0 - r), if free || upf then none else some (t.t0 + r)⟩
      else ⟨[(v 0, 1), (p.var (i - 1) a.1 0, -1)], if free || down then none else some (-r), if free || upf then none else some r⟩
    let w := t.d.slew * p.T
    let slew : Row2 :=
      if i = 1 then ⟨[(v 1, 1)], if term then none else some (t.az0 - w), if term then none else some (t.az0 + w)⟩
      else ⟨[(v 1, 1), (p.var (i - 1) a.1 1, -1)], if term then none else some (-w), if term then none else some w⟩
    let ref := (nth (0, 0) t.refs (i - 1)).1
    let tunnel := t.d.kind == 2
    let near := term || tunnel || t.d.kind == 3
    let trust : Row2 := ⟨[(v 1, 1)], if near then none else some (ref - 15), if near then none else some (ref + 15)⟩
    let (alo, ahi) := if !t.avail then (some t.az0, some t.az0) else match turnAz p.T t i with
      | some x => (some x, some x)
      | none => azBounds t
    let arc : Row2 := ⟨[(v 1, 1)], alo, ahi⟩
    let slewed := if tunnel then { slew with lo := none, hi := none } else slew
    let power := secants.flatMap fun (k : Rat × Rat) => [1, -1].map fun (sg : Rat) =>
      if t.d.tp = 0 then (⟨[(v 2, 1)], some t.d.p0, none⟩ : Row2)
      else ⟨[(v 2, 1), (v 0, -(sg * t.d.pmax * k.1 / t.d.tp))], some (if t.avail then t.d.p0 + t.d.pmax * k.2 else 0), none⟩
    [⟨[(v 0, 1)], some tlo, some thi⟩, ramp, slewed, trust, arc] ++ power
  let groups := (List.range 8).map fun g =>
    (⟨(p.items.filter fun a => a.2.avail && a.2.group == some g).map fun a => (p.var i a.1 2, 1), none,
      some (nth 0 p.bounds g)⟩ : Row2)
  each ++ groups

def Prob.rows (p : Prob) : List Row2 := (List.range p.stages).flatMap fun i => stageRows p (i + 1)

/-! The problem in the solver's form, and ADMM (R221). -/

/-- A problem as the solver takes it: P, q, A, l, u. -/
structure Qp where
  pm : Mat
  qv : Vec
  a : Mat
  l : List (Option Rat)
  u : List (Option Rat)

def dense (n : Nat) (l : List (Nat × Rat)) : Vec :=
  (List.range n).map fun i => rsum ((l.filter fun p => p.1 == i).map (·.2))

/-- Build P, q, A, l, u in the internal scaling. -/
def buildQp (p : Prob) : Qp :=
  let n := p.nVars
  let sq := ((List.range p.stages).flatMap fun i => objective p (i + 1)).map fun o => (o.1, dense n o.2.1, o.2.2)
  let vs := fun i => Config.varScale i
  let pm := mkMat n n fun i j => vs i * vs j * rsum (sq.map fun o => 2 * o.1 * vget o.2.1 i * vget o.2.1 j)
  let qv := (List.range n).map fun i => vs i * rsum (sq.map fun o => 2 * o.1 * o.2.2 * vget o.2.1 i)
  let rows := List.zip (List.range p.rows.length) p.rows
  { pm := pm, qv := qv,
    a := rows.map fun r => (List.range n).map fun i => Config.rowScale r.1 * vs i * vget (dense n r.2.c) i,
    l := rows.map fun r => r.2.lo.map (Config.rowScale r.1 * ·),
    u := rows.map fun r => r.2.hi.map (Config.rowScale r.1 * ·) }

/-- Iterate of the solver. -/
structure Iter where
  x : Vec
  z : Vec
  y : Vec
  deriving DecidableEq, Repr

def clipTo (lo hi : Option Rat) (v : Rat) : Rat :=
  let v := match lo with
    | some l => rmax l v
    | none => v
  match hi with
  | some h => rmin h v
  | none => v

def maxAbs (v : Vec) : Rat := (v.map rabs).foldl rmax 0

/-- One iteration of R221 with the matrix k. -/
def admmStep (qp : Qp) (k : Mat) (rho alpha : Rat) (it : Iter) : Option Iter :=
  let at' := transpose qp.a
  let rhs := vsub (vscale (1 / 1000000) it.x) qp.qv
  let rhs := vadd rhs (mvec at' (vsub (vscale rho it.z) it.y))
  match solveSpd k rhs with
  | none => none
  | some xt =>
    let zr := vadd (vscale alpha (mvec qp.a xt)) (vscale (1 - alpha) it.z)
    let x := vadd (vscale alpha xt) (vscale (1 - alpha) it.x)
    let raw := vadd zr (vscale (1 / rho) it.y)
    let z := List.zipWith (fun (b : Option Rat × Option Rat) v => clipTo b.1 b.2 v) (List.zip qp.l qp.u) raw
    some ⟨x, z, vadd it.y (vscale rho (vsub zr z))⟩

/-- Residuals and merit (R221). -/
def residuals (qp : Qp) (ep ed : Rat) (it : Iter) : Rat × Rat × Rat :=
  let rp := maxAbs (vsub (mvec qp.a it.x) it.z)
  let rd := maxAbs (vadd (vadd (mvec qp.pm it.x) qp.qv) (mvec (transpose qp.a) it.y))
  (rp, rd, rmax (rp / ep) (rd / ed))

/-- State of the 64 iterations: the iterate, the kept one with its residuals, merits at 8 and 64. -/
structure Run where
  it : Iter
  kept : Option (Iter × Nat × Rat × Rat × Rat)
  m8 : Rat
  m64 : Rat

/-- `fuel` iterations from iteration number `n` on. -/
def admmRun (qp : Qp) (k : Mat) (rho alpha ep ed : Rat) : Nat → Nat → Run → Option Run
  | 0, _, r => some r
  | fuel + 1, n, r =>
    match admmStep qp k rho alpha r.it with
    | none => none
    | some it =>
      let r := if n % 8 ≠ 0 then { r with it := it } else
        let (rp, rd, m) := residuals qp ep ed it
        let better := match r.kept with
          | some (_, _, _, _, m0) => decide (m < m0)
          | none => true
        { it := it, kept := if better then some (it, n, rp, rd, m) else r.kept,
          m8 := if n = 8 then m else r.m8, m64 := m }
      admmRun qp k rho alpha ep ed fuel (n + 1) r

/-- The solve (R221, R227): the kept iterate with its number, residuals and merit; or a numeric fault 1 pivot or
3 divergence. -/
def admm (qp : Qp) (rho alpha ep ed : Rat) (start : Iter) : Except Nat (Iter × Nat × Rat × Rat × Rat) :=
  let n := qp.qv.length
  let k := madd (madd qp.pm (mscale (1 / 1000000) (ident n))) (mscale rho (mmul (transpose qp.a) qp.a))
  match admmRun qp k rho alpha ep ed 64 1 ⟨start, none, 0, 0⟩ with
  | none => .error 1
  | some r =>
    if 1000000 * r.m8 < r.m64 then .error 3 else
    match r.kept with
    | some x => .ok x
    | none => .error 3

/-- Unscaled plan of an iterate: by thruster its stages. -/
def planOf (p : Prob) (x : Vec) : List (Nat × List (Rat × Rat)) :=
  p.items.map fun a => (a.2.j, (List.range p.stages).map fun i =>
    let v := fun k => p.var (i + 1) a.1 k
    (Config.varScale (v 1) * vget x (v 1), Config.varScale (v 0) * vget x (v 0)))

/-- Scaled x of a plan by stages (R222 cold start, R444): power at the plan's thrust. -/
def xOfPlan (p : Prob) (plan : Nat → Nat → Rat × Rat) : Vec :=
  (List.range p.stages).flatMap fun i => p.thr.flatMap fun t =>
    let (az, tt) := plan t.j (i + 1)
    let base := i * p.thr.length * 3
    let a := (p.thr.takeWhile fun u => u.j != t.j).length
    [tt / Config.varScale (base + 3 * a), az / Config.varScale (base + 3 * a + 1),
     secantPower t.d tt / Config.varScale (base + 3 * a + 2)]

/-- Blocks of stages `from'` onward of a vector of `old` stages, as a vector of `new` stages, the last repeated: from 1 the
vector moved one stage earlier (R222), from 0 the vector itself (R230). -/
def takeStages (block old new from' : Nat) (v : Vec) : Vec :=
  (List.range new).flatMap fun i => (v.drop (block * min (i + from') (old - 1))).take block

/-- Stage i of a plan, its last stage repeated. -/
def planStage (plan : List (Rat × Rat)) (i : Nat) : Option (Rat × Rat) :=
  if plan.isEmpty then none else some (nth (0, 0) plan (min (i - 1) (plan.length - 1)))

namespace State

/-- Available (R213). -/
def available (s : State) (j : Nat) : Bool :=
  s.ready j && (s.desc j).enable && s.fedIn s.ctl.plant.f3 j && !s.ctl.stook.rem.any fun r => r.kind == 1 && r.num == j
def availMask (s : State) : Nat := ofBits (s.thrusters.filter s.available)

/-- Force that the present commands deliver (R229). -/
def presentForce (s : State) : List Rat := sum3 (s.thrusters.map s.commandedForce)

/-- Demand of the epoch (R218, R229). -/
def demand (s : State) : List Rat :=
  if 2 ≤ s.mode.mode ∧ s.mode.mode ≤ 5 then s.ctl.culm.tau else s.presentForce

/-- Priority weights q by axis (R218): 10^6, 10^4, 10^2 in the order of 2E00h:02h. -/
def priority (s : State) : List Rat :=
  let w := s.cfgU 0x2E00 2
  axes3 fun a => if w % 4 = a then 1000000 else if w / 4 % 4 = a then 10000 else 100

/-- A thruster of the problem with references from a plan (R217): stage i takes stage i + `off` of the plan. -/
def problemThr (s : State) (avail : Nat) (r : PlantRes) (plan : List (Nat × List (Rat × Rat))) (off stages : Nat)
    (sides : List (Nat × Side)) (j : Nat) : Thr :=
  let d := s.desc j
  let c := (s.inner j).core
  let t0 := thrustOf d (s.inner j).emitN
  let az0 := if d.kind = 2 then d.fixed else c.az
  let old := tget [] plan j
  let refs := (List.range stages).map fun i =>
    match planStage old (i + 1 + off) with
    | some (a, t) => (if d.kind = 3 then a else az0 + wrap180 (a - az0), t)
    | none => (az0, t0)
  { j := j, d := d, avail := bit avail j, az0 := az0, t0 := t0, refs := refs,
    group := s.thrGroup r j, side := tfind sides j }

/-- What gives way (R220): the bounds raised to the idle sums, and the groups whose ramp-down limit is lifted. -/
def giveWay (p : Prob) : Prob × Nat × Nat :=
  let members := fun g => p.thr.filter fun t => t.avail && t.group == some g
  let idle := fun g => rsum ((members g).map fun t => t.d.p0)
  let short := ofBits ((List.range 8).filter fun g => !(members g).isEmpty && decide (nth 0 p.bounds g < idle g))
  let bounds := (List.range 8).map fun g => if bit short g then idle g else nth 0 p.bounds g
  let least := fun (t : Thr) =>
    let r := rampOf p.T t 1
    secantPower t.d (rmax 0 (rabs t.t0 - r))
  let lifted := ofBits ((List.range 8).filter fun g =>
    !(members g).isEmpty && decide (nth 0 bounds g < rsum ((members g).map least)))
  ({ p with bounds := bounds, lifted := lifted }, lifted, short)

/-- Problem of this sample over a plant result (R217-R220). -/
def problem (s : State) (avail : Nat) (r : PlantRes) (h : Nat) (terminal : Bool)
    (plan : List (Nat × List (Rat × Rat))) (off : Nat) : Prob :=
  { thr := s.thrusters.map (s.problemThr avail r plan off (h + b2n terminal) s.ctl.till.core.side), h := h,
    terminal := terminal, tau := s.demand, bounds := r.bound, lifted := 0, L := s.cfgR 0x2A00 9, q := s.priority,
    w := [s.cfgR 0x2E00 3, s.cfgR 0x2E00 4, s.cfgR 0x2E00 5], T := s.T }

def solve (s : State) (p : Prob) (start : Qp → Iter) : Except Nat (Iter × Nat × Rat × Rat × Rat) :=
  let qp := buildQp p
  admm qp (s.cfgR 0x2E02 1) (s.cfgR 0x2E02 2) (s.cfgR 0x2E02 3) (s.cfgR 0x2E02 4) (start qp)

/-- Cold start (R222). -/
def coldIter (p : Prob) (qp : Qp) : Iter :=
  let x := xOfPlan p fun j _ => match p.thr.find? (fun t => t.j == j) with
    | some t => (t.az0, t.t0)
    | none => (0, 0)
  ⟨x, mvec qp.a x, zeroVec qp.a.length⟩

/-- Iterate from a plan alone, its azimuths unwrapped about stage 0 (R444). -/
def planIter (p : Prob) (plan : List (Nat × List (Rat × Rat))) (qp : Qp) : Iter :=
  let x := xOfPlan p fun j i =>
    let q := (planStage (tget [] plan j) i).getD (0, 0)
    match p.thr.find? (fun t => t.j == j) with
    | some t => (if t.d.kind = 3 then q.1 else t.az0 + wrap180 (q.1 - t.az0), q.2)
    | none => q
  ⟨x, mvec qp.a x, zeroVec qp.a.length⟩

/-- An iterate of another solve as a warm start, with the azimuths of each thruster turned by whole turns into the frame of
this problem's stage 0: `plan` gives the azimuth of the stage that becomes stage 1 (R222, R230). -/
def warmIter (p : Prob) (plan : List (Nat × List (Rat × Rat))) (old from' : Nat) (it : Iter) (qp : Qp) : Iter :=
  let n := p.stages
  let vb := p.thr.length * 3
  let rb := qp.a.length / n
  let turn := fun (t : Thr) => match planStage (tget [] plan t.j) (1 + from') with
    | some q => if t.d.kind = 3 then 0 else t.az0 + wrap180 (q.1 - t.az0) - q.1
    | none => 0
  let d := (List.range n).flatMap fun i => p.items.flatMap fun a =>
    [0, turn a.2 / Config.varScale (p.var (i + 1) a.1 1), 0]
  ⟨vadd (takeStages vb old n from' it.x) d, vadd (takeStages rb old n from' it.z) (mvec qp.a d), takeStages rb old n from' it.y⟩

def setTill (s : State) (t : Tiller) : State := { s with ctl := { s.ctl with till := t } }

/-! Side changes (R216). -/

/-- Samples of a dwell. -/
def dwellSamples (s : State) : Nat := (roundAway (s.cfgR 0x2E00 0x0A / s.T)).toNat

/-- At f4: end the side changes whose azimuth has reached the free arc beyond, start those whose dwell is complete. -/
def sideChanges (s : State) : State :=
  foldS s s.thrusters fun s j =>
    let t := s.ctl.till
    let c := t.core
    let d := s.desc j
    let az := (s.inner j).core.az
    let left := tget 0 c.block j
    let c := { c with block := if left = 0 then tdel c.block j else tset c.block j (left - 1) }
    match tfind c.side j with
    | some sd =>
      if sideLeft d az sd = 0 && (match arcBeyond d az sd with
          | some a => decide (a.1 ≤ az) && decide (az ≤ a.2)
          | none => true) then
        s.setTill { t with core := { c with side := tdel c.side j, block := tset c.block j s.dwellSamples, dwell := tdel c.dwell j } }
      else s.setTill { t with core := c }
    | none =>
      match tfind c.dwell j with
      | some (edge, n) =>
        if left = 0 ∧ s.dwellSamples ≤ n ∧ d.kind = 1 then
          let sd : Side := { sector := edge / 2, cw := edge % 2 == 0 }
          (s.setTill { t with core := { c with side := tset c.side j sd, dwell := tdel c.dwell j } }).note 0x070A [j, edge / 2]
        else s.setTill { t with core := c }
      | none => s.setTill { t with core := c }

/-- Count the samples whose stage-1 azimuth stands within 0.5° of a sector edge with that bound active: the azimuth bound
itself is met by the projected stage 1 (R216, log 30). Edge 2k is the start of sector k, met from its lower side. -/
def countDwell (s : State) (pts : List (Nat × Point)) : State :=
  foldS s s.thrusters fun s j =>
    let t := s.ctl.till
    let d := s.desc j
    let az := (tget {} pts j : Point).az
    let at' := (List.range 8).find? fun e =>
      let p := nth (0, 0) d.sectors (e / 2)
      d.used.contains p && decide (rabs (wrap180 (az - (if e % 2 = 0 then p.1 else p.2))) ≤ 1 / 2) &&
        (match freeArc d (s.inner j).core.az with
          | some a => decide (az = wrap360 (if e % 2 = 0 then a.2 else a.1))
          | none => false)
    let dw := match at', tfind t.core.dwell j with
      | some e, some (e', n) => if e = e' then tset t.core.dwell j (e, n + 1) else tset t.core.dwell j (e, 1)
      | some e, none => tset t.core.dwell j (e, 1)
      | none, _ => tdel t.core.dwell j
    s.setTill { t with core := { t.core with dwell := dw } }

/-! The nominal solve (R221, R222, R227, R230). -/

/-- Thrusters whose availability changed: event 070Ch. -/
def noteAvail (s : State) (now : Nat) : State :=
  foldS s s.thrusters fun s j =>
    if bit now j != bit s.ctl.till.avail j then s.note 0x070C [j, b2n (bit now j)] else s

/-- Discard a solve with a numeric fault (R227): F2, counter, event 0706h. The handover to Stubble follows in Drive.lean. -/
def tillerFault (s : State) (kind lane : Nat) : State :=
  let t := s.ctl.till
  let s := (s.incU 0x2E50 5).alarm 0x0706 0 2 [kind, lane]
  s.setTill { t with sol := none, fault := true, core := { t.core with cold := some 3 } }

/-- The solve; none of its results are applied yet. `forced` is a numeric fault that the lanes report: kind, lane. -/
def tillerSolve (s : State) (forced : Option (Nat × Nat)) : State :=
  let s := s.sideChanges
  let now := s.availMask
  let s := s.noteAvail now
  let t := s.ctl.till
  let h := s.cfgU 0x2E00 1
  let gap := match t.solved with
    | some k => decide (1 < (s.clk.sample + 2 ^ 32 - k) % 2 ^ 32 - 1)
    | none => true
  let cause := match t.core.cold with
    | some c => some c
    | none => if gap then some 4 else none
  let case := t.promoted.bind fun _ => t.start
  let plan := match case with
    | some c => c.plan
    | none => t.core.plan
  let p0 := s.problem now s.ctl.plant.f3 h false plan (if case.isSome then 0 else 1)
  let (p, lifted, short) := giveWay p0
  let cold := cause.isSome && case.isNone
  let start := fun (qp : Qp) =>
    match case with
    | some c => match c.sol with
      | some (x, z, y) =>
        if x.length = (c.stages + 1) * p.thr.length * 3 ∧ 0 < c.stages then warmIter p c.plan c.stages 0 ⟨x, z, y⟩ qp
        else planIter p c.plan qp
      | none => planIter p c.plan qp
    | none =>
      if cold ∨ t.core.x.length ≠ p.nVars ∨ t.core.z.length ≠ qp.a.length then coldIter p qp
      else warmIter p t.core.plan p.stages 1 ⟨t.core.x, t.core.z, t.core.y⟩ qp
  let s := match cause with
    | some c => if cold then s.note 0x070D [Config.reason 0x070D c] else s
    | none => s
  let s := foldS s (bitsOf 8 lifted) fun s g => s.note 0x0709 [g, pR 1, 16]
  let s := foldS s (bitsOf 8 short) fun s g => s.note 0x0709 [g, pR 1, 17]
  let failed := fun (k lane : Nat) =>
    (s.setTill { s.ctl.till with avail := now, solved := some s.clk.sample, cold := cold }).tillerFault k lane
  match forced, s.solve p start with
  | some f, _ => failed f.1 f.2
  | none, .error k => failed k 0
  | none, .ok (it, n, rp, rd, m) =>
    let pl := planOf p it.x
    let sol : Solve := {
      sample := s.clk.sample, plan := pl, rp := rp, rd := rd, merit := m, it := n, cold := cold,
      promoted := case.isSome, lifted := lifted, short := short, bounds := p.bounds,
      groups := (List.range 32).map fun j => (s.thrGroup s.ctl.plant.f3 j).getD 15, avail := now, tau := p.tau,
      stage0 := p.thr.map fun q => (q.j, (q.az0, q.t0)), refs := p.thr.map fun q => (q.j, nth (0, 0) q.refs 0), plant := s.ctl.plant.f3.frame }
    s.setTill { s.ctl.till with
      sol := some sol, avail := now, solved := some s.clk.sample, cold := cold, fault := false,
      core := { s.ctl.till.core with x := it.x, z := it.z, y := it.y, plan := pl, cold := none } }

/-! Publication (R223, R224, R226). -/

/-- Stage `k` of a plan as a point, projected into its stage bounds (R223 step 1). -/
def projectPoint (s : State) (lifted avail : Nat) (grp : Option Nat) (stage0 ref : Rat × Rat)
    (sides : List (Nat × Side)) (j : Nat) (az t : Rat) : Rat × Rat :=
  let d := s.desc j
  let thr : Thr := { j := j, d := d, avail := bit avail j, az0 := stage0.1, t0 := stage0.2, refs := [ref],
                     group := grp, side := tfind sides j }
  let (lo, hi) := thrustBounds s.T thr 1
  let r := rampOf s.T thr 1
  let lift := match thr.group with
    | some g => bit lifted g
    | none => false
  let rl := if lift && decide (0 ≤ stage0.2) then none else some (stage0.2 - r)
  let rh := if lift && decide (stage0.2 < 0) then none else some (stage0.2 + r)
  let t := if !thr.avail then 0 else rclamp lo hi (clipTo rl rh t)
  let w := d.slew * s.T
  let az := if !thr.avail then stage0.1 else match turnAz s.T thr 1 with
    | some x => x
    | none =>
      let b := azBounds thr
      if d.kind = 2 then d.fixed else clipTo b.1 b.2 (rclamp (stage0.1 - w) (stage0.1 + w) az)
  (az, t)

/-- λ of R223 step 2 for a group at thrusts. -/
def clipLambda (s : State) (members : List Nat) (bound : Rat) (t : Nat → Rat) : Rat :=
  let p0 := rsum (members.map fun j => (s.desc j).p0)
  let p := rsum (members.map fun j => powerOf (s.desc j) (t j))
  if p ≤ bound ∨ p ≤ p0 then 1
  else if bound ≤ p0 then 0 else rpower ((bound - p0) / (p - p0)) (2 / 3)

/-- Stage 1 of a plan as an allocation (R223): points and the groups clipped with their λ. -/
def formStage (s : State) (plan : List (Nat × List (Rat × Rat))) (k lifted avail : Nat) (bounds : List Rat)
    (groups : List Nat) (stage0 refs : List (Nat × (Rat × Rat))) (sides : List (Nat × Side)) :
    List (Nat × Point) × List (Nat × Rat) :=
  let raw := plan.map fun (q : Nat × List (Rat × Rat)) =>
    let st := (planStage q.2 k).getD (0, 0)
    let grp := if s.feed q.1 = 255 then none else some (nth 15 groups q.1)
    (q.1, s.projectPoint lifted avail grp (tget (0, 0) stage0 q.1) (tget (0, 0) refs q.1) sides q.1 st.1 st.2)
  let tOf := fun j => (tget (0, 0) raw j : Rat × Rat).2
  let lam := (List.range 8).filterMap fun g =>
    let mem := (raw.map (·.1)).filter fun j => bit avail j && nth 15 groups j == g && s.feed j != 255
    if mem.isEmpty then none else
    let l := s.clipLambda mem (nth 0 bounds g) tOf
    if l = 1 then none else some (g, l)
  let pts := raw.map fun (q : Nat × (Rat × Rat)) =>
    let j := q.1
    let l := if s.feed j = 255 then 1 else tget 1 lam (nth 15 groups j)
    let t := if bit avail j then q.2.2 * l else q.2.2
    let da := q.2.1 - (tget (0, 0) stage0 j : Rat × Rat).1
    let turn := if 1 / 1000 ≤ da then 1 else if da ≤ -(1 / 1000) then 2 else 0
    let d := s.desc j
    (j, ({ az := if d.kind = 3 then q.2.1 else wrap360 q.2.1, t := t, n := commandOf d t,
           turn := if d.kind = 2 then 0 else turn } : Point))
  (pts, lam)

/-- Delivered force of points (R224). -/
def deliveredBy (s : State) (pts : List (Nat × Point)) : List Rat :=
  sum3 (pts.map fun (q : Nat × Point) => place (s.desc q.1) (forceOf (s.desc q.1) q.2.az q.2.t))

/-- Saturated axes of a shortfall (R224). -/
def saturated (s : State) (tau short : List Rat) : Nat :=
  ofBits ((List.range 3).filter fun a =>
    let fl := if a = 2 then s.cfgR 0x2E00 8 else s.cfgR 0x2E00 7
    decide (s.cfgR 0x2E00 9 * rabs (vget tau a) < rabs (vget short a)) && decide (fl < rabs (vget short a)))

/-- Not applied in this sample (R229, R231). -/
def notApplied (s : State) : Bool :=
  !(2 ≤ s.mode.mode && s.mode.mode ≤ 5) || s.ctl.stub.core.driving

/-- Publish Tables 9-8 and 9-9; the powers are the modelled ones of Table 9-4, as the example of chapter 09 gives them. -/
def publishTiller (s : State) (sol : Solve) (pts : List (Nat × Point)) (lam : List (Nat × Rat)) (del short : List Rat)
    (sat : Nat) : State :=
  let pt := fun j => (tget {} pts j : Point)
  let all := List.range 32
  let power := fun j => if s.cfgU (0x2E80 + j) 1 = 0 ∨ !bit sol.avail j then 0 else secantPower (s.desc j) (pt j).t
  let groupP := fun g => rsum (((pts.map (·.1)).filter fun j => s.feed j != 255 && nth 15 sol.groups j == g).map power)
  let live := (List.range 8).filter fun g => sol.groups.contains g
  let margins := live.map fun g => nth 0 sol.bounds g - groupP g
  let margin := match margins with
    | [] => 0
    | m :: t => t.foldl rmin m
  let near := live.any fun g => decide (99 / 100 * nth 0 sol.bounds g ≤ groupP g) && decide (0 < nth 0 sol.bounds g)
  let neg := ofBits ((List.range 3).filter fun a => decide (vget short a < 0))
  let word := bitAt (sol.short != 0) 17 + bitAt (sol.lifted != 0) 16 + bitAt (decide (1 < sol.merit)) 13 +
    bitAt sol.cold 12 + bitAt (!lam.isEmpty) 11 + bitAt (!s.ctl.till.core.side.isEmpty) 10 + bitAt sol.promoted 9 +
    bitAt s.notApplied 8 + bitAt near 7 + neg * 8 + sat
  let turns := nsum (all.map fun j => (pt j).turn * 4 ^ j)
  let s := s.publishEnd 0x2E40 (all.map (fun j => rv (pt j).az) ++ all.map (fun j => rv (pt j).n) ++
    all.map (fun j => rv (pt j).t) ++ [.u turns])
  let s := s.publishEnd 0x2E41 ((sol.tau ++ del ++ short).map rv ++ [.u word, rv (rsum ((pts.map (·.1)).map power)), rv margin])
  let n := s.thrusters.length
  let s := s.publishEnd 0x2E42 [rv sol.rp, rv sol.rd, rv sol.merit, .u sol.it,
    rv (24 + 784 / 1000 * (n * s.cfgU 0x2E00 1 : Nat)), rv ((lam.map (·.2)).foldl rmin 1)]
  let s := s.probe 3 0 (24 + 784 / 1000 * (n * s.cfgU 0x2E00 1 : Nat))
  let ins := tget [] sol.plan (s.cfgU 0x2E10 0)
  let h := s.cfgU 0x2E00 1
  let col := fun (f : Rat × Rat → Rat) => (List.range 20).map fun i => rv (if i < h then f (nth (0, 0) ins i) else 0)
  s.publishEnd 0x2E43 (col (fun p => wrap360 p.1) ++ col (·.2))

/-- The work at the end of f7. -/
def tillerPublish (s : State) : State :=
  match s.ctl.till.sol with
  | none => s
  | some sol =>
    let t := s.ctl.till
    let (pts, lam) := s.formStage sol.plan 1 sol.lifted sol.avail sol.bounds sol.groups sol.stage0 sol.refs t.core.side
    let del := s.deliveredBy pts
    let short := vsub sol.tau del
    let sat := s.saturated sol.tau short
    let s := foldS s lam fun s q => s.note 0x0709 [q.1, pR q.2, 11]
    let s := if lam.isEmpty then s else s.incU 0x2E50 6
    let s := if sat ≠ 0 ∧ t.sat = 0 then s.note 0x0707 ([sat] ++ short.map pR)
      else if sat = 0 ∧ t.sat ≠ 0 then s.note 0x0708 [] else s
    let ok := decide (sol.merit ≤ 1)
    let s := if ok then (if t.conv then s else (s.note 0x0705 []).lower 0x0704 0)
      else (if t.conv then s.alarm 0x0704 0 1 [pR sol.merit] else s).incU 0x2E50 4
    let s := s.publishTiller sol pts lam del short sat
    let s := s.countDwell pts
    let alloc : Alloc := { pts := pts, sample := s.clk.sample, lifted := sol.lifted, plant := some sol.plant, any := true }
    let neg := ofBits ((List.range 3).filter fun a => decide (vget short a < 0))
    let recent := t.overs.filter fun x => (s.clk.sample + 2 ^ 32 - x) % 2 ^ 32 < 100
    let s := s.setTill { s.ctl.till with
      sol := none, last := some sol, out := some alloc, delivered := del, sat := sat, satSign := neg,
      clip := !lam.isEmpty, held := false, conv := ok, promoted := none }
    ((s.putU 0x2E50 2 0).putU 0x2E50 3 recent.length).lower 0x0701 0

/-- R214 for a thruster's descriptor with one object replaced. -/
def thrusterOk (s : State) (j idx sub : Nat) (v : Val) : Bool :=
  let r := fun i k => if idx = i ∧ sub = k then v.asRat else s.objR i k
  let kind := s.would idx sub v (0x2E80 + j) 1
  let secs := (List.range 4).map fun i => (r (0x2EA0 + j) (2 * i + 1), r (0x2EA0 + j) (2 * i + 2))
  let used := secs.filter fun p => p.1 != p.2
  let len := fun (p : Rat × Rat) => wrap360 (p.2 - p.1)
  let gaps := used.all fun p =>
    let others := used.filter (· != p)
    let next := (others.map fun q => wrap360 (q.1 - p.1)).foldl rmin 360
    decide (len p ≤ next) && decide (5 ≤ next - len p)
  let twice := used.length != used.eraseDups.length
  !(kind != 1 && !used.isEmpty) && !twice && gaps && !((kind == 1 || kind == 2 || kind == 4) && r (0x2E80 + j) 4 == 0)

def ruleThruster (s : State) (_ : Path) (idx sub : Nat) (v : Val) : Verdict :=
  let j := (idx - 0x2E80) % 32
  let lossOk := (f32s v.asBytes).all fun x => decide (0 ≤ x) && decide (x ≤ 1)
  if 0x2EC0 ≤ idx then
    (if lossOk && (List.range 36).all (fun i => F32.finite (BitVec.ofNat 32 (leAt v.asBytes (4 * i) 4))) then .store
     else .refuse abValue (s.note 0x070B [j, sub]))
  else if s.thrusterOk j idx sub v then .store else .refuse abValue (s.note 0x070B [j, sub])

end State

/-- TILLER_PUBLISH (R223): at f7 of a running unit, from the solve of this sample. -/
def execTillerPublish (s : State) : Out :=
  if s.up && s.fOff == 7 then .next s.tillerPublish else .next s

/-- THRUSTER_DESCRIPTOR_WRITE (R214): a write of 2E80h-2EDFh. -/
def execThrusterDescriptorWrite (p : Path) (idx sub : Nat) (b : List Byte) (s : State) : Out :=
  if s.up && decide (0x2E80 ≤ idx) && decide (idx ≤ 0x2EDF) then .next (s.writeWith State.ruleThruster p idx sub b) else .next s

end Sys2Proof.Machine
end

