-- ==== Sys2Proof/Machine/Stubble.lean ====
section
/-! DEFINITION. Stubble: fixed-point law, matrix allocation, coefficient sets, loss (chapter 10, R255-R260, R273, R274). -/
namespace Sys2Proof.Machine

/-! Fixed point (R256). -/

def maxI32 : Int := 2147483647
/-- Saturate to I32. -/
def satI32 (z : Int) : Int := if z < -maxI32 - 1 then -maxI32 - 1 else if maxI32 < z then maxI32 else z
/-- An I32 was saturated. -/
def cutI32 (z : Int) : Bool := decide (z < -maxI32 - 1) || decide (maxI32 < z)
/-- A coefficient: c and its shift. -/
abbrev Coef := Int × Nat
/-- A product before saturation: shifted right and rounded to nearest, ties away from zero (R256). -/
def prodI (k : Coef) (x : Int) : Int := roundAway (((k.1 * x : Int) : Rat) / ((2 ^ k.2 : Nat) : Rat))
/-- An F32 in internal units of 2^-k (Table 10-5). -/
def inUnits (k : Nat) (x : Rat) : Int := roundAway (x * ((2 ^ k : Nat) : Rat))
/-- Fraction bits of the force unit of an axis: 2^-8 kN, yaw 2^-4 kN·m (Table 10-5). -/
def forceBits (a : Nat) : Nat := if a = 2 then 4 else 8

/-! Coefficient sets (R273, Table 10-8). -/

/-- A law record. -/
structure StubLaw where
  n : Nat
  /-- K_p, K_i T, K_d, k_w, k_b, each surge, sway, yaw -/
  k : List Coef
  imax : List Int
  tmax : List Int
  deriving DecidableEq, Repr

/-- A matrix record. -/
structure StubMat where
  num : Nat
  mask : Nat
  w : List Coef
  deriving DecidableEq, Repr

/-- The records of a set in their order. -/
inductive StubRec where
  | law (l : StubLaw)
  | mat (m : StubMat)
  deriving DecidableEq, Repr

def coefAt (b : List Byte) (at' : Nat) : Coef := (toSigned 32 (leAt b at' 4), leAt b (at' + 4) 1)
def coefs (b : List Byte) (at' n : Nat) : List Coef := (List.range n).map fun i => coefAt b (at' + 8 * i)
def i32s (b : List Byte) (at' : Nat) : List Int := (List.range 3).map fun i => toSigned 32 (leAt b (at' + 4 * i) 4)
/-- The 3 zero bytes of every entry. -/
def coefPad (b : List Byte) (at' n : Nat) : Bool := (List.range n).all fun i => leAt b (at' + 8 * i + 5) 3 == 0

def stubRecords : Nat → List Byte → Option (List StubRec)
  | 0, b => if b = [] then some [] else none
  | n + 1, b =>
    if b = [] then some [] else
    let t := leAt b 0 1
    let size := if t = 1 then 148 else if t = 2 then 1544 else 0
    let pad := if t = 1 then coefPad b 4 15 else coefPad b 8 192
    if size = 0 ∨ b.length < size ∨ leAt b 2 2 ≠ 0 ∨ !pad then none else
    let r : StubRec := if t = 1 then .law ⟨leAt b 1 1, coefs b 4 15, i32s b 124, i32s b 136⟩
      else .mat ⟨leAt b 1 1, leAt b 4 4, coefs b 8 192⟩
    (stubRecords n (b.drop size)).map (r :: ·)

def stubLaws (l : List StubRec) : List StubLaw := l.filterMap fun r => match r with
  | .law x => some x
  | .mat _ => none
def stubMats (l : List StubRec) : List StubMat := l.filterMap fun r => match r with
  | .mat x => some x
  | .law _ => none

/-- One to three law records followed by 1 to 8 matrix records. -/
def stubOrder (l : List StubRec) : Bool :=
  let n := (stubLaws l).length
  let m := (stubMats l).length
  decide (1 ≤ n) && decide (n ≤ 3) && decide (1 ≤ m) && decide (m ≤ 8) &&
    l == (stubLaws l).map StubRec.law ++ (stubMats l).map StubRec.mat

/-- Parse a whole set's records. -/
def stubBody (p : SetParts) : Option (List StubRec) :=
  match stubRecords p.count p.body with
  | some l => if l.length = p.count && stubOrder l then some l else none
  | none => none

namespace State

/-- Reason and record of the first failure of R274 in its order; 0 when the set passes. -/
def stubReason (s : State) (l : List StubRec) : Nat :=
  let laws := stubLaws l
  let mats := stubMats l
  let word := fun (reason rec' : Nat) => reason * 65536 + rec' * 256
  let lens := laws.map (·.n)
  let dup := (List.range laws.length).find? fun i => (lens.take i).contains (nth 0 lens i)
  let other := s.objU 0x2030 1
  let base := laws.length
  let mdup := (List.range mats.length).find? fun i =>
    7 < nth 0 (mats.map (·.num)) i || ((mats.map (·.num)).take i).contains (nth 0 (mats.map (·.num)) i)
  let rowsOk := fun (m : StubMat) => (List.range 32).all fun j =>
    !(bit m.mask j || s.cfgU (0x2E80 + j) 1 == 0) ||
      (List.range 6).all fun i => (nth (0, 0) m.w (6 * j + i)).1 == 0
  let badRows := (List.range mats.length).find? fun i => match mats[i]? with
    | some m => !rowsOk m
    | none => false
  let shiftOk := fun (r : StubRec) => match r with
    | .law x => x.k.all fun c => c.2 ≤ 31
    | .mat x => x.w.all fun c => c.2 ≤ 31
  let badShift := (List.range l.length).find? fun i => match l[i]? with
    | some r => !shiftOk r
    | none => false
  let badLim := (List.range laws.length).find? fun i => match laws[i]? with
    | some x => !([0, 1, 2].all fun a => decide (0 ≤ nth 0 x.imax a) && decide (nth 0 x.imax a ≤ nth 0 x.tmax a))
    | none => false
  if !lens.contains s.clk.n ∨ !lens.contains other then word 1 0 else
  match dup with
  | some i => word 1 i
  | none =>
  if lens.any (fun n => n != 16 && n != 32 && n != 80) then word 1 0 else
  if !(mats.any fun m => m.num == 0 && m.mask == 0) then word 2 base else
  match mdup, badRows, badShift, badLim with
  | some i, _, _, _ => word 2 (base + i)
  | none, some i, _, _ => word 3 (base + i)
  | none, none, some i, _ => word 4 i
  | none, none, none, some i => word 5 i
  | none, none, none, none => 0

/-- Own rule of 3200h:00h (R63, R273, R274). -/
def ruleStubSet (s : State) (_ : Path) (_ _ : Nat) (v : Val) : Verdict :=
  let refuse := fun (s : State) (a w : Nat) => Verdict.refuse a ((if a = abSet then s.putU 0x3201 3 w else s).note 0x090A [w])
  match parseSet "KSTB" v.asBytes with
  | none => refuse s abSet 0
  | some p =>
    match stubBody p with
    | none => refuse s abSet 0
    | some l =>
      let (ok, s) := s.setSigned p
      if !ok then refuse s abSign 0 else
      let w := s.stubReason l
      if w ≠ 0 then refuse s abSet w else .store

/-- Records of the set in force. -/
def stubSet (s : State) : List StubRec :=
  match parseSet "KSTB" (s.cfgD 0x3200 0) with
  | some p => (stubBody p).getD []
  | none => []

/-- Apply an accepted Stubble set at f0 (R274). -/
def applyStubSet (s : State) : State :=
  match parseSet "KSTB" (s.cfgD 0x3200 0) with
  | none => s
  | some p =>
    let s := (s.putBoth 0x3201 1 (.u p.version)).putBoth 0x3201 2 (.u p.digest8)
    (s.storeKeys [okey 0x3200 0, okey 0x3201 1, okey 0x3201 2]).note 0x0909 [p.version]

/-- The law record in force; without a set its coefficients and limits are free (log 31). -/
def stubLaw (s : State) : StubLaw :=
  ((stubLaws s.stubSet).find? fun l => l.n == s.clk.n).getD
    ⟨s.clk.n, (List.range 15).map (fun k => (Config.noStubble k, (Config.noStubble (k + 15)).toNat % 32)),
      [Config.noStubble 30, Config.noStubble 31, Config.noStubble 32],
      [Config.noStubble 33, Config.noStubble 34, Config.noStubble 35]⟩

/-! The matrix (R258). -/

/-- Unavailable thrusters (R213). -/
def unavailMask (s : State) : Nat := ofBits (s.thrusters.filter fun j => !s.available j)

/-- Matrix for a set of unavailable thrusters, and whether it is the fallback. -/
def stubMatrix (s : State) (mask : Nat) : StubMat × Bool :=
  let mats := stubMats s.stubSet
  match mats.find? (fun m => m.mask == mask) with
  | some m => (m, false)
  | none =>
    let fits := mats.filter fun m => m.mask &&& mask == mask
    match argMin (fun (m : StubMat) => ((popcount 32 m.mask * 8 + m.num : Nat) : Rat)) fits with
    | some m => (m, false)
    | none =>
      let m := (mats.find? fun m => m.num == 0).getD
        ⟨0, 0, (List.range 192).map fun k => (Config.noStubble (100 + k), (Config.noStubble (300 + k)).toNat % 32)⟩
      ({ m with w := (List.range 192).map fun i => if bit mask (i / 6) then (0, 0) else nth (0, 0) m.w i }, true)

/-- One row of W applied to a demand; saturated products and sum. -/
def rowForce (m : StubMat) (row : Nat) (tau : List Int) : Int × Bool :=
  (List.range 3).foldl (fun (acc : Int × Bool) a =>
    let p := prodI (nth (0, 0) m.w (3 * row + a)) (nth 0 tau a)
    let t := acc.1 + satI32 p
    (satI32 t, acc.2 || cutI32 p || cutI32 t)) (0, false)

/-- A thruster's set point and clipped force from its two row forces in kN (R259): point, force, thrust clipped, angle
clamped. -/
def stubPoint (s : State) (j : Nat) (f0 f1 : Rat) : Point × (Rat × Rat) × Bool × Bool :=
  let d := s.desc j
  let along := fun (a t : Rat) => (t * cosd a, t * sind a)
  match d.kind with
  | 1 | 4 =>
    let mag := rsqrt (f0 * f0 + f1 * f1)
    let t := rmin mag d.tp
    let raw := wrap360 (rad2deg (Config.atan2 f1 f0))
    let arc := if d.kind = 4 then some (d.fixed - d.range, d.fixed + d.range) else freeArc d (s.inner j).core.az
    let az := match arc with
      | none => raw
      | some (lo, hi) =>
        let x := lo + wrap360 (raw - lo)
        if x ≤ hi then raw else if x - hi ≤ lo + 360 - x then wrap360 hi else wrap360 lo
    ({ az := az, t := t, n := commandOf d t }, along az t, decide (d.tp < mag), az != raw)
  | 2 =>
    let t := rclamp (-d.tm) d.tp f0
    ({ az := d.fixed, t := t, n := commandOf d t }, along d.fixed t, t != f0, false)
  | 3 =>
    let t := rclamp (-d.tm) d.tp f0
    let raw := if d.kR * t = 0 then 0 else rad2deg (f1 / (d.kR * t))
    let del := rclamp (-d.range) d.range raw
    let lat := d.kR * t * deg2rad del
    let f := along d.fixed t
    ({ az := del, t := t, n := commandOf d t }, (f.1 - lat * sind d.fixed, f.2 + lat * cosd d.fixed), t != f0, del != raw)
  | _ => ({}, (0, 0), false, false)

def setStub (s : State) (t : Stubble) : State := { s with ctl := { s.ctl with stub := t } }

/-- A sum of saturated terms with its saturation flag. -/
def sumI (l : List Int) : Int × Bool :=
  l.foldl (fun (acc : Int × Bool) x => (satI32 (acc.1 + x), acc.2 || cutI32 (acc.1 + x))) (0, false)

/-- One axis of the law (R255-R257): demand, integrator, clamped, sign of the limit that acted, sticky bits (Table 8-3
layout). -/
structure StubAxis where
  tau : Int
  i : Int
  clamped : Bool
  lim : Int
  bits : Nat

def stubAxis (s : State) (l : StubLaw) (a : Nat) (e ev wind bias : Rat) : StubAxis :=
  let st := s.ctl.stub
  let law := bit s.mode.axes a
  let new := law && bit st.entered a
  let op := bit s.operatorAxes a
  let k := fun q => nth (0, 0) l.k (3 * q + a)
  let fb := forceBits a
  let re := inUnits 16 e
  let rv := inUnits 16 ev
  let rw := inUnits fb wind
  let rb := inUnits fb bias
  let xe := satI32 re
  let p := prodI (k 0) xe
  let ki := prodI (k 1) xe
  let d := prodI (k 2) (satI32 rv)
  let w := prodI (k 3) (satI32 rw)
  let b := prodI (k 4) (satI32 rb)
  let (pdf, cutF) := sumI [satI32 p, satI32 d, -(satI32 w), -(satI32 b)]
  let imax := nth 0 l.imax a
  let tmax := nth 0 l.tmax a
  let i0 := nth 0 st.core.integ a
  let raw := if !law then 0 else if new then nth 0 st.tauPrev a - pdf
    else
      let inc := satI32 ki
      if nth 0 st.lim a ≠ 0 ∧ (nth 0 st.lim a = 1 ∧ 0 < inc ∨ nth 0 st.lim a = -1 ∧ inc < 0) then i0 else i0 + inc
  let i := if raw < -imax then -imax else if imax < raw then imax else raw
  let dem := inUnits fb (s.cfgR 0x2222 (a + 1))
  let opw := if s.windComp then -(satI32 w) else 0
  let (sum, cutS) := if law then sumI [pdf, i] else if op then sumI [satI32 dem, opw] else (0, false)
  let tau := if sum < -tmax then -tmax else if tmax < sum then tmax else sum
  { tau := tau, i := i, clamped := law && i != raw, lim := if tau = sum then 0 else if 0 < sum then 1 else -1,
    bits := if !(law || op) then 0 else
      bitAt (law && cutI32 re) 0 + bitAt (law && cutI32 rv) 1 + bitAt (law && cutI32 p) 2 + bitAt (law && cutI32 d) 3 +
      bitAt (law && (cutI32 ki || i != raw)) 4 +
      bitAt ((law || s.windComp) && (cutI32 w || cutI32 rw) || law && (cutI32 b || cutI32 rb)) 5 +
      bitAt (cutS || law && cutF || op && cutI32 dem) 6 + bitAt (tau != sum) 7 }

/-- The axes under control have changed at f0 from `before`, as for Culm (R186, R257). -/
def stubAxes (s : State) (before : Nat) : State :=
  let t := s.ctl.stub
  { s with ctl := { s.ctl with stub := { t with
      entered := (t.entered ||| (7 - before)) &&& s.mode.axes,
      core := { t.core with integ := axes3 fun a => if bit s.mode.axes a then nth 0 t.core.integ a else 0 } } } }

/-- The law's run at f3 (R255-R259), and restoration after loss (R260); the F1 of a missed run lowers at once (R576), the loss
lasts its 10 good samples. -/
def stubRun (s : State) : State :=
  let st := s.ctl.stub
  let l := s.stubLaw
  let (_, nu, wind, bias) := s.lawEst
  let (e, vsp) := s.lawErr fun v => v
  let live := fun a => bit s.mode.axes a && !bit st.entered a
  let ev := axes3 fun a => (if live a then vget vsp a else 0) - vget nu a
  let ax := axes3 fun a => s.stubAxis l a (vget e a) (vget ev a) (vget wind a) (vget bias a)
  let tau := ax.map (·.tau)
  let mask := s.unavailMask
  let (m, fallback) := s.stubMatrix mask
  let out := s.thrusters.map fun j =>
    let x := rowForce m (2 * j) tau
    let y := rowForce m (2 * j + 1) tau
    (j, x.2 || y.2, s.stubPoint j (x.1 / 256) (y.1 / 256))
  let clip := out.any fun (o : Nat × Bool × Point × (Rat × Rat) × Bool × Bool) => o.2.2.2.2.1
  let arc := out.any fun (o : Nat × Bool × Point × (Rat × Rat) × Bool × Bool) => o.2.2.2.2.2
  let cut := out.any fun (o : Nat × Bool × Point × (Rat × Rat) × Bool × Bool) => o.2.1
  let pts := out.map fun (o : Nat × Bool × Point × (Rat × Rat) × Bool × Bool) => (o.1, o.2.2.1)
  let del := sum3 (out.map fun (o : Nat × Bool × Point × (Rat × Rat) × Bool × Bool) => place (s.desc o.1) o.2.2.2.1)
  let s := foldS s (List.zip [1, 2, 3] ax) fun s (q : Nat × StubAxis) => s.stick 0x3204 q.1 q.2.bits false
  let s := s.stick 0x3204 4 (bitAt cut 0 + bitAt clip 1 + bitAt arc 2) false
  let s := if fallback && !st.fallback then s.note 0x090B [mask] else s
  let good := if st.lost then st.good + 1 else 0
  let back := st.lost && decide (10 ≤ good)
  let held := match s.obs.est with
    | some x => x.held
    | none => false
  let s := s.setStub { st with
    core := { st.core with integ := ax.map (·.i) }, lim := ax.map (·.lim), clamped := ax.map (·.clamped),
    entered := 0, tauPrev := tau, pts := pts, delivered := del, published := true,
    clipped := clip || arc, fallback := fallback, lost := st.lost && !back,
    good := if back then 0 else good, estHeld := held }
  let kn := fun (v : List Int) => axes3 fun a => rv (((nth 0 v a : Int) : Rat) / ((2 ^ forceBits a : Nat) : Rat))
  let pt := fun j => (tget {} pts j : Point)
  let s := s.publishEnd 0x3210 (kn tau ++ kn (ax.map (·.i)) ++ del.map rv ++ [.u m.num])
  let s := s.publishEnd 0x3211 ((List.range 32).map (fun j => rv (pt j).az) ++ (List.range 32).map fun j => rv (pt j).n)
  (if back then s.note 0x0906 [] else s).lower 0x0905 0

/-! Loss and handover (R260, R262, R267). -/

/-- No law remains: event 0907h and the stop under F3 (R260). -/
def noLaw (s : State) : State := (s.record 0x0907 3 []).unitStop 0x0907

/-- Stubble has not published, or a residue check failed on its datapath (R260). -/
def stubLose (s : State) : State :=
  let st := s.ctl.stub
  let s := ((s.incU 0x3205 3).stale 0x3210).stale 0x3211
  let s := s.setStub { st with lost := true, good := 0, published := false }
  if st.core.driving || st.core.cause.isSome then s.noLaw
  else if st.lost then s.raise 0x0905 0 1 else s.alarm 0x0905 0 1 []

/-- A handover cause arises (R262, R268): F2, event 0901h; the blend begins at the next f0. Where Stubble drives already
and no return is in progress there is nothing to hand over. -/
def handover (s : State) (cause : Nat) : State :=
  let st := s.ctl.stub
  let back := match st.core.blend with
    | some (false, _) => true
    | _ => false
  if st.core.cause.isSome || (st.core.driving && !back) then s
  else if st.lost then s.noLaw
  else
    let s := (s.alarm 0x0901 0 2 [cause]).incU 0x3205 1
    let win := State.ns (s.cfgR 0x3202 7)
    let hist := (st.core.history.filter fun t => s.clk.time < t + win) ++ [s.clk.time]
    let lock := decide (s.cfgU 0x3202 6 ≤ hist.length)
    let s := if lock && !st.core.locked then s.alarm 0x0908 0 1 [] else s
    s.setStub { s.ctl.stub with core := { st.core with
      cause := some cause, blends := 2 ≤ s.mode.mode && s.mode.mode ≤ 5, lastCause := cause, history := hist, locked := st.core.locked || lock } }

end State

/-- STUBBLE_LAW (R255): at f3 of a running unit. -/
def execStubbleLaw (s : State) : Out :=
  if s.up && s.fOff == 3 then .next s.stubRun else .next s

/-- STUBBLE_LOST (R260): at the end of f3; `residue` tells the two grounds apart. -/
def execStubbleLost (residue : Bool) (s : State) : Out :=
  if s.up && s.fOff == 3 && (residue || !s.ctl.stub.published) then .next s.stubLose else .next s

/-- STUBBLE_SET (R274): a write of 3200h:00h. -/
def execStubbleSet (p : Path) (b : List Byte) (s : State) : Out :=
  .next (if s.up then s.writeWith State.ruleStubSet p 0x3200 0 b else s)

/-- RETURN_REQUEST (R266): a write of 3203h:00h. -/
def execReturnRequest (p : Path) (b : List Byte) (s : State) : Out :=
  .next (if s.up then s.writeWith State.noRule p 0x3203 0 b else s)

/-- STUBBLE_STICKY_READ (R256, R197): a read of 3204h:01h-04h. -/
def execStubbleStickyRead (p : Path) (sub : Nat) (s : State) : Out :=
  .next (if s.up then s.readSticky p 0x3204 sub else s)

end Sys2Proof.Machine
end

