-- ==== Sys2Proof/Machine/Stook.lean ====
section
/-! DEFINITION. Stook: cases, the sweep, margins and ranking, detections, removals and promotion (chapter 10, R234-R254). -/
namespace Sys2Proof.Machine

namespace State

def setStook (s : State) (t : Stook) : State := { s with ctl := { s.ctl with stook := t } }

/-! Cases (R234, Table 10-1). -/

def caseType (s : State) (c : Nat) : Nat := s.cfgU (0x3080 + c) 1
/-- Existing cases. -/
def caseNums (s : State) : List Nat := (List.range 128).filter fun c => s.caseType c != 0
/-- Removal set as (kind, number): 1 thruster, 2 section, 3 generator, 4 tie. -/
def caseItems (s : State) (c : Nat) : List (Nat × Nat) :=
  let m := fun sub => s.cfgU (0x3080 + c) sub
  match s.caseType c with
  | 1 => (bitsOf 32 (m 2)).map fun j => (1, j)
  | 2 =>
    let secs := bitsOf 8 (m 4)
    secs.map (fun b => (2, b)) ++ (s.gens.filter fun g => secs.contains (s.genSection g)).map (fun g => (3, g)) ++
      (s.thrusters.filter fun j => secs.contains (s.feed j)).map fun j => (1, j)
  | 3 => (bitsOf 16 (m 3)).map fun g => (3, g)
  | 4 => (bitsOf 8 (m 5)).map fun t => (4, t)
  | _ => []
/-- Streams of a reference-set case. -/
def caseStreams (s : State) (c : Nat) : List Nat :=
  (List.range 256).filter fun k => bit (s.cfgU (0x3080 + c) (6 + k / 64)) (k % 64)

/-- Mask a type uses, as its subindices. -/
def maskSubs (ty : Nat) : List Nat :=
  match ty with
  | 1 => [2] | 2 => [4] | 3 => [3] | 4 => [5] | 5 => [6, 7, 8, 9] | _ => []

/-- R235 holds of a case descriptor with one object replaced; a case of type 00h does not exist, and its masks are not
checked (log 32). -/
def caseOk (s : State) (c idx sub : Nat) (v : Val) : Bool :=
  let w := fun k => s.would idx sub v (0x3080 + c) k
  let ty := w 1
  let used := maskSubs ty
  ty == 0 ||
    ((List.range 8).all (fun k => used.contains (k + 2) || w (k + 2) == 0) && used.any (fun k => w k != 0) &&
      (ty != 1 || (bitsOf 32 (w 2)).all fun j => s.objU (0x2E80 + j) 1 != 0) &&
      (ty != 2 || (bitsOf 8 (w 4)).all fun b => s.objU (0x34A0 + b) 1 == 1) &&
      (ty != 3 || (bitsOf 16 (w 3)).all fun g => s.objU (0x3480 + g) 1 != 255) &&
      (ty != 4 || (bitsOf 8 (w 5)).all fun t => s.objU (0x34B0 + t) 1 != 255 && s.objU (0x34B0 + t) 2 != 255))

def ruleCase (s : State) (_ : Path) (idx sub : Nat) (v : Val) : Verdict :=
  if s.caseOk (idx - 0x3080) idx sub v then .store else .refuse abValue (s.note 0x0808 [idx - 0x3080, sub])

/-! The sweep (R236-R241). -/

/-- Horizon in force (R237). -/
def caseHorizon (s : State) : Nat := min (s.cfgU 0x3000 1) (s.cfgU 0x2E00 1)
/-- Horizon solved after thermal shortening (R241). -/
def sweptHorizon (s : State) : Nat :=
  let h := s.caseHorizon
  max (min (s.cfgU 0x3000 2) h) (h - s.therm.steps)
/-- Cases that may be skipped, below the top 16 of the ranking; a reference-set case is never swept (R241, R243, R520). -/
def sparable (s : State) : List Nat := (s.ctl.stook.ranking.drop 16).filter fun c => s.caseType c != 5
/-- Cases skipped, from the bottom of the ranking, never the top 16 (R241, R520). -/
def skippedCases (s : State) : List Nat :=
  let h := s.caseHorizon
  let extra := s.therm.steps - (h - min (s.cfgU 0x3000 2) h)
  lastN (8 * extra) s.sparable

/-- Cases that this unit sweeps: all of types 01h to 04h, on a Reserve only those among the 16 highest-ranked of the Lead's
ranking (R26, R236). -/
def sweptCases (s : State) : List Nat :=
  s.caseNums.filter fun c => s.caseType c != 5 &&
    (s.st.role != 2 || s.ctl.stook.lead.any fun (e : CaseEntry) => e.num == c && e.rank < 16)

/-- The plant with equipment removed (R282). -/
def plantWithout (s : State) (items : List (Nat × Nat)) : PlantRes :=
  let f3 := s.ctl.plant.f3
  let gone := fun k n => items.contains (k, n)
  let online := ofBits ((bitsOf 16 f3.online).filter fun g => !gone 3 g && !gone 2 (s.genSection g))
  let closed := ofBits ((bitsOf 8 f3.ties).filter fun t => !gone 4 t && !gone 2 (s.tieEnds t).1 && !gone 2 (s.tieEnds t).2)
  { s.plantOf online closed f3.load with frame := f3.frame }

/-- Removals in force as (kind, number). -/
def removed (s : State) : List (Nat × Nat) := s.ctl.stook.rem.map fun r => (r.kind, r.num)

/-- Terminal stage of a case evaluated under R223 and R224: bounds without ramp and slew rows, the power clip, then the
force. -/
def terminalForce (s : State) (p : Prob) (plan : List (Nat × List (Rat × Rat))) : List Rat :=
  let raw := p.thr.map fun t =>
    let st := (planStage (tget [] plan t.j) p.stages).getD (t.az0, t.t0)
    let (lo, hi) := thrustBounds s.T t p.stages
    let b := azBounds t
    (t.j, if !t.avail then (t.az0, (0 : Rat))
      else (if t.d.kind = 2 then t.d.fixed else clipTo b.1 b.2 st.1, rclamp lo hi st.2))
  let lam := fun g =>
    let mem := (p.thr.filter fun t => t.avail && t.group == some g).map (·.j)
    s.clipLambda mem (nth 0 p.bounds g) fun j => (tget (0, 0) raw j : Rat × Rat).2
  sum3 (p.thr.map fun t =>
    let (az, tt) := (tget (0, 0) raw t.j : Rat × Rat)
    let l := match t.group with
      | some g => if t.avail ∧ g < 8 then lam g else 1
      | none => 1
    place t.d (forceOf t.d az (tt * l)))

/-- Margin of a case from its terminal shortfall (R242). -/
def marginOf (s : State) (tau short : List Rat) : Nat :=
  let sat := s.saturated tau short
  let mu := [0, 1, 2].map fun a =>
    if !bit sat a then 100
    else if vget tau a = 0 then 0
    else (100 * rmax 0 (1 - rabs (vget short a) / rabs (vget tau a))).floor.toNat
  mu.foldl min 100

/-- The nominal solve of this sample starts cold (R222), or the horizon in force has changed: every case starts cold (R237,
R239). -/
def sweepCold (s : State) : Bool :=
  let t := s.ctl.till
  (if t.solved = some s.clk.sample then t.cold else t.core.cold.isSome) ||
    (s.ctl.stook.horizon != 0 && s.ctl.stook.horizon != s.caseHorizon)

/-- Fault code of a sweep that has overrun (R576); Table 10-12 lists no event for it (log 147). Instance 0 is the case set,
instance 1 the sweep. -/
def stookOver : Nat := 0x0800

/-- Solve one case; `forced` a numeric fault found by the solver's lanes. Its removal set is taken with the removals in force;
a case contained in those solves the nominal problem (R236, R252). -/
def solveCase (s : State) (c h : Nat) (forced : Option Nat) : State :=
  let st := s.ctl.stook
  let old := tfind st.cases c
  let items := s.caseItems c
  let all := items ++ s.removed
  let contained := items.all s.removed.contains
  let r := if contained ∨ all.all (fun e => e.1 == 1) then s.ctl.plant.f3 else s.plantWithout all
  let avail := ofBits (s.thrusters.filter fun j =>
    s.ready j && (s.desc j).enable && s.fedIn r j && !all.contains (1, j))
  let fresh := match old with
    | some x => x.rem != items || x.plan == []
    | none => true
  let cs := old.getD {}
  let plan := if fresh then s.ctl.till.core.plan else cs.plan
  let off := if fresh then 0 else 1
  let (p, lifted, _) := giveWay (s.problem avail r h true plan off)
  let start := fun (qp : Qp) =>
    if cs.cold ∨ (old.isNone && s.sweepCold) then coldIter p qp
    else if !fresh && 0 < cs.stages && cs.x.length == cs.stages * p.thr.length * 3 then
      warmIter p cs.plan cs.stages 1 ⟨cs.x, cs.z, cs.y⟩ qp
    else if plan = [] then coldIter p qp else planIter p plan qp
  let bad := fun (s : State) (k : Nat) =>
    let s := (s.incU 0x3050 4).note 0x0809 [c, k]
    s.setStook { s.ctl.stook with cases := tset s.ctl.stook.cases c { cs with invalid := true, age := cs.age + 1, rem := items } }
  match forced with
  | some k => bad s k
  | none =>
    match s.solve p start with
    | .error k => bad s k
    | .ok (it, _, _, _, m) =>
      let pl := planOf p it.x
      let groups := (List.range 32).map fun j => (s.thrGroup r j).getD 15
      let stage0 := p.thr.map fun q => (q.j, (q.az0, q.t0))
      let refs := p.thr.map fun q => (q.j, nth (0, 0) q.refs 0)
      let (pts, _) := s.formStage pl 1 lifted avail p.bounds groups stage0 refs s.ctl.till.core.side
      let short := vsub p.tau (s.terminalForce p pl)
      let x : CaseSt := {
        plan := pl, stages := p.stages, x := it.x, z := it.z, y := it.y, pts := pts, margin := s.marginOf p.tau short, shortfall := short,
        merit := m, age := 0, invalid := false, skipped := false, notConv := decide (1 < m), lifted := lifted,
        plant := r.frame, rem := items }
      s.setStook { s.ctl.stook with cases := tset s.ctl.stook.cases c x }

/-- Solve a case of the sweep and count it. -/
def sweepCase (s : State) (faults : List (Nat × Nat)) (c : Nat) : State :=
  let s := s.solveCase c s.sweptHorizon (tfind faults c)
  s.setStook { s.ctl.stook with swept := s.ctl.stook.swept + 1 }

/-- A case that this sweep skips keeps its last solution and grows a sample older (R241). -/
def skipCase (s : State) (c : Nat) : State :=
  let t := s.ctl.stook
  match tfind t.cases c with
  | some _ => s.setStook { t with cases := tmod {} t.cases c fun x => { x with skipped := true, age := x.age + 1 } }
  | none => s

/-- Cases that the fast cap holds back: all beyond the top 16 of the previous sample's ranking (R517). -/
def capped (s : State) : List Nat :=
  if s.therm.cap then s.sweptCases.filter fun c => !(s.ctl.stook.ranking.take 16).contains c else []

/-- The sweep from f4 (R236); `faults` the cases whose solver lanes failed a check, with the kind of Table 9-10. A cold start
stays due to a case that is skipped (R237, R239). Cases that the fast cap holds back wait for a frame without it (R517; log
163). -/
def sweep (s : State) (faults : List (Nat × Nat)) : State :=
  let st := s.ctl.stook
  let nums := s.sweptCases
  let cold := s.sweepCold
  let skip := s.skippedCases
  let kept := (st.cases.filter fun q => s.caseNums.contains q.1).map fun (q : Nat × CaseSt) =>
    (q.1, if cold then { q.2 with cold := true } else q.2)
  let s := s.setStook { st with cases := kept, swept := 0, sweepDue := false }
  let spared := fun (s : State) (c : Nat) => skip.contains c && (tfind s.ctl.stook.cases c).isSome
  let wait := s.capped.filter fun c => !spared s c
  let s := foldS s nums fun s c =>
    if spared s c then s.skipCase c else if wait.contains c then s else s.sweepCase faults c
  let s := s.setStook { s.ctl.stook with waiting := wait }
  (s.setStook { s.ctl.stook with horizon := s.caseHorizon }).lower stookOver 1

/-- A later frame of the sweep, without the fast cap, starts the cases left waiting (R517). -/
def sweepOn (s : State) (faults : List (Nat × Nat)) : State :=
  if s.therm.cap then s else
  let wait := s.ctl.stook.waiting
  foldS (s.setStook { s.ctl.stook with waiting := [] }) wait fun s c => s.sweepCase faults c

/-- Cases that no frame of the sweep has started are skipped for the sample (R241, R517). -/
def skipWaiting (s : State) : State := foldS s s.ctl.stook.waiting skipCase

/-! Margins, ranking, publication (R242-R245). -/

/-- Margin of a reference-set case (R243). -/
def refMargin (s : State) (c : Nat) : Nat :=
  let gone := s.caseStreams c
  let left := fun cls => (s.usedOf cls).any fun k => !gone.contains k
  if left 1 && left 2 then 100 else 0

/-- Margin as published; FFh for an unused case or one without a margin yet. -/
def caseMargin (s : State) (c : Nat) : Nat :=
  if s.caseType c = 0 then 255
  else if s.caseType c = 5 then s.refMargin c
  else match tfind s.ctl.stook.cases c, s.ctl.stook.lead.find? (fun (e : CaseEntry) => e.num == c) with
    | some x, _ => x.margin
    | none, some e => if s.st.role = 2 then e.margin else 255
    | none, none => 255

/-- Ranking: by margin, then by number (R244). -/
def rankCases (s : State) : List Nat :=
  ((sortBy (fun (a b : Nat × Nat) => decide (a.1 * 256 + a.2 < b.1 * 256 + b.2))
    ((s.caseNums.map fun c => (s.caseMargin c, c)).filter fun p => p.1 != 255))).map (·.2)

/-- Samples of a time, rounded up (R245). -/
def samplesOf (s : State) (t : Rat) : Nat := (-((-(t / s.T)).floor)).toNat

/-- The alarm may stand (R245). -/
def alarmModes (s : State) : Bool := 3 ≤ s.mode.mode && s.mode.mode ≤ 5

/-- Worst case and margin; without a ranked case FFh, and a margin that the spec does not state (log 33). -/
def worst (s : State) : Nat × Nat :=
  match s.ctl.stook.ranking with
  | c :: _ => (c, s.caseMargin c)
  | [] => (255, Config.noMargin)
/-- A case is ranked whose margin is below 100 % (R245). -/
def below100 (s : State) : Bool := s.ctl.stook.ranking != [] && s.worst.2 < 100

def publishInspected (s : State) : State :=
  let c := s.cfgU 0x3003 0
  let x := if s.caseType c = 0 then ({} : CaseSt) else tget {} s.ctl.stook.cases c
  let pt := fun j => (tget {} x.pts j : Point)
  s.publishEnd 0x3043 ((List.range 32).map (fun j => rv (pt j).az) ++ (List.range 32).map (fun j => rv (pt j).n) ++
    x.shortfall.map rv ++ [rv x.merit, .u (min x.age 65535),
      .u (bitAt (x.lifted != 0) 3 + bitAt x.notConv 2 + bitAt x.skipped 1 + bitAt x.invalid 0)])

/-- Status word 3040h:04h (Table 10-10). -/
def stookWord (s : State) : Nat :=
  let t := s.ctl.stook
  bitAt t.alarm 7 + bitAt s.below100 6 + bitAt t.promotedNow 5 + bitAt (!t.rem.isEmpty) 4 +
    bitAt t.unmatched 3 + bitAt (!(s.skippedCases ++ t.waiting).isEmpty) 2 + bitAt (decide (s.sweptHorizon < s.caseHorizon)) 1 +
    bitAt (t.cases.any fun q => q.2.invalid) 0

/-- Publish 3040h-3042h. -/
def publishStook (s : State) : State :=
  let t := s.ctl.stook
  let mask := fun k => ofBits ((t.rem.filter fun r => r.kind == k).map (·.num))
  let s := s.publishEnd 0x3040 [.u s.stookWord, .u s.worst.1, .u s.worst.2, .u t.below, .u t.swept, .u s.sweptHorizon,
    .u (mask 1), .u (mask 3), .u (mask 2), .u (mask 4), .u t.lastCase]
  let s := s.publishEnd 0x3041 ((List.range 128).map fun c => .u (s.caseMargin c))
  let s := s.publishEnd 0x3042 ((List.range 128).map fun r => .u (nth 255 t.ranking r))
  s.publishInspected

/-- The alarm clears after the margin has been 100 % for its delay (R245). -/
def clearAlarm (s : State) : State :=
  ((s.note 0x0804 []).lower 0x0803 0).setStook { s.ctl.stook with alarm := false }

/-- At f0: outside modes 3, 4 and 5 the count is 0 and the alarm is clear (R245). -/
def quietAlarm (s : State) : State :=
  if s.alarmModes then s else (s.lower 0x0803 0).setStook { s.ctl.stook with alarm := false, below := 0, full := 0 }

/-- An entry of the case set for the case of rank `i`: its own solution, on a Reserve that does not sweep it the Lead's (R26). -/
def caseEntry (s : State) (i c : Nat) : Option CaseEntry :=
  match tfind s.ctl.stook.cases c with
  | some x => some { num := c, margin := s.caseMargin c, rank := i, plan := x.plan, pts := x.pts, lifted := x.lifted }
  | none =>
    if s.st.role ≠ 2 then none else
    (s.ctl.stook.lead.find? fun (e : CaseEntry) => e.num == c).map fun e => { e with rank := i }

/-- The work at the end of f(N-1): rank, count for the alarm, publish the case set. -/
def caseSetPublish (s : State) : State :=
  let s := s.skipWaiting
  let s := s.setStook { s.ctl.stook with ranking := s.rankCases }
  let low := s.below100
  let t := s.ctl.stook
  let t := if s.alarmModes then
      { t with below := if low then t.below + 1 else 0, full := if low then 0 else t.full + 1 }
    else { t with below := 0, full := 0 }
  let set := (List.range t.ranking.length).filterMap fun i => s.caseEntry i (nth 255 t.ranking i)
  ((s.setStook { t with set := set, setOwn := true, setDue := false }).lower stookOver 0).publishStook

/-- At f0: the sweep or the case set of the sample that has ended is missing, which is an overrun (R54, R576); those of the new
sample are due. -/
def stookBoundary (s : State) : State :=
  let t := s.ctl.stook
  let s := if t.sweepDue then s.raise stookOver 1 1 else s
  let s := if t.setDue then (([0x3040, 0x3041, 0x3042, 0x3043].foldl State.stale s).raise stookOver 0 1) else s
  s.setStook { s.ctl.stook with sweepDue := true, setDue := true, waiting := [] }

/-- The alarm is due to set. -/
def alarmSets (s : State) : Bool :=
  s.alarmModes && !s.ctl.stook.alarm && decide (0 < s.ctl.stook.below) &&
    decide (s.samplesOf (s.cfgR 0x3000 3) ≤ s.ctl.stook.below)
/-- The alarm is due to clear. -/
def alarmClears (s : State) : Bool :=
  s.ctl.stook.alarm && decide (0 < s.ctl.stook.full) && decide (s.samplesOf (s.cfgR 0x3000 4) ≤ s.ctl.stook.full)

/-- Set the alarm: F1, event 0803h, and its bit in the status word of this publication. -/
def setAlarm (s : State) : State :=
  let s := s.setStook { s.ctl.stook with alarm := true }
  (s.alarm 0x0803 0 1 [s.worst.1, s.worst.2]).publishStook

/-! Removals and promotion at f0 (R247-R254). -/

/-- The equipment of a removal reports restored now (Table 10-3). -/
def restored (s : State) (r : Removal) : Bool :=
  match r.kind with
  | 1 => s.ready r.num
  | 2 => nth 15 s.ctl.plant.res.group r.num != 15
  | 3 => bit s.ctl.plant.res.online r.num
  | _ => bit s.ctl.plant.res.ties r.num

/-- Device time since which it has: for a thruster its first ready record, for the rest the frame in which the model first
reported it restored (`plantRestored`). -/
def restoredSince (s : State) (r : Removal) : Option Nat :=
  if !s.restored r then none
  else if r.kind = 1 then tfind s.ctl.stook.readyFrom r.num
  else r.since

/-- Step 2 of Table 10-7: removals that clear (R246, R254). A write of 3002h due at this f0 clears mismatch removals. -/
def clearRemovals (s : State) : State :=
  let mask := s.cfgU 0x3002 0
  let s := if mask = 0 then s else s.putBoth 0x3002 0 (.u 0)
  let wait := State.ns (s.cfgR 0x3001 3)
  let rem := s.ctl.stook.rem.map fun r => { r with since := s.restoredSince r, clear := r.source == 3 && r.kind == 1 && bit mask r.num }
  let overs := fun (r : Removal) =>
    if r.source = 3 then r.clear
    else match r.since with
      | some t => decide (t + wait ≤ s.clk.time)
      | none => false
  let gone := rem.filter overs
  let keep := rem.filter fun r => !overs r
  let s := s.setStook { s.ctl.stook with rem := keep, promotedNow := false, unmatched := s.ctl.stook.unmatched && keep.any fun r => !r.promoted }
  let s := foldS s gone fun s r => s.note 0x0807 [r.kind, r.num]
  let s := if keep.any (·.promoted) then s else s.lower 0x0802 0
  if keep.any fun r => !r.promoted then s else s.lower 0x0805 0

/-- A unit that takes its removals and promotions from the Lead (R253). -/
def follows (s : State) : Bool := s.st.role == 1 || s.st.role == 2

/-- The allocation of a case of the published set (R250 step 2). -/
def caseAlloc (s : State) (e : CaseEntry) : Alloc :=
  { pts := e.pts, sample := s.clk.sample, lifted := e.lifted, plant := none, covers := s.caseItems e.num, any := true }

/-- The allocation in force; in modes 2 to 5 the inner loops take it at once, in the others they do not (R18, R250). -/
def promoteAlloc (s : State) (a : Alloc) : State :=
  { s with ctl := { s.ctl with alloc := a, leverOn := s.ctl.leverOn && !(2 ≤ s.mode.mode && s.mode.mode ≤ 5) } }

/-- A case's stage 1 enters the allocation (R250, R271): as the "from" allocation of a handover blend in progress or about to
start, as the Tiller side of a return blend in progress or about to start, whose blend at the present step `remix` forms; not
while Stubble drives on. -/
def takeCase (s : State) (e : CaseEntry) : State :=
  let st := s.ctl.stub
  let a := s.caseAlloc e
  let frozen := { s with ctl := { s.ctl with stub := { st with core := { st.core with frozen := e.pts } } } }
  let side := { s with ctl := { s.ctl with till := { s.ctl.till with out := some a } } }
  match st.core.blend with
  | some (true, _) => frozen
  | some (false, _) => if st.core.cause.isSome then frozen else side
  | none =>
    if st.core.cause.isSome then frozen.promoteAlloc a
    else if st.core.driving then (if st.core.ret.isSome then side else s)
    else s.promoteAlloc a

/-- The solution of a promoted case as Tiller's warm start (R230, R444): x, z and y where the case set is the unit's own. -/
def caseStart (s : State) (e : CaseEntry) : CaseStart :=
  let plan := e.plan.map fun (q : Nat × List (Rat × Rat)) => (q.1, q.2.take (q.2.length - 1))
  match s.ctl.stook.setOwn, tfind s.ctl.stook.cases e.num with
  | true, some x => { plan := plan, stages := x.stages - 1, sol := some (x.x, x.z, x.y) }
  | _, _ => { plan := plan, stages := 0, sol := none }

/-- Step 3 of Table 10-7: match and promote, or add an unmatched detection (R247-R251). -/
def promote (s : State) : State :=
  let t := s.ctl.stook
  let inn := fun (e : Nat × Nat × Nat) => t.rem.any fun r => r.kind == e.1 && r.num == e.2.1
  let all := if s.follows then t.leadDet else t.det
  -- a mismatch found on equipment removed for another cause leaves the removal to a command
  let rem0 := t.rem.map fun r =>
    match all.find? (fun (e : Nat × Nat × Nat) => e.1 == r.kind && e.2.1 == r.num) with
    | some e => { r with since := none, source := if e.2.2 = 3 then 3 else r.source }
    | none => r
  let t := { t with rem := rem0, leadDet := [], det := if s.follows then t.det.filter (fun e => !inn e) else [] }
  let s := s.setStook t
  let d := all.filter fun e => !inn e
  match d with
  | [] => s
  | first :: _ =>
    let fits := s.caseNums.filter fun c =>
      s.caseType c != 5 && d.all fun e => (s.caseItems c).contains (e.1, e.2.1)
    match argMin (fun c => (((s.caseItems c).length * 128 + c : Nat) : Rat)) fits with
    | none =>
      let add := d.map fun e => ({ kind := e.1, num := e.2.1, source := e.2.2, promoted := false } : Removal)
      let s := (s.setStook { s.ctl.stook with rem := s.ctl.stook.rem ++ add, unmatched := true }).incU 0x3050 3
      s.alarm 0x0805 0 1 []
    | some c =>
      let items := s.caseItems c
      let old := s.ctl.stook.rem.map fun r => if items.contains (r.kind, r.num) then { r with promoted := true } else r
      let add := (items.filter fun (e : Nat × Nat) => !old.any fun r => r.kind == e.1 && r.num == e.2).map fun (e : Nat × Nat) =>
        let src := match d.find? (fun x => x.1 == e.1 && x.2.1 == e.2) with
          | some x => x.2.2
          | none => if e.1 = 1 then 1 else 2
        ({ kind := e.1, num := e.2, source := src, promoted := true } : Removal)
      let entry := s.ctl.stook.set.find? fun (e : CaseEntry) => e.num == c
      let margin := match entry with
        | some e => e.margin
        | none => 255
      let s := (s.setStook { s.ctl.stook with rem := old ++ add, lastCase := c, promotedNow := true }).incU 0x3050 2
      let s := s.alarm 0x0802 0 2 [c, Config.reason 0x0801 first.2.2, margin]
      match entry with
      | some e =>
        let s := s.takeCase e
        s.setTill { s.ctl.till with promoted := some c, start := some (s.caseStart e) }
      | none => s

/-- STOOK_REDUCTION_STEP (R520) at f0: `more` while a rise condition of R519 holds at level 3; a step back below it. -/
def reductionStep (s : State) (more : Bool) : State :=
  let h := s.caseHorizon
  let short := h - min (s.cfgU 0x3000 2) h
  let n := (s.sparable.length + 7) / 8
  let k := s.therm.steps
  let tell := fun (s : State) => s.note 0x080A [s.sweptHorizon, s.sweptCases.length - s.skippedCases.length]
  if s.therm.level = 3 then
    if more && decide (k < short + n) then
      tell ({ s with therm := { s.therm with steps := k + 1 } }.incU 0x3050 5)
    else s
  else if k = 0 then s
  else tell { s with therm := { s.therm with steps := min k (short + n) - 1 } }

/-! Drive status (Table 10-3). -/

/-- A feedback record of thruster j has been accepted. -/
def driveRecord (s : State) (j : Nat) (ready : Bool) : State :=
  let t := s.ctl.stook
  let n := if ready then 0 else tget 0 t.notReady j + 1
  let t := { t with
    notReady := if n = 0 then tdel t.notReady j else tset t.notReady j n,
    down := if ready then t.down.filter (· != j) else t.down, silent := t.silent.filter (· != j),
    readyFrom := if !ready then tdel t.readyFrom j else if (tfind t.readyFrom j).isSome then t.readyFrom
      else tset t.readyFrom j s.clk.time }
  let s := s.setStook t
  if n ≠ 0 ∧ s.cfgU 0x3001 1 ≤ n ∧ !t.down.contains j ∧ (s.desc j).kind ≠ 0 then
    (s.setStook { t with down := t.down ++ [j] }).detect 1 j 1 else s

/-- No record of thruster j for the silence frames, not yet latched. -/
def driveSilent (s : State) (j : Nat) : Bool :=
  let last := match s.drive j with
    | some d => d.frame
    | none => 0
  j < 32 && s.cfgU (0x2E80 + j) 1 != 0 && decide (last + s.cfgU 0x3001 2 ≤ s.clk.frame) && !s.ctl.stook.silent.contains j

def latchSilence (s : State) (j : Nat) : State :=
  let t := s.ctl.stook
  (s.setStook { t with silent := t.silent ++ [j], readyFrom := tdel t.readyFrom j }).detect 1 j 1

end State

/-- STOOK_SWEEP (R236): from f4 of a running unit, in every mode except Dormancy; in a later frame the sweep goes on with the
cases that the fast cap left unstarted (R517). -/
def execStookSweep (faults : List (Nat × Nat)) (s : State) : Out :=
  if s.up && s.fOff == 4 then .next ((s.sweep faults).probeFree 4)
  else if s.up && decide (4 < s.fOff) then .next (s.sweepOn faults)
  else .next s

/-- CASE_SET_PUBLISH (R238): at the end of f(N-1). -/
def execCaseSetPublish (s : State) : Out :=
  if s.up && s.fOff + 1 == s.clk.n then .next s.caseSetPublish else .next s

/-- CONSEQUENCE_ALARM (R238, R245): at the end of f(N-1), when the counts of the case set just published have reached a
delay. -/
def execConsequenceAlarm (s : State) : Out :=
  if !(s.up && s.fOff + 1 == s.clk.n && !s.ctl.stook.setDue) then .next s
  else if s.alarmSets then .next s.setAlarm
  else if s.alarmClears then .next s.clearAlarm.publishStook
  else .next s

/-- DRIVE_SILENCE_DETECTION (R246): thruster j. -/
def execDriveSilenceDetection (j : Nat) (s : State) : Out :=
  if s.up && s.driveSilent j then .next (s.latchSilence j) else .next s

/-- CASE_DESCRIPTOR_WRITE (R235): a write of 3080h-30FFh. -/
def execCaseDescriptorWrite (p : Path) (c sub : Nat) (b : List Byte) (s : State) : Out :=
  .next (if s.up && decide (c < 128) then s.writeWith State.ruleCase p (0x3080 + c) sub b else s)

/-- CLEAR_MISMATCH_REMOVALS (R246): a write of 3002h:00h. -/
def execClearMismatchRemovals (p : Path) (b : List Byte) (s : State) : Out :=
  .next (if s.up then s.writeWith State.noRule p 0x3002 0 b else s)

end Sys2Proof.Machine
end

