-- ==== Sys2Proof/Machine/Drive.lean ====
section
/-! DEFINITION. What reaches the thrusters: the solve and the overruns of Culm and Tiller, the allocation applied at f8,
the comparison, blends and the return (R15-R19, R205, R206, R221-R231, R260-R272). -/
namespace Sys2Proof.Machine

namespace State

/-- Set bits in a status value of a readable result buffer. -/
def orRes (s : State) (idx sub bits : Nat) : State :=
  s.patchRes idx (sub - 4) fun v => .u (v.asNat ||| bits)

/-- Modes in which the DW8 drives through the allocation. -/
def allocates (s : State) : Bool := 2 ≤ s.mode.mode && s.mode.mode ≤ 5

/-! Culm overruns (R205, R206). -/

/-- A residue failure in a lane at a stage is recorded and counted (R205). -/
def residueFault (s : State) (lane : Option (Nat × Nat)) : State :=
  match lane with
  | some p => (s.note 0x060B [p.1, p.2]).incU 0x2C58 4
  | none => s

/-- The law has not published by the end of f3, or a residue check failed in it: lane and stage. It is one overrun of the
sample, however many lanes fail (R205). -/
def culmOver (s : State) (lane : Option (Nat × Nat)) : State :=
  let s := s.residueFault lane
  let k := s.ctl.culm
  if k.residue then s else
  let l := s.overruns100 k.overs
  let second := k.lastOver == some ((s.clk.sample + 2 ^ 32 - 1) % 2 ^ 32)
  let n := min 255 (s.objU 0x2C58 2 + 1)
  let s := { s with ctl := { s.ctl with culm := { k with overs := l, lastOver := some s.clk.sample, held := true, residue := true } } }
  let s := (((s.incU 0x2C58 1).putU 0x2C58 2 n).putU 0x2C58 3 l.length)
  let s := ((s.heldRes 0x2C40).stale 0x2C41).stale 0x2C42
  let s := s.alarm 0x0601 0 1 [n]
  let s := if second then (s.record 0x0602 2 []).handover 1 else s
  if 5 ≤ l.length then (s.record 0x0603 3 []).unitStop 0x0603 else s

/-! Tiller's solve and overruns (R221, R227, R228). -/

/-- Solve, then hand over on a numeric fault (R227, R262). -/
def tillerStep (s : State) (forced : Option (Nat × Nat)) : State :=
  let s := s.tillerSolve forced
  if s.ctl.till.fault then (s.orRes 0x2E41 0x0D 0x8000).handover 3 else s

/-- Stage `k` of a completed solution as an allocation (R228). -/
def heldAlloc (s : State) (sol : Solve) (k : Nat) : Alloc :=
  let pts := sol.plan.map fun (q : Nat × List (Rat × Rat)) =>
    let d := s.desc q.1
    let st := (planStage q.2 k).getD (0, 0)
    let old := (planStage q.2 (k - 1)).getD (0, 0)
    let da := st.1 - old.1
    (q.1, ({ az := if d.kind = 3 then st.1 else if d.kind = 2 then d.fixed else wrap360 st.1, t := st.2,
             n := commandOf d st.2,
             turn := if d.kind = 2 then 0 else if 1 / 1000 ≤ da then 1 else if da ≤ -(1 / 1000) then 2 else 0 } : Point))
  { pts := pts, sample := s.clk.sample, lifted := sol.lifted, plant := some sol.plant, any := true }

/-- Tiller has not published by the end of f7, or its solve was discarded. -/
def tillerOver (s : State) : State :=
  let t := s.ctl.till
  let l := s.overruns100 t.overs
  let second := t.lastOver == some ((s.clk.sample + 2 ^ 32 - 1) % 2 ^ 32)
  let n := min 255 (s.objU 0x2E50 2 + 1)
  let out := match t.last with
    | some sol => some (s.heldAlloc sol (n + 1))
    | none => t.out
  let s := s.setTill { t with overs := l, lastOver := some s.clk.sample, held := true, sol := none, out := out }
  let s := ((s.incU 0x2E50 1).putU 0x2E50 2 n).putU 0x2E50 3 l.length
  let s := (((s.heldRes 0x2E40).heldRes 0x2E41).stale 0x2E42).stale 0x2E43
  let s := s.orRes 0x2E41 0x0D 0x4000
  let s := s.alarm 0x0701 0 1 [n]
  let s := if second then (s.record 0x0702 2 []).handover 2 else s
  if 5 ≤ l.length then (s.record 0x0703 3 []).unitStop 0x0703 else s

/-- Tiller has published for the sample in progress. -/
def tillerDone (s : State) : Bool := match s.ctl.till.out with
  | some a => a.sample == s.clk.sample
  | none => false

/-! Blends (R264, R265). -/

/-- Blend of one thruster at β. -/
def mixPoint (s : State) (j : Nat) (beta : Rat) (a b : Point) : Point :=
  let d := s.desc j
  let lin := fun (x y : Rat) => (1 - beta) * x + beta * y
  if d.kind = 2 ∨ d.kind = 3 then
    let t := lin a.t b.t
    { az := if d.kind = 2 then d.fixed else lin a.az b.az, t := t, n := commandOf d t }
  else
    let x := lin (a.t * cosd a.az) (b.t * cosd b.az)
    let y := lin (a.t * sind a.az) (b.t * sind b.az)
    let mag := rsqrt (x * x + y * y)
    let raw := if mag < d.tp / 1000 then a.az else wrap360 (rad2deg (Config.atan2 y x))
    let inside := d.used.any fun p => inSector p raw
    let cross := d.cross / 100 * d.tp
    if inside then
      let az := match freeArc d a.az with
        | some (lo, hi) => if rabs (wrap180 (raw - lo)) ≤ rabs (wrap180 (raw - hi)) then wrap360 lo else wrap360 hi
        | none => raw
      let t := rmin mag cross
      { az := az, t := t, n := commandOf d t }
    else { az := raw, t := mag, n := commandOf d mag }

def mix (s : State) (beta : Rat) (from' to' : List (Nat × Point)) : List (Nat × Point) :=
  s.thrusters.map fun j => (j, s.mixPoint j beta (tget {} from' j) (tget {} to' j))

/-- The blended allocation of this sample. -/
def blended (s : State) (dir : Bool) (i : Nat) : List (Nat × Point) :=
  let st := s.ctl.stub
  let till := match s.ctl.till.out with
    | some a => a.pts
    | none => s.ctl.alloc.pts
  if dir then s.mix ((i : Rat) / 10) st.core.frozen st.pts else s.mix ((i : Rat) / 10) st.pts till

/-- An allocation comes into force for the inner loops (R18). -/
def setAlloc (s : State) (a : Alloc) : State := { s with ctl := { s.ctl with alloc := a, leverOn := false } }
/-- The inner loops take set points that are no allocation: Lever's, or the commands themselves while they track. -/
def takeLever (s : State) (pts : List (Nat × Point)) : State :=
  { s with ctl := { s.ctl with lever := pts, leverOn := true } }

/-- Lever's set points as 2220h and 2221h have stood since f0, when their writes came into force (R38, R198). -/
def leverPoints (s : State) : List (Nat × Point) :=
  s.thrusters.map fun j =>
    let n := s.cfgR 0x2221 (j + 1)
    let a := s.cfgR 0x2220 (j + 1)
    (j, { az := if (s.desc j).kind = 3 then wrap180 a else a, t := thrustOf (s.desc j) n, n := n })

/-- Present inner-loop commands as set points. -/
def emittedPoints (s : State) : List (Nat × Point) :=
  s.thrusters.map fun j =>
    let x := s.inner j
    (j, { az := x.core.az, t := thrustOf (s.desc j) x.emitN, n := x.emitN })

/-- The set points change at f8 (R15, R18, R198, R263, R264, R268). While the inner loops track, they follow the commands, so
that control begins from where the thrusters stand (R202, log 144). -/
def applyOut (s : State) : State :=
  let st := s.ctl.stub
  let s :=
    let own := fun (pts : List (Nat × Point)) => s.setAlloc { pts := pts, sample := s.clk.sample, any := true }
    if s.mode.mode = 1 then s.takeLever s.leverPoints
    else if !s.allocates then s.takeLever s.emittedPoints
    else
      match st.core.blend with
      | some (true, i) => own (s.blended true i)
      | some (false, i) => if st.core.cause.isSome then s else own (s.blended false i)
      | none =>
        if st.core.driving then own st.pts
        else match s.ctl.till.out with
          | some a => s.setAlloc a
          | none => s
  if st.core.cause.isSome then
    s.setStub { st with core := { st.core with frozen := s.ctl.alloc.pts } }
  else s

/-! The comparison and the return (R261, R266). -/

/-- d of R261. -/
def divergence (s : State) : Rat :=
  let L := s.cfgR 0x2A00 9
  let sc := fun (v : List Rat) => [vget v 0, vget v 1, vget v 2 / L]
  let norm := fun (v : List Rat) => rsqrt (rsq (vget v 0) + rsq (vget v 1) + rsq (vget v 2))
  let a := sc s.ctl.till.delivered
  let b := sc s.ctl.stub.delivered
  norm (vsub a b) / rmax (norm a) (s.cfgR 0x3202 2)

/-- The count holds in this sample (R260, R261). -/
def countHolds (s : State) : Bool :=
  let t := s.ctl.till
  let est := match s.obs.est with
    | some x => x.held
    | none => false
  t.sat != 0 || t.clip || t.held || est || s.ctl.culm.held || s.ctl.stub.clipped ||
    s.ctl.stub.lim.any (· != 0) || s.ctl.stub.lost

/-- Status word of Table 10-11. -/
def stubWord (s : State) : Nat :=
  let t := s.ctl.stub
  let toS := match t.core.blend with
    | some (true, _) => true
    | _ => false
  let back := match t.core.blend with
    | some (false, _) => true
    | _ => false
  let pending := t.core.driving && (decide (0 < t.dwell) || s.cfgB 0x3203 0)
  bitAt t.core.driving 15 + bitAt toS 14 + bitAt back 13 + bitAt pending 12 + bitAt t.core.locked 11 + bitAt t.lost 10 +
    bitAt t.fallback 9 + bitAt t.divergent 8 + bitAt t.countHeld 7 +
    nsum (axes3 fun a => bitAt (nth false t.clamped a) (4 + a) + bitAt (nth 0 t.lim a != 0) (1 + a)) + bitAt t.estHeld 0

/-- Count divergence and dwell; decide a handover of cause 4 or a return; publish 3212h (R261, R262, R266). -/
def compare (s : State) : State :=
  let t := s.ctl.stub
  let d := s.divergence
  let holds := s.countHolds
  let div := decide (s.cfgR 0x3202 1 < d)
  let count := if holds then t.count else if div then min 65535 (t.count + 1) else 0
  let overs := s.ctl.culm.lastOver == some s.clk.sample || s.ctl.till.lastOver == some s.clk.sample
  let calm := !overs && s.ctl.till.conv && !t.lost && (holds || decide (d ≤ s.cfgR 0x3202 1 / 2))
  let dwell := if calm then min 65535 (t.dwell + 1) else 0
  let s := if div then s.incU 0x3205 4 else s
  let s := if t.count = 0 ∧ count ≠ 0 then s.note 0x0904 [pR d] else s
  let s := s.setStub { t with count := count, d := d, divergent := div, countHeld := holds, dwell := dwell, bad := overs }
  let s := if !holds && div && decide (s.cfgU 0x3202 3 ≤ count) then
      let s := s.handover 4
      let c := s.ctl.stub
      if c.core.cause = some 4 then s.setStub { c with core := { c.core with frozen := s.ctl.alloc.pts } } else s
    else s
  let c := s.ctl.stub
  let s :=
    if c.core.driving && c.core.blend.isNone && c.core.cause.isNone && c.core.ret.isNone && decide (s.cfgU 0x3202 4 ≤ dwell) then
      if s.cfgB 0x3202 5 && !c.core.locked && c.core.lastCause != 4 then
        (s.setStub { c with core := { c.core with ret := some 1 } }).note 0x0903 [1]
      else if s.cfgB 0x3203 0 then
        let s := (s.putBoth 0x3203 0 (.u 0)).lower 0x0908 0
        (s.setStub { c with core := { c.core with ret := some 2, locked := false } }).note 0x0903 [2]
      else s
    else s
  let c := s.ctl.stub
  let step := match c.core.blend with
    | some (_, i) => i
    | none => 0
  let beta : Rat := match c.core.blend with
    | some (_, i) => (i : Rat) / 10
    | none => if c.core.driving then 1 else 0
  s.publishEnd 0x3212 [.u s.stubWord, rv d, .u count, .u step, rv beta, .u dwell]

/-- The work of f8. -/
def allocationApply (s : State) : State := s.applyOut.compare

/-! Boundary work (R264, R266, R268, R269; Table 10-7 step 5). -/

/-- A return completes: Tiller drives again. -/
def returned (s : State) : State :=
  let c := s.ctl.stub
  ((s.setStub { c with core := { c.core with blend := none, driving := false, ret := none }, dwell := 0 }).note 0x0902 [2]).lower
    0x0901 0

/-- A blend ends at a change to mode 0, 1 or 6 (R269, log 34). -/
def endBlend (s : State) : State :=
  let c := s.ctl.stub
  match c.core.blend with
  | some (true, _) => (s.setStub { c with core := { c.core with blend := none } }).note 0x0902 [1]
  | some (false, _) => s.returned
  | none => s

/-- Start of a handover or a return, or a blend step, at f0. A handover decided in mode 0, 1 or 6 does not blend (R269). -/
def blendStep (s : State) : State :=
  let c := s.ctl.stub
  let put := fun (x : StubCore) => s.setStub { c with core := x }
  match c.core.cause with
  | some _ =>
    let blend := if c.core.blends && s.allocates then some (true, 1) else none
    let frozen := if c.core.frozen = [] then s.ctl.alloc.pts else c.core.frozen
    put { c.core with cause := none, driving := true, blend := blend, frozen := frozen, ret := none }
  | none =>
    match c.core.blend with
    | some (dir, i) =>
      if i < 10 then put { c.core with blend := some (dir, i + 1) }
      else if dir then (put { c.core with blend := none }).note 0x0902 [1]
      else s.returned
    | none =>
      match c.core.ret with
      | some _ =>
        let s := s.incU 0x3205 2
        if s.allocates then s.setStub { c with core := { c.core with ret := none, blend := some (false, 1) } } else s.returned
      | none => s

/-- A promotion during a return blend applies the blend at the present step at that f0 (R271). -/
def remix (s : State) : State :=
  match s.ctl.stub.core.blend with
  | some (false, i) => if s.allocates && s.ctl.till.promoted.isSome then
      s.setAlloc { s.ctl.alloc with pts := s.blended false i } else s
  | _ => s

/-- Adopt the Lead's Tiller and Stubble states at f0 (R232, R272). -/
def adoptControl (s : State) (till : TillCore) (stub : StubCore) : State :=
  (s.setTill { s.ctl.till with core := till }).setStub { s.ctl.stub with core := stub }

end State

/-- CULM_LAW_OVERRUN (R206): at f3; a residue failure names its lane and stage. -/
def execCulmLawOverrun (lane : Option (Nat × Nat)) (s : State) : Out :=
  if s.up && s.fOff == 3 && (lane.isSome || !s.ctl.culm.published) then .next (s.culmOver lane) else .next s

/-- TILLER_NOMINAL_SOLVE (R221): from f4; `forced` a numeric fault of kind 2 or 4 with its lane. -/
def execTillerNominalSolve (forced : Option (Nat × Nat)) (s : State) : Out :=
  if s.up && s.fOff == 4 then .next (s.tillerStep forced) else .next s

/-- TILLER_OVERRUN (R228): at f7, when nothing has been published for this sample. -/
def execTillerOverrun (s : State) : Out :=
  if s.up && s.fOff == 7 && !s.tillerDone then .next s.tillerOver else .next s

/-- ALLOCATION_APPLY (R15): at f8. -/
def execAllocationApply (s : State) : Out :=
  if s.up && s.fOff == 8 then .next s.allocationApply else .next s

end Sys2Proof.Machine
end

