-- ==== Sys2Proof/Machine/Ports.lean ====
section
/-! DEFINITION. Serial, IEC 61162-450, IMU, analog and discrete ports (chapter 15). -/
namespace Sys2Proof.Machine

/-! Text and fields of sentences. -/

/-- Split at a byte. -/
def splitAt' (c : Byte) : List Byte → List (List Byte)
  | [] => [[]]
  | b :: t =>
    match splitAt' c t with
    | [] => [[b]]
    | h :: r => if b = c then [] :: h :: r else (b :: h) :: r

def isDigit (b : Byte) : Bool := 0x30 ≤ b.toNat && b.toNat ≤ 0x39
def digitsVal (l : List Byte) : Nat := l.foldl (fun n b => n * 10 + (b.toNat - 0x30)) 0

/-- A decimal number of a field; none when it is empty or no number. -/
def parseDec (l : List Byte) : Option Rat :=
  let (neg, l) := match l with
    | b :: t => if b = 0x2D#8 then (true, t) else if b = 0x2B#8 then (false, t) else (false, l)
    | [] => (false, l)
  let int := l.takeWhile isDigit
  let rest := l.drop int.length
  let frac := match rest with
    | b :: t => if b = 0x2E#8 then t else []
    | [] => []
  let good := (rest = [] || rest.head? == some 0x2E#8) && frac.all isDigit && (!int.isEmpty || !frac.isEmpty)
  if !good then none else
  let v : Rat := (digitsVal int : Rat) + (digitsVal frac : Rat) / ((10 ^ frac.length : Nat) : Rat)
  some (if neg then -v else v)

/-- Two hexadecimal digits. -/
def parseHex2 (l : List Byte) : Option Nat :=
  let d := fun (b : Byte) =>
    let n := b.toNat
    if 0x30 ≤ n ∧ n ≤ 0x39 then some (n - 0x30) else if 0x41 ≤ n ∧ n ≤ 0x46 then some (n - 0x37)
    else if 0x61 ≤ n ∧ n ≤ 0x66 then some (n - 0x57) else none
  match l with
  | [a, b] => match d a, d b with
    | some x, some y => some (16 * x + y)
    | _, _ => none
  | _ => none

def xorAll (l : List Byte) : Nat := l.foldl (fun n b => n ^^^ b.toNat) 0

/-- hhmmss.ss as ns of the day. -/
def parseTod (l : List Byte) : Option Nat :=
  if 6 ≤ l.length ∧ (l.take 6).all isDigit then
    (parseDec (l.drop 4)).map fun sec =>
      (digitsVal (l.take 2) * 3600 + digitsVal ((l.drop 2).take 2) * 60) * 1000000000 + (sec * 1000000000).floor.toNat
  else none

/-- ddmm.mmm or dddmm.mmm with its hemisphere, in degrees. -/
def parseAngle (l h : List Byte) : Option Rat :=
  match parseDec l with
  | none => none
  | some x =>
    let d := (x / 100).floor
    let v : Rat := d + (x - 100 * d) / 60
    if h = ascii "N" ∨ h = ascii "E" then some v
    else if h = ascii "S" ∨ h = ascii "W" then some (-v) else none

/-- Days from 1970-01-01 to a date. -/
def daysFrom (y m d : Int) : Int :=
  let y := if m ≤ 2 then y - 1 else y
  let era := y / 400
  let yoe := y - era * 400
  let doy := (153 * (m + (if m > 2 then -3 else 9)) + 2) / 5 + d - 1
  era * 146097 + (yoe * 365 + yoe / 4 - yoe / 100 + doy) - 719468

/-- A sentence that passed R387: talker, code, fields (0 is the address). -/
structure Sentence where
  talker : Nat
  code : Nat
  f : List (List Byte)
  deriving DecidableEq, Repr

/-- Code of a formatter (Table 15-1). -/
def formatCode (f : List Byte) : Nat :=
  if f = ascii "GGA" then 0x01 else if f = ascii "GNS" then 0x02 else if f = ascii "GST" then 0x03
  else if f = ascii "HDT" then 0x04 else if f = ascii "THS" then 0x05 else if f = ascii "ROT" then 0x06
  else if f = ascii "VTG" then 0x07 else if f = ascii "MWV" then 0x08 else if f = ascii "ZDA" then 0x09
  else if f = ascii "RMC" then 0x0A else 0

/-- What a line of text is (R387): too long, failed checksum or a missing one, not a sentence, ignored, or a sentence. -/
inductive Parsed where
  | tooLong | badSum | none | ok (x : Sentence)
  deriving DecidableEq, Repr

/-- Read a sentence; talker characters are packed with the first in the low byte (log 35). -/
def readSentence (needSum : Bool) (l : List Byte) : Parsed :=
  if 82 < l.length then .tooLong
  else if l.head? ≠ some 0x24#8 ∨ lastN 2 l ≠ [0x0D#8, 0x0A#8] then .none
  else
    let inner := (l.drop 1).take (l.length - 3)
    let body := inner.takeWhile (· != 0x2A#8)
    let tail := inner.drop body.length
    let sumOk := match tail with
      | [] => !needSum
      | _ :: t => match parseHex2 t with
        | some n => n == xorAll body
        | none => false
    if !sumOk then .badSum
    else
      let f := splitAt' 0x2C#8 body
      let a := nth [] f 0
      if a.length ≠ 5 then .none
      else
        let c := formatCode (a.drop 2)
        if c = 0 then .none else .ok ⟨leNat (a.take 2), c, f⟩

/-- Knots as m/s. -/
def knots (x : Rat) : Rat := x * 1852 / 3600

/-- Field of a sentence. -/
def Sentence.at (x : Sentence) (i : Nat) : List Byte := nth [] x.f i

/-- Time field of a sentence, ns of the day. -/
def Sentence.tod (x : Sentence) : Option Nat :=
  if x.code ≤ 0x03 ∨ x.code = 0x09 ∨ x.code = 0x0A then parseTod (x.at 1) else none

/-- Values of a sentence for a kind, none when it is delivered invalid (Table 15-1); `height` is 2500h:03h. -/
def Sentence.vals (x : Sentence) (kind : Nat) (height : Rat) : Option (List Rat) :=
  let n := fun i => parseDec (x.at i)
  let pos := fun (i : Nat) (h : Option Rat) =>
    match parseAngle (x.at i) (x.at (i + 1)), parseAngle (x.at (i + 2)) (x.at (i + 3)), h with
    | some a, some b, some c => some [a, b, c]
    | _, _, _ => none
  let add := fun (a b : Option Rat) => match a, b with
    | some p, some q => some (p + q)
    | _, _ => none
  let ground := fun (c v : Option Rat) => match c, v with
    | some c, some v => some [knots v * cosd c, knots v * sind c]
    | _, _ => none
  match x.code with
  | 0x01 => if n 6 = some 0 ∨ x.at 6 = [] then none else pos 2 (add (n 9) (n 11))
  | 0x02 => if (x.at 6).all (· == 0x4E#8) then none else pos 2 (add (n 9) (n 10))
  | 0x04 => (n 1).map fun a => [a]
  | 0x05 => if x.at 2 = ascii "A" then (n 1).map fun a => [a] else none
  | 0x06 => if x.at 2 = ascii "V" then none else (n 1).map fun a => [a / 60]
  | 0x07 => if x.at 9 = ascii "N" then none else ground (n 1) (n 5)
  | 0x08 =>
    if x.at 5 = ascii "V" ∨ x.at 2 = ascii "T" then none else
    let k : Option Rat := if x.at 4 = ascii "K" then some (1000 / 3600) else if x.at 4 = ascii "M" then some 1
      else if x.at 4 = ascii "N" then some (1852 / 3600) else none
    match n 1, n 3, k with
    | some a, some v, some k => some [v * k, a]
    | _, _, _ => none
  | 0x0A =>
    if x.at 2 = ascii "V" ∨ x.at 12 = ascii "N" then none
    else if kind = 0x01 then pos 3 (some height) else ground (n 8) (n 7)
  | _ => none

/-- TAI time of a label in ns (R390), with the offset TAI - UTC. -/
def Sentence.label (x : Sentence) (leap : Int) : Option Int :=
  let day := fun (d m y : Rat) => daysFrom y.floor m.floor d.floor
  let at' := fun (tod : Nat) (days : Int) => (days * 86400 + leap) * 1000000000 + (tod : Int)
  match x.code, x.tod with
  | 0x09, some t => match parseDec (x.at 2), parseDec (x.at 3), parseDec (x.at 4) with
    | some d, some m, some y => some (at' t (day d m y))
    | _, _, _ => none
  | 0x0A, some t => match parseDec (x.at 9) with
    | some v =>
      let n := v.floor.toNat
      if x.at 2 = ascii "V" then none else some (at' t (day (n / 10000 : Nat) (n / 100 % 100 : Nat) (2000 + n % 100 : Nat)))
    | none => none
  | _, _ => none

/-! Raw fields and checks (R391, R392, Table 4-4). -/

/-- A mapped field of a frame: its value, and whether its validity bit holds; none when it lies outside. -/
def rawField (m : Nat) (b : List Byte) : Option (Rat × Bool) :=
  let off := m % 256
  let flag := field m 8 8
  let ok := if bit flag 7 then bit ((nth 0#8 b (flag % 128 / 8)).toNat) (flag % 8) else true
  let size := if field m 28 3 ≤ 1 then 2 else 4
  if b.length < off + size then none else
  let n := leAt b off size
  match field m 28 3 with
  | 0 => some ((toSigned 16 n : Int), ok)
  | 1 => some (n, ok)
  | 2 => some ((toSigned 32 n : Int), ok)
  | 3 => some (n, ok)
  | _ => if F32.finite (BitVec.ofNat 32 n) then some (F32.toRat (BitVec.ofNat 32 n), ok) else none

/-- CRC-16 of polynomial 1021h, initial value FFFFh, most significant bit first. -/
def crc16Step : Nat → Nat → Nat
  | 0, c => c
  | n + 1, c => crc16Step n (if 32768 ≤ c then ((c * 2) ^^^ 0x1021) % 65536 else c * 2)
def crc16 (b : List Byte) : Nat := b.foldl (fun c x => crc16Step 8 (c ^^^ (x.toNat * 256))) 0xFFFF

/-- The check of a frame (R392): kind, first byte covered. -/
def checkOk (kind start : Nat) (b : List Byte) : Bool :=
  let size := match kind with
    | 1 | 2 => 1 | 3 => 2 | 4 => 4 | _ => 0
  if kind = 0 then true else if b.length < size then false else
  let body := (b.take (b.length - size)).drop start
  let given := leAt b (b.length - size) size
  match kind with
  | 1 => given == nsum (body.map (·.toNat)) % 256
  | 2 => given == xorAll body
  | 3 => given == crc16 body
  | _ => given == crc32c body

namespace State

def serial (s : State) (p : Nat) : Serial := tget {} s.io.serial p
def setSerial (s : State) (p : Nat) (x : Serial) : State := { s with io := { s.io with serial := tset s.io.serial p x } }

/-- Event 1201h, at most once a minute per port, with the increase of the port's error counters. -/
def notePort (s : State) (p : Nat) : State :=
  let x := s.serial p
  let total := nsum ((List.range 5).map fun i => s.objU (0x4490 + p) (i + 2))
  let due := match x.noted with
    | some t => decide (t + 60000000000 ≤ s.clk.time)
    | none => true
  if due then (s.setSerial p { x with noted := some s.clk.time, base := total }).note 0x1201 [p, total - x.base] else s

/-- Count an error of a port. -/
def portError (s : State) (p sub : Nat) : State := (s.incU (0x4490 + p) sub).notePort p

/-! Sentences (R387-R390). -/

/-- Enabled streams bound to a source with code and talker: binding 01h serial, 02h intake (Table 4-3). -/
def sentenceStreams (s : State) (binding id : Nat) (x : Sentence) : List Nat :=
  (List.range 256).filter fun k => match (s.stream k).cfg with
    | some (_, b, a, _) =>
      let src := if binding = 1 then a % 16 else a % 64
      b == binding && src == id && field a 8 8 == x.code && (field a 16 16 == 0 || field a 16 16 == x.talker)
    | none => false

/-- Position streams of a port and talker, for GST. -/
def gstStreams (s : State) (binding id talker : Nat) : List Nat :=
  (List.range 256).filter fun k => match (s.stream k).cfg with
    | some (kind, b, a, _) =>
      kind == 0x01 && b == binding && (if binding = 1 then a % 16 else a % 64) == id &&
        (field a 16 16 == 0 || field a 16 16 == talker)
    | none => false

/-- Key of a source and talker. -/
def gstKey (binding id talker : Nat) : Nat := (binding * 64 + id) * 65536 + talker

/-- A GST sentence (R389). -/
def takeGst (s : State) (binding id arrival : Nat) (x : Sentence) : State :=
  match x.tod, parseDec (x.at 6), parseDec (x.at 7) with
  | some t, some a, some b =>
    let stamp := s.utcToTai t arrival
    let sg := rmax a b
    let s := foldS s (s.gstStreams binding id x.talker) fun s k =>
      let st := s.stream k
      s.setStream k { st with buf := st.buf.map fun y => if y.field = some (stamp, x.talker) then { y with sd := some sg } else y }
    { s with io := { s.io with gst := tset s.io.gst (gstKey binding id x.talker) ⟨stamp, sg, arrival⟩ } }
  | _, _, _ => s

/-- σ of a position sample (R389): a matching GST, else the previous one within 5.0 s. -/
def gstFor (s : State) (binding id talker : Nat) (stamp : Int) (arrival : Nat) : Option Rat :=
  match tfind s.io.gst (gstKey binding id talker) with
  | some g => if g.stamp = stamp ∨ arrival ≤ g.at' + 5000000000 then some g.sigma else none
  | none => none

/-- A sentence from a source feeds its streams and labels. -/
def takeSentence (s : State) (binding id arrival : Nat) (x : Sentence) : State :=
  let s := if x.code = 0x03 then s.takeGst binding id arrival x else s
  let s := match x.label (s.objI 0x3801 1) with
    | some t => { s with io := { s.io with
        labels := tset s.io.labels ((binding * 64 + id) * 16777216 + x.code * 65536 + x.talker) (t, arrival) } }
    | none => s
  foldS s (s.sentenceStreams binding id x) fun s k =>
    match (s.stream k).cfg with
    | none => s
    | some (kind, _, _, sl) =>
      let stamp : Option Int := if sl = 0xFF then some (arrival : Int) else x.tod.map fun t => s.utcToTai t arrival
      match stamp, x.vals kind (s.cfgR 0x2500 3) with
      | some t, some v =>
        let field := if kind = 0x01 then x.tod.map fun d => s.utcToTai d arrival else none
        let sd := field.bind fun f => s.gstFor binding id x.talker f arrival
        s.sheafAccept k { stamp := t, arrival := arrival, raw := v, sd := sd, field := field.map fun f => (f, x.talker) } true
      | _, _ => s.sheafAccept k { stamp := 0, arrival := arrival, raw := [] } false

/-- A sentence from a serial port in mode 1. -/
def serialSentence (s : State) (p arrival : Nat) (text : List Byte) : State :=
  match readSentence (s.cfgB (0x4400 + p) 7) text with
  | .tooLong => s.portError p 5
  | .badSum => s.portError p 2
  | .none => s
  | .ok x => (s.incU (0x4490 + p) 1).takeSentence 1 p arrival x

/-! Raw frames (R391). -/

/-- The bytes are one frame as the port delimits it (R391): after an idle gap, or a sync pattern with a fixed length or a length
byte. -/
def delimited (s : State) (p : Nat) (b : List Byte) : Bool :=
  let i := 0x4400 + p
  let k := s.cfgU i 0x0A
  let sync := b.take k == natLe k (s.cfgU i 9)
  decide (4 ≤ b.length) && decide (b.length ≤ 256) && match s.cfgU i 8 with
    | 1 => sync && b.length == s.cfgU i 0x0B
    | 2 => sync && (b.length : Int) == ((leAt b (s.cfgU i 0x0C) 1 : Nat) : Int) + s.cfgI i 0x0D
    | _ => true

def rawFrame (s : State) (p arrival : Nat) (b : List Byte) : State :=
  if !s.delimited p b then s
  else if !checkOk (s.cfgU (0x4400 + p) 0x0F) (s.cfgU (0x4400 + p) 0x10) b then s.portError p 6
  else
    let s := s.incU (0x4490 + p) 1
    let ks := (List.range 256).filter fun k => match (s.stream k).cfg with
      | some (_, 8, a, _) => a % 16 == p
      | _ => false
    foldS s ks fun s k =>
      let i := 0x2400 + k
      let kind := match (s.stream k).cfg with
        | some c => c.1
        | none => 0
      let parts := (List.range (kindSize kind)).map fun c =>
        let m := s.cfgU i (0x11 + c)
        if bit m 31 then (rawField m b).map fun r => (r.1 * s.cfgR i (0x14 + c), r.2) else none
      if parts.all (fun r => match r with
          | some x => x.2
          | none => false) then
        s.sheafAccept k { stamp := arrival, arrival := arrival, raw := parts.filterMap fun r => r.map (·.1) } true
      else s.sheafAccept k { stamp := arrival, arrival := arrival, raw := [] } false

/-! IEC 61162-450 (R393-R395). -/

/-- A TAG block's parameters, none when its checksum fails. -/
def tagBlock (b : List Byte) : Option (List (List Byte)) :=
  let body := b.takeWhile (· != 0x2A#8)
  match parseHex2 (b.drop (body.length + 1)) with
  | some n => if n = xorAll body then some (splitAt' 0x2C#8 body) else none
  | none => none

/-- Value of a parameter. -/
def tagValue (name : String) (l : List (List Byte)) : Option (List Byte) :=
  (l.find? fun x => x.take 2 == ascii name).map (·.drop 2)

/-- One line of a datagram: its TAG block (outer none a failed one, inner none no block) and its sentence text. -/
def datagramLine (l : List Byte) : Option (Option (List (List Byte))) × List Byte :=
  match l with
  | b :: t =>
    if b = 0x5C#8 then
      let blk := t.takeWhile (· != 0x5C#8)
      ((tagBlock blk).map some, t.drop (blk.length + 1))
    else (some none, l)
  | [] => (some none, [])

/-- The unit has joined the group of an intake entry on an Ethernet port with IGMPv2 (R393). -/
def joinsGroup (s : State) (e port : Nat) : Bool := s.cfgB (0x4430 + e) 1 && decide (port < 4) && bit (s.cfgU (0x4430 + e) 4) port

/-- Ingress correction (R355). -/
def ingress (s : State) (port : Nat) (capture : Rat) : Rat := capture - 2128 / 10 - s.cfgR 0x3860 (port + 1)
/-- Egress correction (R355). -/
def egress (s : State) (port : Nat) (capture : Rat) : Rat := capture + 168 + s.cfgR 0x3860 (port + 5)

/-- A datagram of an enabled intake entry. -/
def intake (s : State) (e arrival : Nat) (d : List Byte) : State :=
  if d.take 6 ≠ ascii "UdPbC" ++ [0#8] then s.incU 0x44B0 2
  else
    let texts := (splitAt' 0x0A#8 (d.drop 6)).filter (· != [])
    let lines := texts.map fun l => datagramLine (l ++ [0x0A#8])
    if lines.any (fun x => x.1.isNone) then s.incU 0x44B0 3
    else
      let tags := (lines.filterMap fun x => x.1.getD none).flatten
      let src : Option (List Byte) := tagValue "s:" tags
      let num : Option (List Byte) := tagValue "n:" tags
      let want := s.cfgD (0x4430 + e) 5
      let known := tags.all fun x => x.take 2 == ascii "s:" || x.take 2 == ascii "n:" || x.take 2 == ascii "c:"
      if !known ∨ (want ≠ [] ∧ src ≠ some want) then s
      else
        let recent := s.io.dup.filter fun x => s.clk.time < x.2.2 + 1000000000
        let dup := match src, num with
          | some a, some b => recent.any fun x => x.1 == a && x.2.1 == b
          | _, _ => false
        if dup then s.incU 0x44B0 4
        else
          let keep := match src, num with
            | some a, some b => recent ++ [(a, b, s.clk.time)]
            | _, _ => recent
          let s := { s with io := { s.io with dup := keep } }.incU 0x44B0 1
          foldS s lines fun s x =>
            match readSentence true x.2 with
            | .ok y => s.takeSentence 2 e arrival y
            | _ => s

/-! IMU (R396-R400). -/

def imu (s : State) (i : Nat) : Imu := tget {} s.io.imu i
def setImu (s : State) (i : Nat) (x : Imu) : State := { s with io := { s.io with imu := tset s.io.imu i x } }

/-- R397 of the client's values with one object replaced. -/
def imuOk (s : State) (idx sub : Nat) (v : Val) : Bool :=
  let n := fun k => if sub = k then v.asNat else s.objU idx k
  let r := fun k => if sub = k then v.asRat else s.objR idx k
  decide (((n 7 + n 8 : Nat) : Rat) * 8 / r 2 + 2 ≤ 800000 / r 9) &&
    (List.range 7).all fun k => field (n (0x0B + k)) 28 3 ≤ 4

def ruleImu (s : State) (_ : Path) (idx sub : Nat) (v : Val) : Verdict :=
  if s.imuOk idx sub v then .store else .refuse abValue (s.note 0x1206 [idx, sub])

/-- A DRDY edge (R396, R398). -/
def imuEdge (s : State) (i t : Nat) : State :=
  let m := s.imu i
  match m.reading with
  | some _ => (s.incU (0x44B8 + i) 2).setImu i { m with lastEdge := t }
  | none => s.setImu i { m with reading := some t, lastEdge := t }

/-- A discarded read (R399, R400). -/
def imuDrop (s : State) (i : Nat) (m : Imu) : State :=
  (s.incU (0x44B8 + i) 3).setImu i { m with reading := none, bad := m.bad + 1, good := 0 }

/-- Deliver a field of an IMU to the streams of its kind (binding 04h). -/
def imuFeed (s : State) (i : Nat) (tov : Nat) (fields : List Rat) : State :=
  let ks := (List.range 256).filter fun k => match (s.stream k).cfg with
    | some (kind, 4, a, _) => a % 2 == i && (kind == 0x06 || kind == 0x07)
    | _ => false
  foldS s ks fun s k =>
    let kind := match (s.stream k).cfg with
      | some c => c.1
      | none => 0
    let v := if kind = 0x07 then fields.take 3 else [nth 0 fields 3]
    s.sheafAccept k { stamp := tov, arrival := s.clk.time, raw := v } true

/-- A read has ended with its data bytes. -/
def imuRead (s : State) (i : Nat) (b : List Byte) : State :=
  let m := s.imu i
  match m.reading with
  | none => s
  | some t =>
    let idx := 0x4470 + i
    let maps := (List.range 7).map fun k =>
      let w := s.cfgU idx (0x0B + k)
      if bit w 31 then (rawField w b).map fun r => (r.1 * s.cfgR idx (0x12 + k), r.2) else some (0, true)
    let good := b.length == s.cfgU idx 8 && checkOk (s.cfgU idx 0x0A) 0 b && maps.all fun r => match r with
      | some x => x.2
      | none => false
    if !good then s.imuDrop i m
    else
      let f := maps.map fun r => match r with
        | some x => x.1
        | none => 0
      let tov := t - (s.cfgR idx 5 * 1000000).floor.toNat
      let n := m.good + 1
      let back := m.fault && decide (100 ≤ n)
      let s := (s.incU (0x44B8 + i) 1).setImu i { m with
        reading := none, bad := 0, good := if back then 0 else n, fault := m.fault && !back, fields := f, tov := tov }
      let s := if back then (s.note 0x1203 []).lower 0x1202 i else s
      s.imuFeed i tov f

/-- A port is silent for 8 nominal periods, or has discarded 8 reads in a row (R400): 1, 2, else 0. -/
def imuFaulty (s : State) (i : Nat) : Nat :=
  let m := s.imu i
  let idx := 0x4470 + i
  if !(decide (i < 2) && s.cfgB idx 1) || m.fault then 0
  else if 8 ≤ m.bad then 2
  else if max m.lastEdge m.since + (8000000000 / s.cfgR idx 9).ceil.toNat ≤ s.clk.time then 1 else 0

/-- Publish 44D0h. -/
def publishImu (s : State) : State :=
  let f := fun i => (s.imu i).fields.map rv
  s.publish 0x44D0 (f 0 ++ f 1 ++ [.u (s.imu 0).tov, .u (s.imu 1).tov, .u (bitAt (s.imu 0).fault 0 + bitAt (s.imu 1).fault 1)])

/-! Analog inputs (R401-R403). -/

def analogRange (s : State) (a : Nat) : Nat := tget 0 s.io.ranges a
/-- Full scale in V of an input. -/
def fullScale (s : State) (a : Nat) : Rat :=
  match s.analogRange a with
  | 1 => 1024 / 100 | 2 => 256 / 100 | 3 => s.io.arefV | _ => 0

/-- Take the analog samples of a frame; a withheld input (R402) and one off keep none. -/
def takeAnalog (s : State) (l : List Rat) : State :=
  let on := fun a => s.analogRange a != 0 && !(s.analogRange a == 3 && s.io.aref)
  let put := fun (m : List (Nat × Rat)) (a : Nat) => if on a then tset m a (nth 0 l a) else m
  let overs := ofBits ((List.range 16).filter fun a => on a && decide (105 / 100 < rabs (nth 0 l a)))
  { s with io := { s.io with analog := (List.range l.length).foldl put s.io.analog, overload := overs } }

/-- Publish 44C0h from the newest sample of each input. -/
def publishAnalog (s : State) : State :=
  s.publish 0x44C0 ((List.range 16).map (fun a => rv (tget 0 s.io.analog a * s.fullScale a)) ++
    [.u s.io.overload, .u (b2n s.io.aref)])

/-! Discrete lines (R404-R406). -/

/-- Active level of an owned line. -/
def ownedLevel (s : State) (d : Nat) : Bool :=
  match s.cfgU (0x4E00 + d) 2 with
  | 0 => bit (s.cfgU 0x4E40 0) d
  | 1 => bit s.io.panDio d
  | _ => (s.io.pulses.any fun p => p.1 == d && decide (s.clk.time < p.2))

/-- The running program drives a line: scans run and an output binding names it (R429, R434). -/
def panDrives (s : State) (d : Nat) : Bool :=
  s.cfgB 0x3C00 2 && match s.pan.prog with
    | some p => p.binds.any fun b => b.dir == 2 && b.kind == 2 && b.addr == d
    | none => false

/-- One line: driven, pad level it is driven to. An open-drain line can only sink: it is released where it stands high. -/
def lineOut (s : State) (d : Nat) : Bool × Bool :=
  let i := 0x4E00 + d
  let dir := s.cfgU i 1
  let failed := s.st.power == .stopped || (s.cfgB i 5 && s.st.role != 0) ||
    (s.cfgU i 2 == 1 && !s.panDrives d)
  if dir = 0 then (false, false)
  else if failed then
    match s.cfgU i 4 with
    | 0 => (true, false) | 1 => (dir == 1, dir == 1) | 2 => (false, false) | _ => (bit s.io.driven d, bit s.io.level d)
  else
    let a := s.ownedLevel d
    if dir = 1 then (true, a) else (a, false)

/-- Drive every DIO line; high impedance where the unit does not run (R406). -/
def driveDio (s : State) : State :=
  if !(s.up || s.st.power == .stopped) then { s with io := { s.io with driven := 0, level := 0 } }
  else
    let l := (List.range 24).map fun d => (d, s.lineOut d)
    { s with io := { s.io with
        driven := ofBits ((l.filter fun x => x.2.1).map (·.1)), level := ofBits ((l.filter fun x => x.2.2).map (·.1)) } }

/-- A compare drives a line for a width (R404). -/
def comparePulse (s : State) (n line t width : Nat) : State :=
  if line < 24 ∧ s.cfgU (0x4E00 + line) 1 ≠ 0 ∧ s.cfgU (0x4E00 + line) 2 = 2 then
    { s with io := { s.io with pulses := tset s.io.pulses line (t + width) } }.driveDio
  else s.note 0x1704 [n, line]

/-! Safe outputs (R407-R410). -/

/-- Condition of Table 15-2 for line k. -/
def safeWish (s : State) (k : Nat) : Bool :=
  let lead := s.st.role == 0
  let permit := bit (s.cfgU 0x4E41 0) k
  s.up && match s.cfgU (0x4E20 + k) 1 with
    | 1 => true
    | 2 => lead
    | 3 => lead && 1 ≤ s.mode.mode && s.mode.mode ≤ 5
    | 4 => permit
    | 5 => lead && permit
    | _ => false

/-- Cause of event 1701h: 0 Table 15-2, 1 stop under F3, 2 overcurrent, 3 supervisor, 4 Dormancy or not running
(log 36); the event's code for it is free. -/
def safeCause (s : State) (k : Nat) : Nat :=
  if s.io.latchedLow then 3 else if s.st.power = .stopped then 1 else if !s.up then 4 else if bit s.io.overs k then 2 else 0

/-- Drive SAFE lines to `want` (a mask), recording each change. -/
def setSafe (s : State) (want : Nat) : State :=
  let was := s.io.safe
  let s := { s with io := { s.io with safe := want } }
  foldS s ((List.range 8).filter fun k => bit was k != bit want k) fun s k =>
    s.note 0x1701 [k, b2n (bit want k), Config.reason 0x1701 (s.safeCause k)]

/-- SAFE_LINE_UPDATE at the start of a frame (R409). -/
def safeUpdate (s : State) : State :=
  s.setSafe (ofBits ((List.range 8).filter fun k =>
    s.safeWish k && !s.io.latchedLow && !bit s.io.overs k && !s.degraded 7 k))

/-- LR lines the unit asserts: only the Lead drives them (R289). -/
def lrMask (s : State) : Nat :=
  if s.up && s.st.role == 0 then ofBits (s.ctl.plant.core.lr.map (·.1)) else 0

/-- Error register 1001h bit 1 and the overcurrent word 4E30h:09h live in `over`, `overLr`. -/
def overWord (s : State) : Nat := s.io.overs + s.io.overLr * 256

/-- Publish 4E30h. -/
def publishDiscrete (s : State) : State :=
  s.publish 0x4E30 [.u s.io.dio, .u s.io.driven, .u s.io.safe, .u s.lrMask, .u (b2n (!s.io.wake)), .u s.overWord]

/-- Changes of analog range at f0 (R403); the inputs whose range changed. -/
def rangesDue (s : State) : List Nat :=
  (List.range 16).filter fun a => s.cfgU (0x4480 + a) 1 != s.analogRange a
/-- AREF1 is monitored: an analog input is in range 3 (R556). -/
def arefWatched (s : State) : Bool := (List.range 16).any fun a => s.analogRange a == 3
def applyRanges (s : State) : State :=
  let put := fun (l : List (Nat × Nat)) (a : Nat) =>
    if s.cfgU (0x4480 + a) 1 = 0 then tdel l a else tset l a (s.cfgU (0x4480 + a) 1)
  let s : State := { s with io := { s.io with ranges := (List.range 16).foldl put s.io.ranges } }
  -- AREF1 is no longer monitored once no input is in range 3 (R556; log 153)
  if s.io.aref && !s.arefWatched then ({ s with io := { s.io with aref := false } } : State).lower 0x1204 0 else s

/-- Chaff channels that name an input of a set restart at the next frame, as on a change of source (R403). -/
def chaffSource (s : State) (inputs : List Nat) : State :=
  let ks := (List.range 256).filter fun n => s.cfgU (0x2800 + n) 1 == 1 && inputs.contains (s.cfgU (0x2800 + n) 2 % 16)
  { s with chaff := { s.chaff with pend := ks.foldl (fun l n => tset l n 2) s.chaff.pend } }

end State

/-- A port that can take part now. -/
def portOn (s : State) (p mode : Nat) : Bool := s.up && decide (p < 16) && s.cfgU (0x4400 + p) 1 == mode
/-- A half-duplex port ignores reception while it sends (R384). -/
def portDeaf (s : State) (p : Nat) : Bool := s.cfgU (0x4400 + p) 4 == 2 && (s.serial p).tx.isSome

/-- SERIAL_CHARACTER_ERROR (R383). -/
def execSerialCharacterError (p : Nat) (s : State) : Out :=
  if (portOn s p 1 || portOn s p 2) && !portDeaf s p then .next (s.portError p 3) else .next s

/-- SENTENCE_RECEIVED (R387): its characters from "$" to LF, and the arrival stamp of R385. -/
def execSentenceReceived (p arrival : Nat) (text : List Byte) (s : State) : Out :=
  if portOn s p 1 && !portDeaf s p then .next (s.serialSentence p arrival text) else .next s

/-- RAW_FRAME_RECEIVED (R391): the bytes of a delimited frame and its arrival stamp. -/
def execRawFrameReceived (p arrival : Nat) (b : List Byte) (s : State) : Out :=
  if portOn s p 2 && !portDeaf s p then .next (s.rawFrame p arrival b) else .next s

/-- SERIAL_TRANSMIT_COMPLETE (R386). -/
def execSerialTransmitComplete (p : Nat) (s : State) : Out :=
  if s.up && (s.serial p).tx.isSome then .next (s.setSerial p { s.serial p with tx := none }) else .next s

/-- Own rule of 4420h + p (R386): a port off, receive only, or still sending refuses (log 37). -/
def State.ruleTransmit (s : State) (_ : Path) (idx _ : Nat) (v : Val) : Verdict :=
  let p := idx - 0x4420
  if s.cfgU (0x4400 + p) 1 = 0 ∨ s.cfgU (0x4400 + p) 4 = 0 ∨ (s.serial p).tx.isSome then .refuse abStore s
  else .done (s.setSerial p { s.serial p with tx := some v.asBytes })

/-- SERIAL_TRANSMIT (R386): a write of 4420h + p:00h. -/
def execSerialTransmit (path : Path) (p : Nat) (b : List Byte) (s : State) : Out :=
  .next (if s.up && decide (p < 16) then s.writeWith State.ruleTransmit path (0x4420 + p) 0 b else s)

/-- INTAKE_DATAGRAM (R393, R395): for an enabled entry, received on an Ethernet port; `capture` is the ingress capture of its
first frame. -/
def execIntakeDatagram (e port capture : Nat) (d : List Byte) (s : State) : Out :=
  if s.up && decide (e < 64) && s.joinsGroup e port then .next (s.intake e (s.ingress port capture).floor.toNat d)
  else .next s

/-- IMU_DESCRIPTOR_WRITE (R397): a write of 4470h or 4471h. -/
def execImuDescriptorWrite (path : Path) (i sub : Nat) (b : List Byte) (s : State) : Out :=
  .next (if s.up && decide (i < 2) then s.writeWith State.ruleImu path (0x4470 + i) sub b else s)

/-- IMU_DRDY (R396): the active edge at device time `t`. -/
def execImuDrdy (i t : Nat) (s : State) : Out :=
  if s.up && decide (i < 2) && s.cfgB (0x4470 + i) 1 then .next (s.imuEdge i t) else .next s

/-- IMU_READ_COMPLETE (R399). -/
def execImuReadComplete (i : Nat) (b : List Byte) (s : State) : Out :=
  if s.up && decide (i < 2) && (s.imu i).reading.isSome then .next (s.imuRead i b) else .next s

/-- IMU_PORT_FAULT (R400). -/
def execImuPortFault (i : Nat) (s : State) : Out :=
  if s.up && s.imuFaulty i != 0 then
    .next ((s.setImu i { s.imu i with fault := true, good := 0 }).alarm 0x1202 i 1 [i, s.imuFaulty i])
  else .next s

/-- AREF1_LOW (R402): AREF1 reads `v` volts. -/
def execAref1Low (v : Rat) (s : State) : Out :=
  if s.up && s.arefWatched && decide (v < 9 / 10) && !s.io.aref then
    .next ({ s with io := { s.io with aref := true, arefV := v } }.alarm 0x1204 0 1 [])
  else .next s

/-- AREF1_RESTORED (R402): AREF1 has stood at `v` volts, above 1.0 V, for 10 ms. -/
def execAref1Restored (v : Rat) (s : State) : Out :=
  if s.up && decide (1 < v) && s.io.aref then
    let s := { s with io := { s.io with aref := false, arefV := v } }
    .next (((s.chaffSource ((List.range 16).filter fun a => s.analogRange a == 3)).note 0x1205 []).lower 0x1204 0)
  else .next s

/-- DIO_LEVEL_CHANGE (R405): line d has a new filtered level from device time `t` on. -/
def execDioLevelChange (d t : Nat) (level : Bool) (s : State) : Out :=
  if (s.up || s.st.power == .stopped) && decide (d < 24) && bit s.io.dio d != level then
    .next ({ s with io := { s.io with dio := setBit s.io.dio d level } }.putU (0x4E00 + d) 6 t)
  else .next s

/-- COMPARE_PULSE_END (R404). -/
def execComparePulseEnd (d : Nat) (s : State) : Out :=
  match tfind s.io.pulses d with
  | some t => if decide (t ≤ s.clk.time) then .next { s with io := { s.io with pulses := tdel s.io.pulses d } }.driveDio else .next s
  | none => .next s

/-- SUPERVISOR_REFRESH_MISSED (R408): two frames in a row without a refresh. -/
def execSupervisorRefreshMissed (s : State) : Out :=
  if s.up then .next ({ s with io := { s.io with latchedLow := true } }.setSafe 0) else .next s

/-- SAFE_OVERCURRENT (R410): a line driven high has read low for 2 frames. -/
def execSafeOvercurrent (k : Nat) (s : State) : Out :=
  if s.up && decide (k < 8) && bit s.io.safe k && !bit s.io.overs k then
    let s := { s with io := { s.io with overs := setBit s.io.overs k true, retry := tset s.io.retry k s.clk.time } }
    .next ((s.setSafe (setBit s.io.safe k false)).alarm 0x1702 k 1 [0, k])
  else .next s

/-- SAFE_OVERCURRENT_RETRY (R410): 1.0 s after the last attempt the line is driven high for one frame; `follows` tells
whether the pad follows. -/
def execSafeOvercurrentRetry (k : Nat) (follows : Bool) (s : State) : Out :=
  if s.up && bit s.io.overs k && decide (tget 0 s.io.retry k + 1000000000 ≤ s.clk.time) then
    if follows then
      let s := { s with io := { s.io with overs := setBit s.io.overs k false, retry := tdel s.io.retry k } }
      .next ((s.note 0x1703 []).lower 0x1702 k).safeUpdate
    else .next { s with io := { s.io with retry := tset s.io.retry k s.clk.time } }
  else .next s

/-- LR_OVERCURRENT (R411): line k, 0-3, asserted; fault instance 8 + k. -/
def execLrOvercurrent (k : Nat) (s : State) : Out :=
  if s.up && decide (k < 4) && bit s.lrMask k && !bit s.io.overLr k then
    .next ({ s with io := { s.io with overLr := setBit s.io.overLr k true } }.alarm 0x1702 (8 + k) 1 [1, k])
  else .next s

/-- WAKE_N_ASSERTED (R412): a fall of WAKE_N in every state but Dormancy; the level follows at each frame (Readings). -/
def execWakeNAsserted (s : State) : Out :=
  if s.st.power = .dormant ∨ s.st.power = .off then .next s
  else .next ({ s with io := { s.io with wake := true } }.note 0x1705 [])

end Sys2Proof.Machine
end

