-- ==== Sys2Proof/Machine/Feedback.lean ====
section
/-! DEFINITION. Encoder channels, compare positions and magnetic-switch inputs (chapter 14). -/
namespace Sys2Proof.Machine

namespace State

def enc (s : State) (n : Nat) : Enc := tget {} s.fb.enc n
def setEnc (s : State) (n : Nat) (x : Enc) : State := { s with fb := { s.fb with enc := tset s.fb.enc n x } }
def encMode (s : State) (n : Nat) : Nat := s.cfgU (0x3A00 + n) 1
def modulo (s : State) (n : Nat) : Bool := s.cfgU (0x3A00 + n) 0x0D == 1
def modM (s : State) (n : Nat) : Int := s.cfgU (0x3A00 + n) 0x0F
def softMin (s : State) (n : Nat) : Int := s.cfgI (0x3A00 + n) 0x11
def softMax (s : State) (n : Nat) : Int := s.cfgI (0x3A00 + n) 0x12

/-- Units per count (R368, R369, R372). -/
def perCount (s : State) (n : Nat) : Rat :=
  if s.modulo n then 360 / (s.modM n : Rat) else 1 / s.cfgR (0x3A00 + n) 0x0E
/-- Position of a count in the channel's unit (R368, R369). -/
def posOf (s : State) (n : Nat) (c : Rat) : Rat :=
  let x := c * s.perCount n + s.cfgR (0x3A00 + n) 0x10
  if s.modulo n then wrap360 x else x

/-- An integer difference along the shorter way of a modulus. -/
def shortInt (m d : Int) : Int :=
  let r := d % m
  if m < 2 * r then r - m else r
/-- A difference of counts, the shorter way in modulo mode. -/
def cdiff (s : State) (n : Nat) (a b : Int) : Int := if s.modulo n then shortInt (s.modM n) (a - b) else a - b
/-- The same for real values. -/
def rdiff (s : State) (n : Nat) (x : Rat) : Rat :=
  if s.modulo n then
    let m : Rat := s.modM n
    let r := x - m * ((x / m).floor : Rat)
    if m < 2 * r then r - m else r
  else x

/-- Sticky flags 3A90h with event 0D01h at the first after a clear (Table 14-6). -/
def stickEnc (s : State) (n bits : Nat) : State :=
  let w := s.objU 0x3A90 (n + 1)
  if bits = 0 then s else
  let s := s.putU 0x3A90 (n + 1) (w ||| bits)
  if w = 0 then s.note 0x0D01 [n, w ||| bits] else s

/-- Compare status 3A93h of a channel from its compares. -/
def putCompares (s : State) (n : Nat) : State :=
  let c := (s.enc n).compares
  s.putU 0x3A93 (n + 1) (nsum ((List.range 4).map fun k =>
    let x := nth {} c k
    bitAt x.armed (4 * k) + bitAt x.behind (4 * k + 1) + bitAt x.fired (4 * k + 2)))

/-- Fire compare k at device time t (R379). -/
def fire (s : State) (n k t : Nat) : State :=
  let e := s.enc n
  let c := nth {} e.compares k
  let m := c.mode
  let s := s.setEnc n { e with compares := putNth e.compares k { c with fired := true, behind := false, armed := bit m 2 } }
  let s := (s.putU (0x3A20 + n) (0x0E + k) t).putCompares n
  let s := if bit m 3 then s.note 0x0D06 [n, k, t] else s
  if bit m 4 then s.comparePulse n (field m 8 5) t (State.ns (s.cfgR (0x3A20 + n) 0x0D / 1000)) else s

/-- A direction permitted by a compare's mode: 1 increasing, 2 decreasing. -/
def firesIn (s : State) (n k dir : Nat) : Bool := bit (nth {} (s.enc n).compares k).mode (dir - 1)

/-- A counted step to count c in a direction at time t: compares in the order CP0 to CP3 (R377, R379). -/
def stepFires (s : State) (n dir t : Nat) (c : Int) : State :=
  foldS s (List.range 4) fun s k =>
    let x := nth {} (s.enc n).compares k
    if x.armed && x.count == c && s.firesIn n k dir then s.fire n k t else s

/-! Incremental channels (R361, R362, R368). -/

/-- Step of a quadrature change (R361): an edge of A or B, A leading B counts up (log 38). -/
def quadStep (res : Nat) (a b a' b' : Bool) : Int :=
  if a ≠ a' then
    (if res = 1 ∧ !a' then 0 else if a' != b then 1 else -1)
  else if b ≠ b' then
    (if res = 4 then (if a == b' then 1 else -1) else 0)
  else 0

/-- Apply a step to the count. -/
def countStep (s : State) (n t : Nat) (d : Int) : State :=
  if d = 0 then s else
  let e := s.enc n
  let c := e.count + d
  let dir := if 0 < d then 1 else 2
  if s.modulo n then
    let c := c % s.modM n
    (s.setEnc n { e with count := c }).stepFires n dir t c
  else if c < s.softMin n ∨ s.softMax n < c then
    ((s.setEnc n { e with referenced := false, atLimit := true }).stickEnc n 0x10).note 0x0D05 []
  else
    (s.setEnc n { e with count := c, atLimit := c == s.softMin n || c == s.softMax n }).stepFires n dir t c

/-- The channel enters fault (R363, R367): 1 illegal transitions, 2 SSI. -/
def encFault (s : State) (n cause : Nat) : State :=
  (s.setEnc n { s.enc n with fault := true, pass := 0 }).alarm 0x0D02 n 1 [n, cause]

/-- An illegal transition (R362, R363). -/
def illegal (s : State) (n t : Nat) : State :=
  let e := s.enc n
  let l := (e.illegal.filter fun x => t < x + 1000000000) ++ [t]
  let s := ((s.setEnc n { e with bad := true, illegal := l, lastIllegal := t }).incU 0x3A91 (n + 1)).stickEnc n 1
  if !e.fault && decide (s.cfgU (0x3A00 + n) 0x1C < l.length) then s.encFault n 1 else s

/-- The M input named by a channel is in its active state. -/
def homeInput (s : State) (n : Nat) : Bool :=
  let m := s.cfgU (0x3A00 + n) 0x14
  (tget {} s.fb.mag m).level == s.cfgB (0x3A40 + m) 2

/-- A rising edge of ENCn_Z is a channel's home event (R370): source 1, and source 3 while its M input is active. -/
def zHomes (s : State) (n : Nat) : Bool :=
  (s.enc n).armed && match s.cfgU (0x3A00 + n) 0x13 with
    | 1 => true
    | 3 => s.homeInput n
    | _ => false

/-- The active edge of Mm is the home event of the armed channels that name it as source 2 (R370). -/
def magHome (s : State) (m : Nat) : State :=
  foldS s (List.range 32) fun s n =>
    let e := s.enc n
    if e.armed && s.cfgU (0x3A00 + n) 0x13 == 2 && s.cfgU (0x3A00 + n) 0x14 == m && s.homeInput n then s.setEnc n { e with homed := true }
    else s

/-- New filtered levels of a channel at time t. -/
def encEdge (s : State) (n t : Nat) (a b z : Bool) : State :=
  let e := s.enc n
  let a0 := nth false e.lv 0
  let b0 := nth false e.lv 1
  let s := s.setEnc n { e with lv := [a, b, z], homed := e.homed || (z && !nth false e.lv 2 && s.zHomes n) }
  let sense : Int := if s.cfgB (0x3A00 + n) 4 then -1 else 1
  match s.encMode n with
  | 1 =>
    if a ≠ a0 ∧ b ≠ b0 then s.illegal n t
    else s.countStep n t (sense * quadStep (s.cfgU (0x3A00 + n) 3) a0 b0 a b)
  | 2 =>
    if a && !a0 then
      if b ≠ b0 then s.illegal n t else s.countStep n t (sense * (if b then 1 else -1))
    else s
  | _ => s

/-- The armed home event has occurred (R370). -/
def homeDue (s : State) (n : Nat) : Bool :=
  (s.enc n).armed && (s.enc n).homed && (s.encMode n == 1 || s.encMode n == 2)

/-- Behind test of a compare (R378). -/
def isBehind (s : State) (n : Nat) (count : Int) : Bool :=
  let e := s.enc n
  let d := s.cdiff n count e.count
  (e.dir == 1 && decide (d < 0)) || (e.dir == 2 && decide (0 < d))

/-- Re-evaluate the behind bits of armed compares after a homing. -/
def reBehind (s : State) (n : Nat) : State :=
  let e := s.enc n
  (s.setEnc n { e with compares := e.compares.map fun c => if c.armed then { c with behind := s.isBehind n c.count } else c }).putCompares n

/-- Homing sets the count; the observer moves by the same amount. -/
def home (s : State) (n : Nat) : State :=
  let e := s.enc n
  let c0 := s.cfgI (0x3A00 + n) 0x15
  let c := if s.modulo n then c0 % s.modM n else c0
  let d : Rat := ((c - e.count : Int) : Rat)
  let lim := !s.modulo n && (c == s.softMin n || c == s.softMax n)
  let s := s.setEnc n { e with count := c, p := e.p + d, referenced := true, armed := false, homed := false, atLimit := lim }
  ((s.putBoth (0x3A00 + n) 0x16 (.u 0)).note 0x0D04 [n, pI c]).reBehind n

/-! The tracking observer (R371-R375). -/

/-- Direction flag after an update (R375). -/
def direct (s : State) (n : Nat) : State :=
  let e := s.enc n
  let D := s.cfgR (0x3A00 + n) 0x1A / rabs (s.perCount n)
  let dir := if D < e.v then 1 else if e.v < -D then 2 else if rabs e.v < D / 2 then 0 else e.dir
  let changed := dir != 0 && e.lastDir != 0 && dir != e.lastDir
  let s := s.setEnc n { e with dir := dir, lastDir := if dir = 0 then e.lastDir else dir }
  if !changed then s else
  let s := s.incU 0x3A92 (n + 1)
  if s.cfgB (0x3A00 + n) 0x1B then s.note 0x0D08 [n, dir] else s

/-- One update over h seconds with the measured count, ending at instant tu. -/
def trackStep (s : State) (n : Nat) (h tu : Rat) (missing : Bool) : State :=
  let e := s.enc n
  if !e.begun then
    if missing then s.setEnc n { e with missing := true, tu := tu, bad := false, upd := none }
    else s.setEnc n { e with p := e.count, v := 0, a := 0, tu := tu, begun := true, missing := false, bad := false, upd := none,
                             goodAt := some s.clk.frame }
  else
    let pp := e.p + h * e.v + h * h * e.a / 2
    let vp := e.v + h * e.a
    let s' :=
      if missing then s.setEnc n { e with p := pp, v := vp, tu := tu, missing := true, bad := false, upd := none }
      else
        let w := 2 * Config.pi * s.cfgR (0x3A00 + n) 0x17
        let err := s.rdiff n ((e.count : Rat) - pp)
        s.setEnc n { e with p := pp + 3 * (w * h) * err, v := vp + 3 * rsq (w * h) * err / h, a := e.a + w * h * rsq (w * h) * err / (h * h),
                            tu := tu, missing := false, bad := false, upd := none, goodAt := some s.clk.frame }
    s'.direct n

/-- An update is due: 25 µs after the last in modes 01h and 02h, a completed read in mode 03h. -/
def trackDue (s : State) (n : Nat) : Bool :=
  let e := s.enc n
  match s.encMode n with
  | 1 | 2 => !e.begun || decide (e.tu + 25000 ≤ s.clk.time)
  | 3 => e.upd.isSome
  | _ => false

def track (s : State) (n : Nat) : State :=
  let e := s.enc n
  match e.upd with
  | some (t, miss) => s.trackStep n (((t : Rat) - e.tu) / 1000000000) t miss
  | none =>
    let tu : Rat := if e.begun then e.tu + 25000 else s.clk.time
    s.trackStep n (25 / 1000000) tu e.bad

/-- Estimates for an instant, in counts (R372). -/
def encAt (s : State) (n : Nat) (t : Rat) : Rat × Rat × Rat :=
  let e := s.enc n
  let dt := (t - e.tu) / 1000000000
  (e.p + e.v * dt + e.a * dt * dt / 2, e.v + e.a * dt, e.a)

/-- Speed validity (R373). -/
def speedOk (s : State) (n : Nat) : Bool :=
  let e := s.enc n
  s.encMode n != 0 && !e.fault && decide (e.restartAt + State.ns (4 / s.cfgR (0x3A00 + n) 0x17) ≤ s.clk.time) &&
    match e.goodAt with
    | some f => decide (s.clk.frame < f + 8)
    | none => false
/-- Referenced: SSI always (R370). -/
def isRef (s : State) (n : Nat) : Bool := (s.enc n).referenced || s.encMode n == 3
def positionOk (s : State) (n : Nat) : Bool := s.speedOk n && s.isRef n

/-- Latch the estimates of a channel for the start of the frame (R372). -/
def latchEnc (s : State) (n : Nat) : State :=
  let x := s.encAt n s.clk.bound
  let k := s.perCount n
  s.setEnc n { s.enc n with est := { p := s.posOf n x.1, v := x.2.1 * k, a := x.2.2 * k, posOk := s.positionOk n, spdOk := s.speedOk n } }

/-- Channels that are not off. -/
def encOn (s : State) : List Nat := (List.range 32).filter fun n => s.encMode n != 0

/-- Channel status word (Table 14-5). -/
def encWord (s : State) (n : Nat) : Nat :=
  let e := s.enc n
  if s.encMode n = 0 then 0 else
  let settling := !decide (e.restartAt + State.ns (4 / s.cfgR (0x3A00 + n) 0x17) ≤ s.clk.time)
  bitAt e.est.posOk 15 + bitAt e.est.spdOk 14 + bitAt (s.isRef n) 13 + bitAt settling 12 + bitAt e.fault 11 +
    bitAt e.atLimit 10 + e.dir * 256 + bitAt e.missing 7 + bitAt (e.driving && s.encMode n == 3) 6 + bitAt e.armed 5

/-- Speed in % (Table 14-2). -/
def speedPct (s : State) (n : Nat) : Rat := 100 * (s.enc n).est.v / s.cfgR (0x3A00 + n) 0x18

/-- Magnetic inputs in their active state. -/
def magState (s : State) : Nat :=
  ofBits ((List.range 16).filter fun m => (tget {} s.fb.mag m).level == s.cfgB (0x3A40 + m) 2)

/-- The values of the frame's start go into the second buffers of 3A80h-3A83h, which are read from its end on (Table 14-6). -/
def publishFeedback (s : State) : State :=
  let all := List.range 32
  let e := fun n => (s.enc n).est
  let on := fun n (x : Rat) => if s.encMode n = 0 then rv 0 else rv x
  let s := s.publishEnd 0x3A80 (all.map fun n => on n (e n).p)
  let s := s.publishEnd 0x3A81 (all.map (fun n => on n (e n).v) ++ all.map (fun n => on n (s.speedPct n)) ++ all.map fun n => on n (e n).a)
  let s := s.publishEnd 0x3A82 (all.map fun n => .u (s.encWord n))
  s.publishEnd 0x3A83 [.u s.magState]

/-- Feed the streams of binding 05h, one sample per frame (R381). -/
def feedEncoders (s : State) : State :=
  let ks := (List.range 256).filter fun k => match (s.stream k).cfg with
    | some (_, 5, _, _) => true
    | _ => false
  foldS s ks fun s k =>
    match (s.stream k).cfg with
    | some (kind, _, a, _) =>
      let n := a % 32
      let m := field a 8 5
      let x : Smp := { stamp := s.clk.bound, arrival := s.clk.bound,
                       raw := if kind = 0x03 then [(s.enc n).est.p, (s.enc m).est.p] else [(s.enc n).est.p] }
      s.sheafAccept k x ((s.enc n).est.posOk && (kind != 0x03 || (s.enc m).est.posOk))
    | none => s

/-- Arm the compares written since the last frame (R376, R378). -/
def armCompares (s : State) : State :=
  foldS s (List.range 32) fun s n =>
    if !(s.enc n).compares.any (·.pending) then s else
    let s := foldS s (List.range 4) fun s k =>
      let e := s.enc n
      let c := nth {} e.compares k
      if !c.pending then s else
      let x := (s.cfgR (0x3A20 + n) (k + 1) - s.cfgR (0x3A00 + n) 0x10) / s.perCount n
      let z := if s.modulo n then roundAway x % s.modM n else roundAway x
      let mode := s.cfgU (0x3A20 + n) (5 + k)
      let armed := mode % 4 != 0
      let behind := armed && s.isBehind n z
      let s := s.setEnc n { e with compares := putNth e.compares k { c with
        armed := armed, behind := behind, count := z, mode := mode, pending := false } }
      if behind then s.note 0x0D07 [n, k] else s
    s.putCompares n

/-- The frame's work: latch, arm, feed, publish. -/
def feedbackFrame (s : State) : State :=
  let s := foldS s s.encOn fun s n => s.latchEnc n
  (s.armCompares.feedEncoders).publishFeedback

/-! SSI (R364-R367, R377). -/

/-- Gray code to binary. -/
def grayTo : Nat → Nat → Nat
  | 0, g => g
  | k + 1, g => grayTo k (g ^^^ (g / 2 ^ (2 ^ k)))

/-- A read latched at time t begins. -/
def ssiStart (s : State) (n t : Nat) : State :=
  s.setEnc n { s.enc n with reading := some t, edgeAt := some s.clk.frame }

/-- Compares at a read q2 after a read q1 (R377). -/
def readFires (s : State) (n : Nat) (q1 : Int) (t1 : Nat) (q2 : Int) (t2 : Nat) : State :=
  let d := s.cdiff n q2 q1
  if d = 0 then s else
  foldS s (List.range 4) fun s k =>
    let c := nth {} (s.enc n).compares k
    let off : Int := if s.modulo n then (if 0 < d then (c.count - q1) % s.modM n else -((q1 - c.count) % s.modM n)) else c.count - q1
    let hit := if 0 < d then decide (0 < off) && decide (off ≤ d) else decide (off < 0) && decide (d ≤ off)
    if c.armed && hit && s.firesIn n k (if 0 < d then 1 else 2) then
      s.fire n k (t1 + (roundAway (((off : Int) : Rat) / ((d : Int) : Rat) * ((t2 : Rat) - t1))).toNat)
    else s

/-- A read has completed: `idleLow` the data line was low at its begin, `word` the bits received. -/
def ssiRead (s : State) (n : Nat) (idleLow : Bool) (word : Nat) : State :=
  let e := s.enc n
  match e.reading with
  | none => s
  | some t =>
    let i := 0x3A00 + n
    let sb := s.cfgU i 6
    let bits := s.cfgU i 5 - sb
    let raw := word / 2 ^ sb % 2 ^ bits
    let pos := if s.cfgU i 7 = 1 then grayTo 5 raw else raw
    let v : Int := if s.cfgB i 4 then -(pos : Int) else pos
    let z0 := if s.modulo n then v % s.modM n else v
    let clamped := !s.modulo n && (decide (z0 < s.softMin n) || decide (s.softMax n < z0))
    let z := if s.modulo n then z0 else if z0 < s.softMin n then s.softMin n else if s.softMax n < z0 then s.softMax n else z0
    let statusBad := (word % 2 ^ sb) &&& s.cfgU i 0x0B != 0
    let fresh := !e.begun || (e.fault && e.pass == 0)
    let pred := (s.encAt n t).1
    let far := !fresh && decide ((s.cfgU i 0x19 : Rat) < rabs (s.rdiff n ((z : Rat) - pred)))
    let missing := idleLow || statusBad || far
    let s := s.stickEnc n (bitAt idleLow 1 + bitAt (!idleLow && statusBad) 2 + bitAt (!idleLow && !statusBad && far) 3 + bitAt clamped 4)
    if missing then
      let m := e.miss + 1
      let s := s.setEnc n { s.enc n with reading := none, upd := some (t, true), miss := m, pass := 0 }
      if 8 ≤ m ∧ !e.fault then s.encFault n 2 else s
    else
      let p := e.pass + 1
      let back := e.fault && decide (16 ≤ p)
      let restart := e.fault && e.pass == 0
      let s := s.setEnc n { s.enc n with
        reading := none, upd := some (t, false), miss := 0, pass := p, fault := e.fault && !back,
        begun := if restart then false else e.begun, count := z, prev := some (z, t),
        atLimit := !s.modulo n && (z == s.softMin n || z == s.softMax n) }
      let s := if back then (s.note 0x0D03 []).lower 0x0D02 n else s
      match e.prev with
      | some (q1, t1) => if clamped then s else s.readFires n q1 t1 z t
      | none => s

/-- Frames a unit waits without a clock edge (R366). -/
def ssiWait (s : State) (n : Nat) : Nat := if s.cfgU (0x3A00 + n) 0x0C = 0 then 2 else 4
/-- The clock may be taken. -/
def ssiQuiet (s : State) (n : Nat) : Bool :=
  let e := s.enc n
  s.encMode n == 3 && !e.driving && match e.edgeAt with
    | some f => decide (f + s.ssiWait n ≤ s.clk.frame)
    | none => true

/-! Descriptors (R365, R374). -/

/-- R365 of the client's values with one object replaced. -/
def encOk (s : State) (idx sub : Nat) (v : Val) : Bool :=
  let n := fun k => if sub = k then v.asNat else s.objU idx k
  let r := fun k => if sub = k then v.asRat else s.objR idx k
  let z := fun k => if sub = k then v.asInt else s.objI idx k
  decide (((n 5 + 1 : Nat) : Rat) / r 8 + r 0x0A ≤ 1250 / ((n 9 : Nat) : Rat) - 5) && decide (n 6 + 8 ≤ n 5) &&
    !(n 1 == 3 && n 0x13 != 0) && decide (z 0x11 < z 0x12) && decide (4 ≤ n 0x0F)

def ruleEnc (s : State) (_ : Path) (idx sub : Nat) (v : Val) : Verdict :=
  if s.encOk idx sub v then .store else .refuse abValue (s.note 0x0D0A [idx - 0x3A00, sub])

/-- Own rule of the compare objects 3A20h + n:01h-08h (R376): effective at the next frame; also forwarded to partners as
other pair-shared writes are (R41). A mode with a reserved bit or a line above 23 is refused (Table 14-4). -/
def ruleCompare (s : State) (_ : Path) (idx sub : Nat) (v : Val) : Verdict :=
  let n := idx - 0x3A20
  if sub < 1 ∨ 8 < sub then .store else
  let c := roundAway ((v.asRat - s.cfgR (0x3A00 + n) 0x10) / s.perCount n)
  if sub ≤ 4 ∧ !s.modulo n ∧ c < s.softMin n then .refuse abLow s
  else if sub ≤ 4 ∧ !s.modulo n ∧ s.softMax n < c then .refuse abHigh s
  else if 5 ≤ sub ∧ (field v.asNat 5 3 ≠ 0 ∨ field v.asNat 13 3 ≠ 0 ∨ 23 < field v.asNat 8 5) then .refuse abValue s
  else
    let k := if sub ≤ 4 then sub - 1 else sub - 5
    let e := s.enc n
    let c := nth {} e.compares k
    let s := s.setEnc n { e with compares := putNth e.compares k { c with pending := true, behind := false } }
    let s := (s.putBoth idx sub v).putCompares n
    .done { s with acc := { s.acc with fresh := s.acc.fresh ++ [⟨okey idx sub, v, s.sharedDue⟩] } }

/-- A channel restarts (R370, R374): unreferenced, unsettled. -/
def restartEnc (s : State) (n : Nat) : State :=
  let e := s.enc n
  (s.setEnc n { e with
    p := 0, v := 0, a := 0, begun := false, missing := false, bad := false, goodAt := none, referenced := false,
    restartAt := s.clk.time, fault := false, illegal := [], miss := 0, pass := 0, dir := 0, lastDir := 0, prev := none,
    reading := none, upd := none }).lower 0x0D02 n

/-- A partner arms the compares that come into force with the Lead's writes (R41, R376). -/
def forwardedCompares (s : State) (old : List (Nat × Val)) (n : Nat) : State :=
  foldS s (List.range 4) fun s k =>
    let differs := fun j => getV old (okey (0x3A20 + n) j) != s.cfgV (0x3A20 + n) j
    let e := s.enc n
    if differs (k + 1) || differs (k + 5) then
      s.setEnc n { e with compares := putNth e.compares k { nth {} e.compares k with pending := true, behind := false } }
    else s

/-- Work at f0 after the writes came into force (R374): `old` the configuration before. Home arming takes effect, and the
at-limit bit follows the limits in force (R368). -/
def applyEnc (s : State) (old : List (Nat × Val)) : State :=
  let s := foldS s (List.range 32) fun s n =>
    let i := 0x3A00 + n
    let changed := [1, 3, 5, 6, 7, 0x0D, 0x0F].any fun k => getV old (okey i k) != s.cfgV i k
    let s := if changed then s.restartEnc n else s
    let s := if getV old (okey i 1) != s.cfgV i 1 then s.setEnc n { s.enc n with driving := false, edgeAt := some s.clk.frame } else s
    let s := if changed || [0x11, 0x12].any (fun k => getV old (okey i k) != s.cfgV i k) then
        s.setEnc n { s.enc n with
          atLimit := !s.modulo n && ((s.enc n).count == s.softMin n || (s.enc n).count == s.softMax n) }
      else s
    let s := s.forwardedCompares old n
    if s.cfgB i 0x16 != (s.enc n).armed then s.setEnc n { s.enc n with armed := s.cfgB i 0x16, homed := false } else s
  s.armCompares

/-- Every channel restarts (R382): a wake or a start. -/
def restartAllEnc (s : State) : State :=
  foldS s (List.range 32) fun s n => (s.setEnc n { s.enc n with driving := false, edgeAt := some s.clk.frame }).restartEnc n

end State

/-- CHANNEL_DESCRIPTOR_WRITE (R365): a write of 3A00h + n. -/
def execChannelDescriptorWrite (p : Path) (n sub : Nat) (b : List Byte) (s : State) : Out :=
  .next (if s.up && decide (n < 32) then s.writeWith State.ruleEnc p (0x3A00 + n) sub b else s)

/-- COMPARE_POSITION_WRITE (R376): a write of 3A20h + n. -/
def execComparePositionWrite (p : Path) (n sub : Nat) (b : List Byte) (s : State) : Out :=
  .next (if s.up && decide (n < 32) then s.writeWith State.ruleCompare p (0x3A20 + n) sub b else s)

/-- FEEDBACK_STICKY_READ (R197): a read of 3A90h. -/
def execFeedbackStickyRead (p : Path) (sub : Nat) (s : State) : Out :=
  .next (if s.up then s.readSticky p 0x3A90 sub else s)

/-- COMPARE_STATUS_READ (R379): a read of 3A93h returns the status and clears the fired bits. -/
def execCompareStatusRead (p : Path) (sub : Nat) (s : State) : Out :=
  if s.up then
    let s' := s.readWith (fun _ _ _ => none) p 0x3A93 sub
    if s'.acc.answer.code = 0 ∧ 1 ≤ sub ∧ sub ≤ 32 then
      let e := s'.enc (sub - 1)
      .next ((s'.setEnc (sub - 1) { e with compares := e.compares.map fun c => { c with fired := false } }).putCompares (sub - 1))
    else .next s'
  else .next s

/-- QUADRATURE_EDGE (R361): filtered levels of A, B and Z of channel n from device time t on. -/
def execQuadratureEdge (n t : Nat) (a b z : Bool) (s : State) : Out :=
  if s.up && decide (n < 32) then .next (s.encEdge n t a b z) else .next s

/-- CHANNEL_FAULT_CLEAR (R363): 10 s without an illegal transition. -/
def execChannelFaultClear (n : Nat) (s : State) : Out :=
  let e := s.enc n
  if s.up && e.fault && s.encMode n != 3 && decide (e.lastIllegal + 10000000000 ≤ s.clk.time) then
    .next (((s.setEnc n { e with fault := false }).note 0x0D03 []).lower 0x0D02 n)
  else .next s

/-- HOME_EVENT (R370): in the sample in which the armed event occurs. -/
def execHomeEvent (n : Nat) (s : State) : Out :=
  if s.up && decide (n < 32) && s.homeDue n then .next (s.home n) else .next s

/-- TRACKING_OBSERVER_UPDATE (R371). -/
def execTrackingObserverUpdate (n : Nat) (s : State) : Out :=
  if s.up && decide (n < 32) && s.trackDue n then .next (s.track n) else .next s

/-- SSI_READ_START (R364): the read latched at device time t; the driving unit clocks it, a listener follows its edges. -/
def execSsiReadStart (n t : Nat) (s : State) : Out :=
  if s.up && decide (n < 32) && s.encMode n == 3 then .next (s.ssiStart n t) else .next s

/-- SSI_READ_COMPLETE (R367). -/
def execSsiReadComplete (n : Nat) (idleLow : Bool) (word : Nat) (s : State) : Out :=
  if s.up && decide (n < 32) && s.encMode n == 3 && (s.enc n).reading.isSome then .next (s.ssiRead n idleLow word) else .next s

/-- SSI_CLOCK_TAKEN (R366): no clock edge for the unit's wait; a listener records event 0D09h. -/
def execSsiClockTaken (n : Nat) (s : State) : Out :=
  if s.up && decide (n < 32) && s.ssiQuiet n then
    let s' := s.setEnc n { s.enc n with driving := true }
    .next (if s.cfgU (0x3A00 + n) 0x0C = 1 then s'.note 0x0D09 [n, 1] else s')
  else .next s

/-- SSI_CLOCK_YIELDED (R366): a driving unit sees a clock edge it did not make. -/
def execSsiClockYielded (n : Nat) (s : State) : Out :=
  if s.up && decide (n < 32) && (s.enc n).driving then
    .next ((s.setEnc n { s.enc n with driving := false, edgeAt := some s.clk.frame }).note 0x0D09 [n, 0])
  else .next s

/-- MAGNETIC_INPUT_CHANGE (R380): a new filtered level of Mm from device time t on. -/
def execMagneticInputChange (m t : Nat) (level : Bool) (s : State) : Out :=
  if s.up && decide (m < 16) && (tget {} s.fb.mag m).level != level then
    .next (({ s with fb := { s.fb with mag := tset s.fb.mag m ⟨level⟩ } }.putU (0x3A40 + m) 3 t).magHome m)
  else .next s

end Sys2Proof.Machine
end

