-- ==== Sys2Proof/Machine/Inner.lean ====
section
/-! DEFINITION. The inner loops of the thrusters and the emission of the thruster command records (R17, R18, R24,
R198-R205, R284, R285, R471, Tables 18-5 and 18-6). -/
namespace Sys2Proof.Machine

namespace State

/-! Feedback (R201, R381, R471). -/

/-- Azimuth of a feedback source, ° (none: invalid, or not updated for 8 frames). FFh has none. -/
def azFeedback (s : State) (j : Nat) : Option Rat :=
  let src := s.cfgU (0x2C80 + j) 4
  if src < 32 then
    if (s.enc src).est.posOk then some (s.enc src).est.p else none
  else if src = 0xFE then
    match s.drive j with
    | some d => if d.ok && decide (s.clk.frame < d.frame + 8) then some d.az else none
    | none => none
  else none

/-- Speed of a feedback source, %. -/
def spdFeedback (s : State) (j : Nat) : Option Rat :=
  let src := s.cfgU (0x2C80 + j) 5
  if src < 32 then
    if (s.enc src).est.spdOk then some (s.speedPct src) else none
  else
    match s.drive j with
    | some d => if d.ok && decide (s.clk.frame < d.frame + 8) then some d.n else none
    | none => none

/-! One thruster's run (R199-R202). -/

/-- Does the arc from `a` by `d` degrees cross a forbidden sector (R199)? It does when the sector's middle lies on it or
either end of the arc lies inside. -/
def crossesSector (dsc : Desc) (a d : Rat) : Bool :=
  dsc.used.any fun p =>
    let mid := p.1 + wrap360 (p.2 - p.1) / 2
    let off := if 0 ≤ d then wrap360 (mid - a) else wrap360 (a - mid)
    decide (off < rabs d) || inSector p (a + d) || inSector p a

/-- Angle to turn from `a` to the set point: the flag's way, else the shorter arc, clockwise at 180°, or the other arc
where the shorter one crosses a forbidden sector (R199). A rudder angle is no circle. -/
def azErr (dsc : Desc) (a target : Rat) (turn : Nat) : Rat :=
  if dsc.kind = 3 then target - a else
  let d := wrap180 (target - a)
  if d = 0 then 0
  else if turn = 1 then wrap360 (target - a)
  else if turn = 2 then -(wrap360 (a - target))
  else if crossesSector dsc a d then (if 0 < d then d - 360 else d + 360)
  else d

/-- Set point of a thruster, of the allocation in force or Lever's (R198). -/
def setPt (s : State) (j : Nat) : Point := if s.ctl.leverOn then tget {} s.ctl.lever j else tget {} s.ctl.alloc.pts j

/-- The thruster's ramp is unlimited: its group is scaled, or the allocation in force lifted the group's ramp (R285). -/
def rampFree (s : State) (j : Nat) : Bool :=
  match s.thrGroup s.ctl.plant.res j with
  | some g => s.scaledNow.contains g || (!s.ctl.leverOn && bit s.ctl.alloc.lifted g)
  | none => false

/-- The coefficients of the inner loops: K_az, K_iaz, I_az,max, K_n, K_in, I_n,max. -/
def innerKs (s : State) (j : Nat) : List Rat := (List.range 6).map fun k => s.objR (0x2C80 + j) (6 + k)
def innerK (s : State) (j k : Nat) : Rat := vget (s.innerKs j) k

/-- Publish 2CA0h (R198: updated each run). -/
def putInner (s : State) (j : Nat) : State :=
  let x := s.inner j
  let i := 0x2CA0 + j
  (((s.putR i 1 x.core.az).putR i 2 x.core.n).putR i 3 x.mAz).putR i 4 x.mN

/-- What the slot works on for one thruster: measured azimuth and speed, where valid, and the set point (R198). -/
structure Lane where
  j : Nat
  az : Option Rat
  n : Option Rat
  sp : Point

/-- A vector of the slot: one quantity of the thrusters that run, renormalised under one exponent (R194, R195; log 145). -/
def vec (l : List Rat) : List Rat := blockRound l

/-- The values of a vector put back where a lane has one. -/
def putVec (l : List Lane) (get : Lane → Option Rat) (put : Lane → Rat → Lane) : List Lane :=
  let v := vec (l.map fun x => (get x).getD 0)
  (List.range l.length).filterMap fun i => (l[i]?).map fun x => if (get x).isSome then put x (vget v i) else x

/-- The inputs of the slot, each quantity converted into a vector (R195); a feedback value beyond ±360° or ±200 % is limited
there with sticky bit 0 (Table 8-4). -/
def lanes (s : State) (due : List Nat) : State × List Lane :=
  let raw := due.map fun j => (⟨j, s.azFeedback j, s.spdFeedback j, s.setPt j⟩ : Lane)
  let far := fun (x : Lane) => decide (360 < rabs (x.az.getD 0)) || decide (200 < rabs (x.n.getD 0))
  let s := foldS s (raw.filter far) fun s x => s.stick 0x2C51 (x.j + 1) 1
  let l := raw.map fun x => { x with az := x.az.map (rclamp (-360) 360), n := x.n.map (rclamp (-200) 200) }
  let l := putVec l (·.az) fun x v => { x with az := some v }
  let l := putVec l (·.n) fun x v => { x with n := some v }
  let l := putVec l (fun x => some x.sp.az) fun x v => { x with sp := { x.sp with az := v } }
  (s, putVec l (fun x => some x.sp.n) fun x v => { x with sp := { x.sp with n := v } })

/-- A quantity of the running thrusters is a stage output: it is renormalised as one vector (R195). -/
def roundCore (s : State) (l : List Lane) (get : InnerCore → Rat) (put : InnerCore → Rat → InnerCore) : State :=
  let v := vec (l.map fun x => get (s.inner x.j).core)
  foldS s (List.zip l v) fun s p =>
    let x := s.inner p.1.j
    s.setInner p.1.j { x with core := put x.core p.2 }

/-- The azimuth loop of a thruster closes on its feedback (mode 1), and the speed loop on its own. -/
def azClosed (s : State) (j : Nat) : Bool :=
  s.cfgU (0x2C80 + j) 2 == 1 && s.cfgU (0x2C80 + j) 4 != 0xFF && (s.desc j).kind != 2
def spdClosed (s : State) (j : Nat) : Bool := s.cfgU (0x2C80 + j) 3 == 1

/-- Feedback lost and returned, for the loops in mode 1 (R201). -/
def feedbackTest (s : State) (l : Lane) : State :=
  let x := s.inner l.j
  let lost := (s.azClosed l.j && l.az.isNone) || (s.spdClosed l.j && l.n.isNone)
  let s := s.setInner l.j { x with mAz := l.az.getD x.mAz, mN := l.n.getD x.mN, lost := lost }
  let s := s.stick 0x2C51 (l.j + 1) (bitAt lost 6)
  if lost && !x.lost then s.alarm 0x0609 l.j 1 [l.j]
  else if !lost && x.lost then s.lower 0x0609 l.j else s

/-- Tracking in Standby and Maintenance (R202): commands equal the measured values, integrators 0. Where nothing valid
is measured the command stands. -/
def innerTrack (s : State) (l : Lane) : State :=
  let x := s.inner l.j
  let d := s.desc l.j
  let a := if d.kind = 2 then d.fixed else l.az.getD x.core.az
  let v := l.n.getD x.core.n
  let core : InnerCore := { az := a, rate := 0, n := v, nr := v, iaz := 0, inn := 0, turn := 0 }
  s.setInner l.j { x with core := core, clAz := false, clN := false, holdAz := false, holdN := false }

/-- Move `x` toward `y` by at most `step`. -/
def approach (x y step : Rat) : Rat := x + rclamp (-step) step (y - x)

/-- One step of an inner-loop integrator (R199, R200, R202): it is clamped to ±`top`, and does not move in the first run after
new coefficients found it clamped; the clamped bit. -/
def innerInteg (i inc top : Rat) (run hold : Bool) (was : Bool) : Rat × Bool :=
  if !run then (i, was)
  else if hold then (i, true)
  else (rclamp (-top) top (i + inc), decide (top < rabs (i + inc)))

/-- Seconds between two runs of a thruster's loops (R199). -/
def innerDt (s : State) (j : Nat) : Rat := (s.cfgU (0x2C80 + j) 1 : Rat) / 800

/-- The azimuth loop of one thruster (R199). -/
def azLoop (s : State) (l : Lane) : State :=
  let x := s.inner l.j
  let c := x.core
  let d := s.desc l.j
  let dt := s.innerDt l.j
  let rateOn := s.azClosed l.j && !x.lost
  let err := azErr d (if rateOn then l.az.getD c.az else c.az) l.sp.az l.sp.turn
  let w := s.innerK l.j 0 * err + c.iaz
  let a0 := if d.kind = 2 then d.fixed
    else if rateOn then l.az.getD c.az
    else
      let a := c.az + rclamp (-(d.slew * dt)) (d.slew * dt) err
      if d.kind = 3 then a else wrap360 a
  let rate := if rateOn then rclamp (-d.slew) d.slew w else 0
  let i := innerInteg c.iaz (s.innerK l.j 1 * err * dt) (s.innerK l.j 2) rateOn x.holdAz x.clAz
  let lim := if d.kind = 2 then false else if rateOn then decide (d.slew < rabs w) else decide (d.slew * dt < rabs err)
  let s := s.setInner l.j { x with
    core := { c with az := a0, rate := rate, iaz := i.1, turn := l.sp.turn }, clAz := i.2, holdAz := x.holdAz && !rateOn }
  s.stick 0x2C51 (l.j + 1) (bitAt lim 2 + bitAt (rateOn && i.2) 1)

/-- The ramp of one thruster's speed set point (R200). -/
def rampLoop (s : State) (l : Lane) : State :=
  let x := s.inner l.j
  let c := x.core
  let nr := if s.rampFree l.j && decide (l.sp.n < c.nr) then l.sp.n
    else approach c.nr l.sp.n ((s.desc l.j).ramp * s.innerDt l.j)
  (s.setInner l.j { x with core := { c with nr := nr } }).stick 0x2C51 (l.j + 1) (bitAt (nr != l.sp.n) 4)

/-- The speed loop of one thruster (R200); its integrator stands while power-plant scaling lifts the ramp (R285). -/
def speedLoop (s : State) (l : Lane) : State :=
  let x := s.inner l.j
  let c := x.core
  let on := s.spdClosed l.j && !x.lost
  let e := c.nr - l.n.getD 0
  let raw := if on then s.innerK l.j 3 * e + c.inn + c.nr else c.nr
  let run := on && !s.rampFree l.j
  let i := innerInteg c.inn (s.innerK l.j 4 * e * s.innerDt l.j) (s.innerK l.j 5) run x.holdN x.clN
  let s := s.setInner l.j { x with
    core := { c with n := if on then rclamp (-100) 100 raw else c.nr, inn := i.1 }, clN := i.2, holdN := x.holdN && !run }
  s.stick 0x2C51 (l.j + 1) (bitAt (on && decide (100 < rabs raw)) 5 + bitAt (run && i.2) 3)

/-- The loops of the running thrusters under control, stage by stage, each stage output one vector (R195, R199, R200). -/
def innerControl (s : State) (l : List Lane) : State :=
  let s := foldS s l azLoop
  let s := s.roundCore l (·.az) fun c v => { c with az := if v = 360 then 0 else v }
  let s := s.roundCore l (·.rate) fun c v => { c with rate := v }
  let s := s.roundCore l (·.iaz) fun c v => { c with iaz := v }
  let s := (foldS s l rampLoop).roundCore l (·.nr) fun c v => { c with nr := v }
  let s := (foldS s l speedLoop).roundCore l (·.n) fun c v => { c with n := v }
  s.roundCore l (·.inn) fun c v => { c with inn := v }

/-- One run of the loops of the thrusters that are due (R198, R202). -/
def innerRun (s : State) (due : List Nat) : State :=
  let (s, l) := s.lanes due
  let s := foldS s l feedbackTest
  let s := if s.mode.mode = 0 ∨ s.mode.mode = 6 then foldS s l innerTrack else s.innerControl l
  foldS s due putInner

/-! Emission (R24, R284, R285). -/

/-- Scale the commands of this frame and keep n_r at the emitted command where the ramp is unlimited. -/
def emitAll (s : State) : State :=
  let s := s.endScaling
  let r := s.ctl.plant.res
  let groups := s.scaledNow
  let lam := (List.range 8).map fun g => if groups.contains g then s.lambdaOf r g s.cmdN else 1
  let s := s.setPlant { s.ctl.plant with now := ofBits groups }
  foldS s s.thrusters fun s j =>
    let x := s.inner j
    let l := match s.thrGroup r j with
      | some g => if groups.contains g then nth 1 lam g else 1
      | none => 1
    let out := if l = 1 then x.core.n else x.core.n * rpower l (1 / (s.desc j).kappa)
    let core := if s.rampFree j then { x.core with nr := out } else x.core
    s.setInner j { x with emitN := out, scaled := decide (l < 1), core := core }

/-- Lead epoch in force. -/
def leadEpoch (s : State) : Nat := s.objU 0x3E01 1

/-- Command record of a drive entry (Tables 18-5 and 18-6). -/
def cmdRecord (s : State) (n : Node) : KppRec :=
  let j := n.thruster
  let x := s.inner j
  let d := s.desc j
  let rate := s.cfgU (0x2C80 + j) 2 == 1 && !x.lost && s.cfgU (0x2C80 + j) 4 != 0xFF && d.kind != 2 &&
    1 ≤ s.mode.mode && s.mode.mode ≤ 5
  let word := n.driveTimeout * 65536 + (n.failAction % 16) * 256 + bitAt rate 7 + bitAt (bit (s.objU 0x2200 1) 10) 6 +
    bitAt x.scaled 5 + (x.core.turn % 4) * 8 + bitAt (1 ≤ s.mode.mode && s.mode.mode ≤ 5) 2 + s.st.role
  let az := if rate then (if d.slew = 0 then 0 else 100 * x.core.rate / d.slew) else x.core.az
  { type := 1, node := n.id, tov := s.clk.bound,
    words := [(s.ctl.alloc.sample % 65536) * 65536 + s.leadEpoch % 65536, word, (F32.ofRat az).toNat,
      (F32.ofRat x.emitN).toNat, s.clk.frame % 2 ^ 32] }

/-- Emit one set of command records: the Lead alone, and not in Dormancy (R24, R25, R66). -/
def emitRecords (s : State) : State :=
  let s := s.emitAll.plantTail
  let l := if s.st.role = 0 ∧ s.mode.mode ≠ 7 then (s.nodes.filter (·.kind == 1)).map s.cmdRecord else []
  { s with net := { s.net with cmds := l } }

/-- The slot's work in a frame (R17, R198, R576). -/
def innerSlot (s : State) : State :=
  let s := s.innerRun (s.thrusters.filter fun j => s.fOff % s.cfgU (0x2C80 + j) 1 == 0)
  s.emitRecords.lower 0x060A 0

/-- The slot has not finished at its end, or a residue check failed in it: lane and stage; it is one
overrun of the frame, however many lanes fail (R204, R205). -/
def innerOver (s : State) (lane : Option (Nat × Nat)) : State :=
  let s := s.residueFault lane
  if s.ctl.innerOver.contains s.clk.frame then s else
  let l := (s.ctl.innerOver.filter fun f => s.clk.frame < f + 800) ++ [s.clk.frame]
  let s := { s with ctl := { s.ctl with innerOver := l } }
  let s := (s.incU 0x2C58 5).alarm 0x060A 0 1 []
  let s := s.emitRecords
  if 3 ≤ l.length then s.unitStop 0x060A else s

/-- New inner-loop coefficients come into force at f0: the integrators keep their values, clamped to the new limits; where the
clamped bit was set, the next run adds no increment and the bit stays (R191, R202). `old` the coefficients before. -/
def reclampInner (s : State) (old : List (Nat × List Rat)) : State :=
  foldS s (s.thrusters.filter fun j => tget [] old j != s.innerKs j) fun s j =>
    let x := s.inner j
    let a := s.innerK j 2
    let b := s.innerK j 5
    let core := { x.core with iaz := rclamp (-a) a x.core.iaz, inn := rclamp (-b) b x.core.inn }
    let ca := decide (a < rabs x.core.iaz)
    let cn := decide (b < rabs x.core.inn)
    let s := s.setInner j { x with
      core := core, clAz := x.clAz || ca, clN := x.clN || cn, holdAz := x.clAz, holdN := x.clN }
    s.stick 0x2C51 (j + 1) (bitAt cn 3 + bitAt ca 1)

end State

/-- INNER_LOOP_RUN (R198): in the inner-loop slot of every frame of a running unit. -/
def execInnerLoopRun (s : State) : Out :=
  if s.up then .next s.innerSlot else .next s

/-- INNER_LOOP_SLOT_OVERRUN (R204): the slot has not finished; a residue failure names its lane and stage. -/
def execInnerLoopSlotOverrun (lane : Option (Nat × Nat)) (s : State) : Out :=
  if s.up then .next (s.innerOver lane) else .next s

end Sys2Proof.Machine
end

