-- ==== Sys2Proof/Machine/Gnss.lean ====
section
/-! DEFINITION. The GNSS baseband (chapter 12): sample ports and front ends, acquisition and tracking, measurement epochs,
attitude, jamming and spoofing, snapshots, navigation records. -/
namespace Sys2Proof.Machine

/-- Satellite identifier: system and number (Table 12-1). -/
def satId (sys sat : Nat) : Nat := (sys % 256) * 256 + sat % 256
/-- Band group of a signal: 0 L1, 1 L5 (Table 12-1). -/
def sigGroup (sig : Nat) : Nat := if sig % 2 = 1 then 0 else 1
/-- Port of an antenna for a signal. -/
def sigPort (ant sig : Nat) : Nat := 2 * ant + sigGroup sig

/-- Distance of a number of cycles from the nearest integer, in (-0.5, 0.5] (R321). -/
def wrapCycle (x : Rat) : Rat :=
  let y := x - (x.floor : Rat)
  if 1 / 2 < y then y - 1 else y

/-- Largest set of elements that agree pairwise, the first found (R322). -/
def clique {α : Type} (ok : α → α → Bool) : List α → List α → List α
  | [], cur => cur
  | a :: t, cur =>
    let without := clique ok t cur
    if cur.all (ok a) then
      let with' := clique ok t (cur ++ [a])
      if without.length ≤ with'.length then with' else without
    else without

namespace State

def gport (s : State) (p : Nat) : GPort := tget {} s.gn.ports p
def setGport (s : State) (p : Nat) (x : GPort) : State := { s with gn := { s.gn with ports := tset s.gn.ports p x } }
def gchan (s : State) (c : Nat) : Option GChan := tfind s.gn.chans c
def setGchan (s : State) (c : Nat) (x : GChan) : State := { s with gn := { s.gn with chans := tset s.gn.chans c x } }
def setGn (s : State) (g : Gnss) : State := { s with gn := g }

/-- The baseband runs (R292). -/
def gnOn (s : State) : Bool := s.up && s.hasGnss && !s.degraded 10 0 && s.cfgB 0x3600 1
/-- Port of a selected group and an antenna of the array. -/
def portOn (s : State) (p : Nat) : Bool := bit (s.cfgU 0x3600 3) (p % 2) && bit (s.cfgU 0x3608 0x0E) (p / 2)
def groupPorts (s : State) (g : Nat) : List Nat := (List.range 8).filter fun p => p % 2 == g && s.portOn p
/-- A port excluded from solutions and attitude (R295, R320). -/
def portOut (s : State) (p : Nat) : Bool := (s.gport p).fault || (s.gport p).excl
/-- Tracking channels act in vector mode (R305). -/
def vectorOn (s : State) : Bool := s.cfgU 0x3600 6 == 1 && s.gn.vector

/-! Port faults (R295). -/

/-- The conditions of a port change: fault on the first, the clear timer from the end of the last. -/
def portCond (s : State) (p cond cause : Nat) : State :=
  let x := s.gport p
  if cond = 0 then s.setGport p { x with cond := 0, okFrom := some (x.okFrom.getD s.clk.time) }
  else
    let s' := s.setGport p { x with cond := cond, okFrom := none, fault := true }
    if x.fault then s' else (s'.incU 0x3670 6).alarm 0x0B03 p 1 [p, cause]

/-- Readings of a port: clock present, measured rate in Hz, magnitude-bit duty over 10 ms. -/
def portReading (s : State) (p : Nat) (clock : Bool) (hz duty : Rat) : State :=
  let ppm := (hz / 40960000 - 1) * 1000000
  let off := clock && decide (50 < rabs ppm)
  let stuck := clock && (decide (duty = 0) || decide (duty = 1))
  let old := (s.gport p).cond
  let cond := bitAt (!clock) 0 + bitAt off 1 + bitAt stuck 2 + bitAt (bit old 3) 3
  let cause := if !clock then 1 else if off then 2 else 3
  let s := s.setGport p { s.gport p with ppm := if clock then ppm else 0, duty := duty }
  if cond = old ∧ cond = 0 then s else s.portCond p cond cause

/-- A faulted port has been without a condition for 1.0 s. -/
def portClear (s : State) (p : Nat) : State :=
  (s.setGport p { s.gport p with fault := false }).lower 0x0B03 p

/-! Domain crossings (R359). The times that a command carries are stamps: the fixed latency of Table 13-4 is out of them; a
sample clock's capture comes as the domain captured it. -/

/-- The domains of Table 13-4 in which events are stamped. -/
inductive Crossing where
  | timebase | halurRx | can | encoder
  deriving DecidableEq, Repr
/-- Fixed latency removed, ns (Table 13-4). -/
def Crossing.latency : Crossing → Rat
  | .timebase => 36 / 10
  | .halurRx => 256 / 10
  | .can => 375 / 10
  | .encoder => 625 / 10
/-- A captured time carried into the timebase domain. -/
def Crossing.stamp (d : Crossing) (t : Rat) : Rat := t - d.latency
/-- Latency of the frame tick into the signal, solver and processor domains, ns (Table 13-4). -/
def tickLatency : List Rat := [75 / 10, 50 / 10, 25 / 10]

/-! Samples (R293, R294). -/

/-- A sample as sent and as stored in a snapshot nibble (Table 12-2): slot 0 is bit 3. -/
def sampleNibble (era p k : Nat) : Nat :=
  8 * b2n (Config.slotBit era p k 0) + 4 * b2n (Config.slotBit era p k 1) + 2 * b2n (Config.slotBit era p k 2) +
    b2n (Config.slotBit era p k 3)
/-- One component from its sign and magnitude bits: ±1 or ±3. -/
def component (neg big : Bool) : Int := (if neg then -1 else 1) * (if big then 3 else 1)
/-- A sample's value (R293): I and Q. -/
def sampleValue (n : Nat) : Int × Int := (component (bit n 3) (bit n 2), component (bit n 1) (bit n 0))

/-- The device time from which the sample clocks are counted. -/
def era (s : State) : Nat := s.gn.runFrom.getD 0
def gclock (s : State) (g : Nat) : GClock := tget {} s.gn.clocks g

/-- One capture of clock pair g (R294, R359). -/
def clockCapture (s : State) (g : Nat) (t : Rat) : State :=
  let x := s.gclock g
  let n := x.edges + 40960
  let s := s.setGn { s.gn with clocks := tset s.gn.clocks g { edges := n, caps := lastN 66 (x.caps ++ [(n, Crossing.timebase.stamp t)]) } }
  foldS s (s.groupPorts g) fun s p => s.setGport p { s.gport p with sample := some (sampleValue (sampleNibble s.era p n)) }

/-- The two captures that place sample `k`: those that straddle it, else the nearest two (log 42). -/
def straddle : List (Nat × Rat) → Nat → Option ((Nat × Rat) × (Nat × Rat))
  | a :: b :: l, k => if k < b.1 ∨ l = [] then some (a, b) else straddle (b :: l) k
  | _, _ => none

/-- Device time of a port's sample, interpolated linearly, its group delay 3601h:08h-0Fh subtracted (R294). -/
def sampleTime (s : State) (p k : Nat) : Option Rat :=
  (straddle (s.gclock (p % 2)).caps k).map fun (a, b) =>
    a.2 + ((k : Rat) - (a.1 : Rat)) * ((b.2 - a.2) / ((b.1 : Rat) - (a.1 : Rat))) - s.cfgR 0x3601 (8 + p)

/-- The first sample of a port at or after a device time, and its time; before two captures the clock is taken at its nominal
rate from the era on (log 42). -/
def firstSample (s : State) (p : Nat) (t : Rat) : Nat × Rat :=
  let caps := (s.gclock (p % 2)).caps
  let from' := fun (a : Nat × Rat) (period : Rat) =>
    let k := ((a.1 : Rat) + ((t + s.cfgR 0x3601 (8 + p) - a.2) / period).ceil).ceil.toNat
    (k, a.2 + ((k : Rat) - (a.1 : Rat)) * period - s.cfgR 0x3601 (8 + p))
  match caps.find? (fun c => decide (t + s.cfgR 0x3601 (8 + p) < c.2)) with
  | some b =>
    match (caps.filter fun c => c.1 < b.1).getLast?, caps with
    | some a, _ => from' a ((b.2 - a.2) / 40960)
    | none, a :: c :: _ => from' a ((c.2 - a.2) / 40960)
    | none, _ => from' b (1000000000 / 40960000)
  | none =>
    match caps.getLast?, (caps.dropLast).getLast? with
    | some b, some a => from' b ((b.2 - a.2) / 40960)
    | some b, none => from' b (1000000000 / 40960000)
    | none, _ => from' (0, (s.era : Rat)) (1000000000 / 40960000)

/-- The rate of a port's clock as measured by its last two captures, Hz (R294), else as its port reading gives it. -/
def portRate (s : State) (p : Nat) : Rat :=
  match (s.gclock (p % 2)).caps.getLast?, ((s.gclock (p % 2)).caps.dropLast).getLast? with
  | some b, some a => 40960 * 1000000000 / (b.2 - a.2)
  | _, _ => 40960000 * (1 + (s.gport p).ppm / 1000000)

/-- The samples of a port for a snapshot: two a byte, the earlier in bits 3-0 (Table 12-13). -/
def portBytes (era p k n : Nat) : List Byte :=
  (List.range (n / 2)).map fun i => BitVec.ofNat 8 (sampleNibble era p (k + 2 * i) + 16 * sampleNibble era p (k + 2 * i + 1))

/-! Loops (R304, R305). -/

/-- Signals with a pilot component, and those with a data component (Table 12-1). -/
def hasPilot (sig : Nat) : Bool := 2 ≤ sig && sig ≤ 6

/-- The loops of a channel as they stand in a frame: scalar, with the FLL for the first 1.0 s after lock, or a residual PLL on
the vector drive of its antenna. A coasting channel's oscillators run open-loop (R306). -/
def loopsOf (s : State) (c : Nat) (x : GChan) : GLoop :=
  let i := 0x3602 + sigGroup x.sig
  let vector := s.cfgU 0x3600 6 == 1 && s.gn.vector
  let l : GLoop := {
    pll := s.cfgR i (if vector then 2 else 1), fll := !vector && x.state == 2 && decide (s.clk.time < x.lockAt + 1000000000),
    dll := s.cfgR i 3, doubleDelta := s.cfgU i 6 == 1, spacing := s.cfgR i 5,
    data := if x.bitSync then .dataBit else .codePeriod,
    pilot := if hasPilot x.sig then some (.coherent (s.cfgU i 4)) else none, nco := x.loop.nco }
  let drive := if vector then tget [] s.gn.drive x.ant else []
  if x.state = 3 ∧ !vector then l
  else { l with nco := Config.loopFilter ([if x.state = 3 then 0 else l.pll, if l.fll then 1 else 0, l.dll,
    if l.doubleDelta then 1 else 0, l.spacing, (s.cfgU i 4 : Rat)] ++ (if vector then (s.gn.drift : Rat) :: drive else [])) c s.clk.time }

/-! Front ends (R296-R298). -/

/-- One script entry (Table 12-3). -/
structure FeEntry where
  op : Nat
  cs : Nat
  addr : Nat
  value : Nat
  mask : Nat

def feScript (b : List Byte) : List FeEntry :=
  (chunks 12 b).map fun e => ⟨leAt e 0 1, leAt e 1 1, leAt e 2 2, leAt e 4 4, leAt e 8 4⟩

/-- Entries up to the end entry. -/
def feUntilEnd : List FeEntry → List FeEntry
  | [] => []
  | e :: t => if e.op = 0 then [] else e :: feUntilEnd t

/-- Run entries: `reads` are the words read back, in order, one for each chip select of an entry that reads. Transfers,
and the chip select and entry number of the first failure. -/
def feRun : List (Nat × FeEntry) → List Nat → List (Nat × Nat × Nat) → List (Nat × Nat × Nat) × Option (Nat × Nat)
  | [], _, out => (out, none)
  | (i, e) :: t, reads, out =>
    let css := bitsOf 4 e.cs
    if e.op = 3 then feRun t reads out
    else if e.op = 1 then feRun t reads (out ++ css.map fun c => (c, e.addr, e.value))
    else
      let got := List.zip css (reads.take css.length)
      let bad := css.find? fun c => !got.any fun q => q.1 == c && q.2 &&& e.mask == e.value &&& e.mask
      let out := out ++ (if e.op = 2 then css.map fun c => (c, e.addr, e.value) else [])
      match bad with
      | some c => (out, some (c, i))
      | none => feRun t (reads.drop css.length) out

/-- Ports of a chip select: GFE_CSa selects the front ends of antenna a (log 43). -/
def csPorts (c : Nat) : List Nat := [2 * c, 2 * c + 1]

/-- Run the script, or its verify entries alone; completion clears the front-end faults (R298). -/
def scriptRun (s : State) (verify : Bool) (reads : List Nat) : State :=
  let l := feUntilEnd (feScript (s.cfgD 0x3601 2))
  let l := List.zip (List.range l.length) l
  let l := if verify then l.filter fun e => e.2.op == 2 || e.2.op == 4 else l
  let (out, bad) := feRun l reads []
  let s := s.setGn { s.gn with spi := out, scriptDue := if verify then s.gn.scriptDue else none }
  match bad with
  | some (c, i) =>
    let s := s.putU 0x3601 6 (s.objU 0x3601 6 ||| 2 ^ c)
    let s := s.alarm 0x0B02 c 1 [c, i]
    let s := foldS s (csPorts c) fun s p => s.portCond p ((s.gport p).cond ||| 8) 4
    s.setGn { s.gn with retry := some (s.clk.time + 10000000000) }
  | none =>
    if verify then s else
    let s := s.setGn { s.gn with retry := none }
    let s := foldS s (bitsOf 4 (s.objU 0x3601 6)) fun s c =>
      foldS (s.lower 0x0B02 c) (csPorts c) fun s p => s.portCond p ((s.gport p).cond % 8) 0
    foldS (s.putU 0x3601 6 0) (s.gn.en.map (·.1)) fun s g => s.note 0x0B01 [g]

/-- Assert a group's enable: the script runs after the settle time (R296). -/
def feEnable (s : State) (g : Nat) : State :=
  s.setGn { s.gn with
    en := tset s.gn.en g s.clk.time, scriptDue := some (s.clk.time + ns (s.cfgR 0x3601 5 / 1000)) }

/-- The unit drives the front-end lines: it is the master and the baseband runs. -/
def feMaster (s : State) : Bool := s.gnOn && s.cfgB 0x3601 1

/-! Acquisition and tracking (R299-R307). -/

/-- Bandwidth object of a signal. -/
def bandObj (sig : Nat) : Nat := 0x3602 + sigGroup sig
/-- Loss threshold in force, dB-Hz (R306). -/
def lossAtCn0 (s : State) (sig : Nat) : Rat := s.cfgR (bandObj sig) (if s.vectorOn then 8 else 7)
/-- Time a channel coasts, ns. -/
def coastNs (s : State) (sig : Nat) : Nat := if s.vectorOn then ns (s.cfgR (bandObj sig) 9) else 100000000

/-- Put a channel on a port; when its 48 are full the lowest elevation goes, the new one where it is that (R303). -/
def placeChan (s : State) (c : Nat) (x : GChan) : State :=
  let p := sigPort x.ant x.sig
  let mine := s.gn.chans.filter fun q => sigPort q.2.ant q.2.sig == p && q.1 != c
  if mine.length < 48 then s.setGchan c x else
  match argMin (fun (q : Nat × GChan) => q.2.el) mine with
  | some q => if x.el ≤ q.2.el then s else (s.setGn { s.gn with chans := tdel s.gn.chans q.1 }).setGchan c x
  | none => s.setGchan c x

/-- A channel number of a port for a new signal: the first free one, else that of the lowest elevation below `el` (R303). -/
def freeChan (s : State) (p : Nat) (el : Rat) : Option Nat :=
  match ((List.range 48).map (48 * p + ·)).find? fun c => (s.gchan c).isNone with
  | some c => some c
  | none => (argMin (fun (q : Nat × GChan) => q.2.el)
      (s.gn.chans.filter fun q => q.1 / 48 == p && decide (q.2.el < el))).map (·.1)

/-- Hand a signal tracked on the reference antenna's L1 group port to the other ports of its group, and its L5 companion
to the L5 group ports (R301). -/
def handOver (s : State) (m : GMeas) (t : Nat) : State :=
  if m.ant ≠ s.cfgU 0x3608 1 ∨ sigGroup m.sig ≠ 0 then s else
  let ports := (List.range 8).filter fun p => s.portOn p && !(s.gport p).fault && p != 2 * m.ant
  foldS s ports fun s p =>
    let sig := if p % 2 = 0 then m.sig else m.sig + 1
    let there := s.gn.chans.any fun q => q.2.sys == m.sys && q.2.sat == m.sat && q.2.sig == sig && q.2.ant == p / 2
    if there then s else
    match s.freeChan p m.el with
    | some c => s.setGchan c { sys := m.sys, sat := m.sat, sig := sig, ant := p / 2, state := 1, lockAt := t, el := m.el }
    | none => s

/-- A channel's measurement at an epoch: lock within 500 ms of a detection, coast recovery within the coast time, handover; a
satellite at or below the elevation mask has no channel (R299, R301, R303, R306). -/
def chanMeas (s : State) (t : Nat) (m : GMeas) : State :=
  let p := sigPort m.ant m.sig
  if (s.gport p).fault || !s.portOn p then s
  else if m.el < s.cfgR 0x3600 5 then s.setGn { s.gn with chans := tdel s.gn.chans m.chan } else
  let isDet := fun (d : GDet) => d.port == p && d.sys == m.sys && d.sat == m.sat && d.sig == m.sig && decide (t ≤ d.until')
  let det := s.gn.dets.any isDet
  let s := if det then (s.setGn { s.gn with dets := s.gn.dets.filter fun d => !isDet d }).incU 0x3670 1 else s
  match s.gchan m.chan with
  | some x =>
    if x.state = 3 then
      if (m.cn0 : Rat) / 100 < s.lossAtCn0 m.sig ∨ x.coastAt + s.coastNs x.sig ≤ t then s
      else if 1 / 4 < rabs m.jump then
        (s.setGchan m.chan { x with state := 2, lockAt := t, slip := true, el := m.el }).handOver m t
      else
        (s.setGchan m.chan { x with state := 2, lockAt := x.lockAt + (t - x.coastAt), slip := false, el := m.el }).handOver m t
    else if x.state = 1 then (s.setGchan m.chan { x with state := 2, lockAt := t, slip := true, el := m.el }).handOver m t
    else (s.setGchan m.chan { x with slip := false, el := m.el }).handOver m t
  | none =>
    (s.placeChan m.chan { sys := m.sys, sat := m.sat, sig := m.sig, ant := m.ant, state := 2, lockAt := t, slip := true,
                          el := m.el }).handOver m t

/-- The search grid of Table 12-4: chips of the code, steps to a chip, coherent length ms, Doppler step Hz. -/
def searchGrid (sig : Nat) : Nat × Nat × Nat × Nat :=
  if sigGroup sig = 1 then (10230, 2, 1, 500)
  else match sig with
    | 3 => (4092, 4, 4, 125)
    | 5 => (10230, 4, 10, 50)
    | _ => (1023, 2, 1, 500)
/-- Cost in ms of a search over `phases` code phases and a Doppler window of ±`w` Hz (R299): the engine tests 8,192 hypotheses
against each ms; a hypothesis occupies its coherent length in each of the non-coherent dwells 3604h:01h. -/
def searchMs (s : State) (sig phases : Nat) (w : Rat) : Rat :=
  let (_, _, coh, step) := searchGrid sig
  ((phases * (2 * (w / step).floor.toNat + 1) * coh * s.cfgU 0x3604 1 : Nat) : Rat) / 8192
/-- The Doppler window of a search (R300, Table 12-4): cold, or ±3604h:02h. -/
def searchWindow (s : State) (kind : Nat) : Rat := if kind = 2 then 7500 else s.cfgR 0x3604 2

/-- A search that R300 makes. `kind` 1 aided; 2 cold: the C/A codes not yet found, the L5 group where 3604h:04h is 1
(Table 12-4), and in a loss only after its 600 s (Table 12-12); 3 handover: Galileo E1 and BeiDou B1C once three GPS satellites are
tracked. It works on the reference antenna's L1 group port, a direct L5 search on its L5 group port (log 154). -/
def searches (s : State) (p sys sat sig kind : Nat) : Bool :=
  let gps := (((s.gn.chans.filter fun q => q.2.sys == 0 && q.2.state == 2).map (·.2.sat)).eraseDups).length
  let found := s.gn.chans.any fun q => q.2.sys == sys && q.2.sat == sat
  s.portOn p && p == sigPort (s.cfgU 0x3608 1) sig && !(s.gport p).fault && bit (s.cfgU 0x3600 2) sys &&
    match kind with
    | 2 => (sig == 1 || sig == 7 || (sigGroup sig == 1 && s.cfgB 0x3604 4)) && !found && (s.gn.lossAt.isNone || s.gn.cold)
    | 3 => (sig == 3 || sig == 5) && decide (3 ≤ gps)
    | _ => true

/-- A detection at the largest cell (R299): it must exceed the noise estimate by the margin. -/
def detection (s : State) (p sys sat sig kind : Nat) (peak noise : Rat) : State :=
  let allowed := s.searches p sys sat sig kind
  if allowed && decide (noise + s.cfgR 0x3604 3 < peak) then
    s.setGn { s.gn with dets := s.gn.dets ++ [⟨p, sys, sat, sig, s.clk.time + 500000000⟩] }
  else s

/-- A side-peak check of a BOC(1,1) channel (R307): powers very early, prompt, very late. -/
def sidePeak (s : State) (c : Nat) (x : GChan) (ve pr vl : Rat) : State :=
  let n := if decide (pr < ve) || decide (pr < vl) then x.side + 1 else 0
  if n < 3 then s.setGchan c { x with side := n }
  else s.setGchan c { x with side := 0, moved := x.moved + (if vl < ve then -1 else 1) }

/-! Solutions (R308, R309). -/

/-- The residual test and up to two exclusions: the solution left, satellites excluded, whether the test passed. -/
def residualTest (s : State) : List GSol → List Nat → Nat → Option GSol × List Nat × Bool
  | [], out, _ => (none, out, false)
  | x :: t, out, k =>
    if x.stat ≤ Config.chi2 (s.cfgR 0x3610 0x0E) x.sats.length then (some x, out, true)
    else if k = 0 then (some x, out, false)
    else residualTest s t (out ++ [x.worst]) (k - 1)

/-! Attitude (R314-R317). -/

/-- Phase centre of an antenna in body axes. -/
def phaseCentre (s : State) (a : Nat) : List Rat := (List.range 3).map fun i => s.cfgR 0x3608 (2 + 3 * a + i)
/-- Baseline of an antenna from the reference, body axes. -/
def baseline (s : State) (a : Nat) : List Rat := vsub (s.phaseCentre a) (s.phaseCentre (s.cfgU 0x3608 1))
def norm3 (v : List Rat) : Rat := rsqrt (rsq (vget v 0) + rsq (vget v 1) + rsq (vget v 2))
/-- Heading of one fixed baseline from its horizontal projection. -/
def headingOf (s : State) (a : Nat) (v : List Rat) : Rat :=
  let b := s.baseline a
  wrap360 (rad2deg (Config.atan2 (vget v 1) (vget v 0)) - rad2deg (Config.atan2 (vget b 1) (vget b 0)))
/-- Two vectors are not collinear. -/
def notCollinear (a b : List Rat) : Bool :=
  (vget a 1 * vget b 2 - vget a 2 * vget b 1 != 0) || (vget a 2 * vget b 0 - vget a 0 * vget b 2 != 0) ||
    (vget a 0 * vget b 1 - vget a 1 * vget b 0 != 0)

/-- Heading of the prior stream 3608h:11h where it is named and used. -/
def priorHeading (s : State) : Option Rat :=
  let k := s.cfgU 0x3608 0x11
  if k ≠ 255 && s.isUsed k then (s.stream k).al.map fun a => nth 0 a.vals 0 else none

/-- The fix test of a baseline (R315). -/
def fixes (s : State) (b : GBase) : Bool :=
  let len := norm3 (s.baseline b.ant)
  let near := match s.priorHeading with
    | some h => decide (rabs (wrap180 (s.headingOf b.ant b.vec - h)) ≤ 5)
    | none => true
  decide (5 ≤ b.sats) && decide (s.cfgR 0x3608 0x0F ≤ b.ratio) &&
    decide (rabs (norm3 b.vec - len) ≤ s.cfgR 0x3608 0x10 / 1000) && near

/-- Fixes and drops of an epoch (R315, R316). A fixed baseline without an observation is dropped (log 44). -/
def baselines (s : State) (bases : List GBase) : State :=
  let ants := (List.range 4).filter fun a =>
    a != s.cfgU 0x3608 1 && bit (s.cfgU 0x3608 0x0E) a && !s.portOut (2 * a) && !s.portOut (2 * s.cfgU 0x3608 1)
  foldS s (List.range 4) fun s a =>
    let obs := if ants.contains a then bases.find? (·.ant == a) else none
    let put := fun (s : State) (x : Option (Rat × List Rat)) => match x with
      | some v => s.setGn { s.gn with bases := tset s.gn.bases a v }
      | none => s.setGn { s.gn with bases := tdel s.gn.bases a }
    match tfind s.gn.bases a, obs with
    | some old, some b => if 1 / 10 < b.rms then (put s none).note 0x0B0E [a, 0] else put s (some (old.1, b.vec))
    | some _, none => (put s none).note 0x0B0E [a, 0]
    | none, some b => if s.fixes b then (put s (some (b.bias, b.vec))).note 0x0B0E [a, 1] else s
    | none, none => s

/-- Heading, and pitch and roll where two non-collinear baselines are fixed (R317). -/
def arrayAttitude (s : State) (rot : List Rat) : Option Rat × Option (Rat × Rat) :=
  let l := s.gn.bases
  let two := l.any fun p => l.any fun q => notCollinear (s.baseline p.1) (s.baseline q.1)
  if two then (some (wrap360 (vget rot 0)), some (vget rot 1, vget rot 2))
  else match l with
    | p :: _ => (some (s.headingOf p.1 p.2.2), none)
    | [] => (none, none)

/-! Jamming indicators (R319, R320). -/

/-- Key of a C/N0 baseline: signal, antenna, 5° elevation bin. -/
def baseKey (m : GMeas) : Nat := (m.sig * 4 + m.ant) * 18 + (m.el / 5).floor.toNat
/-- C/N0 baseline, dB-Hz: 42.0 until the bin holds 100 s. -/
def baseCn0 (s : State) (m : GMeas) : Rat :=
  match tfind s.gn.base (baseKey m) with
  | some p => if 100 ≤ p.2 then p.1 / p.2 else 42
  | none => 42

/-- Learn the baselines while the field reads 000b: a mean over the last 24 h (log 45). -/
def learnCn0 (s : State) (meas : List GMeas) (dt : Rat) : State :=
  if s.gn.field ≠ 0 then s else
  foldS s meas fun s m =>
    let (sum, t) := tget (0, 0) s.gn.base (baseKey m)
    let keep := if t + dt ≤ 86400 then 1 else (86400 - dt) / t
    s.setGn { s.gn with base := tset s.gn.base (baseKey m) (sum * keep + (m.cn0 : Rat) / 100 * dt, t * keep + dt) }

/-- Indicators of one port at an epoch. -/
def indicators (s : State) (t : Nat) (meas : List GMeas) (p : Nat) (duty : Rat) : State :=
  let x := s.gport p
  let out := decide (duty < s.cfgR 0x3610 7) || decide (s.cfgR 0x3610 8 < duty)
  let drops := (meas.filter fun m => sigPort m.ant m.sig == p).map fun m => s.baseCn0 m - (m.cn0 : Rat) / 100
  let low := !drops.isEmpty && decide (s.cfgR 0x3610 0x0A ≤ median drops)
  let df := if out then some (x.dutyFrom.getD t) else none
  let cf := if low then some (x.dropFrom.getD t) else none
  let held := fun (o : Option Nat) (sub : Nat) => match o with
    | some a => decide (a + ns (s.cfgR 0x3610 sub) ≤ t)
    | none => false
  s.setGport p { x with duty := duty, dutyFrom := df, dropFrom := cf, power := held df 9, cn0 := held cf 0x0C }

/-- A port's indicator holds. -/
def indicated (s : State) (p : Nat) : Bool := (s.gport p).power || (s.gport p).cn0

/-- A port whose indicator holds while its group is not jammed is excluded, with event 0B13h at its onset (R320). -/
def excludePorts (s : State) : State :=
  foldS s (List.range 8) fun s p =>
    let x := s.gport p
    let out := s.portOn p && s.indicated p && !bit s.gn.jammed (p % 2)
    let s := s.setGport p { x with excl := out }
    if out && !x.excl then s.note 0x0B13 [p] else s

/-! Direction test and spoofing (R321-R325). -/

/-- Attitude for the test: the array's own while it agrees with the prior stream within 1.0°, else that stream with the
MRU's roll and pitch, taken from the fallback attitude stream 2500h:04h, free where it delivers none (log 46). -/
def testAttitude (s : State) (own : Option Rat) (pr : Option (Rat × Rat)) : Option (Rat × Rat × Rat) :=
  let mru := match s.bring (s.cfgU 0x2500 4) 0x07 s.gn.epoch with
    | some l => (nth 0 l 0, nth 0 l 1)
    | none => (Config.noTilt 0, Config.noTilt 1)
  let tilt := match pr with
    | some (pitch, roll) => (roll, pitch)
    | none => mru
  match own, s.priorHeading with
  | some h, some q => if rabs (wrap180 (h - q)) ≤ 1 then some (h, tilt) else some (q, mru)
  | some h, none => some (h, tilt)
  | none, some q => some (q, mru)
  | none, none => none

/-- L1 wavelength, m: the speed of light over 1575.42 MHz (PRESUMED from physics, log 14). -/
def lambdaL1 : Rat := 299792458 / 1575420000

/-- Predicted single difference p_a,s in cycles (R321). -/
def predictedPhase (s : State) (att : Rat × Rat × Rat) (a : Nat) (los : List Rat) : Rat :=
  let b := s.baseline a
  let e := rotate att.2.1 att.2.2 att.1 (vget b 0, vget b 1, vget b 2)
  let along := e.1 * vget los 0 + e.2.1 * vget los 1 + e.2.2 * vget los 2
  (0 - along) / lambdaL1

/-- Two satellites coincide (R322). -/
def coincide (s : State) (att : Rat × Rat × Rat) (x y : GDir) : Bool :=
  let bias := fun a => match tfind s.gn.bases a with
    | some b => b.1
    | none => 0
  let common := x.phi.filter fun p => (tfind y.phi p.1).isSome
  let meas := common.map fun p => wrapCycle (wrapCycle (p.2 - bias p.1) - wrapCycle (tget 0 y.phi p.1 - bias p.1))
  let pred := common.map fun p => wrapCycle (s.predictedPhase att p.1 x.los - s.predictedPhase att p.1 y.los)
  !common.isEmpty && meas.all (fun d => decide (rabs d ≤ s.cfgR 0x3610 1)) &&
    pred.any fun d => decide (s.cfgR 0x3610 2 ≤ rabs d)

/-- The observer's velocity north and east with wave velocity included. -/
def waveVelocity (s : State) : Option (Rat × Rat) :=
  s.obsVelocity.map fun v => (v.1 + vget s.obs.core.x 12, v.2 + vget s.obs.core.x 13)

/-- The yaw rate of the first used yaw-rate stream, °/s. -/
def yawStream (s : State) : Option Rat :=
  match s.usedOf 3 with
  | k :: _ => (s.stream k).al.map fun a => nth 0 a.vals 0
  | [] => none

/-- Motion inconsistency (R324). -/
def motionTest (s : State) (t : Nat) (vel : Option (List Rat)) (head : Option Rat) : State :=
  let g := s.gn
  let vels := match vel, s.waveVelocity with
    | some v, some o => (g.vels.filter fun p => t < p.1 + 5000000000) ++ [(t, [vget v 0 - o.1, vget v 1 - o.2])]
    | _, _ => []
  let mean := fun i => rsum (vels.map fun p => vget p.2 i) / (vels.length : Rat)
  let inc := if vels.isEmpty then 0 else rsqrt (rsq (mean 0) + rsq (mean 1))
  let dt : Rat := ((t - g.epoch : Nat) : Rat) / 1000000000
  let yaw := g.yawInt + (s.yawStream.getD 0) * dt
  let heads := match head, s.yawStream with
    | some h, some _ => (g.heads.filter fun p => t ≤ p.1 + 10000000000) ++ [(t, wrap180 (h - yaw))]
    | _, _ => []
  let turn := match heads with
    | a :: _ => match heads.getLast? with
      | some z => decide (a.1 + 10000000000 ≤ z.1) && decide (s.cfgR 0x3610 6 < rabs (wrap180 (z.2 - a.2)))
      | none => false
    | [] => false
  let now := decide (s.cfgR 0x3610 5 < inc) || turn
  let s := s.setGn { g with vels := vels, heads := heads, yawInt := yaw, motion := now, velInc := inc }
  if now && !g.motion then s.note 0x0B0D [1] else s

/-! Snapshots (R328-R331). -/

/-- Size of a snapshot's container in bytes. -/
def snapSize (x : Snap) : Nat := 176 + popcount 8 x.ports * x.ms * 20480 + 126

/-- Capture with a cause 0-4 at a trigger (R328, R329). `forced` for a command or a Dormancy check. -/
def capture (s : State) (cause trigger : Nat) (forced : Bool) : State :=
  if !forced && !bit (s.cfgU 0x3620 5) cause then s else
  let g := s.gn
  let empty := (List.range 64).find? fun k => (tfind g.snaps k).isNone
  let old := argMin (fun (p : Nat × Snap) => (p.2.seq : Rat)) (g.snaps.filter fun p => !p.2.keep && !p.2.await)
  let slot := match empty, old with
    | some k, _ => some k
    | none, some p => some p.1
    | none, none => none
  match slot with
  | none => (s.incU 0x3670 5).note 0x0B10 [g.snapSeq, 3]
  | some k =>
    let ms := if cause = 4 then 20 else s.cfgU 0x3620 2
    let ports := if cause = 4 then s.cfgU 0x3620 9 else s.cfgU 0x3620 4
    let f := fun (x : Rat) => natLe 4 (F32.ofRat x).toNat
    let est := match s.obs.est with
      | some e => [e.n, e.e, e.psi, e.u, e.v, e.r]
      | none => [0, 0, 0, 0, 0, 0]
    let tail := ((List.range 8).map fun p => f (if bit ports p then s.portRate p else 0)).flatten
      ++ (Config.sha384 (s.cfgD 0x3601 2)).take 8 ++ (est.map f).flatten ++ natLe 4 (s.objU 0x2200 1)
      ++ natLe 4 (ms * 40960) ++ natLe 4 ((s.gran.next + 2 ^ 32 - 1) % 2 ^ 32) ++ natLe 4 0
    -- a Dormancy check captures from its trigger on (R332; log 114)
    let start : Rat := (trigger : Rat) - (if cause = 4 then 0 else s.cfgR 0x3620 3 * ms * 1000000)
    let firsts := (bitsOf 8 ports).map fun p => (p, s.firstSample p start)
    let x : Snap := { seq := g.snapSeq, cause := cause, ms := ms, trigger := trigger, ports := ports, tail := tail,
                      first := ((List.range 8).map fun p => natLe 8 (match tfind firsts p with
                        | some q => (roundAway q.2).toNat
                        | none => 0)).flatten,
                      from' := firsts.map fun q => (q.1, q.2.1), era := s.era,
                      await := cause = 4 || bit (s.cfgU 0x3620 6) cause }
    (s.setGn { g with snaps := tset g.snaps k x, snapSeq := (g.snapSeq + 1) % 2 ^ 32 }).note 0x0B0F [g.snapSeq, cause]

end State
end Sys2Proof.Machine
end

