-- ==== Sys2Proof/Machine/GnssRun.lean ====
section
/-! DEFINITION. Measurement epochs and the other commands of the GNSS baseband (chapter 12). -/
namespace Sys2Proof.Machine

namespace State

/-! Measurement epoch (R308-R326). -/

/-- Feed a Sheaf stream of binding 03h (Table 12-6). -/
def feedGnss (s : State) (t addr kind : Nat) (raw : List Rat) (sd : Rat) (valid : Bool) : State :=
  let ks := (List.range 256).filter fun k => match (s.stream k).cfg with
    | some (kd, 3, a, _) => kd == kind && a == addr
    | _ => false
  foldS s ks fun s k => s.sheafAccept k { stamp := t, arrival := s.clk.time, raw := raw, sd := some sd } valid

/-- The integrity field (Table 12-11): the lowest row that applies. -/
def fieldNow (s : State) (excluded : Bool) : Nat :=
  let g := s.gn
  let out := (List.range 8).any fun p => s.portOn p && s.portOut p
  let degraded := excluded || out || g.suspected || g.motion || g.hold
  match g.jammed != 0, g.declared with
  | true, true => 5
  | false, true => 4
  | true, false => 3
  | false, false => if degraded then 2 else if g.valid then 0 else 1

/-- A decision of the field at device time t: the offer is withdrawn when it is not 000b (R310, R318). -/
def decideField (s : State) (t f : Nat) : State :=
  s.setGn { s.gn with
    field := f, nominalFrom := if f = 0 then some (s.gn.nominalFrom.getD t) else none, offered := s.gn.offered && f = 0 }

/-- Loss, first fix and return of the solution (R327, Table 12-12): `few` satellites, fewer than four, begin a loss. -/
def solutionState (s : State) (t : Nat) (ok few : Bool) : State :=
  let g := s.gn
  if ok then
    if !g.fixed then
      let young := fun (sec : Nat) => g.eph.any fun p => t < p.2.1 + sec * 1000000000
      let kind := if young 7200 && s.timeQuality ≤ 1 then 1 else if young 2592000 then 2 else 3
      (s.setGn { g with valid := true, fixed := true, lossAt := none }).note 0x0B04 [kind, t - g.runFrom.getD t]
    else if g.lossAt.isSome then
      (s.setGn { g with valid := true, lossAt := none, hold := true, cleanFrom := t, bases := [] }).note 0x0B06 []
    else s.setGn { g with valid := true }
  else if few && g.fixed && g.lossAt.isNone then
    ((s.setGn { g with valid := false, lossAt := some t, lastSearch := t, cold := false, hold := false, offered := false }).note
      0x0B05 []).capture
      3 t false
  else s.setGn { g with valid := false }

/-- The return hold ends after 3600h:08h without an exclusion (Table 12-12). -/
def holdState (s : State) (t : Nat) (excluded : Bool) : State :=
  let g := s.gn
  if !g.hold then s
  else if excluded then s.setGn { g with cleanFrom := t }
  else if g.cleanFrom + ns (s.cfgR 0x3600 8) ≤ t then s.setGn { g with hold := false }
  else s

/-- Coincident set, suspicion, declaration and clear (R322, R323, R325). -/
def spoofing (s : State) (t : Nat) (set : List Nat) : State :=
  let g := s.gn
  let full := s.cfgU 0x3610 3
  let persist := ns (s.cfgR 0x3610 4)
  let big := full ≤ set.length
  let show' := big || (2 ≤ set.length && g.motion)
  let span := if show' then some (g.spanFrom.getD t) else none
  let lastSet := if big then t else g.lastSet
  let lastPair := if 2 ≤ set.length then t else g.lastPair
  let s := s.setGn { g with set := set, lastSet := lastSet, lastPair := lastPair, spanFrom := span }
  let s := if big && !g.suspected then (s.setGn { s.gn with suspected := true }).note 0x0B0A [set.length]
    else if g.suspected && !big && decide (lastSet + persist ≤ t) then s.setGn { s.gn with suspected := false } else s
  let due := match span with
    | some a => !g.declared && decide (a + persist ≤ t)
    | none => false
  let s := if due then
      let s := (s.setGn { s.gn with declared := true, offered := false, clearReq := false }).alarm 0x0B0B 0 1
        (set.length :: set.take 3)
      s.capture 1 t false
    else s
  let calm := decide (lastPair + ns (s.cfgR 0x3610 0x0D) ≤ t)
  if g.declared && calm && (g.clearReq || s.cfgB 0x3610 0x0F) then
    ((s.setGn { s.gn with declared := false, clearReq := false, spanFrom := none }).note 0x0B0C
      [if g.clearReq then 1 else 2]).lower 0x0B0B 0
  else s.setGn { s.gn with clearReq := false }

/-- One measurement record (Tables 12-8 and 12-9). -/
def measRecord (s : State) (t : Nat) (sol excl : List Nat) (m : GMeas) : List Byte :=
  let c := (s.gchan m.chan).getD {}
  let id := satId m.sys m.sat
  let out := s.portOut (sigPort m.ant m.sig)
  let flags := (m.flags &&& 0xF108) + bitAt c.slip 11 + bitAt (c.state == 3) 10 + bitAt s.vectorOn 9 +
    bitAt (sol.contains id && !excl.contains id && !out) 7 + bitAt (excl.contains id) 6 + bitAt (s.gn.set.contains id) 5 +
    bitAt out 4
  let lock := (if c.state = 3 then c.coastAt else t) - c.lockAt
  natLe 1 m.sys ++ natLe 1 m.sat ++ natLe 1 m.sig ++ natLe 1 m.ant ++ natLe 2 m.chan ++ natLe 2 flags ++ natLe 8 m.range ++
    natLe 8 (ofSigned 64 m.phase) ++ natLe 4 (ofSigned 32 m.doppler) ++ natLe 2 m.cn0 ++ natLe 2 m.rangeSd ++
    natLe 4 (lock / 1000000) ++ natLe 2 m.phaseSd ++ natLe 2 0

/-- The measurement block (Table 12-7). -/
def measBlock (s : State) (t : Nat) (sol : Option GSol) (excl : List Nat) (meas : List GMeas) : List Byte :=
  let (clock, drift, sats) := match sol with
    | some x => (x.clock, x.drift, x.sats)
    | none => (0, 0, [])
  natLe 8 t ++ natLe 4 (ofSigned 32 clock) ++ natLe 4 (ofSigned 32 drift) ++ natLe 2 meas.length ++
    natLe 2 (bitAt s.gn.valid 0 + bitAt s.vectorOn 1 + bitAt (s.gn.field != 0) 2) ++ natLe 1 s.gn.field ++
    List.replicate 11 0 ++ (meas.map fun m => s.measRecord t sats excl m).flatten

/-- Publish 3643h. -/
def publishIntegrity (s : State) (t : Nat) : State :=
  let g := s.gn
  let ind := nsum ((List.range 8).map fun p => bitAt (s.gport p).power (2 * p) + bitAt (s.gport p).cn0 (2 * p + 1))
  let members := (List.range 8).map fun i => Val.u (nth 0xFFFF g.set i)
  let span : Rat := match g.spanFrom with
    | some a => ((t - a : Nat) : Rat) / 1000000000
    | none => 0
  s.publishAt 0x3643 t ([.u g.field, .u g.jammed, .u ind, .u g.set.length] ++ members ++ [rv span, rv g.velInc])

/-- Shed T2 work (R521). -/
def t2Shed (s : State) : Bool := 2 ≤ s.therm.level
def t3Shed (s : State) : Bool := 1 ≤ s.therm.level

/-- The direction and motion-consistency tests, unless T2 is shed (R321-R325, R521). -/
def integrityTests (s : State) (m : GEpoch) (sol : Option GSol) (head : Option Rat) (tilt : Option (Rat × Rat)) : State :=
  if s.t2Shed then s else
  let s := s.motionTest m.t (sol.map (·.vel)) head
  let dirs := m.dirs.filter fun d => 2 ≤ d.phi.length
  let set : List Nat := match s.testAttitude head tilt with
    | some att => (clique (s.coincide att) dirs []).map (·.id)
    | none => []
  s.spoofing m.t (if 2 ≤ set.length then set else [])

/-- The work of an epoch (R308-R326). -/
def measurementEpoch (s : State) (m : GEpoch) : State :=
  let t := m.t
  let dt : Rat := if s.gn.epoch = 0 then 0 else ((t - s.gn.epoch : Nat) : Rat) / 1000000000
  let s := foldS s m.meas fun s x => s.chanMeas t x
  let meas := m.meas.filter fun x => (s.gchan x.chan).isSome
  let (sol, excl, passed) := s.residualTest m.sols [] 2
  let n := match sol with
    | some x => x.sats.length
    | none => 0
  let ok := passed && 4 ≤ n
  let s := foldS s excl fun s k => (s.incU 0x3670 3).note 0x0B07 [k]
  let s := (s.solutionState t ok (n < 4)).holdState t (!excl.isEmpty)
  let s := s.baselines m.bases
  let (head, tilt) := s.arrayAttitude m.rot
  let s := foldS s (List.range 8) fun s p => if s.portOn p then s.indicators t meas p (nth 0 m.duty p) else s
  let s := (s.excludePorts).learnCn0 meas dt
  let good := if ok then sol else none
  let s := s.integrityTests m good head tilt
  let s := if s.t2Shed then s else s.decideField t (s.fieldNow (!excl.isEmpty))
  let x : GSol := sol.getD { sats := [], stat := 0, worst := 0, lat := 0, lon := 0, h := 0, vel := [0, 0, 0], sH := 0, sV := 0,
                             sVel := 0, pdop := 0, clock := 0, drift := 0 }
  let s := s.setGn { s.gn with
    epoch := t, offset := x.clock, drift := x.drift, excluded := !excl.isEmpty, lastPos := if ok then some (x.lat, x.lon, x.h) else s.gn.lastPos }
  let s := s.publishAt 0x3640 t ([.i x.lat, .i x.lon, rv x.h] ++ x.vel.map rv ++ [rv x.sH, rv x.sV, .u n, rv x.pdop, .i x.clock,
    .u excl.length])
  let (pitch, roll) := tilt.getD (0, 0)
  let ratio := (m.bases.map (·.ratio)).foldl rmax 0
  let s := s.publishAt 0x3641 t ([rv (head.getD 0), rv pitch, rv roll] ++ (List.range 3).map (fun i => rv (vget m.rotSd i)) ++
    [.u s.gn.bases.length, rv ratio])
  let s := s.publishAt 0x3642 t [.d (s.measBlock t sol excl meas)]
  let s := s.publishIntegrity t
  let s := s.feedGnss t 0 0x01 [(x.lat : Rat) / 1000000000, (x.lon : Rat) / 1000000000, x.h] x.sH ok
  let s := s.feedGnss t 1 0x05 [head.getD 0] (vget m.rotSd 0) (ok && head.isSome)
  let s := s.feedGnss t 2 0x07 [roll, pitch, m.heave] ((m.rotSd.map rabs).foldl rmax 0) (ok && tilt.isSome)
  s.feedGnss t 3 0x08 [vget x.vel 0, vget x.vel 1] x.sVel ok

/-! Jamming (R320, R326). -/

def jamming (s : State) (g : Nat) : State :=
  let ports := ofBits ((s.groupPorts g).filter s.indicated)
  let s := (s.setGn { s.gn with jammed := s.gn.jammed ||| 2 ^ g, calmFrom := tdel s.gn.calmFrom g, offered := false }).alarm
    0x0B08 g 1 [g, ports]
  let s := s.excludePorts.capture 0 s.gn.epoch false
  s.decideField s.clk.time (s.fieldNow s.gn.excluded)

/-- Indicators of a jammed group hold on no port: the clear timer runs (R320). -/
def jamCalm (s : State) (g : Nat) : State :=
  if (s.groupPorts g).any s.indicated then s.setGn { s.gn with calmFrom := tdel s.gn.calmFrom g }
  else s.setGn { s.gn with calmFrom := tset s.gn.calmFrom g ((tfind s.gn.calmFrom g).getD s.clk.time) }

def jammingEnds (s : State) (g : Nat) : State :=
  let s := s.setGn { s.gn with jammed := setBit s.gn.jammed g false, calmFrom := tdel s.gn.calmFrom g }
  let s := (s.note 0x0B09 []).lower 0x0B08 g
  s.decideField s.clk.time (s.fieldNow s.gn.excluded)

/-! Snapshots, archive and reads (R328-R331). -/

/-- Delete from the archive until a snapshot fits in 192 MiB (R330): the oldest not of jamming or spoofing first. -/
def makeRoom : Nat → Nat → State → State
  | 0, _, s => s
  | k + 1, need, s =>
    if nsum (s.gn.archive.map snapSize) + need ≤ 201326592 then s else
    let pick := fun (l : List Snap) => argMin (fun (x : Snap) => (x.seq : Rat)) l
    let one := match pick (s.gn.archive.filter fun x => x.cause != 0 && x.cause != 1) with
      | some x => some x
      | none => pick s.gn.archive
    match one with
    | none => s
    | some x => makeRoom k need
        ((s.setGn { s.gn with archive := s.gn.archive.filter (· != x) }).note 0x0B10 [x.seq, 2])

def archiveSlot (s : State) (k : Nat) (x : Snap) : State :=
  let s := makeRoom (s.gn.archive.length + 1) (snapSize x) s
  let x := { x with await := false }
  (s.setGn { s.gn with archive := s.gn.archive ++ [x], snaps := tset s.gn.snaps k x }).note 0x0B10 [x.seq, 1]

/-- The snapshot selected by 3621h:01h. -/
def selected' (s : State) : Option Snap :=
  let n := s.cfgU 0x3621 1
  if n < 32768 then tfind s.gn.snaps n else s.gn.archive[n - 32768]?

/-- A snapshot's container (Table 12-13). -/
def container (s : State) (x : Snap) : List Byte :=
  let body := ascii "KSNP" ++ natLe 2 1 ++ natLe 1 x.ports ++ natLe 1 0 ++ natLe 4 (s.objU 0x1018 2) ++
    natLe 4 (s.objU 0x1018 4) ++ natLe 4 x.seq ++ natLe 2 (2 ^ x.cause) ++ natLe 2 x.ms ++ natLe 8 x.trigger ++ x.first ++
    x.tail ++ (x.from'.map fun q => portBytes x.era q.1 q.2 (x.ms * 40960)).flatten
  let signer := Config.keyId (s.objD 0x4800 1)
  let sig := Config.unitSignDer (Config.sha384 (body ++ signer))
  body ++ signer ++ natLe 2 sig.length ++ sig

/-- The directory 3622h:00h. -/
def directory (s : State) : List Byte :=
  let e := fun (n : Nat) (x : Snap) => natLe 2 n ++ natLe 2 (2 ^ x.cause) ++ natLe 4 x.seq ++ natLe 8 x.trigger
  (s.gn.snaps.map fun p => e p.1 p.2).flatten ++
    ((List.zip (List.range s.gn.archive.length) s.gn.archive).map fun p => e (32768 + p.1) p.2).flatten

/-- Own rules of the writes of this chapter that act (R325, R328-R330). -/
def ruleGnss (s : State) (_ : Path) (idx sub : Nat) (v : Val) : Verdict :=
  let n := v.asNat
  if idx = 0x3611 then
    if n = 0 then .done s
    else if s.clk.time < s.gn.lastPair + ns (s.cfgR 0x3610 0x0D) ∧ s.gn.lastPair ≠ 0 then .refuse abMode s
    else .done (s.setGn { s.gn with clearReq := true })
  else if idx = 0x3620 ∧ sub = 1 then
    .done (if n = 1 ∧ s.gnOn then s.capture 2 s.clk.bound true else s)
  else if idx = 0x3621 ∧ sub = 3 then
    match tfind s.gn.snaps (s.cfgU 0x3621 1) with
    | some x => .done (s.setGn { s.gn with snaps := tset s.gn.snaps (s.cfgU 0x3621 1) { x with await := n = 1 } })
    | none => .done s
  else if idx = 0x3621 ∧ sub = 4 then
    match tfind s.gn.snaps (s.cfgU 0x3621 1) with
    | some x => .done (s.setGn { s.gn with snaps := tset s.gn.snaps (s.cfgU 0x3621 1) { x with keep := n = 1 } })
    | none => .done s
  else .store

/-- Computed reads of this chapter. -/
def liveGnss (s : State) (idx sub : Nat) : Option Val :=
  if idx = 0x3621 ∧ sub = 2 then some (.d (match s.selected' with
    | some x => s.container x
    | none => []))
  else if idx = 0x3621 ∧ sub = 3 then s.selected'.map fun x => .u (b2n x.await)
  else if idx = 0x3621 ∧ sub = 4 then s.selected'.map fun x => .u (b2n x.keep)
  else if idx = 0x3622 then some (.d s.directory)
  else none

/-! Navigation records (R312, R313, R351). -/

/-- Did the record's check pass (Table 12-10)? -/
def NavRec.passed (r : NavRec) : Bool := if r.msg = 1 then r.check &&& 0x3FF == 0x3FF else bit r.check 0

/-- A message demodulated (R312): queued whatever its check; its content is used where the check passed. `utc` is the
TAI - UTC it carries with the announced change, the day's end and the new value (R351). -/
def navMessage (s : State) (r : NavRec) (utc : Option (Int × Option (Nat × Int))) : State :=
  let g := s.gn
  let r := { r with seq := g.navSeq }
  let s := s.setGn { g with nav := lastN 1024 (g.nav ++ [r]), navSeq := (g.navSeq + 1) % 2 ^ 32 }
  if !NavRec.passed r then s else
  -- a message is demodulated with bit synchronisation found (R304; log 154)
  let s := s.setGn { s.gn with
    eph := tset s.gn.eph (satId r.sys r.sat * 16 + r.msg) (r.first, r.bytes),
    chans := s.gn.chans.map fun p => (p.1, if p.2.sys = r.sys ∧ p.2.sat = r.sat ∧ p.2.sig = r.sig
      then { p.2 with bitSync := true } else p.2) }
  match utc with
  | some (v, leap) => { s with tb := { s.tb with navTai := some v, leap := leap } }
  | none => s

/-- A record's octets (Table 12-10). -/
def navBytes (r : NavRec) : List Byte :=
  natLe 4 r.seq ++ natLe 1 r.sys ++ natLe 1 r.sat ++ natLe 1 r.sig ++ natLe 1 r.msg ++ natLe 8 r.first ++ natLe 2 r.bits ++
    natLe 2 r.check ++ natLe 1 r.ant ++ natLe 3 0 ++ (r.bytes ++ List.replicate 80 0).take 80

/-- A read of 3645h:00h by a session (R313). -/
def navRead (s : State) (p : Path) : State :=
  let e := s.existsAbort 0x3645 0
  if e ≠ 0 then s.answer e else
  let ses := s.session p
  let q := s.gn.nav
  match q with
  | [] => s.answer 0
  | old :: _ =>
    let want := ses.nav.getD old.seq
    let lost := if newerMod (2 ^ 32) old.seq want then (old.seq + 2 ^ 32 - want) % 2 ^ 32 else 0
    let start := if lost = 0 then want else old.seq
    let l := (q.filter fun r => r.seq == start || newerMod (2 ^ 32) r.seq start).take 64
    let next := match l.getLast? with
      | some r => (r.seq + 1) % 2 ^ 32
      | none => start
    ((s.addU 0x3670 4 lost).setSession p { ses with nav := some next }).answer 0 (l.map navBytes).flatten

/-! The frame's part (R296, R305, Table 12-15). -/

/-- Antenna velocity from the observer's state with wave velocity, the IMU's rates on the lever arm and heading. -/
def antennaVel (s : State) (a : Nat) : List Rat :=
  match s.obs.est, s.waveVelocity with
  | some e, some v =>
    let imu := if s.io.imu.any (fun p => p.1 == 0) then tget {} s.io.imu 0 else tget {} s.io.imu 1
    let w := (List.range 3).map fun i => deg2rad (vget imu.fields i)
    let r := s.phaseCentre a
    let body := (vget w 1 * vget r 2 - vget w 2 * vget r 1, vget w 2 * vget r 0 - vget w 0 * vget r 2,
      vget w 0 * vget r 1 - vget w 1 * vget r 0)
    let q := rotate 0 0 e.psi body
    [v.1 + q.1, v.2 + q.2.1, q.2.2]
  | _, _ => [0, 0, 0]

/-- Sample clocks (R294), vector drive and its fallback, the loops (R304), enables of deselected groups, 3644h every 100 ms. -/
def gnssFrame (s : State) (gck : List (Nat × Rat)) : State :=
  if !s.hasGnss then s else
  if !s.gnOn then
    -- navigation data are decoded no longer (R351)
    let s := { s with tb := { s.tb with navTai := none } }
    s.setGn { s.gn with clocks := [], en := [], valid := false, field := 1, nominalFrom := none, offered := false, runFrom := none }
  else
  let s := s.setGn { s.gn with runFrom := some (s.gn.runFrom.getD s.clk.time) }
  let s := foldS s gck fun s c => if c.1 < 2 then s.clockCapture c.1 c.2 else s
  let want := s.cfgU 0x3600 6 == 1
  let was := s.gn.vector
  let now := want && s.obs.core.pInit
  let s := if want && was && !now then s.note 0x0B0D [2] else s
  let drive := if now then (bitsOf 4 (s.cfgU 0x3608 0x0E)).map fun a => (a, s.antennaVel a) else []
  let en := if s.feMaster then s.gn.en.filter fun p => bit (s.cfgU 0x3600 3) p.1 else []
  let s := s.setGn { s.gn with vector := now, drive := drive, en := en }
  let s := s.setGn { s.gn with chans := s.gn.chans.map fun p => (p.1, { p.2 with loop := s.loopsOf p.1 p.2 }) }
  let s := foldS s (bitsOf 2 s.gn.jammed) fun s g => s.jamCalm g
  if s.clk.frame % 80 = 0 then
    s.publish 0x3644 ((List.range 8).map (fun p => Val.u (b2n (s.gport p).fault)) ++
      (List.range 8).map (fun p => rv (s.gport p).ppm) ++ (List.range 8).map fun p => rv (s.gport p).duty)
  else s

end State

/-- GNSS_PORT_FAULT (R295): port p's readings at time t: clock present, its rate in Hz, magnitude-bit duty. -/
def execGnssPortFault (p t : Nat) (clock : Bool) (hz duty : Rat) (s : State) : Out :=
  if s.gnOn && decide (p < 8) then .next ((s.at' t).portReading p clock hz duty) else .next s

/-- GNSS_PORT_FAULT_CLEAR (R295): no condition has held on port p for 1.0 s. -/
def execGnssPortFaultClear (p t : Nat) (s : State) : Out :=
  let x := s.gport p
  let s' := s.at' t
  match x.okFrom with
  | some a =>
    if s.gnOn && x.fault && x.cond == 0 && decide (a + 1000000000 ≤ s'.clk.time) then .next (s'.portClear p) else .next s
  | none => .next s

/-- FRONT_END_ENABLE (R296): the master asserts group g's enable while the group is selected. -/
def execFrontEndEnable (g : Nat) (s : State) : Out :=
  if s.feMaster && decide (g < 2) && bit (s.cfgU 0x3600 3) g && (tfind s.gn.en g).isNone then .next (s.feEnable g) else .next s

/-- FRONT_END_SCRIPT_RUN (R297): the master runs the script that is due; `reads` the words read back. -/
def execFrontEndScriptRun (t : Nat) (reads : List Nat) (s : State) : Out :=
  let s' := s.at' t
  match s.gn.scriptDue with
  | some d => if s.feMaster && decide (d ≤ s'.clk.time) then .next (s'.scriptRun false reads) else .next s
  | none => .next s

/-- FRONT_END_ATTENTION (R297): GFE_ATTN_N low for 1 us: the verify entries run again. -/
def execFrontEndAttention (t : Nat) (reads : List Nat) (s : State) : Out :=
  if s.feMaster then .next ((s.at' t).scriptRun true reads) else .next s

/-- FRONT_END_SCRIPT_RETRY (R298): 10 s after a failure the whole script runs again. -/
def execFrontEndScriptRetry (t : Nat) (reads : List Nat) (s : State) : Out :=
  let s' := s.at' t
  match s.gn.retry with
  | some d => if s.feMaster && decide (d ≤ s'.clk.time) then .next (s'.scriptRun false reads) else .next s
  | none => .next s

/-- FRONT_END_SCRIPT_WRITE (R297): a write of 3601h:02h; an accepted one makes the master run the script. -/
def execFrontEndScriptWrite (p : Path) (b : List Byte) (s : State) : Out :=
  if !s.up then .next s else
  let s' := s.writeWith State.noRule p 0x3601 2 b
  if s'.acc.answer.code = 0 && s'.feMaster then .next (s'.setGn { s'.gn with scriptDue := some s'.clk.time }) else .next s'

/-- ACQUISITION_SEARCH (R299, R300): a search ends with its largest cell; `kind` 1 aided, 2 cold, 3 handover. -/
def execAcquisitionSearch (p sys sat sig kind t : Nat) (peak noise : Rat) (s : State) : Out :=
  if s.gnOn then .next ((s.at' t).detection p sys sat sig kind peak noise) else .next s

/-- ACQUISITION_LOCK_TIMEOUT (R299): a detection has not been brought to lock within 500 ms. -/
def execAcquisitionLockTimeout (p sys sat sig t : Nat) (s : State) : Out :=
  let s' := s.at' t
  if s.gnOn then
    .next (s'.setGn { s'.gn with
      dets := s'.gn.dets.filter fun d =>
        !(d.port == p && d.sys == sys && d.sat == sat && d.sig == sig && decide (d.until' ≤ s'.clk.time)) })
  else .next s

/-- CHANNEL_FADE (R306): channel c's C/N0, 0.01 dB-Hz, is below its loss threshold. -/
def execChannelFade (c t cn0 : Nat) (s : State) : Out :=
  match s.gchan c with
  | some x =>
    if s.gnOn && x.state == 2 && decide ((cn0 : Rat) / 100 < s.lossAtCn0 x.sig) then
      .next ((s.at' t).setGchan c { x with state := 3, coastAt := (s.at' t).clk.time })
    else .next s
  | none => .next s

/-- COAST_EXPIRY (R306): a coasting channel has not recovered within its coast time; its satellite returns to search. -/
def execCoastExpiry (c t : Nat) (s : State) : Out :=
  let s' := s.at' t
  match s.gchan c with
  | some x =>
    if s.gnOn && x.state == 3 && decide (x.coastAt + s.coastNs x.sig ≤ s'.clk.time) then
      .next ((s'.setGn { s'.gn with chans := tdel s'.gn.chans c }).incU 0x3670 2)
    else .next s
  | none => .next s

/-- SIDE_PEAK_CHECK (R307): a BOC channel's very-early, prompt and very-late powers. -/
def execSidePeakCheck (c : Nat) (ve pr vl : Rat) (s : State) : Out :=
  match s.gchan c with
  | some x => if s.gnOn && (x.sig == 3 || x.sig == 5) then .next (s.sidePeak c x ve pr vl) else .next s
  | none => .next s

/-- MEASUREMENT_EPOCH (R308): at a whole multiple of the measurement interval. -/
def execMeasurementEpoch (m : GEpoch) (s : State) : Out :=
  if s.gnOn && decide (s.gn.epoch < m.t) && m.t * s.cfgU 0x3600 4 % 1000000000 == 0 then
    .next ((s.at' m.t).measurementEpoch m)
  else .next s

/-- JAMMING (R320): indicators hold on two enabled ports of group g, or on its only one. -/
def execJamming (g t : Nat) (s : State) : Out :=
  let ports := s.groupPorts g
  let hit := (ports.filter s.indicated).length
  if s.gnOn && decide (g < 2) && !bit s.gn.jammed g && (decide (2 ≤ hit) || (ports.length == 1 && hit == 1)) then
    .next ((s.at' t).jamming g)
  else .next s

/-- JAMMING_ENDED (R320): no indicator has held on any port of the group for the clear time. -/
def execJammingEnded (g t : Nat) (s : State) : Out :=
  let s' := s.at' t
  match tfind s.gn.calmFrom g with
  | some a =>
    if s.gnOn && bit s.gn.jammed g && decide (a + State.ns (s.cfgR 0x3610 0x0B) ≤ s'.clk.time) then .next (s'.jammingEnds g)
    else .next s
  | none => .next s

/-- SNAPSHOT_ARCHIVE (R330): T3 work archives the snapshot of slot k that awaits it. -/
def execSnapshotArchive (k : Nat) (s : State) : Out :=
  match tfind s.gn.snaps k with
  | some x => if s.up && s.hasGnss && x.await && !s.t3Shed then .next (s.archiveSlot k x) else .next s
  | none => .next s

/-- TIME_OFFER (R310): the field has read 000b for the return hold. -/
def execTimeOffer (t : Nat) (s : State) : Out :=
  let s' := s.at' t
  match s.gn.nominalFrom with
  | some a =>
    if s.gnOn && !s.gn.offered && s.gn.field == 0 && decide (a + State.ns (s.cfgR 0x3600 8) ≤ s'.clk.time) then
      .next (s'.setGn { s'.gn with offered := true })
    else .next s
  | none => .next s

/-- NAVIGATION_MESSAGE (R312). -/
def execNavigationMessage (r : NavRec) (utc : Option (Int × Option (Nat × Int))) (s : State) : Out :=
  if s.gnOn then .next (s.navMessage r utc) else .next s

/-- LOSS_AIDED_SEARCH (R327): every 1 s in loss; cold search resumes after 600 s. -/
def execLossAidedSearch (t : Nat) (s : State) : Out :=
  let s' := s.at' t
  match s.gn.lossAt with
  | some a =>
    if s.gnOn && decide (s.gn.lastSearch + 1000000000 ≤ s'.clk.time) then
      .next (s'.setGn { s'.gn with lastSearch := s'.clk.time, cold := decide (a + 600000000000 ≤ s'.clk.time) })
    else .next s
  | none => .next s

/-- DORMANCY_GNSS_CHECK (R332): the coarse-time position, latitude and longitude in 10^-9 degrees and height. -/
def execDormancyGnssCheck (t : Nat) (pos : Option (Int × Int × Rat)) (s : State) : Out :=
  let s' := s.at' t
  let every := s.cfgR 0x3620 7
  if s.st.power == .dormant && s.hasGnss && s.cfgB 0x3600 1 && decide (every ≠ 0) &&
      decide (s.gn.dormCheck + State.ns every ≤ s'.clk.time) then
    let s' := (s'.setGn { s'.gn with dormCheck := s'.clk.time }).capture 4 s'.clk.time true
    -- the snapshot of a check that does not move is discarded
    let drop := s'.setGn { s'.gn with snaps := s'.gn.snaps.filter fun q => !(q.2.cause == 4 && q.2.seq == s.gn.snapSeq) }
    let fresh := s.gn.eph.any fun p => decide (s'.clk.time < p.2.1 + 14400000000000)
    match pos, s.gn.dormPos with
    | some p, some q =>
      let xyz := fun (a : Int × Int × Rat) => State.ecef ((a.1 : Rat) / 1000000000) ((a.2.1 : Rat) / 1000000000) a.2.2
      let (x1, y1, z1) := xyz p
      let (x2, y2, z2) := xyz q
      let d := rsqrt (rsq (x1 - x2) + rsq (y1 - y2) + rsq (z1 - z2))
      if fresh && decide (s.cfgR 0x3620 8 < d) then
        .next ((s'.note 0x0B11 [State.pR d]).setGn { s'.gn with moved := true })
      else .next drop
    | _, _ => .next drop
  else .next s

/-- SPOOFING_CLEAR (R325): a write of 3611h:00h. -/
def execSpoofingClear (p : Path) (b : List Byte) (s : State) : Out :=
  .next (if s.up then s.writeWith State.ruleGnss p 0x3611 0 b else s)

/-- SNAPSHOT_CAPTURE_COMMAND (R328): a write of 3620h:01h. -/
def execSnapshotCaptureCommand (p : Path) (b : List Byte) (s : State) : Out :=
  .next (if s.up then s.writeWith State.ruleGnss p 0x3620 1 b else s)

/-- ARCHIVE_SELECTED (R330): a write of 3621h:03h. -/
def execArchiveSelected (p : Path) (b : List Byte) (s : State) : Out :=
  .next (if s.up then s.writeWith State.ruleGnss p 0x3621 3 b else s)

/-- KEEP_SELECTED (R329): a write of 3621h:04h. -/
def execKeepSelected (p : Path) (b : List Byte) (s : State) : Out :=
  .next (if s.up then s.writeWith State.ruleGnss p 0x3621 4 b else s)

/-- NAVIGATION_RECORDS_READ (R313): a read of 3645h:00h. -/
def execNavigationRecordsRead (p : Path) (s : State) : Out :=
  .next (if s.up then s.navRead p else s)

end Sys2Proof.Machine
end

