-- ==== Sys2Proof/Machine/Panicle.lean ====
section
/-! DEFINITION. Panicle (chapter 16): the program image and its load checks, the block set, forces, restarts, the scan's
input and execute phases. The output phase, which writes objects under every object's own rule, stands in Scan.lean. -/
namespace Sys2Proof.Machine

/-! Types and values (R417, Table 2-1 codes 01h-08h). -/

/-- The type of a code 01h-08h. -/
def codeTy : Nat → Ty
  | 1 => .bool | 2 => .i8 | 3 => .i16 | 4 => .i32 | 5 => .u8 | 6 => .u16 | 7 => .u32 | _ => .f32

/-- Width in bits of a type code. -/
def codeBits : Nat → Nat
  | 1 | 2 | 5 => 8
  | 3 | 6 => 16
  | _ => 32

/-- The value of a raw word of a type. -/
def rawVal (ty raw : Nat) : Val := decodeVal (codeTy ty) (natLe (codeBits ty / 8) raw)
/-- The raw word of a value. -/
def valRaw (ty : Nat) (v : Val) : Nat := leNat (encodeVal (codeTy ty) v)
/-- A raw word fits a type: high bytes 0, BOOL 0 or 1, F32 a finite number (Table 16-2, R431). -/
def rawFits (ty raw : Nat) : Bool :=
  raw < 2 ^ codeBits ty && (ty != 1 || raw ≤ 1) && (ty != 8 || F32.finite (BitVec.ofNat 32 raw))

/-! The image (R419, Tables 16-1, 16-2). -/

def parseProg (version : Nat) (b : List Byte) : Prog :=
  let nV := leAt b 0 2
  let nT := leAt b 2 2
  let nC := leAt b 4 2
  let nE := leAt b 6 2
  let nI := leAt b 8 4
  let nB := leAt b 12 2
  let at1 := 32 + 16 * nV
  let at2 := at1 + 16 * (nT + nC + nE)
  let at3 := at2 + 20 * nI
  let words := fun (r : List Byte) (k n : Nat) => (List.range n).map fun i => leAt r (k + 2 * i) 2
  { version := version, pid := leAt b 16 8, nT := nT, nC := nC, nE := nE,
    vars := (chunks 16 (slice b 32 (16 * nV))).map fun r =>
      { id := leAt r 0 8, ty := leAt r 8 1, flags := leAt r 9 1, init := leAt r 12 4 },
    insts := (chunks 16 (slice b at1 (16 * (nT + nC + nE)))).map fun r =>
      { id := leAt r 0 8, kind := leAt r 8 1, flags := leAt r 9 1 },
    ins := (chunks 20 (slice b at2 (20 * nI))).map fun r =>
      { op := leAt r 0 1, inv := leAt r 1 1, inst := leAt r 2 2, args := words r 4 5, res := words r 14 3 },
    binds := (chunks 12 (slice b at3 (12 * nB))).map fun r =>
      { var := leAt r 0 2, dir := leAt r 2 1, kind := leAt r 3 1, index := leAt r 4 2, sub := leAt r 6 1,
        bit := leAt r 7 1, addr := leAt r 8 4 } }

/-- Opcodes that name an instance, with the kinds 01h-08h in the order of Table 16-2. -/
def opKind (op : Nat) : Nat := if 0x17 ≤ op ∧ op ≤ 0x1E then op - 0x16 else 0
/-- First instance of an opcode's table and the table's length. -/
def Prog.table (p : Prog) (op : Nat) : Nat × Nat :=
  match opKind op with
  | 0 => (0, 0)
  | 1 | 2 | 3 => (0, p.nT)
  | 4 | 5 | 6 => (p.nT, p.nC)
  | _ => (p.nT + p.nC, p.nE)
/-- The instance an instruction names, in the whole list. -/
def Prog.instOf (p : Prog) (i : PIns) : Nat := (p.table i.op).1 + i.inst

def Prog.ty (p : Prog) (k : Nat) : Nat := (nth ⟨0, 0, 0, 0⟩ p.vars k).ty
/-- The types of operands that are present; none for FFFFh. -/
def Prog.argTy (p : Prog) (i : PIns) (k : Nat) : Option Nat :=
  let v := nth 0xFFFF i.args k
  if v = 0xFFFF then none else some (p.ty v)
def Prog.resTy (p : Prog) (i : PIns) (k : Nat) : Option Nat :=
  let v := nth 0xFFFF i.res k
  if v = 0xFFFF then none else some (p.ty v)

/-- First position of a list at which a test fails. -/
def firstBad {α : Type} (l : List α) (good : Nat → α → Bool) : Option Nat :=
  let rec go : Nat → List α → Option Nat
    | _, [] => none
    | k, a :: t => if good k a then go (k + 1) t else some k
  go 0 l

/-- Reserved fields of the records are 0, and the body holds exactly its records. -/
def imageShape (b : List Byte) : Bool :=
  let nV := leAt b 0 2
  let nS := leAt b 2 2 + leAt b 4 2 + leAt b 6 2
  let nI := leAt b 8 4
  let nB := leAt b 12 2
  let at1 := 32 + 16 * nV
  let at2 := at1 + 16 * nS
  32 ≤ b.length && 1 ≤ nV && nV ≤ 16384 && leAt b 2 2 ≤ 2048 && leAt b 4 2 ≤ 1024 && leAt b 6 2 ≤ 2048 &&
    1 ≤ nI && nI ≤ 65535 && nB ≤ 16384 && leAt b 14 2 == 0 && leAt b 24 8 == 0 &&
    b.length == at2 + 20 * nI + 12 * nB
/-- Reserved bytes of the variable and instance records. -/
def reservedClear (b : List Byte) (k : Nat) : Bool :=
  let nV := leAt b 0 2
  if k < nV then leAt b (32 + 16 * k + 10) 2 == 0 else leAt b (32 + 16 * k + 10) 6 == 0

/-- Every field lies in its range (R423, first item). -/
def varRange (v : PVar) : Bool := 1 ≤ v.ty && v.ty ≤ 8 && v.flags < 16 && rawFits v.ty v.init
def instRange (p : Prog) (k : Nat) (x : PInst) : Bool :=
  x.flags ≤ 1 &&
    (if k < p.nT then 1 ≤ x.kind && x.kind ≤ 3
     else if k < p.nT + p.nC then 4 ≤ x.kind && x.kind ≤ 6
     else x.kind == 7 || x.kind == 8)
def insRange (p : Prog) (i : PIns) : Bool :=
  let n := p.vars.length
  1 ≤ i.op && i.op ≤ 0x20 && i.inv < 32 &&
    (i.inst == 0xFFFF || i.inst < (p.table i.op).2) &&
    ((List.range 5).all fun k =>
      let v := nth 0xFFFF i.args k
      if i.op = 0x1F ∧ k = 1 then v < p.ins.length else v == 0xFFFF || v < n) &&
    (i.res.all fun v => v == 0xFFFF || v < n)
def bindRange (p : Prog) (b : PBind) : Bool :=
  b.var < p.vars.length && (b.dir == 1 || b.dir == 2) && 1 ≤ b.kind && b.kind ≤ 4 &&
    (b.bit == 0xFF || b.bit < 32) &&
    (b.kind == 1 || (b.index == 0 && b.sub == 0)) &&
    (match b.kind with
     | 1 => b.addr == 0
     | 2 => b.addr < 24
     | 3 => b.addr < 16
     | _ => 1 ≤ b.addr && b.addr ≤ 7)

/-- Operand and result types of an instruction match Table 16-3 (R420). An operand the table does not list is none; a
listed operand is present, but for those of AND and OR; a result may be none, but for Q1 of SR and RS, which is read. -/
def insTypes (p : Prog) (i : PIns) : Bool :=
  let a := fun k => p.argTy i k
  let r := fun k => p.resTy i k
  let noArgs := fun (k : Nat) => (List.range 5).all fun j => j < k || (a j).isNone
  let noRes := fun (k : Nat) => (List.range 3).all fun j => j < k || (r j).isNone
  let resIs := fun (k t : Nat) => r k == none || r k == some t
  let same := fun (l : List (Option Nat)) => match l with
    | some t :: rest => rest.all fun x => x == some t
    | _ => false
  let sameRes := fun (t : Option Nat) => r 0 == none || r 0 == t
  -- only operands of type BOOL are inverted as they are read
  let op := i.op
  if op = 0x01 then (a 0).isSome && sameRes (a 0) && noArgs 1 && noRes 1
  else if op = 0x02 then a 0 == some 1 && resIs 0 1 && noArgs 1 && noRes 1
  else if op = 0x03 ∨ op = 0x04 then ((List.range 5).all fun j => a j == none || a j == some 1) && resIs 0 1 && noRes 1
  else if op = 0x05 then a 0 == some 1 && a 1 == some 1 && resIs 0 1 && noArgs 2 && noRes 1
  else if op ≤ 0x0B then same [a 0, a 1] && resIs 0 1 && noArgs 2 && noRes 1
  else if op ≤ 0x0F ∨ op = 0x11 ∨ op = 0x12 then same [a 0, a 1] && sameRes (a 0) && noArgs 2 && noRes 1
  else if op = 0x10 then (a 0).isSome && sameRes (a 0) && noArgs 1 && noRes 1
  else if op = 0x13 then same [a 0, a 1, a 2] && sameRes (a 0) && noArgs 3 && noRes 1
  else if op = 0x14 then a 0 == some 1 && same [a 1, a 2] && sameRes (a 1) && noArgs 3 && noRes 1
  else if op = 0x15 ∨ op = 0x16 then a 0 == some 1 && a 1 == some 1 && r 0 == some 1 && noArgs 2 && noRes 1
  else if op ≤ 0x19 then a 0 == some 1 && a 1 == some 7 && resIs 0 1 && resIs 1 7 && noArgs 2 && noRes 2
  else if op ≤ 0x1B then a 0 == some 1 && a 1 == some 1 && a 2 == some 4 && resIs 0 1 && resIs 1 4 && noArgs 3 && noRes 2
  else if op = 0x1C then
    ([0, 1, 2, 3].all fun k => a k == some 1) && a 4 == some 4 && resIs 0 1 && resIs 1 1 && resIs 2 4
  else if op ≤ 0x1E then a 0 == some 1 && resIs 0 1 && noArgs 1 && noRes 1
  else if op = 0x1F then a 0 == some 1 && ([2, 3, 4].all fun k => (a k).isNone) && noRes 0
  else (a 0).isSome && noArgs 1 && noRes 1

/-- A variable bound as an input: its flag, or an input binding (R423). -/
def Prog.inputBound (p : Prog) (k : Nat) : Bool :=
  bit (nth ⟨0, 0, 0, 0⟩ p.vars k).flags 2 || p.binds.any fun b => b.dir == 1 && b.var == k

/-- Unsigned scalar types, which a bit binding may name. -/
def unsignedTy : Ty → Bool
  | .bool | .u8 | .u16 | .u32 | .u64 | .time64 => true
  | _ => false

namespace State

/-- Type of an object as a binding names it, within the range both product codes share (R425). -/
def boundTy (s : State) (idx sub : Nat) : Option Ty :=
  if (0x3600 ≤ idx ∧ idx ≤ 0x37FF) ∨ s.existsAbort idx sub ≠ 0 then none else
  match findRes idx with
  | some r => match sub with
    | 0 => some .u8
    | 1 => some .u32
    | 2 => some .u64
    | 3 => some .u8
    | n + 4 => some (nth .u8 r.types n)
  | none => match findRow idx sub with
    | some r => some r.ty
    | none => some .u8

/-- Types of the system items (Table 16-5). -/
def itemTy (code : Nat) : Nat := match code with
  | 1 | 2 => 1
  | 3 | 4 => 5
  | _ => 7

/-- A binding passes R425 and R426. -/
def bindOk (s : State) (p : Prog) (b : PBind) : Bool :=
  let vt := p.ty b.var
  let fits := fun (t : Ty) =>
    if b.bit = 0xFF then t == codeTy vt && t != .str && t != .dom
    else vt == 1 && unsignedTy t && (match t.size with | some k => b.bit < 8 * k | none => false)
  if b.kind = 1 then
    match s.boundTy b.index b.sub with
    | none => false
    | some t =>
      fits t && (b.dir == 1 ||
        ((match findRow b.index b.sub with
          | some r => r.acc == .rw || r.acc == .rwm || r.acc == .wo
          | none => false) &&
         b.index != 0x1010 && b.index != 0x1011 && b.index != 0x3C03 && b.index != 0x3C10 &&
         !(0x4600 ≤ b.index && b.index ≤ 0x49FF)))
  else if b.kind = 2 then
    vt == 1 && b.bit == 0xFF && (b.dir == 1 || s.cfgU (0x4E00 + b.addr) 2 == 1)
  else if b.kind = 3 then b.dir == 1 && vt == 1 && b.bit == 0xFF
  else b.dir == 1 && fits (codeTy (itemTy b.addr))

end State

/-- Two output bindings to one target (R423): an object twice, one of its bits twice, a line twice. -/
def sameTarget (a b : PBind) : Bool :=
  a.kind == b.kind && a.index == b.index && a.sub == b.sub && a.addr == b.addr &&
    (a.bit == b.bit || a.bit == 0xFF || b.bit == 0xFF)

/-- Worst-case time in microseconds, and the budget of a scan length (R423). -/
def worstTime (p : Prog) : Rat :=
  let timed := (p.ins.filter fun i => opKind i.op != 0).length
  20 + mkRat 2 100 * ((p.ins.length - timed : Nat) : Rat) + mkRat 5 100 * (timed : Rat) + mkRat 1 4 * (p.binds.length : Rat)
def scanBudget (len : Nat) : Rat := mkRat 1 4 * ((len - 1 : Nat) : Rat) * 1250

/-- First failure of the load checks in the order of R423: reason × 65,536 + record index. -/
def State.imageFault (s : State) (b : List Byte) : Option Nat :=
  if !imageShape b then some 0x10000 else
  let p := parseProg 0 b
  let nV := p.vars.length
  let ids := p.vars.map (·.id) ++ p.insts.map (·.id)
  let checks : List (Nat × Option Nat) := [
    (1, firstBad p.vars fun k v => varRange v && reservedClear b k),
    (1, firstBad p.insts fun k x => instRange p k x && reservedClear b (nV + k)),
    (1, firstBad p.ins fun _ i => insRange p i),
    (1, firstBad p.binds fun _ x => bindRange p x),
    (2, firstBad ids fun k i => i != 0 && !(ids.take k).contains i),
    (3, firstBad p.ins fun _ i => insTypes p i),
    (4, firstBad p.ins fun _ i =>
      if opKind i.op = 0 then i.inst == 0xFFFF
      else i.inst != 0xFFFF && (nth ⟨0, 0, 0⟩ p.insts (p.instOf i)).kind == opKind i.op),
    (4, firstBad p.insts fun k _ => (p.ins.filter fun i => opKind i.op != 0 && p.instOf i == k).length == 1),
    (5, firstBad p.ins fun k i => i.op != 0x1F || k < nth 0 i.args 1),
    (6, firstBad p.ins fun _ i => i.res.all fun r =>
      r == 0xFFFF || !(bit (nth ⟨0, 0, 0, 0⟩ p.vars r).flags 1 || p.inputBound r)),
    (7, firstBad p.binds fun _ x => s.bindOk p x),
    (8, firstBad p.binds fun k x => x.dir == 1 ||
      !((p.binds.take k).any fun y => y.dir == 2 && sameTarget x y)),
    (9, if worstTime p ≤ scanBudget (s.objU 0x3C00 1) then none else some 0)]
  match checks.find? fun c => c.2.isSome with
  | some (r, some k) => some (r * 65536 + k % 65536)
  | _ => none

/-! The block set (R420-R422). -/

/-- Limits of an integer type code. -/
def intLimits : Nat → Int × Int
  | 1 => (0, 1) | 2 => (-128, 127) | 3 => (-32768, 32767) | 4 => (-2147483648, 2147483647)
  | 5 => (0, 255) | 6 => (0, 65535) | _ => (0, 4294967295)

/-- An integer as a value of a type, saturated, and whether it saturated. -/
def satInt (ty : Nat) (z : Int) : Val × Bool :=
  let (lo, hi) := intLimits ty
  let w := if z < lo then lo else if hi < z then hi else z
  (if 2 ≤ ty ∧ ty ≤ 4 then .i w else .u w.toNat, w != z)

/-- A real as F32, an overflow saturated to the largest finite value. -/
def satF32 (x : Rat) : Val × Bool :=
  let w := F32.ofRat x
  if F32.finite w then (.f w, false) else (.f (if 0 ≤ x then 0x7F7FFFFF#32 else 0xFF7FFFFF#32), true)

/-- Integer division truncated toward zero. -/
def truncDiv (a b : Int) : Int := Int.tdiv a b

/-- Two-operand arithmetic 0Ch-0Fh on a type: value and sticky (R421). A division by zero gives 0. -/
def arith (op ty : Nat) (a b : Val) : Val × Bool :=
  if ty = 8 then
    let x := a.asRat
    let y := b.asRat
    if op = 0x0F then (if y = 0 then (.f 0#32, true) else satF32 (x / y))
    else satF32 (if op = 0x0C then x + y else if op = 0x0D then x - y else x * y)
  else
    let x := a.asInt
    let y := b.asInt
    if op = 0x0F then (if y = 0 then ((satInt ty 0).1, true) else satInt ty (truncDiv x y))
    else satInt ty (if op = 0x0C then x + y else if op = 0x0D then x - y else x * y)

/-- |A| (10h). -/
def absVal (ty : Nat) (a : Val) : Val × Bool :=
  if ty = 8 then satF32 (rabs a.asRat) else satInt ty (a.asInt.natAbs : Int)

/-- CONV (20h): to an integer to nearest with ties away from zero, saturated; to BOOL true for a non-zero value. -/
def convVal (src dst : Nat) (a : Val) : Val × Bool :=
  let x : Rat := a.asRat
  if dst = 1 then (.u (b2n (x != 0)), false)
  else if dst = 8 then (if src = 8 then (a, false) else satF32 x)
  else satInt dst (if src = 8 then roundAway x else a.asInt)

/-- Comparison 06h-0Bh. -/
def cmpVal (op : Nat) (x y : Rat) : Bool :=
  match op with
  | 0x06 => x == y
  | 0x07 => x != y
  | 0x08 => x < y
  | 0x09 => x ≤ y
  | 0x0A => y < x
  | _ => y ≤ x

/-- One execution of a timer: state after, from IN, PT ms and Δ in 250 us (Table 16-4). -/
def timerStep (kind : Nat) (x : PSt) (inp : Bool) (pt delta : Nat) : PSt :=
  let m := x.m1.getD inp
  let rose := inp && !m
  let fell := !inp && m
  let top := 4 * pt
  let next := min (x.et + delta) top
  let x := { x with m1 := some inp }
  match kind with
  | 1 =>
    if !inp then { x with et := 0, q := false }
    else
      let et := if rose then 0 else next
      { x with et := et, q := decide (top ≤ et) }
  | 2 =>
    if inp then { x with et := 0, q := true }
    else
      let et := if fell then 0 else next
      { x with et := et, q := decide (et < top) }
  | _ =>
    if x.run then
      let on := decide (next < top)
      { x with et := if on || inp then next else 0, run := on, q := on }
    else if rose then { x with et := 0, run := true, q := true }
    else { x with et := if inp then x.et else 0, q := false }

/-- One execution of a counter: state after, its two outputs and saturation (Table 16-4). -/
def counterStep (kind : Nat) (x : PSt) (a b c d : Bool) (pv : Int) : PSt × Bool × Bool × Bool :=
  let rise := fun (m : Option Bool) (v : Bool) => v && !(m.getD v)
  let (cv, m1, m2) : Int × Option Bool × Option Bool :=
    match kind with
    | 4 => (if b then 0 else if rise x.m1 a then x.cv + 1 else x.cv, some a, x.m2)
    | 5 => (if b then pv else if rise x.m1 a then x.cv - 1 else x.cv, some a, x.m2)
    | _ =>
      let up := rise x.m1 a
      let dn := rise x.m2 b
      (if c then 0 else if d then pv else if up && !dn then x.cv + 1 else if dn && !up then x.cv - 1 else x.cv,
        some a, some b)
  let (lo, hi) := intLimits 4
  let w := if cv < lo then lo else if hi < cv then hi else cv
  let q1 := if kind = 5 then decide (w ≤ 0) else decide (pv ≤ w)
  ({ x with cv := w, m1 := m1, m2 := m2, q := q1 }, q1, decide (w ≤ 0), w != cv)

/-- The machine of one execution: values, instance states, sticky, index before which instructions are skipped. -/
structure Vm where
  vals : List Val
  sts : List PSt
  sticky : Bool
  skip : Nat
  deriving DecidableEq, Repr

/-- A variable as instructions read it: its forced value, else its own (R430). -/
def varVal (forced : List (Nat × Val)) (vals : List Val) (k : Nat) : Val :=
  match tfind forced k with
  | some v => v
  | none => nth (.u 0) vals k

/-- Write a result; a forced variable is left unchanged. -/
def Vm.put (m : Vm) (forced : List (Nat × Val)) (k : Nat) (v : Val) : Vm :=
  if k = 0xFFFF ∨ (tfind forced k).isSome then m else { m with vals := putNth m.vals k v }

/-- Execute instruction number `n` (R420). -/
def Vm.exec (p : Prog) (forced : List (Nat × Val)) (delta : Nat) (m : Vm) (n : Nat) (i : PIns) : Vm :=
  if n < m.skip then m else
  let arg := fun k => varVal forced m.vals (nth 0xFFFF i.args k)
  let has := fun k => nth 0xFFFF i.args k != 0xFFFF
  let boolAt := fun k => ((arg k).asNat != 0) != bit i.inv k
  let val := fun k => if p.argTy i k == some 1 then Val.u (b2n (boolAt k)) else arg k
  let res := fun k => nth 0xFFFF i.res k
  let ty := (p.argTy i 0).getD 0
  let out := fun (v : Val) => m.put forced (res 0) v
  let outB := fun (b : Bool) => m.put forced (res 0) (.u (b2n b))
  let outS := fun (v : Val × Bool) => { m.put forced (res 0) v.1 with sticky := m.sticky || v.2 }
  let k := p.instOf i
  let st : PSt := nth {} m.sts k
  match i.op with
  | 0x01 => out (val 0)
  | 0x02 => outB (!boolAt 0)
  | 0x03 => outB ((List.range 5).all fun j => !has j || boolAt j)
  | 0x04 => outB ((List.range 5).any fun j => has j && boolAt j)
  | 0x05 => outB (boolAt 0 != boolAt 1)
  | 0x06 | 0x07 | 0x08 | 0x09 | 0x0A | 0x0B => outB (cmpVal i.op (val 0).asRat (val 1).asRat)
  | 0x0C | 0x0D | 0x0E | 0x0F => outS (arith i.op ty (val 0) (val 1))
  | 0x10 => outS (absVal ty (val 0))
  | 0x11 => out (if (val 1).asRat < (val 0).asRat then val 1 else val 0)
  | 0x12 => out (if (val 0).asRat < (val 1).asRat then val 1 else val 0)
  | 0x13 =>
    let lo := if (val 1).asRat < (val 0).asRat then val 0 else val 1
    out (if (val 2).asRat < lo.asRat then val 2 else lo)
  | 0x14 => out (if boolAt 0 then val 2 else val 1)
  | 0x15 => outB (boolAt 0 || (!boolAt 1 && (varVal forced m.vals (res 0)).asNat != 0))
  | 0x16 => outB (!boolAt 1 && (boolAt 0 || (varVal forced m.vals (res 0)).asNat != 0))
  | 0x17 | 0x18 | 0x19 =>
    let st := timerStep (opKind i.op) st (boolAt 0) (val 1).asNat delta
    let m := { m with sts := putNth m.sts k st }
    (m.put forced (res 0) (.u (b2n st.q))).put forced (res 1) (.u (st.et / 4))
  | 0x1A | 0x1B =>
    let (st, q, _, sat) := counterStep (opKind i.op) st (boolAt 0) (boolAt 1) false false (val 2).asInt
    let m := { m with sts := putNth m.sts k st, sticky := m.sticky || sat }
    (m.put forced (res 0) (.u (b2n q))).put forced (res 1) (.i st.cv)
  | 0x1C =>
    let (st, qu, qd, sat) := counterStep 6 st (boolAt 0) (boolAt 1) (boolAt 2) (boolAt 3) (val 4).asInt
    let m := { m with sts := putNth m.sts k st, sticky := m.sticky || sat }
    ((m.put forced (res 0) (.u (b2n qu))).put forced (res 1) (.u (b2n qd))).put forced (res 2) (.i st.cv)
  | 0x1D | 0x1E =>
    let clk := boolAt 0
    let old := st.m1.getD clk
    let q := if i.op = 0x1D then clk && !old else !clk && old
    let m := { m with sts := putNth m.sts k { st with m1 := some clk, q := q } }
    m.put forced (res 0) (.u (b2n q))
  | 0x1F => if boolAt 0 then { m with skip := nth 0 i.args 1 } else m
  | _ => outS (convVal ty ((p.resTy i 0).getD 1) (val 0))

/-- Run the instructions once, in order (R414 item 3). -/
def Vm.run (p : Prog) (forced : List (Nat × Val)) (delta : Nat) (m : Vm) : Vm :=
  (p.ins.foldl (fun (x : Vm × Nat) i => (x.1.exec p forced delta x.2 i, x.2 + 1)) (m, 0)).1

/-! Restart, match, adoption, forces. -/

/-- Initial values of a program. -/
def Prog.inits (p : Prog) : List Val := p.vars.map fun v => rawVal v.ty v.init

/-- The key of an identifier with a type or kind. -/
def idKey (id k : Nat) : Nat := id * 256 + k

/-- Match a new program with the values and states of an old one (R428): what survives by identifier and type or kind;
a new instance takes its memories from its inputs. -/
def matchProg (new old : Prog) (vals : List Val) (sts : List PSt) : List Val × List PSt :=
  let find := fun (l : List Nat) (k : Nat) => (firstBad l fun _ x => x != k)
  let ov := old.vars.map fun v => idKey v.id v.ty
  let oi := old.insts.map fun x => idKey x.id x.kind
  (new.vars.map fun v => match find ov (idKey v.id v.ty) with
      | some k => nth (.u 0) vals k
      | none => rawVal v.ty v.init,
   new.insts.map fun x => match find oi (idKey x.id x.kind) with
      | some k => nth {} sts k
      | none => { m1 := none, m2 := none })

/-- The newest valid retain copy (R433). -/
def Panicle.newest (p : Panicle) : Option Retain :=
  match p.copyA.valid, p.copyB.valid with
  | true, true => if p.copyA.serial < p.copyB.serial then some p.copyB else some p.copyA
  | true, false => some p.copyA
  | false, true => some p.copyB
  | false, false => none

namespace State

def setPan (s : State) (p : Panicle) : State := { s with pan := p }

/-- Scans run: the unit runs outside Dormancy, 3C00h:02h is 1 and a program is loaded (R414, R434). -/
def scans (s : State) : Bool := s.up && s.mode.mode != 7 && s.cfgB 0x3C00 2 && s.pan.prog.isSome
/-- The frame is a scan boundary (R414). -/
def scanBoundary (s : State) : Bool := s.clk.frame % max 1 s.pan.len == 0

/-- The forced values by variable index (R430). -/
def forcedVals (s : State) : List (Nat × Val) :=
  match s.pan.prog with
  | none => []
  | some p =>
    foldS [] s.pan.forces fun l f =>
      if !f.on then l else
      match firstBad p.vars (fun _ v => v.id != f.id) with
      | some k => tset l k (rawVal (p.ty k) f.raw)
      | none => l

/-- A force names a variable of the running image and its value fits the type (R431). -/
def forceFits (s : State) (f : Force) : Bool :=
  match s.pan.prog with
  | none => false
  | some p => p.vars.any fun v => v.id == f.id && rawFits v.ty f.raw

/-- Octets of a force list. -/
def forceBytes (l : List Force) : List Byte :=
  (l.map fun f => natLe 8 f.id ++ natLe 4 f.raw ++ natLe 1 (b2n f.on) ++ [0, 0, 0]).flatten

/-- Drop the forces that do not fit, with event 0E08h (R431). -/
def dropForces (s : State) (keep : Force → Bool) : State :=
  let bad := s.pan.forces.filter fun f => !keep f
  let good := s.pan.forces.filter keep
  if bad = [] then s else
  let s := foldS s bad fun s f => (s.note 0x0E08 [f.id]).incU 0x3C50 4
  (s.setPan { s.pan with forces := good }).putBoth 0x3C10 0 (.d (forceBytes good))

/-- The force list in force changes at f0 (R430): 0E07h for each force set or removed, then R431. -/
def applyForces (s : State) : State :=
  let new : List Force := (chunks 16 (s.cfgD 0x3C10 0)).map fun b => ⟨leAt b 0 8, leAt b 8 4, leAt b 12 1 == 1⟩
  let set := new.filter fun f => !s.pan.forces.contains f
  let gone := s.pan.forces.filter fun f => !new.any fun g => g.id == f.id
  let s := foldS s set fun s f => s.note 0x0E07 [f.id, b2n f.on, s.pan.forceRole]
  let s := foldS s gone fun s f => s.note 0x0E07 [f.id, 0, s.pan.forceRole]
  (s.setPan { s.pan with forces := new }).dropForces (fun f => s.forceFits f)

/-- Own rule of the force list: flags other than enable and the three bytes after them are 0 (R430). -/
def ruleForces (s : State) (_ : Path) (_ _ : Nat) (v : Val) : Verdict :=
  if (chunks 16 v.asBytes).all fun b => leAt b 12 1 ≤ 1 && leAt b 13 3 == 0 then .store
  else .refuse abValue s

/-- Own rule of the program image (R419, R423). -/
def ruleImage (s : State) (_ : Path) (_ _ : Nat) (v : Val) : Verdict :=
  let refuse := fun (s : State) (a r : Nat) => Verdict.refuse a ((s.putU 0x3C02 3 r).note 0x0E02 [r])
  match parseSet "KPAN" v.asBytes with
  | none => refuse s abSet 0
  | some p =>
    let (ok, s) := s.setSigned p
    if !ok then refuse s abSign 0 else
    match s.imageFault p.body with
    | some r => refuse s abSet r
    | none => .store

/-- The program of an image in force. -/
def imageProg (s : State) : Option Prog :=
  (parseSet "KPAN" (s.cfgD 0x3C01 0)).map fun p => parseProg p.version p.body

/-- Exchange of the program at a scan boundary f0 (R428, R429, R431): the match follows at the next execute phase. -/
def exchangeProg (s : State) : State :=
  match parseSet "KPAN" (s.cfgD 0x3C01 0) with
  | none => s.setPan { s.pan with exchange := false }
  | some set =>
    let new := parseProg set.version set.body
    let old := s.pan.prog
    let oldVars : List (Nat × Nat) := match old with
      | some p => p.vars.map fun (v : PVar) => (v.id, v.ty)
      | none => []
    let s := (s.putBoth 0x3C02 1 (.u set.version)).putBoth 0x3C02 2 (.u set.digest8)
    let s := s.putBoth 0x3C02 4 (.u new.pid)
    let s := s.storeKeys [okey 0x3C01 0, okey 0x3C02 1, okey 0x3C02 2, okey 0x3C02 4]
    let s := s.note 0x0E03 [(old.map (·.version)).getD 0, set.version]
    let s := s.setPan { s.pan with
      prog := some new, exchange := false, refused := [],
      old := some (match old with
        | some p => (p, s.pan.vals, s.pan.sts)
        | none => ({ new with vars := [], insts := [], ins := [], binds := [] }, [], [])) }
    let lines := ofBits ((new.binds.filter fun (b : PBind) => b.dir == 2 && b.kind == 2).map fun (b : PBind) => b.addr)
    let s := ({ s with io := { s.io with panDio := s.io.panDio &&& lines } } : State).driveDio
    s.dropForces fun f => new.vars.any fun (v : PVar) => v.id == f.id && oldVars.contains (v.id, v.ty)

/-- Complete the match of an exchange (R428). -/
def matchNow (s : State) : State :=
  match s.pan.old, s.pan.prog with
  | some (p, vals, sts), some new =>
    let m := matchProg new p vals sts
    s.setPan { s.pan with old := none, vals := m.1, sts := m.2, prevVals := m.1, prevSts := m.2 }
  | _, _ => s

/-- A restart takes effect at a scan boundary (R432, R433): kind 1 warm, 2 cold; cause 1 the unit's start, 2 command, 3 run,
whose code in the event is free (log 110). -/
def restartPan (s : State) (kind cause : Nat) : State :=
  match s.pan.prog with
  | none => s.setPan { s.pan with restart := none }
  | some p =>
    let cold := fun (s : State) =>
      (s.setPan { s.pan with
        old := none, vals := p.inits, sts := p.insts.map fun _ => {}, prevVals := p.inits,
        prevSts := p.insts.map fun _ => {}, cold := true, restart := none, scan := 0 }).note 0x0E06 [Config.reason 0x0E06 cause]
    if kind = 2 then (cold s).setPan { (cold s).pan with retainInvalid := false } else
    match s.pan.newest with
    | none =>
      let s := (cold s).alarm 0x0E0A 0 1 []
      s.setPan { s.pan with retainInvalid := true }
    | some r =>
      let vals := p.vars.map fun v =>
        let first := rawVal v.ty v.init
        if bit v.flags 0 then tget first r.vars (idKey v.id v.ty) else first
      let sts := p.insts.map fun x =>
        let new : PSt := if 4 ≤ x.kind then { m1 := none, m2 := none } else {}
        if bit x.flags 0 then tget new r.insts (idKey x.id x.kind) else new
      (s.setPan { s.pan with
        old := none, vals := vals, sts := sts, prevVals := vals, prevSts := sts, cold := false, restart := none,
        scan := 0, retainInvalid := false }).note 0x0E05 [Config.reason 0x0E05 cause]

/-- Write the RETAIN variables and instances to the older copy (R433), matched already where an exchange waits for its first
execute phase (R428); a valid copy lowers the fault of 0E0Ah. -/
def writeRetain (s : State) : State :=
  match s.pan.prog with
  | none => s
  | some p =>
    let now := s.matchNow.pan
    let serial := (s.pan.newest.map (·.serial)).getD 0 + 1
    let vars := foldS [] (List.range p.vars.length) fun l k =>
      let v := nth ⟨0, 0, 0, 0⟩ p.vars k
      if bit v.flags 0 then tset l (idKey v.id v.ty) (nth (.u 0) now.vals k) else l
    let insts := foldS [] (List.range p.insts.length) fun l k =>
      let x := nth ⟨0, 0, 0⟩ p.insts k
      if bit x.flags 0 then tset l (idKey x.id x.kind) (nth {} now.sts k) else l
    let copy : Retain := { serial := serial, valid := true, vars := vars, insts := insts }
    let pan : Panicle := { s.pan with retainAt := s.clk.time }
    let pan := if pan.copyA.valid && (!pan.copyB.valid || decide (pan.copyB.serial < pan.copyA.serial)) then
      { pan with copyB := copy } else { pan with copyA := copy }
    (s.setPan pan).lower 0x0E0A 0

/-! The input phase (R424). -/

/-- A system item (Table 16-5). -/
def sysItem (s : State) (code : Nat) : Nat :=
  match code with
  | 1 => b2n s.pan.firstCold
  | 2 => b2n s.pan.first
  | 3 => s.mode.mode
  | 4 => s.st.role
  | 5 => s.objU 0x2200 1
  | 6 => s.clk.sample
  | _ => s.pan.time.floor.toNat

/-- Value of an object for an input binding: the published buffer of a result object, else what a read returns. -/
def inputObject (live : State → Nat → Nat → Option Val) (s : State) (idx sub : Nat) : Val :=
  match findRes idx with
  | some r =>
    let b := s.result idx
    match sub with
    | 0 => .u (3 + r.count)
    | 1 => .u b.sample
    | 2 => .u b.epoch
    | 3 => .u b.status
    | n + 4 => nth (.u 0) b.vals n
  | none =>
    if sub = 0 ∧ (findRow idx 0).isNone then .u ((highestSub idx).getD 0)
    else (live s idx sub).getD (s.objV idx sub)

/-- Value of an input binding. -/
def bindIn (live : State → Nat → Nat → Option Val) (s : State) (b : PBind) : Val :=
  let v : Val := match b.kind with
    | 1 => s.inputObject live b.index b.sub
    | 2 => .u (b2n (bit s.io.dio b.addr))
    | 3 => .u (b2n ((tget {} s.fb.mag b.addr).level == s.cfgB (0x3A40 + b.addr) 2))
    | _ => .u (s.sysItem b.addr)
  if b.bit = 0xFF then v else .u (b2n (bit v.asNat b.bit))

/-- Input phase: the scan begins, a restart takes effect, every input binding is latched. -/
def inputPhase (live : State → Nat → Nat → Option Val) (s : State) : State :=
  let ex := s.pan.old.isSome
  let restarted := s.pan.restart.isSome
  let s := match s.pan.restart with
    | some (k, c) => s.restartPan k c
    | none => s
  let s := s.setPan { s.pan with
    start := s.clk.frame, latched := true, executed := false, exchanged := ex, first := ex || restarted,
    firstCold := restarted && s.pan.cold, adopted := false,
    adopt := match s.pan.adopt with
      | some (v, i, true) => some (v, i, true)
      | _ => none }
  let ins := match s.pan.prog with
    | some p => (p.binds.filter (·.dir == 1)).map fun b => (b.var, s.bindIn live b)
    | none => []
  s.setPan { s.pan with inputs := ins }

/-! The execute phase (R414, R427). -/

/-- Adoption at offset 1 on a Shadow or Reserve (R427): the Lead's values but for input-bound variables. During an
exchange it falls on the old program's state. -/
def adoptPan (s : State) : State :=
  if s.st.role ≠ 1 ∧ s.st.role ≠ 2 then s.setPan { s.pan with adopt := none, unsync := false } else
  let take := fun (s : State) (vars : List (Nat × Val)) (insts : List (Nat × PSt)) =>
    let put := fun (p : Prog) (vals : List Val) (sts : List PSt) =>
      (foldS vals (vars.filter fun x => !p.inputBound x.1) fun l x => putNth l x.1 x.2,
       foldS sts insts fun l x => putNth l x.1 x.2)
    match s.pan.old, s.pan.prog with
    | some (p, vals, sts), _ =>
      let r := put p vals sts
      s.setPan { s.pan with old := some (p, r.1, r.2), adopted := true, adopt := none }
    | none, some p =>
      let r := put p s.pan.vals s.pan.sts
      s.setPan { s.pan with vals := r.1, sts := r.2, adopted := true, adopt := none }
    | _, _ => s
  match s.pan.adopt with
  | some (vars, insts, full) =>
    if full then
      let s := take s vars insts
      if s.pan.unsync then
        (s.setPan { s.pan with unsync := false }).note 0x0E0B [s.pan.scan]
      else s
    else if s.pan.unsync then s.setPan { s.pan with adopt := none }
    else take s vars insts
  | none =>
    let s := s.incU 0x3C50 3
    if s.pan.unsync then s else
    let s := s.note 0x0E0B [s.pan.scan]
    { s.setPan { s.pan with unsync := true } with hal := { s.hal with panReq := true } }

/-- Execute phase: adoption, the match of an exchange, the latched inputs, then the instructions once in order. `us` is
the execute time measured. -/
def executePhase (s : State) (us : Rat) : State :=
  let s := s.adoptPan.matchNow
  match s.pan.prog with
  | none => s
  | some p =>
    let forced := s.forcedVals
    let vals := foldS s.pan.vals s.pan.inputs fun l x =>
      if (tfind forced x.1).isSome then l else putNth l x.1 x.2
    let m := Vm.run p forced (5 * s.pan.len) ⟨vals, s.pan.sts, false, 0⟩
    let s := if m.sticky then s.putU 0x3C51 0 1 else s
    s.setPan { s.pan with
      prevVals := s.pan.vals, prevSts := s.pan.sts, vals := m.vals, sts := m.sts, executed := true, time := us,
      maxTime := rmax s.pan.maxTime us }

/-- Offset of the frame in the scan in progress. -/
def scanOff (s : State) : Nat := s.clk.frame - s.pan.start

/-! Results 3C40h and 3C41h (Tables 16-7, 16-8). -/

def panStatus (s : State) : Nat :=
  let p := s.pan
  bitAt s.scans 9 + bitAt p.first 8 + bitAt p.cold 7 + bitAt p.exchanged 6 + bitAt (p.forces.any (·.on)) 5 +
    bitAt (!p.refused.isEmpty) 4 + bitAt p.unsync 3 + bitAt p.adopted 2 + bitAt p.retainInvalid 1

/-- 3C41h: type, raw value, value as F32, forced; of an instance ET in ms or CV as the type that result has, and Q. -/
def inspected (s : State) : List Val :=
  let id := s.objU 0x3C20 0
  match s.pan.prog with
  | none => [.u 0, .u 0, rv 0, .u 0]
  | some p =>
    match firstBad p.vars (fun _ v => v.id != id) with
    | some k =>
      let v := varVal s.forcedVals s.pan.vals k
      [.u (p.ty k), .u (valRaw (p.ty k) v), rv v.asRat, .u (b2n (tfind s.forcedVals k).isSome)]
    | none =>
      match firstBad p.insts (fun _ x => x.id != id) with
      | some k =>
        let x := nth {} s.pan.sts k
        let kind := (nth ⟨0, 0, 0⟩ p.insts k).kind
        if kind ≤ 3 then [.u 7, .u (x.et / 4), rv (b2n x.q : Nat), .u 0]
        else if kind ≤ 6 then [.u 4, .u (ofSigned 32 x.cv), rv (b2n x.q : Nat), .u 0]
        else [.u 1, .u (b2n (x.m1.getD false)), rv (b2n x.q : Nat), .u 0]
      | none => [.u 0, .u 0, rv 0, .u 0]

def publishPan (s : State) : State :=
  let s := s.incU 0x3C50 1
  let s := s.publish 0x3C40 [.u s.panStatus, .u s.pan.scan, rv s.pan.time, rv s.pan.maxTime, rv (scanBudget s.pan.len),
    .u s.pan.start]
  (s.publish 0x3C41 s.inspected).setPan { s.pan with scan := (s.pan.scan + 1) % 2 ^ 32, latched := false }

/-! Boundary work at f0. -/

/-- Scan length, restarts through 3C00h:02h, a due exchange, forces (R415, R428, R430, R432). `run` is 3C00h:02h before
the writes of this f0, `image` and `list` whether an image and a force list came into force. -/
def panBoundary (s : State) (run image list : Bool) : State :=
  let len := s.cfgU 0x3C00 1
  -- a scan of the old length that is in progress ends here without its outputs: the new grid starts a scan in this frame
  let s := if s.clk.frame % max 1 len = 0 ∧ len ≠ s.pan.len then s.setPan { s.pan with len := len, latched := false } else s
  let s := if !run && s.cfgB 0x3C00 2 then s.setPan { s.pan with restart := some (3 - s.st.kind, 3) } else s
  let s := match s.cfgU 0x3C03 0 with
    | 0 => s
    | k =>
      let s := s.setPan { s.pan with restart := some (k, 2) }
      { s with force := putV s.force (okey 0x3C03 0) (.u 0) }
  let s := if s.cfgB 0x3C00 2 then s else s.setPan { s.pan with latched := false }
  let s := if image then s.setPan { s.pan with exchange := true } else s
  let s := if s.pan.exchange && s.scanBoundary then s.exchangeProg else s
  if list then s.applyForces else s

end State

/-- PANICLE_EXECUTE_PHASE (R414): from offset 1, with the time it took. -/
def execPanicleExecutePhase (us : Rat) (s : State) : Out :=
  if s.scans && s.pan.latched && !s.pan.executed && 1 ≤ s.scanOff && s.scanOff < s.pan.len then
    let s := s.probe 7 0 us
    .next (s.executePhase us)
  else .next s

/-- PANICLE_SCAN_OVERRUN (R416): offset S-1 ends without execution having ended; no output is written. -/
def execPanicleScanOverrun (s : State) : Out :=
  if s.scans && s.pan.latched && !s.pan.executed && s.scanOff + 1 == s.pan.len then
    let s := (s.record 0x0E04 3 []).setPan { s.pan with latched := false }
    .next (s.unitStop 0x0E04)
  else .next s

/-- PANICLE_RETAIN_WRITE (R433): every 3C00h:04h. -/
def execPanicleRetainWrite (t : Nat) (s : State) : Out :=
  let s := s.at' t
  if s.up && decide (s.pan.retainAt + State.ns (s.cfgR 0x3C00 4) ≤ s.clk.time) then .next s.writeRetain else .next s

/-- PROGRAM_IMAGE_LOAD (R419, R423): a write of 3C01h:00h; event 0E01h when it is accepted for exchange. -/
def execProgramImageLoad (p : Path) (b : List Byte) (s : State) : Out :=
  if !s.up then .next s else
  let s' := s.writeWith State.ruleImage p 0x3C01 0 b
  if s'.acc.answer.code = 0 then
    .next (s'.note 0x0E01 [((parseSet "KPAN" b).map (·.version)).getD 0])
  else .next s'

/-- Own rule of 3C03h:00h: it reads 0; the value comes into force at its f0 like every pair-shared write (R41), and the
restart follows at the next scan boundary (R432). -/
def State.ruleRestart (s : State) (_ : Path) (idx sub : Nat) (v : Val) : Verdict := .done (s.acceptAction idx sub v)

/-- PANICLE_RESTART_WARM (R432): 1 written to 3C03h:00h. -/
def execPanicleRestartWarm (p : Path) (s : State) : Out :=
  if !s.up then .next s else .next (s.writeWith State.ruleRestart p 0x3C03 0 (natLe 1 1))

/-- PANICLE_RESTART_COLD (R432): 2 written to 3C03h:00h. -/
def execPanicleRestartCold (p : Path) (s : State) : Out :=
  if !s.up then .next s else .next (s.writeWith State.ruleRestart p 0x3C03 0 (natLe 1 2))

/-- PANICLE_RUN_WRITE (R432, R434): a write of 3C00h:02h; scans stop, or Panicle restarts, when it comes into force. -/
def execPanicleRunWrite (p : Path) (b : List Byte) (s : State) : Out :=
  if !s.up then .next s else .next (s.writeWith State.noRule p 0x3C00 2 b)

/-- SCAN_LENGTH_WRITE (R415): a write of 3C00h:01h. -/
def execScanLengthWrite (p : Path) (b : List Byte) (s : State) : Out :=
  if !s.up then .next s else .next (s.writeWith State.noRule p 0x3C00 1 b)

/-- FORCE_LIST_WRITE (R430): a write of 3C10h:00h; the session's role goes into event 0E07h. -/
def execForceListWrite (p : Path) (b : List Byte) (s : State) : Out :=
  if !s.up then .next s else
  let s' := s.writeWith State.ruleForces p 0x3C10 0 b
  if s'.acc.answer.code = 0 then .next (s'.setPan { s'.pan with forceRole := (s'.roleOf p).code }) else .next s'

/-- ARITHMETIC_STICKY_READ (R421, R197): a read of 3C51h:00h returns the bit and clears it. -/
def execArithmeticStickyRead (p : Path) (s : State) : Out :=
  if !s.up then .next s else
  let s' := s.readWith (fun _ _ _ => none) p 0x3C51 0
  if s'.acc.answer.code = 0 then .next (s'.putU 0x3C51 0 0) else .next s'

end Sys2Proof.Machine
end

