-- ==== Sys2Proof/Machine/Reply.lean ====
section
/-! DEFINITION. Responses of the SDO servers (R493, CiA 301) and of KDP sessions, withheld ones among them (R447). -/
namespace Sys2Proof.Machine

namespace State

/-- The next SDO frame of controller c takes a transmit buffer once the one before has left it. -/
def sdoNext (s : State) (c : Nat) : State :=
  let x := s.canC c
  match x.sdoOut with
  | [] => s
  | b :: rest =>
    if x.tx.any (fun m => m.kind == .sdo) || 64 ≤ x.tx.length then s
    else
      (s.setCanC c { x with sdoOut := rest }).canQueue c
        { id := b.1, kind := .sdo, fd := false, data := b.2 }

/-- Send an SDO frame of 8 bytes, on the identifier in force when the request arrived (R38); a controller that does not
transmit sends none. -/
def sdoSend (s : State) (c : Nat) (b : List Byte) : State :=
  if s.canSends c then (s.setCanC c { s.canC c with sdoOut := (s.canC c).sdoOut ++ [(0x580 + (s.canC c).sdoNode, b)] }).sdoNext c else s

/-- The transfer of controller c. -/
def setSdo (s : State) (c : Nat) (x : Option Sdo) : State := s.setCanC c { s.canC c with sdo := x }

/-- Abort the transfer of controller c: the abort frame and event 110Ch. -/
def sdoAbort (s : State) (c idx sub code : Nat) : State :=
  let s := s.setSdo c none
  (s.sdoSend c (natLe 1 0x80 ++ natLe 2 idx ++ natLe 1 sub ++ natLe 4 code)).note 0x110C [c, code]

/-- The success response of CiA 301 to the request that completed a download. -/
def sdoDone (req : List Byte) (idx sub : Nat) : List Byte :=
  let b := leAt req 0 1
  if b / 32 = 1 then natLe 1 0x60 ++ natLe 2 idx ++ natLe 1 sub ++ natLe 4 0
  else if b / 32 = 0 then natLe 1 (0x20 + b / 16 % 2 * 16) ++ List.replicate 7 0
  else natLe 1 0xA1 ++ List.replicate 7 0

/-- A download has been answered with `code`: abort, withhold, or confirm; the transfer stays so that a repeated request
finds its response (R57). -/
def sdoFinish (s : State) (c : Nat) (x : Sdo) (req : List Byte) (code : Nat) : State :=
  if code = noAnswer then s.setSdo c (some { x with kind := .download, ended := true, last := some (req, []) })
  else if code = 0 then
    let r := sdoDone req x.idx x.sub
    (s.setSdo c (some { x with kind := .download, buf := [], ended := true, last := some (req, r) })).sdoSend c r
  else s.sdoAbort c x.idx x.sub code

/-- Send the response that a pending DOMAIN write has withheld (R447). -/
def respond (s : State) (p : Path) (code : Nat) : State :=
  let s := s.answer code
  match p with
  | .can c =>
    match (s.canC c).sdo with
    | some x =>
      match x.ended, x.kind, x.last with
      | true, .download, some (req, []) => s.sdoFinish c x req code
      | _, _, _ => s
    | none => s
  | .kdp _ =>
    let x := s.session p
    if x.replay.any fun r => r.code == noAnswer then
      s.setSession p { x with replay := x.replay.map fun (r : Reply) =>
        if r.code = noAnswer then { r with code := code, value := [] } else r }
    else s
  | _ => s

end State
end Sys2Proof.Machine
end

