-- ==== Sys2Proof/Machine/Time.lean ====
section
/-! DEFINITION. The timebase (chapter 13): frame grid, sources, servo, steps, holdover, pulses, PTP. -/
namespace Sys2Proof.Machine

namespace State

def src (s : State) (e : Nat) : Src := tget {} s.tb.srcs e
def setTb (s : State) (t : TimeB) : State := { s with tb := t }
def setSrc (s : State) (e : Nat) (x : Src) : State := s.setTb { s.tb with srcs := tset s.tb.srcs e x }
def srcKind (s : State) (e : Nat) : Nat := s.cfgU (0x3810 + e) 1
/-- An entry that may be used: of a kind, enabled, present on this product (R337). -/
def srcOn (s : State) (e : Nat) : Bool :=
  s.srcKind e != 0 && s.cfgB (0x3810 + e) 6 && (s.srcKind e != 1 || s.hasGnss)
/-- A follower disciplines to the Lead over Halur while the link stands (R340). -/
def follower (s : State) : Bool := (s.st.role == 1 || s.st.role == 2) && !s.hal.degraded
/-- The entry R337 chooses. -/
def bestSrc (s : State) : Option Nat :=
  if s.follower then some 8
  else (List.range 8).find? fun e => s.srcOn e && (s.src e).qualified && !(s.src e).refused

def stepThr (s : State) : Rat := s.cfgR 0x3800 2 * 1000
def jumpThr (s : State) : Rat := s.cfgR 0x3800 3 * 1000000
def lockThr (s : State) : Rat := s.cfgR 0x3800 6

/-- Take a source into use, or none; holdover ends with a source (R337, R349, Table 13-3). -/
def useSrc (s : State) (new : Option Nat) : State :=
  let t := s.tb
  if t.use = new then s else
  let s := s.note 0x0C01 [t.use.getD 15, new.getD 15]
  let s := s.setTb { t with use := new, dec := [], last := none, inLock := 0, locked := false }
  match new with
  | some _ => (s.setTb { s.tb with holdFrom := none, lost := false }).lower 0x0C02 0
  | none => s.setTb { s.tb with lost := true }

/-- Choose again after a change of the entries (R337, R339). -/
def reselect (s : State) : State := s.useSrc s.bestSrc

/-- A source loses its qualification (R339). -/
def loseSrc (s : State) (e : Nat) : State :=
  let x := s.src e
  let was := x.qualified
  let s := s.setSrc e { x with qualified := false, meas := [], next := none, off := false }
  let s := if was then (s.incU 0x3841 3).note 0x0C0E [e, 0] else s
  s.reselect

/-- An entry whose kind, address or enable has changed starts anew: it is no longer qualified or refused (R337, R339). -/
def resetSrc (s : State) (e : Nat) : State :=
  let x := s.src e
  let s := s.setSrc e {}
  let s := if x.refused then s.lower 0x0C07 e else s
  if x.qualified then (s.incU 0x3841 3).note 0x0C0E [e, 0] else s

/-- The entries 3810h-3817h in force at f0; `old` the values before. -/
def sourcesInForce (old : List (Nat × Val)) (s : State) : State :=
  let changed := fun (e : Nat) => [1, 2, 6].any fun k => getV old (okey (0x3810 + e) k) != s.cfgV (0x3810 + e) k
  match (List.range 8).filter changed with
  | [] => s
  | l => (foldS s l resetSrc).reselect

/-! Measurements (R338, R339). -/

/-- Rate in ns/s (ppb) of three measurements. -/
def rateOf (l : List (Nat × Rat)) : Rat :=
  match l with
  | [a, _, c] => if a.1 < c.1 then (c.2 - a.2) / (((c.1 - a.1 : Nat) : Rat) / 1000000000) else 0
  | _ => 0

/-- Three measurements agree within 1 us once their common rate is removed. -/
def agree (l : List (Nat × Rat)) : Bool :=
  match l with
  | [a, b, c] =>
    let r := rateOf [a, b, c]
    let at' := fun (p : Nat × Rat) => p.2 - r * (((p.1 - a.1 : Nat) : Rat) / 1000000000)
    decide (rabs (at' b - at' a) ≤ 1000) && decide (rabs (at' c - at' a) ≤ 1000) && decide (rabs (at' c - at' b) ≤ 1000)
  | _ => false

/-- Labels that the sentence of a PPS entry's address has given: time, arrival. -/
def ppsLabels (s : State) (addr : Nat) : List (Int × Nat) :=
  let key := (1 * 64 + field addr 0 4) * 256 + field addr 8 8
  (s.io.labels.filter fun p => p.1 / 65536 == key).map (·.2)

/-- Offset of a PPS entry's newest edge, when a sentence labels it (R338). -/
def ppsOffset (s : State) (e : Nat) : Option (Rat × Rat) :=
  let x := s.src e
  let addr := s.cfgU (0x3810 + e) 2
  match x.edges.getLast? with
  | none => none
  | some edge =>
    if x.done = some edge then none else
    let from' : Option Rat := if bit addr 16 then (if x.edges.length = 2 then x.edges.head? else none) else some edge
    match from' with
    | none => none
    | some f =>
      match (s.ppsLabels addr).find? (fun p => decide (f < (p.2 : Rat)) && decide ((p.2 : Rat) ≤ f + 900000000) &&
          p.1 % 1000000000 == 0) with
      | some p => some (edge, edge - p.1)
      | none => none

/-- The measurement of an entry that is ready, θ in ns. -/
def ready' (s : State) (e : Nat) : Option Rat :=
  match s.srcKind e with
  | 1 => if s.gn.offered then some (s.gn.offset : Rat) else none
  | 2 | 3 => (s.ppsOffset e).map (·.2)
  | 4 => (s.src e).next
  | _ => none

/-! The servo and the decision (R342-R348). -/

/-- Quality when locked to a source: 0 for entry 0, or for the Lead at 00b (R348). -/
def lockQuality (s : State) (e : Nat) : Nat :=
  if e = 0 then 0
  else if e = 8 then
    match s.hal.units.find? fun p => p.2.role == 0 && p.2.heard.isSome with
    | some p => if field p.2.status 17 2 = 0 then 0 else 1
    | none => 1
  else 1

/-- K_p and K_i in force for a source. -/
def servoGains (s : State) (e : Nat) : Rat × Rat :=
  if e = 8 then (s.cfgR 0x3800 9, s.cfgR 0x3800 0x0A) else (s.cfgR (0x3810 + e) 4, s.cfgR (0x3810 + e) 5)

/-- One servo update (R342) with the lock and the learned rate (R343, R348). -/
def servo (s : State) (e t : Nat) (theta : Rat) : State :=
  let b := s.tb
  let (kp, ki) := s.servoGains e
  let tau : Rat := match b.last with
    | some a => ((t - a : Nat) : Rat) / 1000000000
    | none => 0
  let slew := -(kp * theta)
  let limited := decide (50000 < rabs slew)
  let r := if limited then b.r else rclamp (-100000) 100000 (b.r - ki * tau * theta)
  let inn := decide (rabs theta ≤ s.lockThr)
  let n := if inn then b.inLock + 1 else 0
  let lockNow := decide (10 ≤ n)
  let locked := inn && (b.locked || lockNow)
  let win := ns (s.cfgR 0x3800 7)
  let rates := if locked then (b.rates.filter fun p => t ≤ p.1 + win) ++ [(t, r)] else b.rates
  let from' := if locked && b.learnFrom = 0 then t else b.learnFrom
  let learned := b.learned || (locked && decide (from' + win ≤ t) && from' != 0)
  let mean := if rates.isEmpty then r else rsum (rates.map (·.2)) / (rates.length : Rat)
  let q := s.lockQuality e
  let s := s.setTb { b with
    r := r, y := r + rclamp (-50000) 50000 slew, last := some t, theta := theta, inLock := n, locked := locked,
    slewing := b.slewing && !inn, rates := rates, learnFrom := from', learned := learned, rMean := mean,
    quality := if locked then q else b.quality }
  if locked && !b.locked then s.note 0x0C04 [e, q] else s

/-- The next whole second after device time t. -/
def nextSecond (t : Nat) : Nat := (t / 1000000000 + 1) * 1000000000

/-- Set up a step from three measurements (R344, R347). -/
def planStep (s : State) (l : List (Nat × Rat)) (initial : Bool) : State :=
  let n : Rat := l.length
  let mean := rsum (l.map (·.2)) / n
  let mid := rsum (l.map fun p => (p.1 : Rat)) / n
  let rate := rateOf l
  let S := nextSecond s.clk.time
  let hat := mean + rate * ((S : Rat) - mid) / 1000000000
  let b := s.tb
  s.setTb { b with step := some (S, -(roundEven hat), initial), r := b.rMean - rate, dec := [] }

/-- The decision on three measurements of the source in use (R344, R347). -/
def decideStep (s : State) (e t : Nat) : State :=
  let b := s.tb
  let l := b.dec
  let mean := rsum (l.map (·.2)) / 3
  let theta := match l.getLast? with
    | some p => p.2
    | none => 0
  if l.length < 3 ∨ b.step.isSome then s.servo e t theta
  else if e = 8 then s.servo e t theta
  else if rabs mean ≤ s.stepThr then
    let slew := decide (s.lockThr < rabs mean)
    let s := if slew && !b.slewing then
        (s.setTb { b with slewing := true }).note 0x0C05 [pI (roundEven mean)] else s
    s.servo e t theta
  else if rabs mean ≤ s.jumpThr then s.planStep l false
  else
    let s := s.setSrc e { s.src e with refused := true }
    let s := s.setTb { s.tb with refusedTheta := roundEven mean }
    ((s.incU 0x3841 2).alarm 0x0C07 e 1 [e, pI (roundEven mean)]).reselect

/-- A measurement of entry e (or 8, the Lead over Halur) at t_n (R337-R348). -/
def measured (s : State) (e t : Nat) (theta : Rat) : State :=
  let s := s.probe 5 e theta
  let x := s.src e
  let jump := s.jumpThr
  let prev := x.meas.getLast?
  -- a single measurement beyond the jump threshold, followed by one within it, is discarded and counted (R344)
  let beyond := decide (jump < rabs theta)
  let before := match prev with
    | some p => decide (jump < rabs p.2)
    | none => false
  let lone := match x.meas.dropLast.getLast? with
    | some q => decide (rabs q.2 ≤ jump)
    | none => true
  let judged := e != 8 && s.tb.initial
  let single := judged && !beyond && before && lone
  let old := if single then x.meas.dropLast else x.meas
  let meas := lastN 3 (old ++ [(t, theta)])
  let q := x.qualified || agree meas
  let s := s.setSrc e { x with
    meas := meas, qualified := q, next := none, outliers := x.outliers + b2n single,
    done := if s.srcKind e = 2 ∨ s.srcKind e = 3 then (s.src e).edges.getLast? else none }
  let s := if q && !x.qualified && e != 8 then s.note 0x0C0E [e, 1] else s
  let was := s.tb.use
  let s := s.reselect
  if s.tb.use ≠ some e then s else
  let first := was != some e
  let dec := if first then meas else lastN 3 ((if single then s.tb.dec.dropLast else s.tb.dec) ++ [(t, theta)])
  let s := s.setTb { s.tb with dec := dec, theta := theta }
  if !s.tb.initial && s.tb.step.isNone then s.planStep dec true
  -- the first beyond the threshold waits for the one after it
  else if judged && beyond && !before then s
  else s.decideStep e t

/-! Steps (R345, R347). -/

/-- A stamp with Δ added, not below 0. -/
def shiftNat (t : Nat) (d : Int) : Nat := ((t : Int) + d).toNat

/-- Add Δ to every device-time stamp that Sheaf and Chaff hold (R345). -/
def shiftStamps (s : State) (d : Int) : State :=
  let streams := s.sheaf.streams.map fun (p : Nat × Stream) =>
    let own := match p.2.cfg with
      | some (_, _, _, sl) => decide (64 ≤ sl)
      | none => true
    let st := p.2
    let buf := st.buf.map fun (x : Smp) =>
      { x with arrival := shiftNat x.arrival d, stamp := if own then x.stamp + d else x.stamp }
    let fresh := st.fresh.map fun (q : Nat × List Rat) => (shiftNat q.1 d, q.2)
    (p.1, { st with buf := buf, fresh := fresh, since := shiftNat st.since d, newest := st.newest + d })
  let slots := s.sheaf.slots.map fun (p : Nat × Slot) =>
    (p.1, { p.2 with obs := p.2.obs.map fun (q : Int × Nat) => (q.1, shiftNat q.2 d) })
  let chans := s.chaff.chans.map fun (p : Nat × Chan) =>
    let c := p.2
    (p.1, { c with
      fillUntil := shiftNat c.fillUntil d, fromT := shiftNat c.fromT d,
      due := c.due.map fun (q : Nat × Nat × List Byte) => (shiftNat q.1 d, q.2),
      tunes := c.tunes.map fun (q : Nat × Rat) => (shiftNat q.1 d, q.2), latch := c.latch.map fun (q : Nat × Rat) => (shiftNat q.1 d, q.2),
      last := c.last.map fun (q : Rat × Rat) => (q.1 + d, q.2),
      outs := c.outs.map fun (o : ChOut) => { o with tov := o.tov + d } })
  { s with sheaf := { s.sheaf with streams := streams, slots := slots }, chaff := { s.chaff with chans := chans } }

/-- Renumber the frames by `d`: the counter and every frame number that the unit holds (R335, R347, log 49). -/
def shiftFrames (s : State) (d : Int) : State :=
  let z := fun n => shiftNat n d
  let zo := fun (o : Option Nat) => o.map z
  let units := s.hal.units.map fun (p : Nat × Partner) =>
    (p.1, { p.2 with heard := zo p.2.heard, field := zo p.2.field, reportAt := z p.2.reportAt })
  let c := s.ctl
  let plant := { c.plant with
    core := { c.plant.core with scaled := c.plant.core.scaled.map fun (p : Nat × (Nat × Nat)) => (p.1, (z p.2.1, z p.2.2)) },
    seen := c.plant.seen.map fun (p : Nat × (Nat × Nat)) => (z p.1, p.2),
    res := { c.plant.res with frame := z c.plant.res.frame }, f3 := { c.plant.f3 with frame := z c.plant.f3.frame },
    overs := c.plant.overs.map z }
  { s with
    clk := { s.clk with frame := z s.clk.frame, f0 := z s.clk.f0 },
    acc := { s.acc with
      fresh := s.acc.fresh.map fun (p : Pend) => { p with due := z p.due },
      bulk := s.acc.bulk.map fun (b : Bulk) => { b with
        start := zo b.start, from' := z b.from', sent := b.sent.map fun (p : Nat × Nat) => (p.1, z p.2) } },
    mode := { s.mode with cmds := s.mode.cmds.map fun (p : Cmd) => { p with due := z p.due } },
    therm := { s.therm with
      inBand := s.therm.inBand.map fun (p : Nat × Nat) => (p.1, z p.2), releaseFrom := zo s.therm.releaseFrom },
    hal := { s.hal with
      units := units, claim := s.hal.claim.map fun (p : Nat × Nat) => (z p.1, p.2),
      yield := s.hal.yield.map fun (p : Nat × Nat) => (p.1, z p.2),
      yieldIn := s.hal.yieldIn.map fun (p : Nat × Nat) => (p.1, z p.2),
      fastSent := zo s.hal.fastSent, fullSent := zo s.hal.fullSent },
    ctl := { c with
      innerOver := c.innerOver.map z, alloc := { c.alloc with plant := zo c.alloc.plant }, plant := plant,
      stook := { c.stook with cases := c.stook.cases.map fun (p : Nat × CaseSt) => (p.1, { p.2 with plant := z p.2.plant }) } },
    mir := { s.mir with commits := s.mir.commits.map fun (p : Nat × Nat) => (p.1, z p.2) },
    net := { s.net with
      since := z s.net.since,
      nodes := s.net.nodes.map fun (p : Nat × NodeSt) =>
        (p.1, { p.2 with onA := zo p.2.onA, onB := zo p.2.onB, dataAt := z p.2.dataAt }),
      drives := s.net.drives.map fun (p : Nat × Drive) => (p.1, { p.2 with frame := z p.2.frame }) },
    chaff := { s.chaff with
      overs := s.chaff.overs.map z, chans := s.chaff.chans.map fun (p : Nat × Chan) => (p.1, { p.2 with lastFrame := z p.2.lastFrame }) },
    fb := { s.fb with enc := s.fb.enc.map fun (p : Nat × Enc) =>
      (p.1, { p.2 with goodAt := zo p.2.goodAt, edgeAt := zo p.2.edgeAt }) },
    pan := { s.pan with start := z s.pan.start } }

/-- Apply the pending step at its second; the initial set also numbers the frames so that frame k begins at k × 1.25 ms
(R335, R347). -/
def applyStep (s : State) (S : Nat) (d : Int) (initial : Bool) : State :=
  let at'' := shiftNat S d
  let next := if initial then (at'' / 1250000 + 1) * 1250000 else shiftNat s.tb.next d
  let s := s.shiftStamps d
  let s := if initial then s.shiftFrames ((at'' / 1250000 : Nat) - (s.clk.frame : Int)) else s
  let s := { s with clk := { s.clk with time := at'' } }
  let s := s.setTb { s.tb with
    next := next, step := none, lastStep := d, initial := true, dec := [], inLock := 0, locked := false,
    last := none }
  (s.incU 0x3841 1).note 0x0C06 [pI d, S]

/-- Accept the refused source of lowest number (R346). -/
def acceptJump (s : State) (how : Nat) : State :=
  match (List.range 8).find? fun e => s.srcOn e && (s.src e).refused with
  | none => s
  | some e =>
    let x := s.src e
    let s := ((s.setSrc e { x with refused := false }).lower 0x0C07 e).note 0x0C08 [how]
    let s := s.reselect
    if s.tb.use = some e then s.planStep x.meas false else s

/-! Reference (R336). -/

/-- REF10 is present and in range, or not: the reference in use follows. -/
def setRef (s : State) (present : Bool) : State :=
  let b := s.tb
  let use := match s.cfgU 0x3800 1 with
    | 0 => present
    | 1 => false
    | _ => true
  let s := s.setTb { b with ref10 := present, onRef10 := use }
  if use = b.onRef10 then s
  else (s.setTb { s.tb with rates := [], learnFrom := 0, learned := false }).note 0x0C0A [if use then 2 else 1]

/-! Pulses (R350). -/

/-- Output n is squelched at a whole second. -/
def squelched (s : State) (n : Nat) : Bool :=
  match s.cfgU (0x3820 + n) 3 with
  | 1 => s.tb.quality == 3
  | 2 => s.tb.quality != 0
  | _ => false

def ppsPulse (s : State) (n t : Nat) : State :=
  let q := s.squelched n
  let b := s.tb
  let high := if q then tdel b.ppsHigh n else tset b.ppsHigh n (t + ns (s.cfgR (0x3820 + n) 1 / 1000))
  s.setTb { b with squelch := setBit b.squelch n q, ppsHigh := high }

/-- Level of PPS_OUTn's pin (R350). -/
def ppsLevel (s : State) (n : Nat) : Bool :=
  let high := match tfind s.tb.ppsHigh n with
    | some e => decide (s.clk.time < e)
    | none => false
  if s.up then high != s.cfgB (0x3820 + n) 4 else false

/-! PTP (R352-R357). -/

def setPtp (s : State) (p : Ptp) : State := s.setTb { s.tb with ptp := p }
/-- PTP entries that name a domain and a port. -/
def ptpSrcs (s : State) (domain port : Nat) : List Nat :=
  (List.range 8).filter fun e =>
    s.srcOn e && s.srcKind e == 4 && field (s.cfgU (0x3810 + e) 2) 0 8 == domain &&
      (field (s.cfgU (0x3810 + e) 2) 8 4 == 0 || bit (s.cfgU (0x3810 + e) 2) (8 + port))

/-- The unit's own dataset (R357). -/
def ownDataset (s : State) : Dataset :=
  let kind := match s.tb.use with
    | some e => if e < 8 then s.srcKind e else 0
    | none => 0
  let q := s.tb.quality
  let good := q ≤ 1 && (kind == 1 || kind == 2 || kind == 3)
  { prio1 := s.cfgU 0x3830 5, cls := if s.cfgB 0x3830 7 then 255 else if good then 6 else if q = 2 then 7 else 248,
    accuracy := if q = 0 then 0x21 else 0xFE, variance := Config.clockVariance,
    prio2 := min 255 (s.cfgU 0x3830 6 + (if s.st.role < 3 then s.st.role else 0)), identity := Config.clockIdentity, steps := 0,
    timeSource := if kind = 1 then 0x20 else if kind = 4 then 0x40 else 0xA0 }

/-- The dataset that the unit announces: a boundary clock passes on its upstream grandmaster's (R357). -/
def announced (s : State) : Dataset := match s.tb.ptp.gm with
  | some g => if s.cfgU 0x3830 2 = 1 then { g with steps := g.steps + 1 } else s.ownDataset
  | none => s.ownDataset

/-- A port on which the unit acts as PTP master (R353): an ordinary clock where it knows no better clock, a boundary clock on
its ports but the one towards its grandmaster. -/
def ptpMaster (s : State) (port : Nat) : Bool :=
  let p := s.tb.ptp
  s.cfgU 0x3830 1 != 0 && !s.cfgB 0x3830 7 &&
    (if s.cfgU 0x3830 2 = 1 then bit (s.cfgU 0x3830 0x0B) port && (p.gm.isNone || p.port != port) else p.gm.isNone)

/-- Dataset comparison of the best-master algorithm (R357; the order is IEEE 1588-2019's, PRESUMED, log 48). -/
def better (a b : Dataset) : Bool :=
  let k := fun (d : Dataset) => [d.prio1, d.cls, d.accuracy, d.variance, d.prio2, d.identity]
  let rec' := (List.zip (k a) (k b)).find? fun p => p.1 != p.2
  match rec' with
  | some p => decide (p.1 < p.2)
  | none => decide (a.steps < b.steps)

/-- A Sync of the grandmaster (R337, R342, R355): capture, origin time and correction, and the newest answer to a delay
request, its sequence, t4 and correction. In the peer profiles the answer is a Pdelay_Resp: t4 its arrival, the correction the
time that the request stood at the peer, and the delay is the port's meanLinkDelay (R354). -/
def ptpSync (s : State) (domain port : Nat) (capture : Rat) (t1 corr : Int) (resp : Option (Nat × Int × Int)) : State :=
  let p := s.tb.ptp
  let t2 := s.ingress port capture
  let c : Rat := (corr : Rat) / 65536
  let peer := s.cfgU 0x3830 1 != 1
  let delay := match resp with
    | some (seq, t4, rc) =>
      match p.times.find? fun x => x.2.1 == seq && x.1 != 0 with
      | some x =>
        let back := (t4 : Rat) - x.2.2 - (rc : Rat) / 65536
        if peer then back / 2 else ((t2 - t1 - c) + back) / 2
      | none => p.delay
    | none => p.delay
  let theta := t2 - t1 - c - delay
  let s := s.setPtp { p with
    synced := s.clk.time, sync := some (t1, roundEven t2), delay := delay,
    link := if peer && resp.isSome then tset p.link port delay else p.link }
  foldS s (s.ptpSrcs domain port) fun s e => s.setSrc e { s.src e with next := some theta }

/-- The sources of PTP lose their qualification, and the measurements towards it. -/
def losePtp (s : State) : State :=
  foldS s ((List.range 8).filter fun e => s.srcKind e == 4) fun s e => s.loseSrc e

/-- An Announce runs the best-master algorithm (R339, R357). -/
def ptpAnnounce (s : State) (port : Nat) (d : Dataset) : State :=
  let p := s.tb.ptp
  let same := match p.gm with
    | some g => g.identity == d.identity
    | none => false
  if same then s.setPtp { p with gm := some d, port := port, announced := s.clk.time }
  else
    let beats := better d s.ownDataset && (match p.gm with
      | some g => better d g
      | none => true)
    if !beats then s else
    let s := s.losePtp
    let s := s.setPtp { s.tb.ptp with gm := some d, port := port, announced := s.clk.time, synced := s.clk.time }
    s.note 0x0C09 [d.identity]

/-- An interval of a log value in ns. -/
def logNs (k : Int) : Nat := ns (pow2 k)

/-- A transmit timestamp enters its port's queue, or is lost (R356). -/
def txStamp (s : State) (port type seq : Nat) (capture : Rat) : State :=
  let p := s.tb.ptp
  let q := tget [] p.queues port
  if 16 ≤ q.length then
    (s.setPtp { p with
      overflow := setBit p.overflow port true, lostNow := setBit p.lostNow port true,
      sent := p.sent.filter fun y => !(y.1 == type && y.2.1 == seq && y.2.2 == port) }).incU 0x3841 (4 + port)
  else s.setPtp { p with queues := tset p.queues port (q ++ [(type, seq, (s.egress port capture).floor.toNat)]) }

/-- The PTP engine reads every queue once per frame (R356). -/
def readQueues (s : State) : State :=
  let p := s.tb.ptp
  let all := (p.queues.map (·.2)).flatten
  let ours := all.filter fun x => p.sent.any fun y => y.1 == x.1 && y.2.1 == x.2.1
  let follow := (ours.filter fun x => x.1 == 0).map fun x => (x.2.1, x.2.2)
  let req := ours.filter fun x => x.1 == 1 || x.1 == 2
  let s := foldS s (bitsOf 4 p.overflow) fun s n => s.putU 0x3842 (n + 1) 1
  let s := if p.lostNow = 0 then s else s.note 0x0C0B [p.lostNow]
  s.setPtp { p with
    queues := [], overflow := 0, lostNow := 0, followUps := follow, times := lastN 8 (p.times ++ req),
    sent := p.sent.filter fun y => !all.any fun x => x.1 == y.1 && x.2.1 == y.2.1 }

/-! The frame boundary (R335, R337, R346, R350-R352). -/

/-- Status word 3840h:04h (Table 13-7). -/
def timeWord (s : State) : Nat :=
  let b := s.tb
  (b.use.getD 15) * 2 ^ 20 + b.quality * 2 ^ 18 + bitAt b.onRef10 17 + bitAt b.ref10 16 + bitAt b.holdFrom.isSome 15 +
    bitAt b.slewing 14 + bitAt b.step.isSome 13 + bitAt ((List.range 8).any fun e => (s.src e).refused) 12 +
    bitAt b.initial 11 + bitAt (bit b.squelch 1) 10 + bitAt (bit b.squelch 0) 9 + bitAt b.learned 8 +
    bitAt ((List.range 4).any fun n => s.objU 0x3842 (n + 1) != 0) 7

/-- Publish 3840h. -/
def publishTime (s : State) : State :=
  let b := s.tb
  let held : Rat := match b.holdFrom with
    | some a => ((s.clk.time - a : Nat) : Rat) / 1000000000
    | none => 0
  let gm := match b.ptp.gm with
    | some g => g.identity
    | none => 0
  s.publish 0x3840 [.u s.timeWord, .i (roundEven b.theta), rv b.y, rv b.rMean, rv held, .i b.lastStep, .i b.refusedTheta,
    .i (s.objI 0x3801 1), .u gm, rv b.ptp.delay]

/-- TAI - UTC in force (R351): from checked navigation data, else the configured value. -/
def taiFrame (s : State) : State :=
  let v := match s.tb.navTai with
    | some v => v
    | none => s.cfgI 0x3801 2
  if s.objI 0x3801 1 = v then s else s.putI 0x3801 1 v

/-- The frame boundary of the grid: the counter advances, the boundary is stamped (R335). -/
def gridFrame (s : State) : State :=
  let b := s.tb.next
  { s with clk := { s.clk with frame := s.clk.frame + 1, time := b, bound := b },
           tb := { s.tb with next := b + 1250000 } }

/-- The synthesiser's steering in 0.001 ppb (R334). -/
def steering (s : State) : Int := roundAway (s.tb.y * 1000)

/-- The timebase's work at the start of a frame: the entries as they stand now choose the source (R337); the end of the frame before publishes 3840h when it held a whole
second. -/
def timeFrame (s : State) (prev : Nat) : State :=
  let S := (prev + 999999999) / 1000000000 * 1000000000
  let held := decide (S < s.clk.bound)
  let s := ((s.readQueues.taiFrame).setRef s.tb.ref10).reselect
  let s := if held && s.cfgB 0x3800 4 && s.mode.mode == 0 then s.acceptJump 2 else s
  if held then s.publishTime else s

/-- Own rule of 3802h:00h (R346): it reads 0. -/
def ruleJump (s : State) (_ : Path) (_ _ : Nat) (v : Val) : Verdict := .done (if v.asNat = 1 then s.acceptJump 1 else s)

/-- A read of 3842h returns and clears the flag. -/
def queueRead (s : State) (p : Path) (sub : Nat) : State := s.readSticky p 0x3842 sub

end State

/-- TIME_MEASUREMENT (R342): the measurement of entry e that is ready, decided at t. A follower's entries qualify as well, so that
a takeover finds them (R341); they drive nothing while it follows (R340; log 156). -/
def execTimeMeasurement (e t : Nat) (s : State) : Out :=
  match s.ready' e with
  | some theta =>
    if s.up && decide (e < 8) && s.srcOn e then
      let s := s.at' t
      let s := if s.srcKind e = 2 ∨ s.srcKind e = 3 then s.setSrc e { s.src e with labelled := s.clk.time } else s
      .next (s.measured e s.clk.time theta)
    else .next s
  | none => .next s

/-- TIME_STEP (R345): device time t has reached the second of the pending step. -/
def execTimeStep (t : Nat) (s : State) : Out :=
  match s.tb.step with
  | some (S, d, init) => if s.up && decide (S ≤ t) then .next (s.applyStep S d init) else .next s
  | none => .next s

/-- SOURCE_LOST (R337): entry e meets the loss condition of its kind at t. -/
def execSourceLost (e t : Nat) (s : State) : Out :=
  let x := s.src e
  let now := max s.clk.time t
  let lost := match s.srcKind e with
    | 1 => !s.gn.offered
    | 2 | 3 => x.off || decide (x.labelled + 3000000000 ≤ now) || (match x.edges.getLast? with
      | some a => decide (a + 1250000000 ≤ (now : Rat))
      | none => true)
    | 4 => s.tb.ptp.gm.isNone
    | _ => true
  if s.up && decide (e < 8) && x.qualified && lost then .next ((s.at' t).loseSrc e) else .next s

/-- HOLDOVER_ENTRY (R349): at the start of the frame after the last source was lost; a return slews from the rate held (Table
13-3). -/
def execHoldoverEntry (s : State) : Out :=
  let b := s.tb
  if s.up && b.lost && b.use.isNone && b.holdFrom.isNone then
    .next ((s.setTb { b with
      lost := false, holdFrom := some s.clk.time, r := if b.learned then b.rMean else b.r,
      y := if b.learned then b.rMean else b.r, quality := 2, slewing := false }).alarm 0x0C02 0 1 [])
  else .next s

/-- HOLDOVER_LIMIT (R349). -/
def execHoldoverLimit (t : Nat) (s : State) : Out :=
  let s' := s.at' t
  match s.tb.holdFrom with
  | some a =>
    if s.up && s.tb.quality == 2 && decide (a + State.ns (s.cfgR 0x3800 5) ≤ s'.clk.time) then
      .next ((s'.setTb { s'.tb with quality := 3 }).note 0x0C03 [])
    else .next s
  | none => .next s

/-- REFERENCE_CHANGE (R336): REF10 is present and in range, or not. -/
def execReferenceChange (present : Bool) (s : State) : Out :=
  if s.up then .next (s.setRef present) else .next s

/-- PPS_IN_EDGE (R338): an edge of PPS_INp stamped t. -/
def execPpsInEdge (p t : Nat) (s : State) : Out :=
  if s.up && decide (p < 2) then
    .next (foldS (s.at' t) ((List.range 8).filter fun e => s.srcOn e && s.srcKind e == 2 + p) fun s e =>
      let x := s.src e
      let edge := (t : Rat) - s.cfgR (0x3810 + e) 3
      let off := match x.edges.getLast? with
        | some a =>
          let d := edge - a
          let k := (d / 1000000000 + 1 / 2).floor
          decide (10000 < rabs (d - k * 1000000000)) || k == 0
        | none => false
      s.setSrc e { x with edges := lastN 2 (x.edges ++ [edge]), off := off })
  else .next s

/-- PPS_OUT_PULSE (R350): output n at a whole second t of device time less its advance. -/
def execPpsOutPulse (n t : Nat) (s : State) : Out :=
  if s.up && decide (n < 2) && (t + (s.cfgR (0x3820 + n) 2).floor.toNat) % 1000000000 == 0 then
    .next ((s.at' t).ppsPulse n t)
  else .next s

/-- LEAP_SECOND_CHANGE (R351): the end of the UTC day that an announced change names. -/
def execLeapSecondChange (t : Nat) (s : State) : Out :=
  match s.tb.leap with
  | some (d, v) =>
    if s.up && decide (d ≤ t) then
      let old := s.objI 0x3801 1
      .next ((((s.at' t).setTb { s.tb with navTai := some v, leap := none }).putI 0x3801 1 v).note 0x0C0D
        [State.pI old, State.pI v])
    else .next s
  | none => .next s

/-- PTP_SYNC (R352): a Sync on a port and domain; `resp` the newest answer to a delay request. -/
def execPtpSync (domain port t : Nat) (capture : Rat) (t1 corr : Int) (resp : Option (Nat × Int × Int)) (s : State) : Out :=
  let p := s.tb.ptp
  if s.up && s.cfgU 0x3830 1 != 0 && s.cfgU 0x3830 3 == domain && p.gm.isSome && p.port == port then
    .next ((s.at' t).ptpSync domain port capture t1 corr resp)
  else .next s

/-- PTP_ANNOUNCE (R357). -/
def execPtpAnnounce (domain port t : Nat) (d : Dataset) (s : State) : Out :=
  if s.up && s.cfgU 0x3830 1 != 0 && s.cfgU 0x3830 3 == domain then .next ((s.at' t).ptpAnnounce port d) else .next s

/-- ANNOUNCE_RECEIPT_TIMEOUT (Table 13-1): three Announce intervals without one (log 48), or three Syncs missing. -/
def execAnnounceReceiptTimeout (t : Nat) (s : State) : Out :=
  let p := s.tb.ptp
  let now := max s.clk.time t
  let quiet := decide (p.announced + 3 * State.logNs (s.cfgI 0x3830 9) ≤ now) ||
    decide (p.synced + 3 * State.logNs (s.cfgI 0x3830 8) ≤ now)
  if s.up && p.gm.isSome && quiet then
    .next (((s.at' t).setPtp { p with gm := none, sync := none }).losePtp)
  else .next s

/-- PTP_EVENT_FORWARD (R354): an event message forwarded between ports of one network; residence, and the link delay for
a Sync of the peer profile, enter its correction field (2^-16 ns). -/
def execPtpEventForward (inPort outPort type : Nat) (capIn capOut : Rat) (corr : Int) (s : State) : Out :=
  let same := s.cfgU (0x4001 + inPort) 2 == s.cfgU (0x4001 + outPort) 2
  let bound := s.cfgU 0x3830 2 == 1 && bit (s.cfgU 0x3830 0x0B) inPort && bit (s.cfgU 0x3830 0x0B) outPort
  if s.up && s.cfgU 0x3830 1 != 0 && same && inPort != outPort && decide (type < 4) && !bound then
    let p := s.tb.ptp
    let res := s.egress outPort capOut - s.ingress inPort capIn
    let link := if type = 0 ∧ s.cfgU 0x3830 1 = 2 then tget 0 p.link inPort else 0
    .next (s.setPtp { p with forwarded := corr + roundEven ((res + link) * 65536) })
  else .next s

/-- TRANSMIT_TIMESTAMP (R356). -/
def execTransmitTimestamp (port type seq : Nat) (capture : Rat) (s : State) : Out :=
  if s.up && decide (port < 4) then .next (s.txStamp port type seq capture) else .next s

/-- HALUR_TIME_MEASUREMENT (R340, R448): at a whole second, a follower's mean Halur offset drives its servo; an offset
beyond the jump threshold raises F1 and the unit leaves its role. -/
def execHalurTimeMeasurement (t : Nat) (s : State) : Out :=
  if s.up && s.follower && !s.hal.thetas.isEmpty then
    let s := s.at' t
    let theta := rsum s.hal.thetas / (s.hal.thetas.length : Rat)
    let s := { s with hal := { s.hal with thetas := [] } }
    if s.tb.initial && decide (s.jumpThr < rabs theta) then
      let s := s.alarm 0x0C0C 0 1 []
      let s := s.note 0x0F01 [s.st.role, 3, s.objU 0x3E01 1]
      .next { s with st := { s.st with role := 3 }, hal := { s.hal with join := 0, waited := 0, joinTime := false, joinVals := [] } }
    else .next ((s.lower 0x0C0C 0).measured 8 s.clk.time theta)
  else if s.up && s.st.role == 3 && s.hal.joinTime && !s.hal.thetas.isEmpty then
    -- a unit that joins sets from the Lead (R347, R456)
    let s := s.at' t
    let theta := rsum s.hal.thetas / (s.hal.thetas.length : Rat)
    let s := { s with hal := { s.hal with thetas := [], joinTime := false } }
    .next (s.setTb { s.tb with step := some (State.nextSecond s.clk.time, -(roundEven theta), true) })
  else .next s

/-- PTP_SYNC_TRANSMIT (R353): a unit that acts as PTP master sends a two-step Sync. -/
def execPtpSyncTransmit (port : Nat) (s : State) : Out :=
  let p := s.tb.ptp
  if s.up && s.ptpMaster port then
    .next (s.setPtp { p with sent := p.sent ++ [(0, p.syncSeq, port)], syncSeq := (p.syncSeq + 1) % 65536 })
  else .next s

/-- PTP_DELAY_REQ_TRANSMIT (R353): Delay_Req (type 1), or Pdelay_Req (type 2) in the peer profile and 802.1AS. -/
def execPtpDelayReqTransmit (port : Nat) (s : State) : Out :=
  let p := s.tb.ptp
  let prof := s.cfgU 0x3830 1
  if s.up && prof != 0 && (p.gm.isSome || prof != 1) then
    .next (s.setPtp { p with sent := p.sent ++ [(if prof = 1 then 1 else 2, p.delaySeq, port)],
                             delaySeq := (p.delaySeq + 1) % 65536 })
  else .next s

/-- ACCEPT_JUMP (R346): a write of 3802h:00h. -/
def execAcceptJump (p : Path) (b : List Byte) (s : State) : Out :=
  .next (if s.up then s.writeWith State.ruleJump p 0x3802 0 b else s)

/-- QUEUE_OVERFLOW_READ (R356): a read of 3842h:01h-04h. -/
def execQueueOverflowRead (p : Path) (sub : Nat) (s : State) : Out :=
  .next (if s.up then s.queueRead p sub else s)

end Sys2Proof.Machine
end

