-- ==== Sys2Proof/Machine/Halur.lean ====
section
/-! DEFINITION. The Halur link (chapter 17): roles and precedence, messages and their acceptance, the mirror, large
writes, time over the link, loss of the Lead, joining and handing over. -/
namespace Sys2Proof.Machine

namespace State

def unit (s : State) (u : Nat) : Partner := tget {} s.hal.units u
def setUnit (s : State) (u : Nat) (p : Partner) : State :=
  { s with hal := { s.hal with units := tset s.hal.units u p } }
def setHal (s : State) (h : Halur) : State := { s with hal := h }
def setMir (s : State) (m : Mirror) : State := { s with mir := m }
def setMode (s : State) (m : ModeMgr) : State := { s with mode := m }

/-- Units on the link (3E00h:02h). -/
def units (s : State) : Nat := s.cfgU 0x3E00 2
/-- The other units of the link. -/
def others (s : State) : List Nat := (List.range s.units).filter (· != s.st.unitId)

/-! Precedence and roles (R435-R437). -/

/-- A priority and unit number come before others in precedence (R436). -/
def before (p1 u1 p2 u2 : Nat) : Bool := p1 < p2 || (p1 == p2 && u1 < u2)
/-- Another unit has precedence over this one. -/
def outranked (s : State) (u : Nat) : Bool := before (s.unit u).prio u (s.cfgU 0x3E00 1) s.st.unitId

/-- A unit is silent on both paths for 3 frames, or has sent its stop notice (R450). -/
def gone (s : State) (u : Nat) : Bool :=
  let p := s.unit u
  (3 ≤ p.silentH && 3 ≤ p.silentF) || p.stopped
/-- The other units that hold a role below the Lead's and are present. -/
def fellows (s : State) : List Nat := s.others.filter fun u =>
  ((s.unit u).role == 1 || (s.unit u).role == 2) && (s.unit u).heard.isSome && !s.gone u
/-- The unit heard as Lead. -/
def leadUnit (s : State) : Option Nat := s.others.find? fun u =>
  (s.unit u).role == 0 && (s.unit u).heard.isSome && !s.gone u

/-- Change of role with event 0F01h. -/
def setRole (s : State) (r : Nat) : State :=
  if s.st.role = r then s else
  let old := s.st.role
  let s := { s with st := { s.st with role := r } }
  s.note 0x0F01 [old, r, s.leadEpoch]

/-- Set the lead epoch in force; it is stored at each change (3E01h:01h). -/
def setEpoch (s : State) (e : Nat) : State :=
  if s.leadEpoch = e % 65536 then s
  else (s.putBoth 0x3E01 1 (.u (e % 65536))).storeKeys [okey 0x3E01 1]

/-- A unit takes no role while its number is not below the units configured, or another unit sends with it (R435). -/
def noNumber (s : State) : Bool := s.hal.conflict || s.units ≤ s.st.unitId

/-- Leave the role and rejoin under R456. -/
def leaveRole (s : State) : State :=
  let s := s.setRole 3
  s.setHal { s.hal with join := 0, waited := 0, joinTime := false, joinVals := [] }

/-- Role of a joined unit that is not Lead (R436). -/
def fellowRole (s : State) : Nat := if s.fellows.any s.outranked then 2 else 1

/-- Standby, outside a mode command: after every start and wake (R66), and on a unit that finds no Lead (R89). -/
def toStandby (s : State) : State :=
  let s := { s with mode := { s.mode with mode := 0, autoHead := false, axes := 0, cmds := [], held := false } }
  ((s.putU 0x2200 2 0).putU 0x2200 3 0).endBlend

/-- Take the Lead (R452); a unit that held no role does so in Standby (R89, R457): the new epoch, events 0F04h and 0107h, its own time sources (R341), SAFE and DIO lines. -/
def takeLead (s : State) (e last : Nat) : State :=
  let s := (if s.st.role = 3 then s.toStandby else s).setRole 0
  let s := (s.setEpoch e).incU 0x3E50 3
  let s := (s.note 0x0F04 [e % 65536, last]).note 0x0107 []
  let s := s.setHal { s.hal with claim := none, lostLead := none, yieldIn := none, join := 0 }
  let s := s.setMir { s.mir with fastIn := none, fullIn := none }
  (s.reselect).safeUpdate.driveDio

/-! What any valid frame tells (R435, R442, R449-R454). -/

/-- Withdraw a claim (R451). -/
def withdraw (s : State) (u : Nat) : State :=
  match s.hal.claim with
  | none => s
  | some _ => ((s.setHal { s.hal with claim := none, lostLead := none }).note 0x0F05 [u]).incU 0x3E50 4

/-- Two Leads (R454): the unit of lower precedence yields in the next frame; the other raises its epoch where the
other's is not older. -/
def twoLeads (s : State) (u e : Nat) : State :=
  let s := s.setHal { s.hal with twoLeads := some u }
  let s := s.alarm 0x0F0F u 1 [u, s.leadEpoch, e]
  if s.outranked u then s.setHal { s.hal with yielding := true }
  else if newerMod 65536 s.leadEpoch e then s
  else s.setMir { s.mir with bump := some ((e + 1) % 65536) }

/-- A partner other than `v` is silent on Halur for 3 frames, and seen on the field-network path (Table 17-4). -/
def linkSilent (s : State) (v : Option Nat) : Bool := s.others.any fun u =>
  some u != v && decide (3 ≤ (s.unit u).silentH) && (s.unit u).silentF == 0 && (s.unit u).role != 3

/-- The Halur link to a silent partner is restored (Table 17-4); in a triad the bit stays for another partner. -/
def linkRestored (s : State) (h : HHead) (digest : Option Nat) : State :=
  if !s.hal.degraded || !(3 ≤ (s.unit h.sender).silentH) then s else
  let s := if s.linkSilent (some h.sender) then s
    else ((s.setHal { s.hal with degraded := false }).note 0x0F07 []).lower 0x0F06 0
  match digest with
  | some d => if h.role = 0 ∧ s.st.role ≠ 0 ∧ s.st.role ≠ 3 ∧ d ≠ s.sharedDigest then s.leaveRole else s
  | none => s

/-- A valid frame from another unit: its role and epoch, what it means to a claim, a second Lead or a follower whose
epoch is behind. -/
def hear (s : State) (h : HHead) (digest : Option Nat) : State :=
  let s := s.linkRestored h digest
  let p := s.unit h.sender
  let direct := h.hop == 0 || (p.heard == some s.clk.frame && p.direct)
  let s := s.setUnit h.sender { p with
    heard := some s.clk.frame, direct := direct, role := h.role, epoch := h.epoch, silentH := 0,
    stopped := false,
    joined := if h.role = 1 ∨ h.role = 2 then true else if h.role = 3 then false else p.joined }
  let s := if h.role ≤ 2 then s.lower 0x0F02 h.sender else s
  let s := match s.hal.claim with
    | some (_, e) =>
      -- the old Lead is heard (R451), or an election has a Lead to hear after all (R457, log 111)
      if h.role = 0 ∧ ((h.epoch + 1) % 65536 = e ∧ s.hal.lostLead = some h.sender ∨ s.hal.lostLead = none) then
        s.withdraw h.sender
      else s
    | none => s
  if h.role = 0 then
    if s.st.role = 0 then s.twoLeads h.sender h.epoch
    else if newerMod 65536 h.epoch s.leadEpoch || s.st.role == 3 then s.setEpoch h.epoch else s
  else s

/-- First copy of a message (R438): a later copy of the same sequence is discarded. -/
def firstCopy (s : State) (h : HHead) (type : Nat) : Bool :=
  tfind s.mir.seen (h.sender * 16 + type) != some h.seq
/-- Keep the sequence. -/
def keepCopy (s : State) (h : HHead) (type : Nat) : State :=
  s.setMir { s.mir with seen := tset s.mir.seen (h.sender * 16 + type) h.seq }
/-- In a triad every frame received with hop count 0 goes out on the other port, whatever became of its content (R438). -/
def relay (s : State) (h : HHead) (type : Nat) : State :=
  if s.units = 3 ∧ h.hop = 0 then s.setMir { s.mir with relayed := s.mir.relayed ++ [h.sender * 16 + type] } else s

/-- Take in a frame: a sender with this unit's own number is a conflict (R435); a frame that is not valid is counted; a
later copy is discarded; `use` handles the rest. -/
def halurIn (s : State) (h : HHead) (type : Nat) (digest : Option Nat) (bad use : State → State) : State :=
  if s.units = 1 ∨ 3 < h.sender then s
  else if !h.valid then bad (s.incU 0x3E50 6)
  else if h.sender = s.st.unitId then
    if s.hal.conflict then s
    else ((s.setHal { s.hal with conflict := true }).alarm 0x0F0D 0 1 []).leaveRole
  else if !s.firstCopy h type then s.relay h type
  else use (((s.relay h type).keepCopy h type).hear h digest)

/-! Acceptance of the Lead's messages (R442). -/

/-- Condition of R442 that fails, in its order 1-5; 0 none. `late` the deadline in µs. -/
def notAccepted (s : State) (h : HHead) (late : Nat) : Nat :=
  if !h.valid then 1
  else if h.role ≠ 0 then 2
  else if h.epoch ≠ s.leadEpoch then 3
  else if h.frame ≠ s.clk.frame ∨ h.sample ≠ s.clk.sample then 4
  else if late < h.us then 5 else 0

/-- A message of type 1 or 2 is discarded: 3E50h:01h or 02h, event 0F08h on the first miss. -/
def discard (s : State) (type cond : Nat) : State :=
  let s := s.incU 0x3E50 type
  let missed := if type = 1 then s.hal.fastMiss else s.hal.fullMiss
  let s := if missed then s else s.note 0x0F08 [type, cond]
  s.setHal (if type = 1 then { s.hal with fastMiss := true } else { s.hal with fullMiss := true })

/-- A Shadow or Reserve. -/
def isFollower (s : State) : Bool := s.st.role == 1 || s.st.role == 2

/-- The last accepted command as 2201h:00h or 2203h:00h returns it (Table 3-7). -/
def lastCommand (s : State) (isMode : Bool) (word : Nat) : State :=
  s.putBoth (if isMode then 0x2201 else 0x2203) 0 (.u word)

/-- The fast message of the Lead is accepted: commands (R87), detections and removals (R253), the pending step (R340),
Panicle changes (R427); inner loops and power plant wait for the next frame (R203, R289). -/
def takeFast (s : State) (f : FastLead) : State :=
  let s := s.setHal { s.hal with fastMiss := false }
  let s := s.setMir { s.mir with fastIn := some (s.clk.frame, f) }
  let s := if f.seqSet then ((s.putU 0x2202 1 f.lastSeq).putU 0x2202 5 1).lastCommand f.lastIsMode f.lastWord else s
  let new := f.cmds.filter fun c => !s.mode.cmds.any fun d => d.word == c.word && d.isMode == c.isMode
  let s := { s with mode := { s.mode with cmds := s.mode.cmds ++ new, lastWord := f.lastWord, lastIsMode := f.lastIsMode } }
  let s := { s with ctl := { s.ctl with stook := { s.ctl.stook with leadDet := f.det, rem := f.rem } } }
  let s := { s with tb := { s.tb with step := f.step } }
  match f.pan with
  | none => s
  | some (v, i) =>
    let a := match s.pan.adopt with
      | some (v0, i0, full) => (v0 ++ v, i0 ++ i, full)
      | none => (v, i, false)
    s.setPan { s.pan with adopt := some a }

/-- Adopt the Lead's inner loops and power-plant states at the start of the next frame (R203, R289). -/
def adoptFast (s : State) : State :=
  match s.mir.fastIn with
  | none => s
  | some (f, m) =>
    if !(s.isFollower && f + 1 == s.clk.frame) then s else
    let s := foldS s m.inner fun s p => s.setInner p.1 { s.inner p.1 with core := p.2 }
    s.setPlant { s.ctl.plant with core := m.plant, lambda := m.lambda }

/-! Time over the link (R448). -/

/-- Form the stamps t1, t2, t3 of a frame once they are all held. -/
def formWait (s : State) (lead : Nat) : State :=
  match s.mir.leadTx, tfind s.mir.rx lead, s.mir.tx with
  | some (f1, t1), some (f2, t2), some (f3, t3) =>
    if f1 = f2 ∧ f2 = f3 then s.setMir { s.mir with wait := some (f1, t1, t2, t3) } else s
  | _, _, _ => s

/-- The Lead's heartbeat received direct brings t4 of the frame before. -/
def timeBlock (s : State) (h : HHead) (b : Beat) : State :=
  if h.hop ≠ 0 then s else
  let s := if h.role = 0 then s.formWait h.sender else s
  let s := match tfind b.rx s.st.unitId, s.mir.wait with
    | some (f, t4), some (fw, t1, t2, t3) =>
      if h.role = 0 ∧ f = fw then
        let s := s.setHal { s.hal with thetas := s.hal.thetas ++ [(((t2 - t1) - (t4 - t3) : Int) : Rat) / 2] }
        s.setMir { s.mir with wait := none }
      else s
    | _, _ => s
  let s := s.setMir { s.mir with rx := tset s.mir.rx h.sender (h.frame, h.rx) }
  if h.role = 0 then s.setMir { s.mir with leadTx := some (h.frame, b.tx) } else s

/-! Joining (R30, R456). -/

/-- A unit without a role hears the Lead: its sample length, the frame numbers of the Lead once time is set. -/
def joinHears (s : State) (h : HHead) (b : Beat) : State :=
  if s.st.role ≠ 3 ∨ s.noNumber = true then s else
  let s := s.setHal { s.hal with waited := 0 }
  if b.n ≠ s.clk.n ∧ b.n ≠ 0 then
    if s.st.ordered.isSome then s else
    let s := (s.putBoth 0x2030 1 (.u b.n)).storeKeys [okey 0x2030 1]
    { s.note 0x000F [s.clk.n, b.n] with st := { s.st with ordered := some 1 } }
  else if 3 ≤ s.hal.join ∧ h.frame ≠ s.clk.frame then s.shiftFrames ((h.frame : Int) - (s.clk.frame : Int))
  else s

/-- The heartbeat of any unit. -/
def takeBeat (s : State) (h : HHead) (b : Beat) : State :=
  let p := s.unit h.sender
  let s := s.setUnit h.sender { p with
    prio := b.prio, nvEpoch := b.nvEpoch, digest := b.digest, n := b.n, status := b.status, seen := b.seen, gran := b.gran }
  let s := s.timeBlock h b
  if h.role = 0 then s.joinHears h b else s

/-- A fast message (types 01h). -/
def fastFrame (s : State) (h : HHead) (b : Beat) (m : Option FastLead) : State :=
  let expected := s.isFollower && (s.unit h.sender).role == 0
  s.halurIn h 1 (some b.digest) (fun s => if expected then s.discard 1 1 else s) fun s =>
    let s := (s.takeBeat h b).probe 8 h.sender h.us
    match m with
    | none => s
    | some f =>
      if !s.isFollower ∨ h.role ≠ 0 then s else
      let c := s.notAccepted h 450
      if c ≠ 0 then s.discard 1 c else s.takeFast f

/-- The Report of an accepted full message is held with the frame of its f(N-1) (R50). -/
def holdReport (s : State) (h : HHead) (r : Report) : State :=
  s.setUnit h.sender { s.unit h.sender with report := r.objs, reportRes := r.res, reportAt := h.frame, mirrorDeg := r.mirrorDeg }

/-- A full mirror is accepted: no miss since, and the mirror is no longer degraded (R442, R443). -/
def mirrorHeld (s : State) : State :=
  let s := if s.hal.mirrorDeg then s.lower 0x0F09 0 else s
  s.setHal { s.hal with fullMiss := false, missed := 0, mirrorDeg := false }

/-- A full message: the Report of a Shadow or Reserve is held whenever it is valid (R50); the Lead's message is accepted
under R442, also by a unit that joins and has it with the Panicle state (R456 item 5). -/
def fullFrame (s : State) (h : HHead) (m : Option FullLead) (r : Report) : State :=
  let expected := s.isFollower && (s.unit h.sender).role == 0
  s.halurIn h 2 none (fun s => if expected then s.discard 2 1 else s) fun s =>
    match m with
    | none => if h.role = 1 ∨ h.role = 2 then s.holdReport h r else s
    | some f =>
      if h.role ≠ 0 then s.holdReport h r
      else if s.isFollower then
        let c := s.notAccepted h 1200
        if c ≠ 0 then s.discard 2 c
        else ((s.holdReport h r).mirrorHeld).setMir { s.mir with fullIn := some (s.clk.frame, f) }
      else if s.st.role = 3 ∧ 3 ≤ s.hal.join ∧ h.frame = s.clk.frame then
        -- the sample in progress is the Lead's (log 50)
        let s := { s.holdReport h r with clk := { s.clk with sample := h.sample, f0 := h.frame + 1 - s.clk.n } }
        match f.pan with
        | some _ =>
          let s := s.mirrorHeld
          (s.setHal { s.hal with join := 5 }).setMir { s.mir with fullIn := some (s.clk.frame, f) }
        | none => s
      else s

/-! The mirror at f0 (R41, R86, R178, R187, R232, R253, R272, R443, R447). -/

/-- Entries of a set body (R64): key, type and value. -/
def setEntries : Nat → List Byte → List (Nat × Nat × List Byte)
  | 0, _ => []
  | k + 1, b =>
    if b.length < 6 then [] else
    let n := leAt b 4 2
    let e := (okey (leAt b 0 2) (leAt b 2 1), leAt b 3 1, slice b 6 n)
    let size := (6 + n + 3) / 4 * 4
    e :: setEntries k (b.drop size)

/-- Value of an entry for the object it names. -/
def entryVal (key : Nat) (b : List Byte) : Val :=
  match findRow (key / 256) (key % 256) with
  | some r => decodeVal r.ty b
  | none => .d b

/-- Completed DOMAIN writes whose commit has come join the writes of this f0; reads return them from now on (R41). -/
def commitBulk (s : State) (keys : List Nat) : State :=
  foldS s keys fun s k =>
    match tfind s.acc.bulkHeld k with
    | none => s
    | some b =>
      { s with
        obj := putV s.obj k (.d b),
        acc := { s.acc with
          bulkHeld := tdel s.acc.bulkHeld k, fresh := s.acc.fresh ++ [⟨k, .d b, s.clk.frame⟩] } }

/-- The blocks of an accepted full mirror beside the mode manager: observer, Culm, Tiller, Stubble, case set, the writes
and commits, the Panicle state. -/
def adoptBlocks (s : State) (m : FullLead) : State :=
  let lead := s.leadUnit.getD 0
  let s := s.adoptObserver lead m.obs m.obsHeld
  let s := { s with ctl := { s.ctl with culm := { s.ctl.culm with core := m.culm } } }
  let s := s.adoptControl m.till m.stub
  let s := { s with ctl := { s.ctl with stook := { s.ctl.stook with set := m.cases, setOwn := false, lead := m.cases } } }
  let s := (s.putU 0x2202 1 m.lastSeq).putU 0x2202 5 (b2n m.seqSet)
  let s := if m.seqSet then s.lastCommand m.mode.lastIsMode m.mode.lastWord else s
  let s := s.putU 0x2200 2 s.mode.mode
  let s := foldS s [1, 2, 3, 4] fun s k => s.putBoth 0x2224 k (nth (.u 0) m.targets (k - 1))
  let ws := m.writes.map fun (p : Pend) => { p with due := s.clk.frame }
  let keep := s.acc.fresh.filter fun (p : Pend) => !ws.any fun (q : Pend) => q.key == p.key
  let s := { s with acc := { s.acc with fresh := keep ++ ws },
                    obj := ws.foldl (fun o (p : Pend) => putV o p.key p.val) s.obj }
  let s := s.commitBulk m.commits
  let s := match m.pan with
    | some (v, i) => s.setPan { s.pan with adopt := some (v, i, true) }
    | none => s
  s.setMir { s.mir with fullIn := none }

/-- Apply the accepted full mirror of f(N-1), if there is one. -/
def adoptFull (s : State) : State :=
  match s.mir.fullIn with
  | some (f, m) =>
    if f + 1 ≠ s.clk.frame then s.setMir { s.mir with fullIn := none }
    else (s.setMode { m.mode with cmds := m.mode.cmds.map fun (c : Cmd) => { c with sent := true } }).adoptBlocks m
  | none => if s.isFollower then s.setHal { s.hal with missed := s.hal.missed + 1 } else s

/-- Apply the pair-shared values that the Lead sent in the join (R456 item 3), and ask for the Panicle state. -/
def joinApply (s : State) : State :=
  if s.st.role ≠ 3 ∨ s.hal.join ≠ 2 ∨ s.hal.joinTime then s else
  let s := foldS s s.hal.joinVals fun s p => s.putBoth (p.1 / 256) (p.1 % 256) p.2
  s.setHal { s.hal with join := 3, panReq := true, joinVals := [] }

/-- The number of a unit against the units now in force (R435): F1 and 0F0Dh under instance 1 while it is not below them. -/
def numberBoundary (s : State) : State :=
  if s.units ≤ s.st.unitId then
    if s.faultIs 0x0F0D 1 then s else (((s.alarm 0x0F0D 1 1 []).leaveRole).safeUpdate).driveDio
  else s.lower 0x0F0D 1

/-- Roles at f0: a yield takes effect (R458), the join ends (R456 item 6), Shadow and Reserve follow precedence
(R436). -/
def roleBoundary (s : State) : State :=
  let e := s.leadEpoch
  let s := match s.hal.yieldIn with
    | some (u, f) =>
      if f ≤ s.clk.frame then
        let s := s.setHal { s.hal with yieldIn := none }
        if u = s.st.unitId ∧ s.st.role ≠ 0 ∧ s.st.role ≠ 3 then s.takeLead (e + 1) (s.clk.frame - 1) else s
      else s
    | none => s
  let s := match s.hal.yield with
    | some (u, f) =>
      if f < s.clk.frame ∧ s.st.role = 0 then
        let s := (s.setHal { s.hal with yield := none }).note 0x0F10 [u]
        let p := s.unit u
        let s := s.setUnit u { p with role := 0 }
        (s.setRole s.fellowRole).safeUpdate.driveDio
      else s
    | none => s
  let s := if s.st.role = 3 ∧ s.hal.join = 5 then
      let r := s.fellowRole
      let s := (s.setHal { s.hal with join := 6 }).note 0x0F0B [r]
      s.setRole r
    else s
  if s.isFollower then s.setRole s.fellowRole else s

/-- Count the samples in which a partner's digest differs (R42); an equal one lowers the fault. -/
def countDigests (s : State) : State :=
  let d := s.sharedDigest
  foldS s (s.others.filter fun u => (s.unit u).heard.isSome && (s.unit u).role != 3 && s.st.role != 3 &&
      (s.st.role == 0 || (s.unit u).role == 0)) fun s u =>
    if (s.unit u).digest = d then
      { s.lower 0x0003 u with acc := { s.acc with mismatch := tdel s.acc.mismatch u } }
    else { s with acc := { s.acc with mismatch := tmod 0 s.acc.mismatch u (· + 1) } }

/-! Large writes (R447). -/

/-- The transfer at the head of the queue is complete: the write is accepted, its response sent, its commit set up. Key 0
is the set of pair-shared values of a join. -/
def bulkDone (s : State) (b : Bulk) : State :=
  let s := { s with acc := { s.acc with bulk := s.acc.bulk.drop 1 } }
  if b.key = 0 then s else
  match findRow (b.key / 256) (b.key % 256) with
  | none => s
  | some r =>
    let s := (s.acceptVal r (b.key / 256) (b.key % 256) (.d b.val)).respond b.path 0
    let s := s.setMir { s.mir with commits := s.mir.commits ++ [(b.key, s.sharedDue)] }
    if b.key = okey 0x3C01 0 then s.note 0x0E01 [((parseSet "KPAN" b.val).map (·.version)).getD 0] else s

/-- Fragments of a transfer that go out in frame `f`, at most 256 KiB: those that some partner has not acknowledged and that
are new, or were sent before the frame whose acknowledgement may still come (Table 17-2, log 85). -/
def fragsDue (f : Nat) (b : Bulk) : List Nat :=
  ((List.range (fragCount b.val.length)).filter fun k => (b.open'.any fun p => p.2.contains k) &&
    match tfind b.sent k with
    | some g => decide (g + 2 ≤ f)
    | none => true).take 32

/-- The Lead sends its transfer at the head of the queue from the frame after its receipt, in f0 to f(N-2) (Table 17-2, R447);
fragments that go out again are counted. -/
def sendBulk (s : State) : State :=
  match s.acc.bulk with
  | b :: rest =>
    if s.st.role ≠ 0 ∨ s.clk.n ≤ s.fOff + 1 ∨ s.clk.frame ≤ b.from' then s else
    let due := fragsDue s.clk.frame b
    let again := due.filter fun k => (tfind b.sent k).isSome
    let b' := { b with
      start := some (b.start.getD s.clk.frame), sent := due.foldl (fun l k => tset l k s.clk.frame) b.sent }
    let s : State := { s with acc := { s.acc with bulk := b' :: rest } }
    let s := if due.isEmpty then s else s.setMir { s.mir with
      out := s.mir.out ++ [.bulk b.key b.val.length (due.map fun k => (k, slice b.val (k * 8192) 8192))] }
    s.addU 0x3E50 5 again.length
  | [] => s

/-- Partners that are no longer joined owe no acknowledgement; a write that waits for none other is accepted (R447). -/
def prune (s : State) : State :=
  let s : State := { s with acc := { s.acc with bulk := s.acc.bulk.map fun (b : Bulk) =>
    if b.key = 0 then b else { b with open' := b.open'.filter fun p => s.joined.contains p.1 } } }
  foldS s s.acc.bulk fun s _ => match s.acc.bulk with
    | b :: _ => if b.key ≠ 0 ∧ (b.open'.all fun p => p.2.isEmpty) = true then s.bulkDone b else s
    | [] => s

/-! Frame work: silence, losses, results (R449, R453, Table 17-7). -/

/-- The unit whose number is `u` as 3E40h shows it at the end of frame f. -/
def partnerWord (s : State) (f u : Nat) : Nat :=
  let p := s.unit u
  p.epoch * 65536 + p.prio * 256 + p.role * 64 + bitAt (p.heard == some f) 5 + bitAt (p.field == some f) 4 +
    bitAt p.stopped 3

def linkWord (s : State) (f : Nat) : Nat :=
  let relay := s.others.any fun u => (s.unit u).heard == some f && !(s.unit u).direct
  bitAt s.hal.degraded 13 + bitAt s.hal.mirrorDeg 12 + bitAt s.hal.fieldPath 11 + bitAt s.hal.claim.isSome 10 +
    bitAt s.hal.twoLeads.isSome 9 + bitAt s.noNumber 8 + bitAt relay 7 + bitAt s.hal.h1 6 + bitAt s.hal.h0 5 +
    s.st.role * 8 + s.st.unitId

/-- Publish 3E40h for the frame `f` that has ended. -/
def publishLink (s : State) (f : Nat) : State :=
  let since := fun u => match (s.unit u).heard with
    | some h => min (f - h) 0xFFFF
    | none => 0xFFFF
  s.publish 0x3E40 ([.u (s.linkWord f)] ++ (List.range 4).map (fun u => .u (s.partnerWord f u)) ++
    (List.range 4).map (fun u => .u (since u)))

/-- Frames of silence of every other unit, counted at the end of frame `f`; a unit never heard is not counted. -/
def countSilence (s : State) (f : Nat) : State :=
  foldS s s.others fun s u =>
    let p := s.unit u
    if p.heard.isNone && p.field.isNone then s else
    s.setUnit u { p with
      silentH := if p.heard = some f then 0 else p.silentH + 1, silentF := if p.field = some f then 0 else p.silentF + 1 }

/-- The Lead finds a Shadow or Reserve lost (Table 17-4). -/
def partnerLosses (s : State) : State :=
  if s.st.role ≠ 0 then s else
  foldS s (s.others.filter fun u => (s.unit u).joined && s.gone u) fun s u =>
    let p := s.unit u
    let s := s.alarm 0x0F02 u 1 [u, p.role, if p.stopped then 2 else 1]
    s.setUnit u { p with joined := false, role := 3 }

/-- A follower that hears the Lead on Halur and not on the field-network path for 3 frames (Table 17-4). -/
def fieldWatch (s : State) : State :=
  let lost := s.isFollower && match s.leadUnit with
    | some u => decide (3 ≤ (s.unit u).silentF) && (s.unit u).silentH == 0
    | none => false
  let s := if lost && !s.hal.fieldPath then s.alarm 0x0F0A 0 1 []
    else if !lost && s.hal.fieldPath then s.lower 0x0F0A 0 else s
  s.setHal { s.hal with fieldPath := lost }

/-- A Lead of lower precedence yields in the frame after it heard the other (R454, R88). -/
def yieldNow (s : State) : State :=
  if !s.hal.yielding then s else
  let s := foldS s s.mode.cmds fun s _ => s.note 0x0109 []
  let s := { s with mode := { s.mode with cmds := [] } }
  let s := s.setHal { s.hal with yielding := false }
  (s.setMir { s.mir with out := s.mir.out ++ [.yield 0xFF] }).leaveRole

/-- Messages of the frame that begins (Table 17-2): a join request in every sixteenth frame of a unit without a role (log
51), the acknowledgement of what the last frame brought, a Panicle request. -/
def queueOut (s : State) : State :=
  let join := if s.st.role = 3 ∧ s.noNumber = false ∧ s.clk.frame % 16 = 0 then [HMsg.join (s.cfgU 0x3E00 1) s.leadEpoch] else []
  let ack := match s.mir.ack with
    | some (k, l) => [HMsg.ack k l]
    | none => []
  let pan := if s.hal.panReq then [HMsg.panicle] else []
  (s.setMir { s.mir with out := join ++ ack ++ pan, ack := none }).setHal { s.hal with panReq := false }

/-- Halur's work at a frame boundary: frame `f` has ended. -/
def halurFrame (s : State) (f : Nat) : State :=
  if s.units = 1 then
    (s.publishLink f).setHal { s.hal with waited := if s.st.role = 3 then s.hal.waited + 1 else 0 }
  else
  let s := s.countSilence f
  let s := s.publishLink f
  let s := if s.hal.twoLeads.isNone then foldS s s.others fun s u => s.lower 0x0F0F u
    else s.setHal { s.hal with twoLeads := none }
  let s := (s.setMir { s.mir with relayed := [] }).queueOut.yieldNow
  let s := match s.mir.bump with
    | some e => (s.setMir { s.mir with bump := none }).setEpoch e
    | none => s
  let s := s.partnerLosses.fieldWatch.prune
  let s := s.adoptFast
  s.setHal { s.hal with waited := if s.st.role = 3 && s.leadUnit.isNone then s.hal.waited + 1 else 0 }

/-! Sending (Tables 17-2, 17-3). -/

/-- The heartbeat of this unit, sent at device time t; the egress latency is removed from t (R448). -/
def beat (s : State) (t : Int) : Beat :=
  let seen := s.others.filter fun u => (s.unit u).field == some s.clk.frame || (s.unit u).field == some (s.clk.frame - 1)
  { status := s.objU 0x2200 1, prio := s.cfgU 0x3E00 1, nvEpoch := s.leadEpoch, seen := ofBits seen, tx := t,
    rx := s.mir.rx, gran := (s.gran.next + 2 ^ 32 - 1) % 2 ^ 32, digest := s.sharedDigest, n := s.clk.n }

/-- Variables and states that changed at the last output phase (R427). -/
def panChanges (s : State) : List (Nat × Val) × List (Nat × PSt) :=
  let v := (List.range s.pan.vals.length).filter fun k => nth (.u 0) s.pan.vals k != nth (.u 0) s.pan.prevVals k
  let i := (List.range s.pan.sts.length).filter fun k => nth {} s.pan.sts k != nth {} s.pan.prevSts k
  (v.map fun k => (k, nth (.u 0) s.pan.vals k), i.map fun k => (k, nth {} s.pan.sts k))
/-- Every variable value and instance state. -/
def panAll (s : State) : List (Nat × Val) × List (Nat × PSt) :=
  ((List.range s.pan.vals.length).map fun k => (k, nth (.u 0) s.pan.vals k),
   (List.range s.pan.sts.length).map fun k => (k, nth {} s.pan.sts k))

/-- Blocks 02h to 07h. -/
def fastLead (s : State) : FastLead :=
  { inner := s.thrusters.map fun j => (j, (s.inner j).core), lastWord := s.mode.lastWord, lastIsMode := s.mode.lastIsMode, lastSeq := s.objU 0x2202 1,
    seqSet := bit (s.objU 0x2202 5) 0, cmds := s.mode.cmds.filter fun c => !c.sent, det := s.ctl.stook.det,
    rem := s.ctl.stook.rem, plant := s.ctl.plant.core, lambda := s.ctl.plant.lambda, step := s.tb.step,
    pan := if s.scans && s.scanBoundary then some s.panChanges else none }

/-- The fast message is sent (R441); bulk transfers waiting for their turn start in it (R447). -/
def sendFast (s : State) (t : Int) : State :=
  let s := match s.leadUnit with
    | some u => s.formWait u
    | none => s
  let s := s.setMir { s.mir with
    fastOut := some (s.beat t, if s.st.role = 0 then some s.fastLead else none), tx := some (s.clk.frame, t) }
  let s := s.setHal { s.hal with fastSent := some s.clk.frame, seq := tmod 0 s.hal.seq 1 fun n => (n + 1) % 65536 }
  s.sendBulk

/-- Indices of the Report (Table 17-3 block 18h). -/
def reportObjs : List Nat := [0x1018, 0x2011, 0x2200, 0x2202]
def reportResults : List Nat := [0x2230, 0x2A40, 0x2A41, 0x2A42, 0x2A43, 0x2C40, 0x2E41, 0x3040, 0x3041, 0x3212,
  0x3440, 0x3840, 0x3E40]

/-- Pair-shared keys. -/
def sharedKey (k : Nat) : Bool :=
  match findRow (k / 256) (k % 256) with
  | some r => !r.loc
  | none => false

/-- Blocks 10h to 17h. -/
def fullLead (s : State) : FullLead :=
  { mode := s.mode, targets := [1, 2, 3, 4].map fun k => s.cfgV 0x2224 k, lastSeq := s.objU 0x2202 1, seqSet := bit (s.objU 0x2202 5) 0, obs := s.obs.core, obsHeld := s.obs.missed,
    culm := s.ctl.culm.core, till := s.ctl.till.core, cases := s.ctl.stook.set, stub := s.ctl.stub.core,
    writes := s.acc.fresh.filter fun p => (sharedKey p.key || p.key / 256 == 0x1010) && p.due == s.nextF0 && match p.val with
      | .d _ => false
      | _ => true,
    commits := (s.mir.commits.filter fun p => p.2 == s.nextF0).map (·.1), pan := if s.pan.asked then some s.panAll else none }

/-- The full message is sent in f(N-1) (R441); a yield that is due goes with it (R458). -/
def sendFull (s : State) : State :=
  let lead := s.st.role == 0
  let rep : Report := {
    objs := putV (s.obj.filter fun p => reportObjs.contains (p.1 / 256)) (okey 0x2011 5) (.u s.sharedDigest),
    res := (s.res.filter fun p => reportResults.contains p.1).map fun p => (p.1, p.2.front), mirrorDeg := s.hal.mirrorDeg }
  let s := s.setMir { s.mir with fullOut := some (if lead then some s.fullLead else none, rep) }
  let s := s.setHal { s.hal with fullSent := some s.clk.frame, seq := tmod 0 s.hal.seq 2 fun n => (n + 1) % 65536 }
  if !lead then s else
  let s := s.setMir { s.mir with commits := s.mir.commits.filter fun p => p.2 != s.nextF0, out := s.mir.out ++ match s.hal.yield with
    | some (u, f) => if f = s.clk.frame then [.yield u] else []
    | none => [] }
  let s := { s with mode := { s.mode with cmds := s.mode.cmds.map fun (c : Cmd) => { c with sent := true } } }
  s.setPan { s.pan with asked := false }

/-! Receipt of large writes (R447). -/

/-- An acknowledgement of unit u: what it has received is no longer open; the rest goes out again (`sendBulk`). -/
def bulkAck (s : State) (u key : Nat) (frags : List Nat) : State :=
  match s.acc.bulk with
  | b :: rest =>
    if b.key ≠ key ∨ b.start.isNone then s else
    let open' := b.open'.map fun p => if p.1 = u then (p.1, p.2.filter fun k => !frags.contains k) else p
    let b' := { b with open' := open' }
    if open'.all fun p => p.2.isEmpty then s.bulkDone b'
    else { s with acc := { s.acc with bulk := b' :: rest } }
  | [] => s

/-- A fragment of a transfer is received (type 07h). -/
def bulkFrag (s : State) (key length k : Nat) (data : List Byte) : State :=
  let cur : BulkIn := match s.acc.bulkIn with
    | some x => if x.key = key ∧ x.length = length then x else ⟨key, length, []⟩
    | none => ⟨key, length, []⟩
  let cur : BulkIn := { cur with frags := tset cur.frags k data }
  let s := { s with acc := { s.acc with bulkIn := some cur } }
  let s := s.setMir { s.mir with ack := some (key, cur.frags.map (·.1)) }
  let whole : Bool := (List.range (fragCount length)).all fun i => (tfind cur.frags i).isSome
  if whole ∧ key = 0 ∧ s.st.role = 3 ∧ s.hal.join < 2 then
    let body := (cur.frags.map (·.2)).flatten
    let vals := (setEntries body.length body).map fun e => (e.1, entryVal e.1 e.2.2)
    ({ s with acc := { s.acc with bulkIn := none } }).setHal { s.hal with joinVals := vals, join := 2, joinTime := true }
  else if whole ∧ key ≠ 0 then
    { s with acc := { s.acc with bulkHeld := tset s.acc.bulkHeld key (cur.frags.map (·.2)).flatten } }
  else s

/-- A join request reaches the Lead: the pair-shared values go out in Bulk frames (R456 item 1). -/
def joinRequest (s : State) (u : Nat) : State :=
  if s.st.role ≠ 0 ∨ s.acc.bulk.any (fun b => b.key == 0 && b.open'.any fun p => p.1 == u) then s else
  let b := s.sharedBody
  { s with acc := { s.acc with bulk := s.acc.bulk ++ [⟨0, b, .recvMap, none, [(u, List.range (fragCount b.length))], s.clk.frame, []⟩] } }

/-- What a unit sends in the frame in progress beside its fast and full messages (Table 17-2): its stop notice under F3, its
claim in the window of R451, else what its rules have put out. -/
def linkOut (s : State) : List HMsg :=
  if s.units = 1 then [] else
  if s.st.power = .stopped then (if s.st.notice = 0 then [] else [.stop s.st.noticeCode]) else
  let claim := match s.hal.claim with
    | some (fd, e) => if fd < s.clk.frame ∧ s.clk.frame ≤ fd + 4 then [HMsg.claim e (s.cfgU 0x3E00 1)] else []
    | none => []
  claim ++ s.mir.out

/-! Size of the full mirror (R445). -/

/-- Largest full mirror of the configuration in the client's view: the case set (R444) and the rest, whose layout the spec
does not give (log 51). -/
def largestMirror (s : State) : Nat :=
  let n := ((List.range 32).filter fun j => s.objU (0x2E80 + j) 1 != 0).length
  let hc := s.objU 0x3000 2
  128 * (8 + 8 * n * (hc + 1)) + Config.mirrorRest n (s.objD 0x3C01 0).length

end State

/-! Commands. -/

/-- FAST_MIRROR_SEND (R441): 60 µs into each frame every unit with a number sends its fast message; `t` its egress
stamp. -/
def execFastMirrorSend (t : Int) (s : State) : Out :=
  if s.up && s.units != 1 && !s.hal.conflict && decide (s.st.unitId < s.units) && s.mode.mode != 7 &&
      s.hal.fastSent != some s.clk.frame then .next (s.sendFast t)
  else .next s

/-- FULL_MIRROR_SEND (R27, R441): in f(N-1) every joined unit sends its full message. -/
def execFullMirrorSend (s : State) : Out :=
  if s.up && s.units != 1 && s.st.role != 3 && s.fOff + 1 == s.clk.n && s.hal.fullSent != some s.clk.frame then
    .next s.sendFull
  else .next s

/-- SHARED_VALUE_DIGEST_MISMATCH (R42): the digests of Lead and partner have differed for 8 samples. -/
def execSharedValueDigestMismatch (u : Nat) (s : State) : Out :=
  if s.up && decide (8 ≤ tget 0 s.acc.mismatch u) && !s.faultIs 0x0003 u then
    .next (s.alarm 0x0003 u 1 (if s.st.role = 0 then [u, s.sharedDigest, s.sharedDigest]
      else [u, s.sharedDigest, (s.unit u).digest]))
  else .next s

/-- HALUR_FAST_FRAME (R442). -/
def execHalurFastFrame (h : HHead) (b : Beat) (m : Option FastLead) (s : State) : Out :=
  .next (if s.up then s.fastFrame h b m else s)

/-- HALUR_FULL_FRAME (R442). -/
def execHalurFullFrame (h : HHead) (m : Option FullLead) (r : Report) (s : State) : Out :=
  .next (if s.up then s.fullFrame h m r else s)

/-- The declaration of R450 is due on this unit: the Lead it follows is gone; a Reserve also needs the Shadow gone. -/
def State.lossDue (s : State) : Option Nat :=
  if s.hal.claim.isSome then none else
  match s.others.find? fun u => (s.unit u).role == 0 && (s.unit u).heard.isSome && s.gone u with
  | none => none
  | some u =>
    if s.st.role = 1 then some u
    else if s.st.role = 2 ∧ (s.others.all fun v => v == u || s.gone v) then some u
    else none

/-- LEAD_LOSS_DECLARATION (R450, R451): at the end of the third silent frame, or of a frame with a stop notice; that frame
fd is the one before the frame in progress, in which the first claim goes. -/
def execLeadLossDeclaration (s : State) : Out :=
  match s.lossDue with
  | some u =>
    if !s.up then .next s else
    let e := (s.leadEpoch + 1) % 65536
    let s := s.alarm 0x0F02 u 1 [u, 0, if (s.unit u).stopped then 2 else 1]
    .next ((s.setHal { s.hal with claim := some (s.clk.frame - 1, e), lostLead := some u }).note 0x0F03 [e])
  | none => .next s

/-- CLAIM (R451): a claim of a unit of higher precedence makes this unit withdraw its own. -/
def execClaim (h : HHead) (_epoch prio : Nat) (s : State) : Out :=
  if !s.up then .next s else
  .next (s.halurIn h 3 none id fun s =>
    let p := s.unit h.sender
    let s := s.setUnit h.sender { p with prio := prio }
    if s.hal.claim.isSome && s.outranked h.sender then s.withdraw h.sender else s)

/-- TAKE_LEAD (R452): the claim stands at the start of fd + 5. -/
def execTakeLead (s : State) : Out :=
  match s.hal.claim with
  | some (fd, e) =>
    if s.up && decide (fd + 5 ≤ s.clk.frame) then
      let last := match s.hal.lostLead with
        | some u => ((s.unit u).heard.getD 0)
        | none => 0
      .next (s.takeLead e last)
    else .next s
  | none => .next s

/-- YIELD (R454, R458): a yield names the unit that takes the Lead at the next f0, FFh none. -/
def execYield (h : HHead) (target : Nat) (s : State) : Out :=
  if !s.up then .next s else
  .next (s.halurIn h 4 none id fun s =>
    if target = 0xFF then
      let p := s.unit h.sender
      s.setUnit h.sender { p with role := 3 }
    else s.setHal { s.hal with yieldIn := some (target, s.nextF0) })

/-- STOP_NOTICE (Table 17-2): the sender stops under F3. -/
def execStopNotice (h : HHead) (_code : Nat) (s : State) : Out :=
  if !s.up then .next s else
  -- the notice leaves the role last heard, which says whether the Lead is lost
  let p := s.unit h.sender
  .next (s.halurIn { h with role := p.role, epoch := p.epoch } 5 none id fun s =>
    s.setUnit h.sender { s.unit h.sender with stopped := true })

/-- JOIN_REQUEST (R456). -/
def execJoinRequest (h : HHead) (prio nvEpoch : Nat) (s : State) : Out :=
  if !s.up then .next s else
  .next (s.halurIn h 6 none id fun s =>
    let p := s.unit h.sender
    (s.setUnit h.sender { p with prio := prio, nvEpoch := nvEpoch }).joinRequest h.sender)

/-- ELECTION (R437, R457): no Lead has been heard for the join wait; a unit that works alone takes the Lead, else the
unit of highest precedence among those without a role claims. -/
def execElection (s : State) : Out :=
  if !(s.up && s.st.role == 3 && !s.hal.conflict && decide (s.st.unitId < s.units) && s.hal.claim.isNone &&
      decide (s.cfgU 0x3E00 3 ≤ s.hal.waited)) then .next s
  else if s.units = 1 then .next (s.takeLead (s.leadEpoch + 1) 0)
  else
    let heard := s.others.filter fun u => (s.unit u).role == 3 && (s.unit u).heard.isSome && !s.gone u
    if heard.any s.outranked then .next s
    else
      let e := (maxNat (s.leadEpoch :: heard.map fun u => (s.unit u).nvEpoch) + 1) % 65536
      .next ((s.setHal { s.hal with claim := some (s.clk.frame - 1, e) }).note 0x0F03 [e])

/-- BULK_FRAME (R447): a fragment of the object `key` (0: the pair-shared values of a join), with the length of the
whole. -/
def execBulkFrame (h : HHead) (key length k : Nat) (data : List Byte) (s : State) : Out :=
  if !s.up then .next s else
  .next (s.halurIn { h with seq := h.seq * 65536 + k } 7 none id fun s =>
    if s.st.role = 0 ∨ h.role ≠ 0 then s else s.bulkFrag key length k data)

/-- BULK_ACKNOWLEDGEMENT (R447): fragments that the sender has received. -/
def execBulkAcknowledgement (h : HHead) (key : Nat) (frags : List Nat) (s : State) : Out :=
  if !s.up then .next s else
  .next (s.halurIn h 8 none id fun s => if s.st.role = 0 then s.bulkAck h.sender key frags else s)

/-- BULK_TRANSFER_TIMEOUT (R447): 64 frames from its start; the write changes nothing on any unit. -/
def execBulkTransferTimeout (s : State) : Out :=
  match s.acc.bulk with
  | b :: rest =>
    match b.start with
    | some f =>
      if s.up && decide (f + 64 ≤ s.clk.frame) then
        let s := { s with acc := { s.acc with bulk := rest } }
        .next (if b.key = 0 then s else s.respond b.path abStore)
      else .next s
    | none => .next s
  | [] => .next s

/-- PANICLE_REQUEST (R427): the Lead sends its complete Panicle state in its next full mirror. -/
def execPanicleRequest (h : HHead) (s : State) : Out :=
  if !s.up then .next s else
  .next (s.halurIn h 9 none id fun s => if s.st.role = 0 then s.setPan { s.pan with asked := true } else s)

/-- HALUR_PORT_CHANGE (R439): block lock has held for 1 ms, or has failed for 10 µs. -/
def execHalurPortChange (port : Nat) (isUp : Bool) (s : State) : Out :=
  let now := if port = 0 then s.hal.h0 else s.hal.h1
  if !s.up || decide (1 < port) || now == isUp then .next s else
  let s := s.setHal (if port = 0 then { s.hal with h0 := isUp } else { s.hal with h1 := isUp })
  .next (s.note 0x0F0E [port, b2n isUp])

/-- MIRROR_DEGRADED (R443): no full mirror accepted for 3E00h:05h samples. -/
def execMirrorDegraded (s : State) : Out :=
  if s.up && s.isFollower && !s.hal.mirrorDeg && decide (s.cfgU 0x3E00 5 ≤ s.hal.missed) then
    .next ((s.setHal { s.hal with mirrorDeg := true }).alarm 0x0F09 0 1 [])
  else .next s

/-- HALUR_DEGRADED (Table 17-4): a partner silent on Halur for 3 frames and seen on the field-network path; a follower
takes time from its own entries (R340). -/
def execHalurDegraded (s : State) : Out :=
  if s.up && s.st.role != 3 && !s.hal.degraded && s.linkSilent none then
    let s := (s.setHal { s.hal with degraded := true }).alarm 0x0F06 0 1 []
    .next (if s.isFollower then s.reselect else s)
  else .next s

/-- Own rule of 3E20h:00h (R458): it reads FFh; the yield goes in f(N-1). -/
def State.ruleHand (s : State) (_ : Path) (_ _ : Nat) (v : Val) : Verdict :=
  let u := v.asNat
  let p := s.unit u
  if u = s.st.unitId ∨ !p.joined ∨ s.gone u ∨ p.mirrorDeg then .refuse abValue s
  else .done (s.setHal { s.hal with
    yield := some (u, if s.fOff + 1 < s.clk.n then s.clk.f0 + s.clk.n - 1 else s.clk.f0 + 2 * s.clk.n - 1) })

/-- HAND_LEAD_TO_UNIT (R458): a write of 3E20h:00h on the Lead. -/
def execHandLeadToUnit (p : Path) (b : List Byte) (s : State) : Out :=
  .next (if s.up then s.writeWith State.ruleHand p 0x3E20 0 b else s)

end Sys2Proof.Machine
end

