-- ==== Sys2Proof/Machine/Pins.lean ====
section
/-! DEFINITION. The output balls that hold no state of their own: their levels as functions of the state (Tables 22-5 and
23-2, R541, R545, R459). The levels of SAFE, LR, DIO and PPS_OUT are fields of the state. -/
namespace Sys2Proof.Machine

/-- What stands at an output ball: a level, high impedance, electrical idle of a lane, or the bits of its interface. -/
inductive Pin where
  | low | high | hiZ | idle | signal
  deriving DecidableEq, Repr

def pinOf (b : Bool) : Pin := if b then .high else .low

namespace State

/-- Start-up stages completed: 0 while the unit is unpowered, in reset or in stage 1; 7 from Standby-ready on (R530). -/
def stagesDone (s : State) : Nat :=
  match s.st.power with
  | .off | .reset => 0
  | .starting k => k - 1
  | .romHeld => 1
  | .recovery => 2
  | .halted => 4
  | .running | .stopped | .dormant | .waking => 7

/-- PGOOD: low until the internal rails are in tolerance, which stage 1 waits for (Tables 22-1, 23-2). -/
def pgood (s : State) : Pin := if s.st.power = .off then .hiZ else pinOf (1 ≤ s.stagesDone)
/-- RESET_OUT_N: low until 1 ms after stage 1 ends (Table 22-5); the 1 ms lies inside stage 2. -/
def resetOutN (s : State) : Pin := if s.st.power = .off then .hiZ else pinOf (1 ≤ s.stagesDone)
/-- FAULT_N: low; after Standby-ready, low while F2 or F3 is in force (Table 22-5). -/
def faultN (s : State) : Pin := if s.st.power = .off then .hiZ else pinOf (s.stagesDone == 7 && s.faultClass < 2)
/-- REFOUT: off until stage 6; then as 3822h:00h (Table 22-5, R336). True: 10 MHz is present. -/
def refout (s : State) : Bool := (s.up || s.st.power == .stopped || s.st.power == .starting 7) && s.cfgB 0x3822 0
/-- PHYn_RST_N: low in reset, unpowered and in Dormancy, and while its port is disabled; it rises 4001h + n:04h after start-up
has configured the port (R461). -/
def phyRstN (s : State) (n : Nat) : Pin :=
  match s.st.power with
  | .off => .hiZ
  | .dormant | .waking => .low
  | _ => pinOf (6 ≤ s.stagesDone && s.cfgB (0x4001 + n) 1 && s.net.phyFrom + ns (s.cfgR (0x4001 + n) 4 / 1000) ≤ s.clk.time)
/-- Address of the PHY of port n on the management bus (R461). -/
def phyAddress (s : State) (n : Nat) : Nat := s.cfgU (0x4001 + n) 3
/-- MDC, and the transmit pair of port n: from stage 6 the management clock and SGMII (R460, R461, Table 23-2). -/
def mdc (s : State) : Pin := if s.st.power = .off then .hiZ else if 6 ≤ s.stagesDone then .signal else .low
def sgmiiTx (s : State) (n : Nat) : Pin := if 6 ≤ s.stagesDone ∧ s.cfgB (0x4001 + n) 1 = true then .signal else .idle
/-- Transmitters of H0 and H1: electrical idle until Standby-ready, in Dormancy, once the stop notice is sent, and where no
unit is on the link (R437, R439, Table 22-5). -/
def halurTx (s : State) : Pin :=
  match s.st.power with
  | .running => if s.units = 1 then .idle else .signal
  | .stopped => if s.units = 1 ∨ s.st.notice = 0 then .idle else .signal
  | _ => .idle
/-- CANc_STB (R498). -/
def canStb (s : State) (c : Nat) : Pin :=
  match s.st.power with
  | .running => pinOf (!s.cfgB (0x4200 + c) 1 || (s.canC c).held)
  | .starting 7 => pinOf (!s.cfgB (0x4200 + c) 1)
  | .stopped => .high
  | _ => .hiZ
/-- CANc_TX: recessive but for the frames of an enabled controller on its bus; high impedance until Standby-ready. -/
def canTx (s : State) (c : Nat) : Pin :=
  match s.st.power with
  | .running => if s.cfgB (0x4200 + c) 1 = true ∧ (s.canC c).held = false ∧ (s.canC c).off = false then .signal else .high
  | .stopped => .high
  | _ => .hiZ
/-- SERp_TX (R383, Table 17-5): idle high; while a transfer goes out, its characters. -/
def serTx (s : State) (p : Nat) : Pin :=
  if !s.up then .hiZ else if (tget {} s.io.serial p).tx.isSome then .signal else .high
/-- ENCn_B: the SSI clock where this unit drives it, else an input (R366, Table 14-1). -/
def encB (s : State) (n : Nat) : Pin :=
  if s.up ∧ s.cfgU (0x3A00 + n) 1 = 3 ∧ (tget {} s.fb.enc n).driving = true then .signal else .hiZ
/-- IMUi_CS_N, and IMUi_SCK and IMUi_MOSI, outside and inside a read (R396, Table 22-5). -/
def imuCs (s : State) (i : Nat) : Pin :=
  if s.st.power = .off then .hiZ else pinOf ((tget {} s.io.imu i).reading.isNone)
def imuSck (s : State) (i : Nat) : Pin :=
  if s.st.power = .off then .hiZ else if (tget {} s.io.imu i).reading.isSome then .signal else .low
/-- SVC_TX: from stage 2 the boot console, idle high (R553). -/
def svcTx (s : State) : Pin := if 1 ≤ s.stagesDone then .signal else .hiZ
/-- AREF0 delivers 2.500 V (R402); off until Standby-ready. -/
def aref0 (s : State) : Bool := s.up || s.st.power == .stopped
/-- SERp_DE (R384): mode 0 low, mode 1 high while the port is enabled, mode 2 high while the port sends; high impedance in
reset, unpowered, in Dormancy and under F3. -/
def serDe (s : State) (p : Nat) : Pin :=
  if !s.up then .hiZ else
  match s.cfgU (0x4400 + p) 4 with
  | 0 => .low
  | 1 => pinOf (s.cfgB (0x4400 + p) 1)
  | _ => pinOf (tget {} s.io.serial p).tx.isSome
/-- The unit holds the front-end lines: not until Standby-ready nor in an absent unit, not unless it is the front-end master
(R296), not on a DW8N-A1 (R555). -/
def gfeHeld (s : State) : Bool := s.up && s.hasGnss && s.cfgB 0x3601 1
/-- GFE_ENg (R296): asserted enables drive the ball. -/
def gfeEn (s : State) (g : Nat) : Pin := if s.gfeHeld then pinOf (tfind s.gn.en g).isSome else .hiZ
/-- GFE_SCK, GFE_MOSI and GFE_CS0-GFE_CS3 (R296, R297). -/
def gfeSpi (s : State) : Pin := if s.gfeHeld then .signal else .hiZ
/-- LRk: asserted, pulled low, or released (R288, R289, R411). -/
def lrLine (s : State) (k : Nat) : Pin := if bit s.lrMask k then .low else .hiZ
/-- DIOd: driven at a level, or high impedance (R404-R406, Tables 17-5, 22-5). -/
def dioLine (s : State) (d : Nat) : Pin := if bit s.io.driven d then pinOf (bit s.io.level d) else .hiZ
/-- SAFEk (R407-R410). -/
def safeLine (s : State) (k : Nat) : Pin := pinOf (bit s.io.safe k)
/-- PPS_OUTx (R350, Table 17-5). -/
def ppsOut (s : State) (x : Nat) : Pin := pinOf (s.ppsLevel x)

/-! Where the balls lie (R542): row, counted from A in the order of the lid, and column. -/

def ballRows : List String := ["A", "B", "C", "D", "E", "F", "G", "H", "J", "K", "L", "M", "N", "P", "T", "U", "V", "W", "Y",
  "AA", "AB", "AC"]
/-- ENCn_A (k = 0), ENCn_B (1), ENCn_Z (2). -/
def encBall (n k : Nat) : String × Nat :=
  if n < 28 then (ballRows.getD (n / 7) "", 3 * (n % 7) + 1 + k) else ("E", 3 * (n - 28) + 1 + k)
/-- SERp_TX (k = 0), SERp_RX (1), SERp_DE (2). -/
def serBall (p k : Nat) : String × Nat := (["W", "Y", "AA"].getD (p / 7) "", 3 * (p % 7) + 1 + k)
def dioBall (d : Nat) : String × Nat := if d < 16 then ("AA", 7 + d) else ("AB", d - 15)
def safeBall (k : Nat) : String × Nat := ("AB", 9 + k)
def lrBall (k : Nat) : String × Nat := ("AB", 17 + k)
def magBall (m : Nat) : String × Nat :=
  if m < 4 then (ballRows.getD m "", 22) else if m < 14 then ("E", 9 + m) else ("V", 6 + m)

/-! Boundary scan (R552). -/

/-- The output balls that boundary scan reaches. -/
inductive Ball where
  | pgood | resetOut | fault | phyRst (n : Nat) | mdc | canTx (c : Nat) | canStb (c : Nat) | serTx (p : Nat) | serDe (p : Nat)
  | encB (n : Nat) | gfeEn (g : Nat) | gfeSpi (k : Nat) | imuCs (i : Nat) | imuSck (i : Nat) | imuMosi (i : Nat) | svcTx | lr (k : Nat)
  | dio (d : Nat) | safe (k : Nat) | pps (x : Nat)
  deriving DecidableEq, Repr

def balls : List Ball :=
  [.pgood, .resetOut, .fault, .mdc, .svcTx] ++ (List.range 4).map .phyRst ++ (List.range 4).map .canTx ++
    (List.range 4).map .canStb ++ (List.range 16).map .serTx ++ (List.range 16).map .serDe ++ (List.range 32).map .encB ++
    (List.range 2).map .gfeEn ++ (List.range 6).map .gfeSpi ++ (List.range 2).map .imuCs ++ (List.range 2).map .imuSck ++
    (List.range 2).map .imuMosi ++ (List.range 4).map .lr ++ (List.range 24).map .dio ++ (List.range 8).map .safe ++
    (List.range 2).map .pps

/-- What the system logic puts at a ball. -/
def systemLevel (s : State) : Ball → Pin
  | .pgood => s.pgood
  | .resetOut => s.resetOutN
  | .fault => s.faultN
  | .phyRst n => s.phyRstN n
  | .mdc => s.mdc
  | .svcTx => s.svcTx
  | .canTx c => s.canTx c
  | .canStb c => s.canStb c
  | .serTx p => s.serTx p
  | .serDe p => s.serDe p
  | .encB n => s.encB n
  | .gfeEn g => s.gfeEn g
  | .gfeSpi _ => s.gfeSpi
  | .imuCs i => s.imuCs i
  | .imuSck i | .imuMosi i => s.imuSck i
  | .lr k => s.lrLine k
  | .dio d => s.dioLine d
  | .safe k => s.safeLine k
  | .pps x => s.ppsOut x

/-- The cells of SAFE0-SAFE7 and LR0-LR3 observe only. -/
def observeOnly : Ball → Bool
  | .safe _ | .lr _ => true
  | _ => false

/-- EXTEST takes effect only while RESET_N is low. -/
def extestOn (s : State) : Bool := s.io.tap.instr == .extest && !s.st.resetN && s.st.power != .off

/-- The ball of boundary cell `i`. -/
def cellBall (i : Nat) : Ball := balls.getD (Config.cellOf i % balls.length) .pgood

/-- What stands at a ball: the boundary cell's bit under EXTEST, else what the system logic puts there. -/
def ballLevel (s : State) (b : Ball) : Pin :=
  if s.extestOn && !observeOnly b then
    match (List.range Config.cells).find? (fun i => cellBall i == b) with
    | some i => pinOf (nth false s.io.tap.update i)
    | none => s.systemLevel b
  else s.systemLevel b

/-- What cell `i` captures. -/
def cellCapture (s : State) (i : Nat) : Bool := match s.ballLevel (cellBall i) with
  | .high => true
  | .low => false
  | .hiZ | .idle | .signal => Config.floating i

/-- The next state of the test access port (IEEE 1149.1; PRESUMED, log 155). -/
def tapNext (tms : Bool) : TapState → TapState
  | .reset => if tms then .reset else .idle
  | .idle => if tms then .selectDr else .idle
  | .selectDr => if tms then .selectIr else .captureDr
  | .captureDr => if tms then .exit1Dr else .shiftDr
  | .shiftDr => if tms then .exit1Dr else .shiftDr
  | .exit1Dr => if tms then .updateDr else .pauseDr
  | .pauseDr => if tms then .exit2Dr else .pauseDr
  | .exit2Dr => if tms then .updateDr else .shiftDr
  | .updateDr => if tms then .selectDr else .idle
  | .selectIr => if tms then .reset else .captureIr
  | .captureIr => if tms then .exit1Ir else .shiftIr
  | .shiftIr => if tms then .exit1Ir else .shiftIr
  | .exit1Ir => if tms then .updateIr else .pauseIr
  | .pauseIr => if tms then .exit2Ir else .pauseIr
  | .exit2Ir => if tms then .updateIr else .shiftIr
  | .updateIr => if tms then .selectDr else .idle

/-- An instruction code: any that is none of the three acts as BYPASS. -/
def tapInstr (n : Nat) : TapInstr :=
  if n = Config.tapExtest then .extest else if n = Config.tapSample then .sample else if n = Config.tapIdcode then .idcode
  else .bypass

/-- The data register of the instruction in force, as Capture-DR loads it. -/
def tapData (s : State) : List Bool := match s.io.tap.instr with
  | .bypass => [false]
  | .idcode => (List.range 32).map (bit Config.idcode)
  | .sample | .extest => (List.range Config.cells).map s.cellCapture

/-- One rising edge of TCK, and the falling edge after it. -/
def tapStep (s : State) (e : TapEdge) : State :=
  let x := s.io.tap
  if e.trst then { s with io := { s.io with tap := { x with state := .reset, instr := .idcode, tdo := none } } } else
  let shift := match x.state with
    | .captureDr => s.tapData
    | .captureIr => (List.range Config.tapWidth).map (· == 0)
    | .shiftDr | .shiftIr => x.shift.drop 1 ++ [e.tdi]
    | _ => x.shift
  let state := tapNext e.tms x.state
  let cells := x.instr == .sample || x.instr == .extest
  let x := { x with
    state := state, shift := shift,
    update := if state = .updateDr ∧ cells = true then shift else x.update,
    instr := if state = .updateIr then tapInstr (ofBits ((List.range shift.length).filter fun i => nth false shift i))
      else if state = .reset then .idcode else x.instr,
    tdo := if state = .shiftDr ∨ state = .shiftIr then some (nth false shift 0) else none }
  { s with io := { s.io with tap := x } }

/-- The edges of TCK of a frame; an unpowered unit has no test logic. -/
def jtag (s : State) (l : List TapEdge) : State := if s.st.power = .off then s else foldS s l tapStep

end State
end Sys2Proof.Machine
end

