-- ==== Sys2Proof/Machine/Net.lean ====
section
/-! DEFINITION. The field network (chapter 18): ports, schedule, the two networks, node table, KPP frames and records,
process maps, loss of networks and nodes, the Lead off its path. KDP and the published records stand in Serve.lean. -/
namespace Sys2Proof.Machine

namespace State

def setNet (s : State) (n : Net) : State := { s with net := n }
def nodeSt (s : State) (id : Nat) : NodeSt := tget {} s.net.nodes id
def setNodeSt (s : State) (id : Nat) (n : NodeSt) : State :=
  s.setNet { s.net with nodes := tset s.net.nodes id n }
def port (s : State) (n : Nat) : NetPort := tget {} s.net.ports n
/-- Port Nn is up: its PHY reports a link that R460 admits, and the port is enabled. -/
def portUp (s : State) (n : Nat) : Bool := (s.port n).up && s.cfgB (0x4001 + n) 1

/-! Own rules of the lists, the node table and the maps (R463, R467, R473). -/

/-- Time in ns of a 1,542-byte frame at the slowest rate of the enabled ports: 123,360 with a port at 100 Mbit/s. -/
def guardNs (s : State) : Nat :=
  if (List.range 4).any fun n => s.portUp n && (s.port n).speed == 100 then 123360 else 12336

/-- Refusal with event 100Bh: index and entry. -/
def refuseList (s : State) (idx entry : Nat) : Verdict := .refuse abValue (s.note 0x100B [idx, entry])

/-- Gate control list (R463). -/
def ruleGate (s : State) (_ : Path) (idx _ : Nat) (v : Val) : Verdict :=
  let l := chunks 8 v.asBytes
  let masks := l.map fun e => leAt e 4 1
  let opens := fun c => masks.any fun m => bit m c
  let reserved := l.all fun e => leAt e 5 3 == 0
  let last : Bool := match l.getLast? with
    | some e => leAt e 4 1 == 0 && s.guardNs ≤ leAt e 0 4
    | none => false
  if nsum (l.map fun e => leAt e 0 4) = 1250000 ∧ opens 6 ∧ opens 7 ∧ last ∧ reserved then .store
  else s.refuseList idx (l.length - 1)

/-- First entry of a node table that breaks R467. -/
def nodeFault (s : State) (l : List Node) (raw : List (List Byte)) : Option Nat :=
  firstBad (l.zip raw) fun k p =>
    let n := p.1
    let before' := l.take k
    n.id ≤ 4091 && (before'.all fun m => decide (m.id < n.id)) &&
      (n.kind == 1 || n.kind == 2 || n.kind == 4) && n.nets < 4 && leAt p.2 26 6 == 0 && n.lossClass ≤ 1 &&
      n.timeout ≤ 800 &&
      (if n.kind = 1 then n.thruster < 32 && s.objU (0x2E80 + n.thruster) 1 != 0 && n.failAction ≤ 3 &&
         10 ≤ n.driveTimeout && n.driveTimeout ≤ 1000 && !(before'.any fun m => m.kind == 1 && m.thruster == n.thruster)
       else n.thruster == 255) &&
      (if n.kind = 2 then 1 ≤ n.fields && n.fields ≤ 64 else n.fields == 0)

/-- Node table (R467). -/
def ruleNodes (s : State) (_ : Path) (idx _ : Nat) (v : Val) : Verdict :=
  match s.nodeFault (parseNodes v.asBytes) (chunks 32 v.asBytes) with
  | some k => s.refuseList idx k
  | none => .store

/-- An object that a map may name: a scalar of at most 4 bytes (R473). -/
def mapped (s : State) (idx sub : Nat) : Option Ty :=
  if s.existsAbort idx sub ≠ 0 then none else
  let t : Ty := match findRes idx with
    | some r => (match sub with
      | 0 => .u8 | 1 => .u32 | 2 => .u64 | 3 => .u8 | n + 4 => nth .u8 r.types n)
    | none => (match findRow idx sub with
      | some r => r.ty
      | none => .u8)
  match t.size with
  | some k => if k ≤ 4 then some t else none
  | none => none

/-- An object that a receive entry or an RPDO may name: one that an Operator may write. -/
def mappedIn (s : State) (idx sub : Nat) : Bool :=
  (s.mapped idx sub).isSome && mayWrite .operator idx sub && match findRow idx sub with
    | some r => r.acc == .rw || r.acc == .rwm || r.acc == .wo
    | none => false

/-- Transmit and receive maps (R473). -/
def ruleMap (s : State) (_ : Path) (idx _ : Nat) (v : Val) : Verdict :=
  let l := chunks 8 v.asBytes
  let ok := fun (e : List Byte) =>
    if idx = 0x4030 then
      (s.mapped (leAt e 0 2) (leAt e 2 1)).isSome && leAt e 3 1 < 8 && leAt e 4 1 < 64 && leAt e 5 3 == 0
    else leAt e 2 1 < 8 && leAt e 3 1 < 64 && s.mappedIn (leAt e 4 2) (leAt e 6 1) && leAt e 7 1 == 0
  match firstBad l fun _ e => ok e with
  | some k => s.refuseList idx k
  | none => .store

/-! Receiving KPP frames (R465, R466, R468-R471, R491). -/

/-- Vector recovery with a history of 32 and a reset time of 100 ms (R465, PRESUMED for IEEE 802.1CB, log 53): is the
number accepted, and the history after. -/
def recoverTag (h : Option (List Nat × Nat)) (n t : Nat) : Bool × List Nat :=
  match h with
  | none => (true, [n])
  | some (l, at') =>
    if at' + 100000000 ≤ t then (true, [n]) else
    match l.getLast? with
    | none => (true, [n])
    | some top =>
      let ahead := (n + 65536 - top) % 65536
      let behind := (top + 65536 - n) % 65536
      if ahead ≠ 0 ∧ ahead < 32 then
        (true, (l.filter fun x => (n + 65536 - x) % 65536 < 32) ++ [n])
      else if behind < 32 then
        (!l.contains n, if l.contains n then l else n :: l)
      else (false, l)

/-- Records of a KPP payload: type, node, time of validity, words; none where the lengths do not fit. -/
def kppRecs : Nat → List Byte → Option (List KppRec)
  | 0, b => if b = [] then some [] else none
  | k + 1, b =>
    if b.length < 12 then none else
    let n := leAt b 1 1
    if 64 < n ∨ b.length < 12 + 4 * n then none else
    let r : KppRec := { type := leAt b 0 1, node := leAt b 2 2, tov := leAt b 4 8,
                        words := (List.range n).map fun i => leAt b (12 + 4 * i) 4 }
    (kppRecs k (b.drop (12 + 4 * n))).map fun l => r :: l

/-- The parts of a KPP payload: source, sequence, vessel status word, records. -/
structure KppIn where
  source : Nat
  seq : Nat
  status : Nat
  recs : List KppRec
  deriving DecidableEq, Repr

/-- Reason for which a payload is not valid (1 CRC, 3 magic, version or lengths), or its parts (R470). -/
def parseKpp (b : List Byte) : Except Nat KppIn :=
  if b.length < 28 ∨ 1472 < b.length ∨ leAt b 0 2 ≠ 0x504B ∨ leAt b 2 1 ≠ 1 then .error 3
  else if crc32c (b.take (b.length - 4)) ≠ leAt b (b.length - 4) 4 then .error 1
  else match kppRecs (leAt b 6 2) ((b.take (b.length - 4)).drop 24) with
    | none => .error 3
    | some l => .ok ⟨leAt b 4 2, leAt b 8 4, leAt b 12 4, l⟩

/-- Unit of a node ID 4092-4095. -/
def unitOfNode (id : Nat) : Option Nat := if 4092 ≤ id ∧ id ≤ 4095 then some (id - 4092) else none
/-- Node of a CAN drive descriptor (Table 19-5). -/
def canDriveNode (s : State) (id : Nat) : Option Nat :=
  (List.range 32).find? fun j => s.cfgU (0x4240 + j) 1 != 0 && s.cfgU (0x4240 + j) 4 == id

/-- A source is known: a unit or an entry of the table. -/
def knownNode (s : State) (id : Nat) : Bool := (unitOfNode id).isSome || (s.node id).isSome

/-- Event 1007h, at most once a minute for a node (R470). -/
def noteDiscard (s : State) (id reason : Nat) : State :=
  let n := s.nodeSt id
  let due := match n.noted with
    | some t => decide (t + 60000000000 ≤ s.clk.time)
    | none => true
  if due && id < 4096 then (s.note 0x1007 [id, reason]).setNodeSt id { n with noted := some s.clk.time } else s

/-- A discarded frame (4050h:02h-04h). -/
def kppDiscard (s : State) (id reason : Nat) : State := (s.incU 0x4050 (1 + reason)).noteDiscard id reason

def wordReal (w : Nat) : Rat := F32.toRat (BitVec.ofNat 32 w)
def wordFinite (w : Nat) : Bool := F32.finite (BitVec.ofNat 32 w)

/-- Feed the Sheaf streams bound to a node's fields (R471): binding 07h, `feedback` for a drive's record. A sample without a
time of validity (0) is source-invalid where the slot needs one (R92). -/
def feedNode (s : State) (id tov arrival : Nat) (feedback : Bool) (words : List Nat) : State :=
  let ks := (List.range 256).filter fun k => match (s.stream k).cfg with
    | some (_, 7, a, _) => a % 4096 == id
    | _ => false
  foldS s ks fun s k =>
    match (s.stream k).cfg with
    | none => s
    | some (kind, _, a, sl) =>
      let first := field a 16 8
      if feedback && !((kind == 0x0A && first == 1) || (kind == 0x0B && first == 3)) then s else
      let w := fun i => nth 0 words (first + i)
      let isInt := fun i => kind == 0x01 && i < 2
      let comp := fun i => if isInt i then (toSigned 32 (w i) : Rat) / 10000000 else wordReal (w i)
      let ok := first + kindSize kind ≤ words.length && (List.range (kindSize kind)).all fun i => isInt i || wordFinite (w i)
      s.sheafAccept k { stamp := if sl = 0xFF then (arrival : Int) else (tov : Int), arrival := arrival,
                        raw := (List.range (kindSize kind)).map comp } (ok && (sl == 0xFF || tov != 0))

/-- A feedback record of thruster j's drive, from node `id` (R471, R491). -/
def takeFeedback (s : State) (j id tov arrival : Nat) (words : List Nat) : State :=
  if words.length ≠ 5 then s else
  let w := nth 0 words
  let ok := (List.range 4).all fun i => wordFinite (w (i + 1))
  let d : Drive := { status := w 0, az := wordReal (w 1), n := wordReal (w 2), thrust := wordReal (w 3),
                     power := wordReal (w 4), ok := ok, frame := s.clk.frame }
  let s := s.setNet { s.net with drives := tset s.net.drives j d }
  (s.driveRecord j (bit (w 0) 0)).feedNode id tov arrival true words

/-- One record of an accepted frame. -/
def kppRecord (s : State) (source arrival : Nat) (r : KppRec) : State :=
  match s.node source with
  | none => s
  | some n =>
    if r.type = 2 ∧ n.kind = 1 ∧ r.node = source then s.takeFeedback n.thruster source r.tov arrival r.words
    else if r.type = 3 ∧ n.kind = 2 ∧ r.node = source ∧ r.words.length = n.fields then
      let x := s.nodeSt source
      (s.setNodeSt source { x with data := r.words, dataAt := s.clk.frame }).feedNode source r.tov arrival false r.words
    else if 0x20 ≤ r.type ∧ r.type ≤ 0x27 ∧ n.kind = 4 then
      s.setNet { s.net with console := tset s.net.console (source * 8 + (r.type - 0x20)) r.words }
    else s

/-- The first valid frame of a lost node (R468). -/
def nodeReturns (s : State) (id : Nat) : State :=
  let n := s.nodeSt id
  if n.lost then ((s.setNodeSt id { n with lost := false }).note 0x1006 []).lower 0x1005 id else s

/-- A valid frame from a known node has arrived on network `net` at an instant (R449, R466, R468). -/
def kppHeard (s : State) (net source arrival : Nat) : State :=
  let s := s.nodeReturns source
  let x := s.nodeSt source
  let x := if net = 0 then { x with onA := some s.clk.frame } else { x with onB := some s.clk.frame }
  let s := s.setNodeSt source { x with at' := arrival }
  let inX := match s.node source with
    | some n => bit n.nets net
    | none => false
  let s := if inX then s.setNet { s.net with heard := setBit s.net.heard net true } else s
  match unitOfNode source with
  | some u => if s.cfgU 0x3E00 4 = 0 then s.setUnit u { s.unit u with field := some s.clk.frame } else s
  | none => s

/-- Duplicate elimination by source MAC (R465): is a frame with an R-TAG number a duplicate, and the state after. -/
def eliminate (s : State) (mac : Nat) (tag : Option Nat) (arrival : Nat) : Bool × State :=
  match tag with
  | none => (false, s)
  | some n =>
    let r := recoverTag (tfind s.net.recov mac) n arrival
    (!r.1, s.setNet { s.net with recov := tset s.net.recov mac (r.2, arrival) })

/-- A KPP payload arrives on network `net` (0 A, 1 B) from a source MAC, with its R-TAG sequence if it has one. The second copy
of a frame is no further frame, and shows that its network carries one (R465, R466); a frame older than the last is not valid and
shows nothing (R470). -/
def kppFrame (s : State) (net mac : Nat) (tag : Option Nat) (arrival : Nat) (b : List Byte) : State :=
  match parseKpp b with
  | .error e => s.kppDiscard (leAt b 4 2) e
  | .ok k =>
    if !s.knownNode k.source ∨ k.source = 4092 + s.st.unitId then s.kppDiscard k.source 3 else
    let (dup, s) := s.eliminate mac tag arrival
    if dup then (s.incU 0x4050 6).kppHeard net k.source arrival else
    let new := match (s.nodeSt k.source).seq with
      | some q => newerMod (2 ^ 32) k.seq q
      | none => true
    if !new then s.kppDiscard k.source 2 else
    let s := s.kppHeard net k.source arrival
    let x := s.nodeSt k.source
    let s := (s.setNodeSt k.source { x with seq := some k.seq }).incU 0x4050 1
    let s := s.probe 0x0B k.source (((arrival : Rat) - (s.clk.bound : Rat)) / 1000)
    foldS s k.recs fun s r => s.kppRecord k.source arrival r

/-! Frame work (R464, R466, R475, Tables 18-8 and 18-9). -/

/-- Some node entry includes network x: only such a network is judged (R466, DEDUCED, log 54). -/
def judged (s : State) (x : Nat) : Bool := s.nodes.any fun n => bit n.nets x

/-- Consecutive frames without and with arrivals on network x, counted at the end of a frame. -/
def countNet (s : State) (x : Nat) : State :=
  let h := bit s.net.heard x && s.judged x
  s.setNet { s.net with
    quiet := tset s.net.quiet x (if h || !s.judged x then 0 else tget 0 s.net.quiet x + 1),
    good := tset s.net.good x (if h then tget 0 s.net.good x + 1 else 0) }

/-- The Shadow does not see the Lead on the watched path while the Lead hears the Shadow there (R475), counted for the
frame `f` that has ended. -/
def countOff (s : State) (f : Nat) : State :=
  if s.st.role ≠ 0 then
    -- a unit that is not the Lead has no field path to be off (log 159)
    let s := if s.net.offPath then s.lower 0x1008 0 else s
    (s.setHal { s.hal with offField := 0 }).setNet { s.net with offPath := false }
  else
  match s.others.find? fun u => (s.unit u).role == 1 && (s.unit u).joined with
  | none => s
  | some u =>
    let p := s.unit u
    if bit p.seen s.st.unitId then
      let s := if s.net.offPath then s.lower 0x1008 0 else s
      (s.setHal { s.hal with offField := 0 }).setNet { s.net with offPath := false }
    else if p.field = some f ∧ p.heard = some f then s.setHal { s.hal with offField := s.hal.offField + 1 }
    else s.setHal { s.hal with offField := 0 }

def netWord (s : State) : Nat :=
  ofBits ((List.range 4).filter s.portUp) * 256 + bitAt s.net.winLoss 3 + bitAt s.net.offPath 2 +
    s.net.lostNets % 4

/-- Publish 4040h and 4041h for the frame `f` that has ended. -/
def publishNet (s : State) (f : Nat) : State :=
  let ids := s.net.nodes.filter fun p => (s.node p.1).isSome
  let heard := (ids.filter fun p => (p.2.onA.isSome || p.2.onB.isSome) && !p.2.lost).length
  let lost := (ids.filter fun p => p.2.lost).length
  let s := s.publish 0x4040 [.u s.netWord, .u (s.acc.sessions.filter fun p => 16 ≤ p.1).length, .u heard, .u lost]
  let id := s.objU 0x4021 0
  let x := s.nodeSt id
  let since := fun (o : Option Nat) => match o with
    | some g => min (f - g) 0xFFFF
    | none => 0xFFFF
  let state := if x.lost then 2 else if x.onA.isSome || x.onB.isSome then 1 else 0
  s.publish 0x4041 [.u state, .u (x.seq.getD 0), .u (since x.onA), .u (since x.onB), .u x.at']

/-- The network's work at a frame boundary: frame `f` has ended. -/
def netFrame (s : State) (f : Nat) : State :=
  let s := (s.countNet 0).countNet 1
  let s := (s.countOff f).publishNet f
  let calm := if s.net.winLoss then 0 else s.net.winGood + 1
  let s := if calm = 800 then s.lower 0x100C 0 else s
  s.setNet { s.net with heard := 0, winLoss := false, winGood := calm, queued := [] }

/-! Sending (R462-R465, R469). -/

/-- Traffic class of a frame: its 802.1Q priority, 0 where it is untagged, 7 for a PTP message whatever its tag (R462). -/
def trafficClass (tag : Option VlanTag) (ptp : Bool) : Nat :=
  if ptp then 7 else match tag with
    | some t => t.prio % 8
    | none => 0
/-- The tags of KPP and KDP (R462). -/
def kppTag (s : State) : VlanTag := { prio := s.cfgU 0x4000 9, vlan := s.cfgU 0x4000 8 }
def kdpTag (s : State) : VlanTag := { prio := 0, vlan := s.cfgU 0x4000 8 }

/-- The gate mask that a list opens `t` ns after the frame boundary; after its last entry the list begins again (R463). -/
def gateMask : List (List Byte) → Nat → Nat
  | [], _ => 0
  | e :: l, t => if t < leAt e 0 4 then leAt e 4 1 else gateMask l (t - leAt e 0 4)
/-- A class's gate is open on the external ports `t` ns after the frame boundary. -/
def gateOpen (s : State) (c t : Nat) : Bool := bit (gateMask (chunks 8 (s.cfgD 0x4010 0)) (t % 1250000)) c

/-- Put a KPP frame of records in the queue. -/
def queueKpp (s : State) (l : List KppRec) : State :=
  if l = [] then s else
  let f : KppOut := { tag := s.kppTag, group := s.cfgU 0x4000 5, port := s.cfgU 0x4000 6, node := 4092 + s.st.unitId, seq := s.net.seq, rtag := s.net.rtag, status := s.objU 0x2200 1, frame := s.clk.frame, recs := l }
  s.setNet { s.net with
    queued := s.net.queued ++ [f], seq := (s.net.seq + 1) % 2 ^ 32, rtag := (s.net.rtag + 1) % 65536 }

/-- The octets of a record (Table 18-3). -/
def recBytes (r : KppRec) : List Byte :=
  natLe 1 r.type ++ natLe 1 r.words.length ++ natLe 2 r.node ++ natLe 8 r.tov ++ (r.words.map (natLe 4)).flatten
/-- The UDP payload of a frame: header, records and CRC (R469, Table 18-3). -/
def payload (f : KppOut) : List Byte :=
  let b := natLe 2 0x504B ++ natLe 1 1 ++ natLe 1 0 ++ natLe 2 f.node ++ natLe 2 f.recs.length ++ natLe 4 f.seq ++
    natLe 4 f.status ++ natLe 8 f.frame ++ (f.recs.map recBytes).flatten
  b ++ natLe 4 (crc32c b)

/-- Unit status record (Table 18-4). -/
def unitStatus (s : State) : KppRec :=
  { type := 4, node := 4092 + s.st.unitId, tov := s.clk.bound,
    words := [s.st.unitId * 65536 + s.leadEpoch, s.clk.sample, s.net.lostNets % 4] }

end State

/-! Commands. -/

/-- PHY_LINK_CHANGE (R460): the SGMII control word of port n reports a link, its speed in Mbit/s and duplex; 10 Mbit/s and
half duplex hold the port down. -/
def execPhyLinkChange (n : Nat) (link : Bool) (speed : Nat) (full : Bool) (s : State) : Out :=
  if !s.up ∨ 3 < n then .next s else
  let ok := link && !s.degraded 8 n && s.cfgB (0x4001 + n) 1 && full && (speed == 100 || speed == 1000)
  let new : NetPort := { up := ok, speed := if ok then speed else 0 }
  let held := link && !ok
  if s.port n = new ∧ !held then .next s else
  .next ((s.setNet { s.net with ports := tset s.net.ports n new }).note 0x1001 [n, b2n ok, speed])

/-- KPP_FRAME (R470): on a port that is up, whose network 4001h + n:02h names; a disabled port takes in nothing (R460). -/
def execKppFrame (port mac : Nat) (tag : Option Nat) (arrival : Nat) (b : List Byte) (s : State) : Out :=
  .next (if s.up && decide (port < 4) && s.portUp port then s.kppFrame (s.cfgU (0x4001 + port) 2) mac tag arrival b else s)

/-- KPP_QUEUE (R464): at the opening of the first class 6 entry, the unit status record and, on the Lead, the command
records of the frame. -/
def execKppQueue (s : State) : Out :=
  if s.up && s.mode.mode != 7 then
    let cmds := if s.st.role = 0 then s.net.cmds else []
    .next ((s.queueKpp (s.unitStatus :: cmds)).setNet { (s.queueKpp (s.unitStatus :: cmds)).net with cmds := [] })
  else .next s

/-- KPP_WINDOW_CLOSE (R464): the last `k` frames of the queue have not begun; they are discarded. -/
def execKppWindowClose (k : Nat) (s : State) : Out :=
  let lost := min k s.net.queued.length
  if !s.up || lost == 0 then .next s else
  let s := s.setNet { s.net with queued := s.net.queued.take (s.net.queued.length - lost), winLoss := true, winGood := 0 }
  .next ((s.addU 0x4050 5 lost).alarm 0x100C 0 1 [])

/-- NETWORK_LOST (R466). -/
def execNetworkLost (x : Nat) (s : State) : Out :=
  if s.up && x < 2 && !bit s.net.lostNets x && s.judged x && decide (s.cfgU 0x4000 0x0C ≤ tget 0 s.net.quiet x) then
    .next ((s.setNet { s.net with lostNets := setBit s.net.lostNets x true }).alarm 0x1002 x 2 [x])
  else .next s

/-- NETWORK_RESTORED (R466): 800 frames with arrivals. -/
def execNetworkRestored (x : Nat) (s : State) : Out :=
  if s.up && x < 2 && bit s.net.lostNets x && decide (800 ≤ tget 0 s.net.good x) then
    .next (((s.setNet { s.net with lostNets := setBit s.net.lostNets x false }).note 0x1003 []).lower 0x1002 x)
  else .next s

/-- A watched node has been silent for its heartbeat timeout (R468). -/
def State.nodeLossDue (s : State) (n : Node) : Bool :=
  let x := s.nodeSt n.id
  let last := max s.net.since (max (x.onA.getD 0) (x.onB.getD 0))
  n.timeout != 0 && n.kind != 1 && !x.lost && decide (last + n.timeout < s.clk.frame)

/-- NODE_LOST (R468). -/
def execNodeLost (id : Nat) (s : State) : Out :=
  match s.node id with
  | none => .next s
  | some n =>
    if !(s.up && s.nodeLossDue n) then .next s else
    let s := s.setNodeSt id { s.nodeSt id with lost := true, seq := none }
    .next (if n.lossClass = 1 then s.alarm 0x1005 id 1 [id] else s.note 0x1004 [id])

/-- LEAD_OFF_FIELD_PATH (R475): 16 frames; the Lead hands over to the Shadow where R458 lets it. -/
def execLeadOffFieldPath (s : State) : Out :=
  if !(s.up && s.st.role == 0 && decide (16 ≤ s.hal.offField) && !s.net.offPath) then .next s else
  let s := (s.alarm 0x1008 0 1 []).setNet { s.net with offPath := true }
  match s.others.find? fun u => (s.unit u).role == 1 && (s.unit u).joined with
  | none => .next s
  | some u =>
    match s.ruleHand .recvMap 0x3E20 0 (.u u) with
    | .done s' => .next s'
    | _ => .next s

/-- GATE_CONTROL_LIST_WRITE (R463): a write of 4010h:00h. -/
def execGateControlListWrite (p : Path) (b : List Byte) (s : State) : Out :=
  .next (if s.up then s.writeWith State.ruleGate p 0x4010 0 b else s)

/-- NODE_TABLE_WRITE (R467): a write of 4020h:00h. -/
def execNodeTableWrite (p : Path) (b : List Byte) (s : State) : Out :=
  .next (if s.up then s.writeWith State.ruleNodes p 0x4020 0 b else s)

/-- PROCESS_MAP_WRITE (R473): a write of 4030h:00h, or of 4032h:00h where `receive`. -/
def execProcessMapWrite (p : Path) (receive : Bool) (b : List Byte) (s : State) : Out :=
  .next (if s.up then s.writeWith State.ruleMap p (if receive then 0x4032 else 0x4030) 0 b else s)

end Sys2Proof.Machine
end

