-- ==== Sys2Proof/Machine/Can.lean ====
section
/-! DEFINITION. The CAN FD controllers (chapter 19): timing, filters, reception, cyclic messages, errors, the lone node,
bit-rate detection, heartbeats and reference messages. SDO and PDO stand in Serve.lean. -/
namespace Sys2Proof.Machine

namespace State

def setCan (s : State) (c : Can) : State := { s with can := c }
/-- Objects 4200h + c and 4280h + c of controller c. -/
def canObj (c : Nat) : Nat := 0x4200 + c
def canCnt (c : Nat) : Nat := 0x4280 + c

/-- Identifier of a COB-ID: bit 29 an extended frame; bit 31 of the identifier marks it. -/
def cobId (cob : Nat) : Nat := if bit cob 29 then cob % 2 ^ 29 + 2 ^ 31 else cob % 2048

/-- The CAN node ID (1F00h:00h). -/
def canNode (s : State) : Nat := s.cfgU 0x1F00 0

/-- Controller c receives: enabled, the unit running, neither bus-off nor held off (R487, R488, R498). -/
def canHears (s : State) (c : Nat) : Bool :=
  c < 4 && s.up && !s.degraded 9 c && s.mode.mode != 7 && s.cfgB (canObj c) 1 && !(s.canC c).held && !(s.canC c).off

/-! Own rules (R478, R482, R494, Table 19-5). -/

/-- Refusal with event 110Ah: index and subindex. -/
def refuseCan (s : State) (idx sub : Nat) : Verdict := .refuse abValue (s.note 0x110A [idx, sub])

/-- Bit timing (R478): the rates and SJW that the write leaves. -/
def ruleTiming (s : State) (_ : Path) (idx sub : Nat) (v : Val) : Verdict :=
  let f := fun k => if k = sub then v.asNat else s.objU idx k
  let nom := f 3 * (1 + f 4 + f 5)
  let dat := f 7 * (1 + f 8 + f 9)
  -- 80 MHz / total: a rate above 1 Mbit/s has a total below 80, one above 8 Mbit/s a total below 10
  if nom < 80 ∨ dat < 10 ∨ nom < dat ∨ f 5 < f 6 ∨ f 9 < f 0x0A then s.refuseCan idx sub else .store

/-- Bit rates of controller c in bit/s, and its sample points in clock periods of 12.5 ns from the start of a bit (R478). -/
def canRate (s : State) (c : Nat) (data : Bool) : Rat :=
  let f := fun k => s.cfgU (canObj c) ((if data then 4 else 0) + k)
  80000000 / (f 3 * (1 + f 4 + f 5) : Nat)
def canSample (s : State) (c : Nat) (data : Bool) : Nat :=
  let f := fun k => s.cfgU (canObj c) ((if data then 4 else 0) + k)
  f 3 * (1 + f 4)
/-- Transmitter delay compensation is on with a data prescaler of 1 or 2: the secondary sample point, in clock periods, for a
measured transmitter delay in the same unit (R478). -/
def secondarySample (s : State) (c : Nat) (delay : Nat) : Option Nat :=
  if s.cfgU (canObj c) 7 ≤ 2 then some (delay + s.canSample c true) else none

/-- An identifier fits its format. -/
def idFits (ext : Bool) (id : Nat) : Bool := if ext then id < 2 ^ 29 else id < 2048

/-- Filter list (R482). -/
def ruleFilter (s : State) (_ : Path) (idx sub : Nat) (v : Val) : Verdict :=
  let ok := (chunks 12 v.asBytes).all fun e =>
    let ext := bit (leAt e 2 1) 0
    1 ≤ leAt e 0 1 && leAt e 0 1 ≤ 3 && 1 ≤ leAt e 1 1 && leAt e 1 1 ≤ 3 && leAt e 2 1 ≤ 1 && leAt e 3 1 == 0 &&
      idFits ext (leAt e 4 4) && idFits ext (leAt e 8 4)
  if ok then .store else s.refuseCan idx sub

/-- CAN drive descriptor (Table 19-5). -/
def ruleCanDrive (s : State) (_ : Path) (idx sub : Nat) (v : Val) : Verdict :=
  let n := v.asNat
  let ok : Bool := match sub with
    | 1 => decide (n < 16)
    | 2 | 3 => idFits (bit n 31) (n % 2 ^ 31)
    | 4 => n == 0xFFFF || !(parseNodes (s.objD 0x4020 0)).any (·.id == n)
    | _ => true
  if ok then .store else s.refuseCan idx sub

/-- Communication parameters of a PDO (R494): the transmission type. -/
def rulePdoComm (s : State) (_ : Path) (idx sub : Nat) (v : Val) : Verdict :=
  if sub ≠ 2 then .store
  else if idx < 0x1800 then (if 241 ≤ v.asNat ∧ v.asNat ≤ 255 then .store else .refuse abValue s)
  else if v.asNat = 254 ∨ v.asNat = 255 then .store else .refuse abValue s

/-- An entry of a PDO mapping: index, subindex and length in bits of an object that a map may name (R473, R494). -/
def pdoEntry (s : State) (receive : Bool) (e : Nat) : Option Nat :=
  let idx := e / 65536
  let sub := e / 256 % 256
  match s.mapped idx sub with
  | none => none
  | some t =>
    if (receive && !s.mappedIn idx sub) || e % 256 != 8 * (t.size.getD 0) then none else t.size

/-- PDO mapping (R473, R494): an entry that may not be mapped, and a length beyond 64 bytes. -/
def rulePdoMap (s : State) (_ : Path) (idx sub : Nat) (v : Val) : Verdict :=
  let receive : Bool := idx < 0x1800
  if sub = 0 then
    if 64 < v.asNat then .refuse abMapLen s else
    let sizes := (List.range v.asNat).map fun i => s.pdoEntry receive (s.objU idx (i + 1))
    if sizes.any (·.isNone) then .refuse abMap s
    else if 64 < nsum (sizes.map (·.getD 0)) then .refuse abMapLen s else .store
  else
    match s.pdoEntry receive v.asNat with
    | none => if v.asNat = 0 then .store else .refuse abMap s
    | some k =>
      -- a write into a mapping that stands must leave it within 64 bytes
      let n := s.objU idx 0
      let rest := nsum ((List.range n).map fun i =>
        if i + 1 = sub then 0 else (s.pdoEntry receive (s.objU idx (i + 1))).getD 0)
      if sub ≤ n ∧ 64 < rest + k then .refuse abMapLen s else .store

/-- Restart of a controller (R488): both counters at 0; the object reads 0. -/
def restartCan (s : State) (c : Nat) : State :=
  let x := s.canC c
  let s := s.setCanC c { x with
    held := false, off := false, recovering := false, tec := 0, rec' := 0, warn := false, passive := false }
  ((s.lower 0x1107 c).lower 0x1103 c).lower 0x1102 c

def ruleCanRestart (s : State) (_ : Path) (idx _ : Nat) (v : Val) : Verdict :=
  .done (if v.asNat = 1 then s.restartCan (idx - 0x4200) else s)

/-- A controller whose enable or mode is written begins afresh: rate detection from its first candidate (R479). -/
def canAfter (s : State) (c : Nat) : State :=
  let x := s.canC c
  s.setCanC c { x with cand := 0, since := s.clk.time, good := 0, dCand := 0, dGood := 0, locked := false, dLocked := false }

/-- A write of a bit timing: a field outside its range is refused as a timing (R478). -/
def writeTiming (s : State) (p : Path) (idx sub : Nat) (b : List Byte) : State :=
  match s.writeTests p idx sub b with
  | .error (a, s') => if a = abHigh ∨ a = abLow then (s'.note 0x110A [idx, sub]).answer abValue else s'.answer a
  | .ok _ => s.writeWith ruleTiming p idx sub b

/-! Reception (R481-R483). -/

/-- FIFO of the fixed acceptances. -/
def fixedFifo (s : State) (c id : Nat) : Option Nat :=
  let feed := (List.range 32).any fun j => bit (s.cfgU (0x4240 + j) 1) c && s.cfgU (0x4240 + j) 3 == id
  let rpdo := (List.range 512).any fun n => !bit (s.cfgU (0x1400 + n) 1) 31 && cobId (s.cfgU (0x1400 + n) 1) == id
  let unit := s.others.any fun u => s.cfgU 0x4220 1 + u == id
  if feed || rpdo || unit then some 0 else if id = 0x600 + s.canNode then some 1 else none

/-- A filter element matches an identifier (Table 19-1). -/
def matches' (e : List Byte) (id : Nat) : Bool :=
  let a := leAt e 4 4
  let b := leAt e 8 4
  let n := id % 2 ^ 31
  bit (leAt e 2 1) 0 == bit id 31 && (match leAt e 0 1 with
    | 1 => a ≤ n && n ≤ b
    | 2 => n == a || n == b
    | _ => n &&& b == a &&& b)

/-- FIFO that takes a frame: fixed acceptances, then the first element of the filter list that matches. -/
def fifoOf (s : State) (c id : Nat) : Option Nat :=
  match s.fixedFifo c id with
  | some f => some f
  | none => match (chunks 12 (s.cfgD (0x4210 + c) 0)).find? fun e => matches' e id with
    | some e => if leAt e 1 1 = 1 then some 0 else if leAt e 1 1 = 2 then some 1 else none
    | none => none

/-- A FIFO has lost a frame (R483). -/
def fifoLoss (s : State) (c : Nat) : State :=
  let s := s.incU (canCnt c) 5
  let x := s.canC c
  let due := match x.lossAt with
    | some t => decide (t + 60000000000 ≤ s.clk.time)
    | none => true
  if due then (s.note 0x110B []).setCanC c { x with lossAt := some s.clk.time } else s

/-- Put a frame into a FIFO of 64: FIFO 0 overwrites its oldest, FIFO 1 drops the arriving one. -/
def fifoPut (s : State) (c f : Nat) (m : CanRx) : State :=
  let x := s.canC c
  if f = 0 then
    if x.fifo0.length < 64 then s.setCanC c { x with fifo0 := x.fifo0 ++ [m] }
    else s.fifoLoss c |>.setCanC c { (s.fifoLoss c).canC c with fifo0 := x.fifo0.drop 1 ++ [m] }
  else if x.fifo1.length < 64 then s.setCanC c { x with fifo1 := x.fifo1 ++ [m] }
  else s.fifoLoss c

/-- The controller is no longer alone (R489). -/
def aloneEnds (s : State) (c : Nat) : State :=
  if (s.canC c).alone then
    ((s.setCanC c { s.canC c with alone := false, aloneFrames := 0 }).note 0x1106 []).lower 0x1105 c
  else s

/-- Consumer heartbeats (1016h, CiA 301): node in bits 23-16, time in ms in bits 15-0. -/
def watchedBeat (s : State) (node : Nat) : Option Nat :=
  ((List.range 32).map fun i => s.cfgU 0x1016 (i + 1)).find? fun e => e % 65536 != 0 && e / 65536 % 128 == node && node != 0

/-- A heartbeat frame 700h + node. -/
def beatIn (s : State) (c id : Nat) : State :=
  let node := id - 0x700
  if id ≤ 0x700 ∨ 0x77F < id ∨ (s.watchedBeat node).isNone then s else
  let x := s.canC c
  let s := match tfind x.beats node with
    | some (_, true) => s.note 0x110D [c, node, 2]
    | _ => s
  s.setCanC c { s.canC c with beats := tset x.beats node (s.clk.time, false) }

/-- A unit status message of another unit is its heartbeat on the watched path (R449, R492). -/
def statusIn (s : State) (c id : Nat) (data : List Byte) : State :=
  match s.others.find? fun u => s.cfgU 0x4220 1 + u == id with
  | some u =>
    if s.cfgU 0x3E00 4 = c + 1 ∧ data.length = 12 ∧ leAt data 2 2 = u then
      s.setUnit u { s.unit u with field := some s.clk.frame }
    else s
  | none => s

/-- Timing fields of a found rate, kbit/s, at a sample point of `a`/`b` (R478, R479): prescaler, S1, S2, SJW. -/
def foundTiming (rate a b : Nat) : List Nat :=
  let p := Config.detectP rate
  let total := 80000 / rate / p
  let s1 := total * a / b - 1
  [p, s1, total - 1 - s1, Config.detectSjw rate]

/-- The nominal and data candidates, kbit/s. -/
def nominalRates : List Nat := [1000, 500, 250, 125]
def dataRates : List Nat := [8000, 5000, 4000, 2000, 1000]

def putTiming (s : State) (c first : Nat) (l : List Nat) : State :=
  foldS s ((List.range 4).zip l) fun s p => s.putBoth (canObj c) (first + p.1) (.u p.2)

/-- A frame heard in rate detection (R479): 8 in a row without error lock a rate. -/
def detectFrame (s : State) (c : Nat) (fd good : Bool) : State :=
  let x := s.canC c
  if s.cfgU (canObj c) 2 ≠ 2 ∨ (x.locked ∧ x.dLocked) then s
  else if !good then
    s.setCanC c { x with good := if x.locked then x.good else 0, dGood := if x.dLocked then x.dGood else 0,
                         dCand := if fd && !x.dLocked then (x.dCand + 1) % 5 else x.dCand }
  else
    let g := if x.locked then x.good else x.good + 1
    let d := if fd && !x.dLocked then x.dGood + 1 else x.dGood
    let lockN := !x.locked && decide (8 ≤ g)
    let lockD := !x.dLocked && decide (8 ≤ d)
    let s := s.setCanC c { x with good := g, dGood := d, locked := x.locked || lockN, dLocked := x.dLocked || lockD }
    let nom := nth 0 nominalRates x.cand
    let dat := nth 0 dataRates x.dCand
    let s := if lockN then s.putTiming c 3 (foundTiming nom 4 5) else s
    let s := if lockD then s.putTiming c 7 (foundTiming dat 3 4) else s
    if (lockN && !x.dLocked && !lockD) then s.note 0x1109 [nom, 0]
    else if (lockN || lockD) && (x.locked || lockN) then s.note 0x1109 [nom, dat] else s

/-- A frame received by controller c (R481). -/
def canIn (s : State) (c id : Nat) (fd : Bool) (data : List Byte) (sof : Nat) (good : Bool) : State :=
  if !s.canHears c then s else
  let s := s.detectFrame c fd good
  if !good then s else
  let s := (s.incU (canCnt c) 1).aloneEnds c
  let s := s.setCanC c { s.canC c with heard := true }
  let s := (s.beatIn c id).statusIn c id data
  match s.fifoOf c id with
  | some f => s.fifoPut c f { id := id, data := data, sof := sof, node := if id = 0x600 + s.canNode then s.canNode else 0 }
  | none => s

/-! Errors (R486-R489). -/

/-- Every thruster whose commands use controller c has another path (Table 19-2). -/
def otherPaths (s : State) (c : Nat) : Bool :=
  (List.range 32).all fun j =>
    let m := s.cfgU (0x4240 + j) 1
    !bit m c || m % 16 != 2 ^ c || (s.driveNode j).isSome

/-- Bus-off: every pending message is cancelled; the third within 60 s holds the controller off. -/
def busOff (s : State) (c : Nat) : State :=
  let x := s.canC c
  let t := s.clk.time
  let offs := (x.offs.filter fun a => t < a + 60000000000) ++ [t]
  let held : Bool := 3 ≤ offs.length
  let s := s.setCanC c { x with off := true, offAt := t, offs := offs, recovering := false, held := held, tx := [], sdoOut := [] }
  let s := (s.incU (canCnt c) 3).alarm 0x1103 c (if s.otherPaths c then 2 else 1) []
  if held then s.alarm 0x1107 c 1 [] else s

/-- The error counters of controller c take new values: the levels they cross (Table 19-2). -/
def setErrors (s : State) (c tec rec' : Nat) : State :=
  let x := s.canC c
  let warn : Bool := decide (96 ≤ tec) || decide (96 ≤ rec')
  let passive : Bool := decide (128 ≤ tec) || decide (128 ≤ rec')
  let s := s.setCanC c { x with tec := tec, rec' := rec', warn := warn, passive := passive }
  let s := if warn != x.warn || (x.passive && !passive) then s.note 0x1101 [c, tec, rec'] else s
  let s := if passive && !x.passive then s.alarm 0x1102 c 1 []
    else if x.passive && !passive then s.lower 0x1102 c else s
  if 255 < tec && !x.off then s.busOff c else s

/-! Sending (R484, R485, R490, R492, R497). -/

/-- Order of arbitration: the standard identifier stands in the upper 11 of 29 bits and wins against an extended one. -/
def arbitration (id : Nat) : Nat := if bit id 31 then 2 * (id % 2 ^ 29) + 1 else 2 * (id % 2048 * 2 ^ 18)

/-- The message of the next attempt: one already begun, else the lowest identifier. -/
def nextTx (x : CanCtl) : Option CanMsg :=
  match x.tx.find? (·.begun) with
  | some m => some m
  | none => argMin (fun m => (arbitration m.id : Rat)) x.tx

/-- Remove one copy of a message. -/
def dropTx (x : CanCtl) (m : CanMsg) : CanCtl := { x with tx := x.tx.erase m }

/-- Command record of thruster j on controller c: fields 0-4 and the sequence of its identifier (R490). -/
def canCommand (s : State) (c j : Nat) : State :=
  let id := s.cfgU (0x4240 + j) 2
  let n : Node := { id := s.cfgU (0x4240 + j) 4, kind := 1, nets := 0, mac := [], thruster := j, fields := 0, ints := 0,
                    timeout := 0, lossClass := 0, failAction := s.cfgU (0x4240 + j) 6, driveTimeout := s.cfgU (0x4240 + j) 5 }
  let q := tget 0 s.can.seq id
  let data := ((s.cmdRecord n).words.map (natLe 4)).flatten ++ natLe 4 q
  s.canQueue c { id := id, kind := .command j, fd := true, data := data }

/-- The command records of a frame on controller c: the Lead, with FD on. -/
def queueCommands (s : State) (c : Nat) : State :=
  if s.st.role ≠ 0 ∨ s.cfgU (canObj c) 0x0B = 0 then s else
  foldS s ((List.range 32).filter fun j => bit (s.cfgU (0x4240 + j) 1) c) fun s j => s.canCommand c j

/-- The unit status message (R492), an FD frame of 12 bytes. -/
def queueStatus (s : State) (c : Nat) : State :=
  if s.cfgU (canObj c) 0x0B = 0 then s else
  s.canQueue c { id := s.cfgU 0x4220 1 + s.st.unitId, kind := .status, fd := true,
                 data := ((s.unitStatus.words).map (natLe 4)).flatten }

def queueCyclic (s : State) (c : Nat) : State := (s.queueCommands c).queueStatus c

/-- Cancel the unsent copies of the cyclic messages of controller c; the reference message has its own time (R497). -/
def cancelCyclic (s : State) (c : Nat) : State :=
  let x := s.canC c
  let old := x.tx.filter fun m => m.kind.cyclic && m.kind != .reference && !m.begun
  let s := s.setCanC c { x with tx := x.tx.filter fun m => !old.contains m }
  foldS s old fun s m => match m.kind with
    | .command j =>
      let s := (s.incU (canCnt c) 6).alarm 0x1108 c 1 [c, j]
      s.setCanC c { s.canC c with calm := 0 }
    | _ => s

/-- The sequences of the identifiers sent in this frame advance by one (R490). -/
def advanceSeqs (s : State) : State :=
  let ids := (((List.range 32).filter fun j => s.cfgU (0x4240 + j) 1 != 0).map fun j => s.cfgU (0x4240 + j) 2).eraseDups
  if s.st.role ≠ 0 then s else
  s.setCan { s.can with seq := ids.foldl (fun l id => tset l id ((tget 0 l id + 1) % 2 ^ 32)) s.can.seq }

/-- A message leaves its buffer once sent; a reference message carries the mark of its own start of frame (R497). -/
def sentOk (s : State) (c : Nat) (m : CanMsg) (sof : Nat) : State :=
  let x := dropTx (s.canC c) m
  let ntu := ns (s.cfgR 0x3868 2 / 1000000)
  let x := if m.kind = .reference then
      { x with refSent := m.data ++ [Config.refByte sof] ++ natLe 2 (sof / max 1 ntu) } else x
  let s := if m.kind.cyclic then s.probe 6 c (((sof : Rat) - (s.clk.bound + 60000 : Nat)) / 1000) else s
  ((s.setCanC c { x with tries := x.tries + 1 }).incU (canCnt c) 2).setErrors c (x.tec - 1) x.rec'

/-- Word 4270h:04h + c. -/
def canWord (s : State) (c : Nat) : Nat :=
  let x := s.canC c
  let m := s.cfgU (canObj c) 2
  let en := s.cfgB (canObj c) 1
  bitAt en 15 + bitAt (en && (m == 1 || m == 2)) 14 + bitAt (en && m == 2 && !x.locked) 13 + bitAt (en && x.locked) 12 +
    bitAt x.alone 11 + bitAt x.off 10 + bitAt x.passive 9 + bitAt x.warn 8 + bitAt x.held 7 +
    bitAt (s.st.role == 0 && bit (s.cfgU 0x3868 1) c) 6

def publishCan (s : State) : State :=
  s.publish 0x4270 ((List.range 4).map (fun c => .u (s.canWord c)) ++
    (List.range 4).map (fun c => .u ((s.canC c).rec' % 65536 * 65536 + (s.canC c).tec % 65536)))

/-! Frame work (R483, R485, R489). -/

/-- Nothing but acknowledgement errors and nothing heard in this frame (R489). -/
def loneFrame (x : CanCtl) : Bool := 0 < x.tries && x.ackErr == x.tries && !x.heard

def countLone (s : State) (c : Nat) : State :=
  let x := s.canC c
  let calm := x.calm + 1
  let s := if calm = 800 then s.lower 0x1108 c else s
  s.setCanC c { x with
    aloneFrames := if loneFrame x then x.aloneFrames + 1 else 0, tries := 0, ackErr := 0, heard := false, calm := calm }

/-- A feedback record (R490): 24 bytes with a newer sequence, or the first one or the first after silence. -/
def canFeedback (s : State) (j : Nat) (m : CanRx) : State :=
  if m.data.length ≠ 24 then s else
  let q := leAt m.data 20 4
  let ok := match tfind s.can.fbSeq j with
    | some old => newerMod (2 ^ 32) q old || s.ctl.stook.silent.contains j
    | none => true
  if !ok then s else
  let s := s.setCan { s.can with fbSeq := tset s.can.fbSeq j q }
  s.takeFeedback j (s.cfgU (0x4240 + j) 4) m.sof m.sof ((List.range 5).map fun i => leAt m.data (4 * i) 4)

/-- One frame of FIFO 0. -/
def drain0 (s : State) (c : Nat) (m : CanRx) : State :=
  match (List.range 32).find? fun j => bit (s.cfgU (0x4240 + j) 1) c && s.cfgU (0x4240 + j) 3 == m.id with
  | some j => s.canFeedback j m
  | none =>
    if (List.range 512).any fun n => !bit (s.cfgU (0x1400 + n) 1) 31 && cobId (s.cfgU (0x1400 + n) 1) == m.id then
      s.setCan { s.can with rpdo := s.can.rpdo ++ [(c, m)] }
    else s

/-- Both FIFOs are drained in arrival order at the start of a frame (R483): feedback is accepted, RPDOs wait for
RPDO_APPLY, SDO requests for their rows. -/
def drain (s : State) (c : Nat) : State :=
  let x := s.canC c
  let req := x.fifo1.filter fun m => m.node != 0 && m.data.length == 8
  let s := s.setCanC c { x with fifo0 := [], fifo1 := [], sdoIn := x.sdoIn ++ req.map fun m => (m.node, m.data) }
  foldS s x.fifo0 fun s m => s.drain0 c m

/-- The controllers' work at a frame boundary. -/
def canFrame (s : State) : State :=
  let s := foldS s (List.range 4) countLone
  let s := s.publishCan
  foldS s (List.range 4) drain

end State

/-! Commands. -/

/-- CAN_TIMING_WRITE (R478): a write of 4200h + c:03h-0Ah. -/
def execCanTimingWrite (p : Path) (c sub : Nat) (b : List Byte) (s : State) : Out :=
  if s.up && c < 4 && 3 ≤ sub && sub ≤ 0x0A then .next (s.writeTiming p (State.canObj c) sub b) else .next s

/-- FILTER_LIST_WRITE (R482): a write of 4210h + c:00h. -/
def execFilterListWrite (p : Path) (c : Nat) (b : List Byte) (s : State) : Out :=
  if s.up && c < 4 then .next (s.writeWith State.ruleFilter p (0x4210 + c) 0 b) else .next s

/-- CAN_RESTART (R488): a write of 4200h + c:0Dh. -/
def execCanRestart (p : Path) (c : Nat) (b : List Byte) (s : State) : Out :=
  if s.up && c < 4 then .next (s.writeWith State.ruleCanRestart p (State.canObj c) 0x0D b) else .next s

/-- CAN_FRAME_RECEIVED (R481): controller, identifier (bit 31 extended), FD with bit-rate switch, data, start-of-frame
stamp, received without error. -/
def execCanFrameReceived (c id : Nat) (fd : Bool) (data : List Byte) (sof : Nat) (good : Bool) (s : State) : Out :=
  .next (s.canIn c id fd data sof good)

/-- RPDO_RECEIVED (R495): a frame on the receive identifier of an enabled RPDO. -/
def execRpdoReceived (c id : Nat) (fd : Bool) (data : List Byte) (sof : Nat) (s : State) : Out :=
  if (List.range 512).any fun n => !bit (s.cfgU (0x1400 + n) 1) 31 && State.cobId (s.cfgU (0x1400 + n) 1) == id then
    .next (s.canIn c id fd data sof true)
  else .next s

/-- CAN_CYCLIC_QUEUE (R485): 60 µs into a frame; `begun` lists the messages (controller, identifier) whose start of frame
has been sent. -/
def execCanCyclicQueue (begun : List (Nat × Nat)) (s : State) : Out :=
  if !(s.up && s.mode.mode != 7) then .next s else
  let mark : State := foldS s (List.range 4) fun s c =>
    let x := s.canC c
    s.setCanC c { x with tx := x.tx.map fun m => if begun.contains (c, m.id) then { m with begun := true } else m }
  let s := foldS mark (List.range 4) State.cancelCyclic
  let s := foldS s (List.range 4) State.queueCyclic
  .next s.advanceSeqs

/-- CAN_TRANSMIT_DONE (R484): the attempt of controller c's next message has ended, with its start-of-frame stamp:
result 0 acknowledged, 1 acknowledgement error, 2 another error. -/
def execCanTransmitDone (c result sof : Nat) (s : State) : Out :=
  if !(s.canSends c) then .next s else
  match State.nextTx (s.canC c) with
  | none => .next s
  | some m =>
    if result = 0 then .next (((s.sentOk c m sof).aloneEnds c).sdoNext c) else
    let x := s.canC c
    let y := if x.alone then State.dropTx x m
      else { x with tx := x.tx.map fun k => if k = m then { k with begun := false } else k }
    let y := { y with tries := y.tries + 1, ackErr := y.ackErr + (if result = 1 then 1 else 0) }
    let s := s.setCanC c y
    let s := if result = 1 then s.incU (State.canCnt c) 4 else s
    .next ((s.setErrors c (if result = 1 && x.passive then x.tec else x.tec + 8) x.rec').sdoNext c)

/-- CAN_ERROR_STATE_CHANGE (R486): the error counters of controller c; they stand still in modes 1 and 2 (R480). -/
def execCanErrorStateChange (c tec rec' : Nat) (s : State) : Out :=
  .next (if s.canHears c && s.cfgU (State.canObj c) 2 == 0 then s.setErrors c tec rec' else s)

/-- BUS_OFF_RECOVERY_START (R487): after the recovery delay. -/
def execBusOffRecoveryStart (c : Nat) (s : State) : Out :=
  let x := s.canC c
  if s.up && c < 4 && x.off && !x.held && !x.recovering &&
      decide (x.offAt + State.ns (s.cfgR (State.canObj c) 0x0C / 1000) ≤ s.clk.time) then
    .next (s.setCanC c { x with recovering := true })
  else .next s

/-- BUS_OFF_RECOVERED (R487): the first queue holds the cyclic messages of the frame in progress. -/
def execBusOffRecovered (c : Nat) (s : State) : Out :=
  let x := s.canC c
  if !(s.up && c < 4 && x.recovering) then .next s else
  let s := s.setCanC c { x with
    off := false, recovering := false, tec := 0, rec' := 0, warn := false, passive := false, tx := [], sdoOut := [] }
  let cls := match s.faults.find? fun f => f.code == 0x1103 && f.inst == c with
    | some f => f.cls
    | none => 0
  let s := ((s.record 0x1104 cls []).note 0x1101 [c, 0, 0]).lower 0x1103 c
  .next ((s.lower 0x1102 c).queueCyclic c)

/-- CONTROLLER_ALONE (R489): at the end of the third frame. -/
def execControllerAlone (c : Nat) (s : State) : Out :=
  let x := s.canC c
  if s.canSends c && !x.alone && (3 ≤ x.aloneFrames || (x.aloneFrames == 2 && State.loneFrame x)) then
    .next ((s.setCanC c { x with alone := true }).alarm 0x1105 c 1 [])
  else .next s

/-- BIT_RATE_CANDIDATE (R479): 100 ms on a candidate without lock. -/
def execBitRateCandidate (c : Nat) (s : State) : Out :=
  let x := s.canC c
  if s.canHears c && s.cfgU (State.canObj c) 2 == 2 && !x.locked && decide (x.since + 100000000 ≤ s.clk.time) then
    .next (s.setCanC c { x with cand := (x.cand + 1) % 4, since := s.clk.time, good := 0 })
  else .next s

/-- CAN_REFERENCE_MESSAGE (R358, R497): the frame boundary that opens a basic cycle; an unsent one is cancelled, and the
cycle count advances. -/
def execCanReferenceMessage (c : Nat) (s : State) : Out :=
  let x := s.canC c
  if !(s.canSends c && s.st.role == 0 && bit (s.cfgU 0x3868 1) c && s.clk.frame % s.cfgU 0x3868 3 == 0 &&
      x.refAt != some s.clk.frame) then .next s else
  let x := { x with
    tx := x.tx.filter fun m => m.kind != .reference || m.begun, refAt := some s.clk.frame,
    cycle := (x.cycle + 1) % s.cfgU 0x4220 3 }
  .next ((s.setCanC c x).canQueue c
    { id := s.cfgU 0x4220 2, kind := .reference, fd := false, data := [BitVec.ofNat 8 ((s.canC c).cycle % 64)] })

/-- CONSUMER_HEARTBEAT_LOSS (R496): a heartbeat heard before has not come within its time. -/
def execConsumerHeartbeatLoss (c node : Nat) (s : State) : Out :=
  match tfind (s.canC c).beats node, s.watchedBeat node with
  | some (t, lost), some e =>
    if s.canHears c && !lost && decide (t + e % 65536 * 1000000 ≤ s.clk.time) then
      .next ((s.setCanC c { s.canC c with beats := tset (s.canC c).beats node (t, true) }).note 0x110D [c, node, 1])
    else .next s
  | _, _ => .next s

/-- NMT_COMMAND (R496): ignored. -/
def execNmtCommand (_c _cmd _node : Nat) (s : State) : Out := .next s

end Sys2Proof.Machine
end

