-- ==== Sys2Proof/Machine/Chaff.lean ====
section
/-! DEFINITION. The Chaff filter and decimation chain (chapter 06). -/
namespace Sys2Proof.Machine

/-! Numbers (R145): a sample is an integer in units of 2^-31. -/

def maxS : Int := 2147483647
/-- Round to the nearest and saturate to 32 bits; the second value tells whether it saturated. -/
def satS (x : Rat) : Int × Bool :=
  let z := roundAway x
  if z < -maxS - 1 then (-maxS - 1, true) else if maxS < z then (maxS, true) else (z, false)

/-- Effective value of a coefficient (R145). -/
def ChStage.coef (c : ChStage) (i : Nat) : Rat := ((nth 0 c.coeffs i : Int) : Rat) / ((2 ^ (23 - c.shift) : Nat) : Rat)
/-- Number of coefficients of a stage record (Table 6-4). -/
def coefCount (kind length : Nat) : Nat := if kind = 1 then length else if kind = 2 then 5 * length else 0

/-- A notch's coefficients b0, b1, b2, a1, a2 at a stage input rate (R144). -/
def ChStage.notch (c : ChStage) (rate : Rat) : List Rat :=
  let w := 2 * Config.pi * c.fc / rate
  let rho := 1 - Config.pi * c.b / rate
  let cw := Config.cos w
  let g := (1 - 2 * rho * cw + rho * rho) / (2 - 2 * cw)
  [g, -(2 * g * cw), g, -(2 * rho * cw), rho * rho]
/-- α of a first-order low-pass (R143). -/
def ChStage.alpha (c : ChStage) (rate : Rat) : Rat := 1 - Config.exp (-(1 / (rate * c.a)))

/-- One biquad section in transposed direct form II: output, two states, saturation. -/
def biquad (k : List Rat) (x s1 s2 : Int) : Int × Int × Int × Bool :=
  let (y, h0) := satS (vget k 0 * x + s1)
  let (a, h1) := satS (vget k 1 * x - vget k 3 * y + s2)
  let (b, h2) := satS (vget k 2 * x - vget k 4 * y)
  (y, a, b, h0 || h1 || h2)

/-- The sections of an IIR stage from section i on. -/
def sections (c : ChStage) : Nat → Nat → Int → List Int × Int × Bool
  | 0, _, x => ([], x, false)
  | n + 1, i, x =>
    let k := (List.range 5).map fun j => c.coef (5 * i + j)
    let (y, a, b, h) := biquad k x (nth 0 c.st (2 * i)) (nth 0 c.st (2 * i + 1))
    let (st, z, h') := sections c n (i + 1) y
    (a :: b :: st, z, h || h')

/-- One input sample through a stage: the new stage, its output sample with the index at its rate, saturation (R143-R146). -/
def stageStep (c : ChStage) (rate : Rat) (idx : Nat) (x : Int) : ChStage × Option (Nat × Int) × Bool :=
  match c.kind with
  | 1 =>
    let line := (x :: c.st).take c.length
    let c := { c with st := line }
    if idx % c.dec = c.dec - 1 then
      let (y, h) := satS (rsum ((List.range c.length).map fun i => c.coef i * ((nth 0 line i : Int) : Rat)))
      (c, some (idx / c.dec, y), h)
    else (c, none, false)
  | 2 =>
    let (st, y, h) := sections c c.length 0 x
    ({ c with st := st }, some (idx, y), h)
  | 3 =>
    let (y, a, b, h) := biquad (c.notch rate) x (nth 0 c.st 0) (nth 0 c.st 1)
    ({ c with st := [a, b] }, some (idx, y), h)
  | _ =>
    let y0 := nth 0 c.st 0
    let (y, h) := satS ((y0 : Rat) + c.alpha rate * ((x - y0 : Int) : Rat))
    ({ c with st := [y] }, some (idx, y), h)

/-! Characterisation (Table 6-2, R147). -/

/-- Pole radius of a section. -/
def sectionRadius (a1 a2 : Rat) : Rat :=
  let d := a1 * a1 - 4 * a2
  if d < 0 then rsqrt a2 else (rabs a1 + rsqrt d) / 2
/-- Both poles of a section lie inside radius r (exact test). -/
def polesInside (r a1 a2 : Rat) : Bool := decide (rabs a2 < r * r) && decide (rabs a1 * r < r * r + a2)

/-- 12 ln 2 over -ln ρ, rounded up. -/
def decaySamples (rho : Rat) : Nat := (8318 / 1000 / -(Config.ln rho)).ceil.toNat

/-- Settling of a stage in its input samples. -/
def ChStage.settle (c : ChStage) (rate : Rat) : Nat :=
  match c.kind with
  | 1 => c.length - 1
  | 2 => max c.declared (decaySamples (((List.range c.length).map fun i => sectionRadius (c.coef (5 * i + 3)) (c.coef (5 * i + 4))).foldl rmax 0))
  | 3 => decaySamples (1 - Config.pi * c.b / rate)
  | _ => decaySamples (1 - c.alpha rate)

/-- Group delay in samples of the polynomial Σ p_n z^-n at ω. -/
def polyDelay (p : List Rat) (w : Rat) : Rat :=
  let n := List.range p.length
  let re := rsum (n.map fun (i : Nat) => vget p i * Config.cos (w * i))
  let im := -(rsum (n.map fun (i : Nat) => vget p i * Config.sin (w * i)))
  let re1 := rsum (n.map fun (i : Nat) => (i : Rat) * vget p i * Config.cos (w * i))
  let im1 := -(rsum (n.map fun (i : Nat) => (i : Rat) * vget p i * Config.sin (w * i)))
  let m := re * re + im * im
  if m = 0 then Config.nullDelay w else (re1 * re + im1 * im) / m

/-- Group delay of a stage in its input samples at the reference frequency. -/
def ChStage.delay (c : ChStage) (rate ref : Rat) : Rat :=
  let w := 2 * Config.pi * ref / rate
  match c.kind with
  | 1 =>
    if c.variant = 0 then ((c.length - 1 : Nat) : Rat) / 2
    else polyDelay ((List.range c.length).map c.coef) w
  | 2 => rsum ((List.range c.length).map fun i =>
      polyDelay ((List.range 3).map fun j => c.coef (5 * i + j)) w - polyDelay [1, c.coef (5 * i + 3), c.coef (5 * i + 4)] w)
  | 3 =>
    let k := c.notch rate
    polyDelay (k.take 3) w - polyDelay (1 :: k.drop 3) w
  | _ =>
    let a := c.alpha rate
    if ref = 0 then (1 - a) / a else -(polyDelay [1, a - 1] w)

/-- Cycles of a stage for `n` inputs in a frame, and its outputs in the busiest frame. -/
def ChStage.cycles (c : ChStage) (n : Nat) : Nat × Nat :=
  match c.kind with
  | 1 => let out := (n + c.dec - 1) / c.dec
         (out * ((c.length + 3) / 4 + 2), out)
  | 2 => (3 * c.length * n, n)
  | 3 => (3 * n, n)
  | _ => (n, n)

/-- Stage input rates along a chain. -/
def stageRates : List ChStage → Rat → List Rat
  | [], r => [r]
  | c :: t, r => r :: stageRates t (r / c.dec)

/-- Totals of a chain: output rate, delay s, settling s, cycles, outputs per frame. -/
structure ChainFacts where
  out : Rat
  delay : Rat
  settle : Rat
  cycles : Nat
  perFrame : Nat

def chainFacts (ref : Rat) : List ChStage → Rat → Nat → ChainFacts
  | [], r, n => ⟨r, 0, 0, 40, n⟩
  | c :: t, r, n =>
    let (cy, m) := c.cycles n
    let f := chainFacts ref t (r / c.dec) m
    if r = 0 then { f with cycles := f.cycles + cy }
    else { f with delay := f.delay + c.delay r ref / r, settle := f.settle + c.settle r / r, cycles := f.cycles + cy }

/-! Records (Table 6-4). -/

/-- Stage records of a channel record. -/
def parseStages : Nat → List Byte → Option (List ChStage × List Byte)
  | 0, b => some ([], b)
  | n + 1, b =>
    let kind := leAt b 0 1
    let len := leAt b 2 1
    let k := coefCount kind len
    if b.length < 16 + 4 * k then none else
    let f := fun i => F32.toRat (BitVec.ofNat 32 (leAt b i 4))
    let c : ChStage := {
      kind := kind, variant := leAt b 1 1, length := len, dec := leAt b 3 1, shift := leAt b 4 1, declared := leAt b 6 2,
      a := f 8, b := f 12, coeffs := (List.range k).map fun i => toSigned 32 (leAt b (16 + 4 * i) 4) }
    (parseStages n (b.drop (16 + 4 * k))).map fun r => (c :: r.1, r.2)

/-- A channel record: its bytes, channel and stages; `bad` when its stage count or reserved field is out of range. -/
structure ChRec where
  bytes : List Byte
  chan : Nat
  stages : List ChStage
  bad : Bool := false

/-- One channel record and the bytes after it. -/
def parseRecord (b : List Byte) : Option (ChRec × List Byte) :=
  if b.length < 20 then none
  else if 8 < leAt b 1 1 ∨ leAt b 2 2 ≠ 0 then some (⟨b.take 20, leAt b 0 1, [], true⟩, [])
  else (parseStages (leAt b 1 1) (b.drop 20)).map fun r => (⟨b.take (b.length - r.2.length), leAt b 0 1, r.1, false⟩, r.2)

/-- The records of a set, up to one whose stage count or reserved field is out of range: nothing after it can be delimited. -/
def parseRecords : Nat → List Byte → Option (List ChRec)
  | 0, b => if b = [] then some [] else none
  | n + 1, b => match parseRecord b with
    | none => none
    | some (r, t) => if r.bad then some [r] else (parseRecords n t).map (r :: ·)

def recF (b : List Byte) (i : Nat) : Rat := F32.toRat (BitVec.ofNat 32 (leAt b i 4))
def recFin (b : List Byte) (i : Nat) : Bool := F32.finite (BitVec.ofNat 32 (leAt b i 4))

/-- Records 1 to 256 in ascending channel order. -/
def chaffBody (p : SetParts) : Option (List ChRec) :=
  match parseRecords p.count p.body with
  | some l =>
    let ns := l.map (·.chan)
    if 1 ≤ l.length ∧ l.length ≤ 256 ∧ (List.zip ns (ns.drop 1)).all (fun q => decide (q.1 < q.2)) then some l else none
  | none => none

namespace State

def chan (s : State) (n : Nat) : Chan := tget {} s.chaff.chans n
def setChan (s : State) (n : Nat) (c : Chan) : State := { s with chaff := { s.chaff with chans := tset s.chaff.chans n c } }

/-- Stages of the chain of a channel as a record gives it. -/
def stagesOf (rec' : List Byte) : List ChStage := match parseRecord rec' with
  | some r => r.1.stages
  | none => []

/-- The record of a channel that no set has named: 0 stages, scales 1, offset 0 (Table 6-5). -/
def defaultRecord (n : Nat) : List Byte :=
  [BitVec.ofNat 8 n, 0, 0, 0] ++ natLe 4 0 ++ natLe 4 0x3F800000 ++ natLe 4 0x3F800000 ++ natLe 4 0
/-- The chain in force of a channel as a record (R155). -/
def chainRecord (s : State) (n : Nat) : List Byte :=
  if (s.chan n).record = [] then defaultRecord n else (s.chan n).record

/-- Input rate and inputs per frame of a channel under sources and chains given (R139); `fuel` bounds a cascade. -/
def inRate (src : Nat → Nat × Nat) (chain : Nat → List ChStage) : Nat → Nat → Rat × Nat
  | 0, _ => (0, 0)
  | fuel + 1, n =>
    match src n with
    | (1, _) => (8000, 10)
    | (2, _) => (800, 1)
    | (3, a) =>
      let up := a % 256
      if n ≤ up then (0, 0) else
      let (r, k) := inRate src chain fuel up
      let f := chainFacts 0 (chain up) r k
      (f.out, f.perFrame)
    | _ => (0, 0)

/-! The checks of a set (R154). -/

/-- Reason of the first failure of a stage, 0 when it passes. -/
def stageReason (c : ChStage) (raw : List Byte) (at' : Nat) (rate : Rat) : Nat :=
  let k := coefCount c.kind c.length
  let inRange := c.kind ≥ 1 && c.kind ≤ 4 &&
    (if c.kind = 1 then decide (1 ≤ c.length) && decide (c.length ≤ 64) && decide (c.variant ≤ 1) &&
        decide (1 ≤ c.dec) && decide (c.dec ≤ 16)
     else c.variant == 0 && c.dec == 1 && (if c.kind = 2 then decide (1 ≤ c.length) && decide (c.length ≤ 4) else c.length == 1)) &&
    decide (c.shift ≤ 7) && leAt raw (at' + 5) 1 == 0 && (c.kind == 2 || c.declared == 0) &&
    recFin raw (at' + 8) && recFin raw (at' + 12) &&
    (match c.kind with
      | 3 => decide (0 ≤ c.a) && decide (0 < c.b)
      | 4 => decide (0 < c.a) && c.b == 0
      | _ => c.a == 0 && c.b == 0) &&
    (List.range k).all fun i => decide (-8388608 ≤ nth 0 c.coeffs i) && decide (nth 0 c.coeffs i ≤ 8388607)
  if !inRange then 1
  else if c.kind = 1 ∧ c.variant = 0 ∧ c.coeffs ≠ c.coeffs.reverse then 2
  else if c.kind = 2 ∧ !((List.range c.length).all fun i => polesInside (4095 / 4096) (c.coef (5 * i + 3)) (c.coef (5 * i + 4))) then 3
  else if c.kind = 3 ∧ 100 < rate then 4
  else 0

/-- Byte positions of the stage records. -/
def stageAt : List ChStage → Nat → List Nat
  | [], _ => []
  | c :: t, at' => at' :: stageAt t (at' + 16 + 4 * coefCount c.kind c.length)

/-- First failure word of a record (2901h:03h), 0 when it passes: stages count from 1 as in Table 6-3; 1,880 cycles of stage
work stand beside the overhead of 40. -/
def recordReason (src : Nat → Nat × Nat) (recs : Nat → List Byte) (r : ChRec) : Nat :=
  let word := fun (reason st : Nat) => reason * 65536 + r.chan * 256 + st
  let (rate, k) := inRate src (fun n => stagesOf (recs n)) 256 r.chan
  let rates := stageRates r.stages rate
  let facts := chainFacts (recF r.bytes 4) r.stages rate k
  let head := !r.bad && recFin r.bytes 4 && recFin r.bytes 8 && recFin r.bytes 12 && recFin r.bytes 16 &&
    decide (0 ≤ recF r.bytes 4) && decide (recF r.bytes 4 ≤ facts.out / 2) && recF r.bytes 8 != 0 && recF r.bytes 12 != 0
  let ats := stageAt r.stages 20
  let bad := (List.range r.stages.length).find? fun i => match r.stages[i]? with
    | some c => stageReason c r.bytes (nth 0 ats i) (nth 0 rates i) != 0
    | none => false
  if !head then word 1 255
  else match bad with
    | some i => match r.stages[i]? with
      | some c => word (stageReason c r.bytes (nth 0 ats i) (nth 0 rates i)) (i + 1)
      | none => 0
    | none =>
      if 1880 + 40 < facts.cycles then word 5 255
      else if (src r.chan).1 = 3 ∧ r.chan ≤ (src r.chan).2 % 256 then word 6 255 else 0

/-- Channels bound to an enabled stream (R155). -/
def boundChans (s : State) : List Nat :=
  (List.range 256).filterMap fun k =>
    if s.cfgB (0x2400 + k) 1 ∧ s.cfgU (0x2400 + k) 3 = 6 then some (s.cfgU (0x2400 + k) 4 % 256) else none

/-- Own rule of 2900h:00h (R153-R155). -/
def ruleChaffSet (s : State) (_ : Path) (_ _ : Nat) (v : Val) : Verdict :=
  let refuse := fun (s : State) (a w : Nat) => Verdict.refuse a ((if a = abSet then s.putU 0x2901 3 w else s).note 0x0404 [w])
  match parseSet "KCHF" v.asBytes with
  | none => refuse s abSet 0
  | some p =>
    match chaffBody p with
    | none => refuse s abSet 0
    | some l =>
      let changes := l.filter fun r => s.chainRecord r.chan != r.bytes
      if 1 ≤ s.mode.mode ∧ s.mode.mode ≤ 5 ∧ changes.any (fun r => s.boundChans.contains r.chan) then
        .refuse abMode (s.note 0x0102 [0x2900 * 256, s.mode.mode, 1, 0])
      else
        let (ok, s) := s.setSigned p
        if !ok then refuse s abSign 0 else
        let src := fun n => (s.objU (0x2800 + n) 1, s.objU (0x2800 + n) 2)
        let recs := fun n => match l.find? (fun r => r.chan == n) with
          | some r => r.bytes
          | none => (s.chan n).record
        match (l.map fun r => recordReason src recs r).find? (· != 0) with
        | some w => refuse s abSet w
        | none => .store

/-- Source objects 28xxh:01h, 02h stay in the range of Table 6-1: a cascade names a lower-numbered channel. -/
def ruleChaffSource (s : State) (_ : Path) (idx sub : Nat) (v : Val) : Verdict :=
  let src := s.would idx sub v idx 1
  let adr := s.would idx sub v idx 2
  let ok := match src with
    | 1 => decide (adr < 16)
    | 2 => field adr 5 3 == 0 && decide (adr < 768)
    | 3 => decide (adr < idx - 0x2800)
    | _ => true
  if sub ≤ 2 ∧ !ok then .refuse abValue s else .store

/-! Restarts (R148-R150, R156). -/

/-- Facts of a channel's chain in force. -/
def chanFacts (s : State) (n : Nat) : Rat × ChainFacts :=
  let src := fun k => ((s.chan k).src, (s.chan k).addr)
  let (r, k) := inRate src (fun k => (s.chan k).stages) 256 n
  (r, chainFacts (s.chan n).ref (s.chan n).stages r k)

/-- Delay of the source τ_in in s (R147): an analog input, an encoder's acceleration; a cascade's is in its input instants. -/
def tauIn (s : State) (c : Chan) : Rat :=
  match c.src with
  | 1 => 250 / 1000000
  | 2 => if field c.addr 8 2 = 2 then 3 / (2 * Config.pi * s.cfgR (0x3A00 + c.addr % 32) 0x17) else 0
  | _ => 0

/-- Stated delay in s, with the upstream's for a cascade. -/
def statedDelay (s : State) : Nat → Nat → Rat
  | 0, _ => 0
  | fuel + 1, n =>
    let c := s.chan n
    let own := (s.chanFacts n).2.delay
    if c.src = 3 ∧ c.addr % 256 < n then statedDelay s fuel (c.addr % 256) + own else s.tauIn c + own

/-- Status word 28xxh:0Dh. -/
def chanWord (s : State) (n : Nat) : Nat :=
  let c := s.chan n
  bitAt (c.src != 0) 15 + bitAt c.settling 14 + bitAt (c.stages.any (·.stepLimited)) 13 + bitAt c.satLast 12 +
    bitAt c.overLast 11 + bitAt (c.src == 1 && decide (s.clk.time < c.fillUntil)) 10

/-- Report a channel's computed objects. -/
def putChan (s : State) (n : Nat) : State :=
  let i := 0x2800 + n
  let (r, f) := s.chanFacts n
  let c := s.chan n
  let fc := match c.stages.find? (·.kind == 3) with
    | some x => x.fc
    | none => 0
  let s := ((s.putR i 8 r).putR i 9 f.out).putR i 0x0A (s.statedDelay 256 n * 1000000)
  (((s.putR i 0x0B (f.settle * 1000000)).putU i 0x0C f.cycles).putR i 0x0E fc).putU i 0x0D (s.chanWord n)

/-- Report the computed objects of channels and of every channel that they feed (R147). -/
def putBelow (s : State) (l : List Nat) : State :=
  let all := (List.range 256).foldl (fun m n =>
    if m.contains n || ((s.chan n).src == 3 && m.contains ((s.chan n).addr % 256) && decide ((s.chan n).addr % 256 < n))
    then m ++ [n] else m) l
  foldS s all.eraseDups fun s n => s.putChan n

/-- The stages of a record. A tracking notch keeps its centre over a restart; one that is new starts at 0.10 Hz, or at the
observer's wave frequency once the observer has published (R144; log 148). -/
def startStages (s : State) (old : List ChStage) (rec' : List Byte) : List ChStage :=
  let l := stagesOf rec'
  (List.range l.length).filterMap fun i => (l[i]?).map fun x =>
    if x.kind ≠ 3 then x else if x.a ≠ 0 then { x with fc := x.a } else
    match old[i]? with
    | some y => if y.kind = 3 ∧ y.a = 0 then { x with fc := y.fc } else
        if s.obs.est.isSome then { x with fc := f32r s.obs.core.fw } else x
    | none => if s.obs.est.isSome then { x with fc := f32r s.obs.core.fw } else x

/-- Restart one channel with its source in force and a record, the samples before instant `t` gone (R148). -/
def restartWith (s : State) (n cause t : Nat) (rec' : List Byte) : State :=
  let c := s.chan n
  let i := 0x2800 + n
  let num := fun (at' sub : Nat) => if rec' = [] then s.cfgR i sub else recF rec' at'
  let s := s.setChan n { c with
    stages := s.startStages c.stages rec', ref := num 4 4, inScale := num 8 5, outScale := num 12 6, outOff := num 16 7,
    src := s.cfgU i 1, addr := s.cfgU i 2, settling := true, cause := cause, mark := true, due := [], up := false, fromT := t,
    tunes := [], fillUntil := if cause = 1 then s.clk.time + 500000 else c.fillUntil,
    latch := if cause = 1 then none else c.latch, satLast := false }
  -- the channels it feeds restart too (R148)
  let below := (List.range 256).filter fun m => n < m && (s.chan m).src == 3 && (s.chan m).addr % 256 == n
  let s := foldS s below fun s m => s.setChan m { s.chan m with up := true }
  (s.note 0x0406 [n, cause]).putBelow [n]

/-- Restart one channel with its record in force. -/
def restartChan (s : State) (n cause : Nat) : State := s.restartWith n cause s.clk.time (s.chan n).record

/-- Restart a channel for the changes that are ready, the last of them, or for its upstream's restart. -/
def restartDue (s : State) (n : Nat) (ready : List (Nat × Nat × List Byte)) : State :=
  let c := s.chan n
  match ready.getLast? with
  | some (e, cause, r) =>
    let s := s.restartWith n cause e r
    s.setChan n { s.chan n with due := c.due.filter fun d => e < d.1 }
  | none => if c.up then s.restartWith n 4 0 c.record else s

/-- Delay in ns from a channel's input instants to the frame that processes them: a cascade's input carries its upstream's
stated delay, but a change of source waits for no sample of the old source (log 149). -/
def inputLag (s : State) (n : Nat) : Rat :=
  let c := s.chan n
  if c.src = 3 ∧ c.addr % 256 < n ∧ s.cfgU (0x2800 + n) 1 = 3 ∧ s.cfgU (0x2800 + n) 2 = c.addr
  then s.statedDelay 256 (c.addr % 256) * 1000000000 else 0

/-- Retune a tracking notch to the wave frequency `w` (R144). -/
def retuneStage (w : Rat) (x : ChStage) (rate : Rat) : ChStage :=
  if x.kind ≠ 3 ∨ x.a ≠ 0 then x else
  let lim := x.fc / 50
  let d := w - x.fc
  { x with fc := rclamp (3 / 100) (4 / 10 * rate) (x.fc + rclamp (-lim) lim d), stepLimited := decide (lim < rabs d) }

/-- The retunes of a channel that are ready, in order: those whose epoch is at or before the instant `t`. -/
def retune (s : State) (n : Nat) (t : Rat) : State :=
  let c := s.chan n
  let ready := c.tunes.filter fun (p : Nat × Rat) => decide ((p.1 : Rat) ≤ t)
  if ready = [] then s else
  let rates := stageRates c.stages (s.chanFacts n).1
  let stages := ready.foldl (fun l p => List.zipWith (retuneStage p.2) l rates) c.stages
  (s.setChan n { c with stages := stages, tunes := c.tunes.filter fun (p : Nat × Rat) => !decide ((p.1 : Rat) ≤ t) }).putBelow [n]

/-- A channel's changes whose first sample, at or after their epoch, can come in this frame's slot. -/
def chanFrame (s : State) (n : Nat) : State :=
  let c := s.chan n
  let t := (s.clk.bound : Rat) - 1250000 - s.inputLag n
  let ready := if c.up then c.due else c.due.filter fun d => decide ((d.1 : Rat) ≤ t)
  let s := s.restartDue n ready
  s.retune n ((s.clk.bound : Rat) - 1250000 - s.inputLag n)

/-- The restarts of f0 wait in their channels from the epoch on: they take effect from the first sample at or after it, which an
input without delay brings in the frame after f0 (R138, R148, R156). -/
def chaffQueue (s : State) : State :=
  let s := foldS s s.chaff.pend fun s p =>
    let c := s.chan p.1
    s.setChan p.1 { c with due := c.due ++ [(s.clk.epoch, p.2, c.record)] }
  { s with chaff := { s.chaff with pend := [], grid := [] } }
/-- The retunes of the tracking notches by the estimate the sample in progress began with, from its epoch on (R144). -/
def chaffTunes (s : State) : State :=
  let tracks := fun (c : Chan) => c.stages.any fun x => x.kind == 3 && x.a == 0
  { s with chaff := { s.chaff with chans := s.chaff.chans.map fun p =>
    (p.1, if tracks p.2 then { p.2 with tunes := p.2.tunes ++ [(s.clk.epoch, f32r s.obs.core.fw)] } else p.2) } }
/-- The start of a frame: what waits in the channels moves on, and their outputs of the frame before are gone. -/
def chaffFrame (s : State) : State :=
  let s := s.chaffQueue
  let s := if s.fOff == 1 ∧ s.obs.est.isSome then s.chaffTunes else s
  let waits := fun n => let c := s.chan n; c.due != [] || c.up || c.tunes != [] || c.src == 3
  let s := foldS s ((List.range 256).filter waits) fun s n => s.chanFrame n
  { s with chaff := { s.chaff with chans := s.chaff.chans.map fun p => (p.1, { p.2 with ran := false, outs := [] }) } }

/-- The channels whose stated delay a change of an encoder's tracking bandwidth moves report it (R147, Table 14-2). -/
def chaffDelays (s : State) (old : List (Nat × Val)) : State :=
  s.putBelow ((List.range 256).filter fun n =>
    let c := s.chan n
    let k := okey (0x3A00 + c.addr % 32) 0x17
    c.src == 2 && field c.addr 8 2 == 2 && getV old k != getV s.force k)

/-- At f0 after the writes came into force: source changes against the sources in force, and a due set. -/
def chaffSources (s : State) (old : List (Nat × Val)) : State :=
  let ks := (List.range 256).filter fun n =>
    getV old (okey (0x2800 + n) 1) != s.cfgV (0x2800 + n) 1 || getV old (okey (0x2800 + n) 2) != s.cfgV (0x2800 + n) 2
  { s with chaff := { s.chaff with pend := ks.foldl (fun l n => tset l n 2) s.chaff.pend } }

/-- Apply an accepted Chaff set at f0 (R155): version, digest, records, store, event 0403h. -/
def applyChaffSet (s : State) : State :=
  match parseSet "KCHF" (s.cfgD 0x2900 0) with
  | none => s
  | some p =>
    match chaffBody p with
    | none => s
    | some l =>
      let s := (s.putBoth 0x2901 1 (.u p.version)).putBoth 0x2901 2 (.u p.digest8)
      let s := foldS s (l.filter fun r => s.chainRecord r.chan != r.bytes) fun s r =>
        let i := 0x2800 + r.chan
        let s := s.setChan r.chan { s.chan r.chan with record := r.bytes }
        let s := { s with acc := { s.acc with chains := tset s.acc.chains r.chan r.bytes } }
        let s := { s with chaff := { s.chaff with pend := tset s.chaff.pend r.chan 3 } }
        let s := (s.putBoth i 3 (.u r.stages.length)).putBoth i 4 (rv (recF r.bytes 4))
        ((s.putBoth i 5 (rv (recF r.bytes 8))).putBoth i 6 (rv (recF r.bytes 12))).putBoth i 7 (rv (recF r.bytes 16))
      let keys := l.flatMap fun r => (List.range 5).map fun k => okey (0x2800 + r.chan) (3 + k)
      (s.storeKeys ([okey 0x2900 0, okey 0x2901 1, okey 0x2901 2] ++ keys)).note 0x0403 [p.version, l.length]

/-! The slot (R137-R150). -/

/-- Sticky bits of a channel with event 0401h at the first after a clear (R151). -/
def stickChan (s : State) (n bits : Nat) : State :=
  let idx := if n < 128 then 0x2910 else 0x2911
  let sub := n % 128 + 1
  let w := s.objU idx sub
  if bits = 0 then s else
  let s := s.putU idx sub (w ||| bits)
  if w = 0 then s.note 0x0401 [n, w ||| bits] else s

/-- One input sample through the chain from stage number i on: stages, output, valid, sticky bits. -/
def chainStep : List ChStage → Rat → Nat → Nat → Int → Bool → List ChStage × Option (Nat × Int × Bool) × Nat
  | [], _, _, idx, x, ok => ([], some (idx, x, ok), 0)
  | c :: t, rate, i, idx, x, ok =>
    let settled := ok && decide (c.settle rate ≤ c.fed)
    let (c', out, h) := stageStep c rate idx x
    let c' := if ok then { c' with fed := c.fed + 1 } else c'
    match out with
    | none => (c' :: t, none, bitAt h i)
    | some (k, y) =>
      let (t', o, b) := chainStep t (rate / c.dec) (i + 1) k y settled
      (c' :: t', o, bitAt h i ||| b)

/-- An input sample of a slot: index at the input rate, instant ns, value in 2^-31, saturated at the input, upstream's restart
mark. -/
structure ChIn where
  idx : Nat
  inst : Rat
  x : Int
  sat : Bool
  mark : Bool := false
  deriving DecidableEq, Repr

/-- The input samples of a channel's slot, those whose instants lie within the frame before (R138-R142). -/
def slotInputs (s : State) (n : Nat) (xs : List Rat) : List ChIn :=
  let c := s.chan n
  let f := s.clk.frame - 1
  let start : Rat := (s.clk.bound : Rat) - 1250000
  match c.src with
  | 1 =>
    let a := c.addr % 16
    if s.analogRange a = 0 ∨ (s.analogRange a = 3 ∧ s.io.aref) then [] else
    ((List.zip (List.range 10) ((tfind s.chaff.grid a).getD xs)).map fun (p : Nat × Rat) =>
      ({ idx := 10 * f + p.1, inst := start + 125000 * p.1, x := (satS (p.2 * 2147483648)).1, sat := decide (1 < rabs p.2) } : ChIn)).filter
        fun i => (c.fillUntil : Rat) ≤ i.inst
  | 2 =>
    match c.latch with
    | some (t, v) =>
      if (t : Rat) < start then [] else
      let x := v / c.inScale
      [{ idx := f, inst := (t : Rat), x := (satS (x * 2147483648)).1, sat := decide (1 < rabs x) }]
    | none => []
  | 3 => ((s.chan (c.addr % 256)).outs.filter (·.delivered)).map fun o =>
      { idx := o.idx, inst := o.tov, x := o.y, sat := false, mark := o.mark }
  | _ => []

/-- Engineering units of an output. -/
def chanUnits (c : Chan) (y : Int) : Rat := (y : Rat) / 2147483648 * c.outScale + c.outOff

/-- One input sample of a slot through the running chain. -/
def slotSample (s : State) (n : Nat) (i : ChIn) : State :=
  let (rate, facts) := s.chanFacts n
  let c := s.chan n
  let (stages, out, bits) := chainStep c.stages rate 0 i.idx i.x true
  let s := s.stickChan n (bits + bitAt i.sat 8)
  match out with
  | some (k, y, true) =>
    let tov := i.inst - (s.tauIn c + facts.delay) * 1000000000
    let o : ChOut := { idx := k, tov := tov, y := y, delivered := true, mark := c.mark }
    let first := c.settling
    let units := chanUnits c y
    let s := s.setChan n { c with
      stages := stages, outs := c.outs ++ [o], mark := false, settling := false, last := some (tov, units),
      lastFrame := s.clk.frame, satLast := bits != 0 }
    let s := if first then s.note 0x0402 [n, c.cause] else s
    let s := (s.putR (0x2800 + n) 0x0F units).putU (0x2800 + n) 0x10 (roundAway tov).toNat
    let ks := (List.range 256).filter fun k => match (s.stream k).cfg with
      | some (_, 6, a, _) => a % 256 == n
      | _ => false
    foldS s ks fun s k =>
      s.sheafAccept k { stamp := roundAway tov, arrival := s.clk.bound + (n + 1) * 4800, raw := [f32r units], mark := o.mark } true
  | _ => s.setChan n { c with stages := stages }

/-- One input sample of a slot: a change whose epoch it reaches restarts the channel first, a retune that it reaches comes
first, and a sample that belongs to a configuration gone is left out (R144, R148). -/
def slotStep (s : State) (n : Nat) (i : ChIn) : State :=
  let c := s.chan n
  let ready := if c.up && i.mark then c.due else c.due.filter fun d => decide ((d.1 : Rat) ≤ i.inst)
  let s := if ready ≠ [] ∨ (c.up && i.mark) = true then s.restartDue n ready else s
  if i.inst < ((s.chan n).fromT : Rat) then s else (s.retune n i.inst).slotSample n i

/-- Latch the encoder quantity of a latched channel at the start of its slot, by the source in force (R141, R148). -/
def latchSlot (s : State) (n : Nat) : State :=
  let addr := s.cfgU (0x2800 + n) 2
  if s.cfgU (0x2800 + n) 1 ≠ 2 then s.setChan n { s.chan n with latch := none } else
  let e := addr % 32
  let t := s.clk.bound + n * 4800
  let x := s.encAt e t
  let k := s.perCount e
  let v := match field addr 8 2 with
    | 0 => s.posOf e x.1
    | 1 => x.2.1 * k
    | _ => x.2.2 * k
  s.setChan n { s.chan n with latch := some (t, v) }

/-- The decimator samples of an analog input in the frame before are one and the same for every channel that takes them: the
first slot of the frame that brings them settles them (R140; log 150). -/
def gridSamples (s : State) (n : Nat) (xs : List Rat) : State :=
  let c := s.chan n
  if c.src = 1 ∧ (tfind s.chaff.grid (c.addr % 16)).isNone
  then { s with chaff := { s.chaff with grid := tset s.chaff.grid (c.addr % 16) xs } } else s

/-- A channel's slot. -/
def chaffSlot (s : State) (n : Nat) (xs : List Rat) : State :=
  let s := s.gridSamples n xs
  let s := foldS s (s.slotInputs n xs) fun s i => s.slotStep n i
  let s := s.latchSlot n
  let s := s.setChan n { s.chan n with ran := true, overLast := false }
  (s.putU (0x2800 + n) 0x0D (s.chanWord n)).lower 0x0405 n

/-- A slot that has not finished (R152): its source is latched at its start all the same; the samples that it held are gone
(log 151). -/
def chaffOver (s : State) (n : Nat) : State :=
  let l := (s.chaff.overs.filter fun f => s.clk.frame < f + 800) ++ [s.clk.frame]
  let s := { s with chaff := { s.chaff with overs := l } }.latchSlot n
  let s := s.setChan n { s.chan n with ran := true, overLast := true, outs := [] }
  let s := ((s.putU (0x2800 + n) 0x0D (s.chanWord n)).incU 0x2912 1).alarm 0x0405 n 1 [n]
  if 3 ≤ l.length then s.unitStop 0x0405 n else s

/-- Restart every channel after a restart or a wake (R148). -/
def restartChaff (s : State) : State :=
  let s := foldS s ((List.range 256).filter fun n => s.cfgU (0x2800 + n) 1 != 0 || (s.chan n).record != []) fun s n => s.restartChan n 1
  { s with chaff := { s.chaff with chans := s.chaff.chans.map fun p => (p.1, { p.2 with up := false }) } }

end State

/-- CHAFF_SLOT (R138): channel n, with the ten decimator samples of the frame before for an analog source. -/
def execChaffSlot (n : Nat) (xs : List Rat) (s : State) : Out :=
  if s.up && decide (n < 256) && !(s.chan n).ran then .next (s.chaffSlot n xs) else .next s

/-- CHAFF_SLOT_OVERRUN (R152). -/
def execChaffSlotOverrun (n : Nat) (s : State) : Out :=
  if s.up && decide (n < 256) && !(s.chan n).ran then .next (s.chaffOver n) else .next s

/-- CHAFF_COEFFICIENT_SET (R155): a write of 2900h:00h. -/
def execChaffCoefficientSet (p : Path) (b : List Byte) (s : State) : Out :=
  .next (if s.up then s.writeWith State.ruleChaffSet p 0x2900 0 b else s)

/-- CHAFF_STICKY_READ (R151): a read of 2910h or 2911h. -/
def execChaffStickyRead (p : Path) (upper : Bool) (sub : Nat) (s : State) : Out :=
  .next (if s.up then s.readSticky p (if upper then 0x2911 else 0x2910) sub else s)

end Sys2Proof.Machine
end

