-- ==== Sys2Proof/Machine/Granary.lean ====
section
/-! DEFINITION. The Granary event recorder (chapter 20): pages, signature blocks, the ring, reading, clearing, the
power-fail flush. -/
namespace Sys2Proof.Machine

/-- Bytes 0-59 of a record (Table 20-1); a signature record holds its half of the signature in bytes 8-55 (R501). -/
def Rec.body (r : Rec) : List Byte :=
  natLe 2 r.code ++ natLe 1 r.cls ++ natLe 1 r.source ++ natLe 4 r.seq ++
    (if r.sig = [] then natLe 8 r.time ++ natLe 4 r.sample ++ natLe 4 r.status ++ (r.params.map (natLe 8)).flatten
     else r.sig) ++ natLe 4 r.link
/-- The 64 bytes of a record. -/
def Rec.bytes (r : Rec) : List Byte := r.body ++ natLe 4 r.crc
/-- A record with its link and CRC. -/
def Rec.seal (r : Rec) (link : Nat) : Rec := { r with link := link, crc := crc32c ({ r with link := link } : Rec).body }

/-- Records of an erase block (R502). -/
def blockSize : Nat := 2048

namespace State

def setGran (s : State) (g : Granary) : State := { s with gran := g }

/-- Sequence `a` lies at or before `b` (R7). -/
def notAfter (a b : Nat) : Bool := a == b || newerMod (2 ^ 32) b a

/-- Pending records that need not wait for a signature block being made (R501). -/
def writable (s : State) : List Rec :=
  match s.gran.sig with
  | none => s.gran.queue
  | some j => s.gran.queue.takeWhile fun r => newerMod (2 ^ 32) j.seq r.seq

/-- 4601h:01h-03h after a change of what NAND holds. -/
def countHeld (s : State) : State :=
  let h := s.gran.held
  let s := s.putU 0x4601 1 ((h.head?.map (·.seq)).getD 0)
  let s := s.putU 0x4601 2 ((h.getLast?.map (·.seq)).getD 0)
  s.putU 0x4601 3 h.length

/-- Erase blocks of NAND whose life numbers are listed. -/
def eraseBlocks (s : State) (l : List Nat) : State :=
  let e := l.foldl (fun e b => tmod 0 e (b % 2048) (· + 1)) s.gran.erases
  let s := s.setGran { s.gran with held := s.gran.held.filter fun r => !l.contains r.blk, erases := e }
  s.putU 0x4601 7 (maxNat (e.map (·.2)))

/-- Under the ring policy a full store erases the block of its oldest records (R503). -/
def ringOverwrite (s : State) : State :=
  match s.gran.held.head? with
  | none => s
  | some r =>
    let l := s.gran.held.filter (·.blk == r.blk)
    (s.eraseBlocks [r.blk]).pushRec 0x1303 0 [r.seq, ((l.getLast?.map (·.seq)).getD 0)]

/-- Write one record to NAND: link, CRC, the block of its place. -/
def storeRec (s : State) (r : Rec) : State :=
  let s := if storeSize ≤ s.gran.held.length then (if s.cfgU 0x4600 1 = 0 then s.ringOverwrite else s) else s
  let r := { r.seal s.gran.lastCrc with blk := s.objU 0x4601 6 / blockSize }
  (s.setGran { s.gran with held := s.gran.held ++ [r], lastCrc := r.crc }).addU 0x4601 6 1

/-- At 95 % full under the halt policy: F1 and event 1304h once; lower again when there is space or the ring policy. -/
def checkFull (s : State) : State :=
  let full : Bool := s.cfgU 0x4600 1 == 1 && decide (storeSize * 95 ≤ s.gran.held.length * 100)
  if full && !s.gran.nearFull then (s.setGran { s.gran with nearFull := true }).alarm 0x1304 0 1 []
  else if !full && s.gran.nearFull then (s.setGran { s.gran with nearFull := false }).lower 0x1304 0
  else s

/-- Write up to `k` of the pending records. -/
def writePages (s : State) (k : Nat) : State :=
  let page := s.writable.take k
  let s := s.setGran { s.gran with queue := s.gran.queue.drop page.length }
  (foldS s page storeRec).countHeld.checkFull

/-- A page falls due: 32 records, or 100 ms since the oldest entered; an overwrite waits for a clear (R502, R507). -/
def pageDue (s : State) : Bool :=
  let w := s.writable
  let old : Bool := match w.head? with
    | some r => decide (r.time + 100000000 ≤ s.clk.time)
    | none => false
  let blocked : Bool := s.gran.clearing.isSome && s.cfgU 0x4600 1 == 0 && decide (storeSize ≤ s.gran.held.length)
  (32 ≤ w.length || old) && !blocked

/-- Pending records as NAND will hold them. -/
def sealed (link : Nat) : List Rec → List Rec
  | [] => []
  | r :: t => r.seal link :: sealed (r.seal link).crc t

/-- Records a signature block of first number `q` covers, in sequence order. -/
def covered (s : State) (q : Nat) : List Rec :=
  (s.gran.held ++ sealed s.gran.lastCrc s.writable).filter fun r =>
    (r.seq + 2 ^ 32 - s.gran.cover) % 2 ^ 32 < (q + 2 ^ 32 - s.gran.cover) % 2 ^ 32

/-- Blocks that a clear through sequence `q` erases: all of their records lie at or before it (R506). -/
def clearable (s : State) (q : Nat) : List Nat :=
  ((s.gran.held.map (·.blk)).eraseDups).filter fun b =>
    s.gran.held.all fun r => r.blk != b || notAfter r.seq q

/-- A clear is carried out once its signature block is written: event 1306h and the erasure (R506); a block that was reserved
before the clear is followed by the clear's own. -/
def finishClear (s : State) : State :=
  if s.gran.clearing.isNone then s
  else if s.gran.again then (s.setGran { s.gran with again := false }).reserveSig
  else
    let s := foldS s (s.gran.reg.drop s.gran.carried) fun s e =>
      let s := s.pushRec 0x1306 0 [e.seq, e.time, pId e.signer, e.crc]
      s.eraseBlocks (s.clearable e.seq)
    (s.setGran { s.gran with clearing := none, carried := s.gran.reg.length }).countHeld.checkFull

/-- The secure element has signed the block (R501). -/
def completeSig (s : State) (j : SigJob) : State :=
  let sig := Config.unitSign (Config.sha384 ((s.covered j.seq).map (·.bytes)).flatten)
  let half := fun (code q : Nat) (b : List Byte) =>
    ({ code := code, cls := 0, source := s.sourceByte, seq := q, time := s.clk.time, sample := s.clk.sample,
       status := 0, params := [], sig := b } : Rec)
  let w := s.writable
  let block := [half 0x1301 j.seq (sig.take 48), half 0x1302 ((j.seq + 1) % 2 ^ 32) (sig.drop 48)]
  let s := s.setGran { s.gran with
    queue := w ++ block ++ s.gran.queue.drop w.length, sig := none, cover := (j.seq + 2) % 2 ^ 32 }
  s.finishClear

/-! Reading and clearing (R504-R506). -/

/-- Records that a read from a session's cursor returns. -/
def granFrom (s : State) (p : Path) : List Rec :=
  match (s.session p).cursor with
  | none => s.gran.held.take 1024
  | some c => (s.gran.held.dropWhile fun r => r.seq != c && !newerMod (2 ^ 32) r.seq c).take 1024

/-- A read of 4620h:02h. -/
def readGranary (s : State) (p : Path) : State :=
  let l := s.granFrom p
  let s' := match l.getLast? with
    | some r => s.setSession p { s.session p with cursor := some ((r.seq + 1) % 2 ^ 32) }
    | none => s
  s'.answer 0 (l.map (·.bytes)).flatten

/-- 4620h:01h: each session's own cursor. -/
def cursorOf (s : State) (p : Path) : Nat :=
  match (s.session p).cursor with
  | some c => c
  | none => (s.gran.held.head?.map (·.seq)).getD 0

def ruleCursor (s : State) (p : Path) (_ _ : Nat) (v : Val) : Verdict :=
  .done (s.setSession p { s.session p with cursor := some v.asNat })

/-- A new challenge (R505): a free value. -/
def newChallenge (s : State) : State :=
  let f := s.freeN
  (f.2.setGran { f.2.gran with challenge := f.1 % 2 ^ 64 }).putU 0x4630 1 (f.1 % 2 ^ 64)

/-- Refuse a clear: event 1307h with its reason, a new challenge. -/
def refuseClear (s : State) (reason : Nat) : Verdict := .refuse abSign (s.note 0x1307 [reason]).newChallenge

/-- CRC field of the newest record at or before sequence q. -/
def crcThrough (s : State) (q : Nat) : Nat :=
  let l := (s.gran.held ++ sealed s.gran.lastCrc s.writable).filter fun r => notAfter r.seq q
  (l.getLast?.map (·.crc)).getD 0

/-- A clearing token (R505, R506, Table 20-3). -/
def ruleToken (s : State) (_ : Path) (_ _ : Nat) (v : Val) : Verdict :=
  let b := v.asBytes
  let n := leAt b 56 2
  let q := leAt b 24 4
  if b.length < 58 ∨ slice b 0 4 ≠ ascii "KGCT" ∨ leAt b 4 2 ≠ 1 ∨ leAt b 6 2 ≠ 0 ∨ leAt b 8 4 ≠ s.objU 0x1018 2 ∨
      leAt b 12 4 ≠ s.objU 0x1018 4 then s.refuseClear 1
  else if leAt b 16 8 ≠ s.gran.challenge then s.refuseClear 2
  else
    let c := s.certOk 3 (slice b 36 20)
    let good := c.1 && n ≤ 104 && b.length == 58 + n &&
      Config.ecdsaVerify (Config.publicKey (slice b 36 20)) (b.take 56) (slice b 58 n)
    let s := c.2
    if !good then s.refuseClear 3
    else if !notAfter q ((s.gran.next + 2 ^ 32 - 1) % 2 ^ 32) then s.refuseClear 5
    else if 256 ≤ s.gran.reg.length then s.refuseClear 4
    else
      let e : ClearEntry := { seq := q, time := s.clk.time, signer := slice b 36 20, crc := s.crcThrough q }
      let s := s.setGran { s.gran with reg := s.gran.reg ++ [e], clearing := some q, again := s.gran.sig.isSome }
      .done s.reserveSig.newChallenge

/-- 4631h:00h. -/
def clearRegister (s : State) : List Byte :=
  (s.gran.reg.map fun e => natLe 4 e.seq ++ natLe 8 e.time ++ (e.signer ++ List.replicate 20 0).take 20 ++ natLe 4 e.crc ++
    natLe 4 0).flatten

/-! The power-fail flush (R508). -/

/-- Write a record of the flush: flushed bit set. -/
def flushRec (s : State) (r : Rec) : State := s.storeRec { r with source := r.source % 64 + 64 + r.source / 128 * 128 }

/-- Under the ring policy a store without room for the records of the flush first erases the block of its oldest records
(R503). -/
def flushRoom (s : State) : State :=
  if s.cfgU 0x4600 1 = 0 ∧ storeSize < s.gran.held.length + min 256 (s.gran.queue.length + 1) + 1 then s.ringOverwrite else s

/-- VIN falls: up to 256 pending records, the power-fail record; a block being made is abandoned and none is reserved. -/
def powerFlush (s : State) : State :=
  let job := s.gran.sig
  let s := ({ s with gran := { s.gran with since := 0 } } : State).flushRoom
  let q := s.gran.queue
  let own := s.gran.next
  let lost := q.drop 256
  let sig := match job with
    | some j => j.seq
    | none => own
  let s := s.setGran { s.gran with queue := [], sig := none }
  let s := foldS s (q.take 256) flushRec
  let r : Rec := { code := 0x1308, cls := 0, source := s.sourceByte, seq := own, time := s.clk.time,
                   sample := s.clk.sample, status := s.objU 0x2200 1,
                   params := [((lost.head?.map (·.seq)).getD own), lost.length, sig, 0] }
  (s.setGran { s.gran with next := (own + 1) % 2 ^ 32, since := s.gran.since + 1 }).flushRec r |>.countHeld

/-- The store opens at start-up (R501, R509): a signature block where records follow the last one, then event 1309h. -/
def openGranary (s : State) : State :=
  let after := match (s.gran.held ++ s.gran.queue).getLast? with
    | some r => if r.code = 0x1308 then 1 else 2
    | none => 2
  let s := if s.gran.cover ≠ s.gran.next then s.reserveSig else s
  (s.setGran { s.gran with isOpen := true }).newChallenge.note 0x1309 [after]

end State

/-- GRANARY_PAGE_WRITE (R502): `worn` an erase block that the write retires. -/
def execGranaryPageWrite (worn : Option Nat) (s : State) : Out :=
  if s.st.power = .off ∨ s.st.power = .reset ∨ !s.pageDue then .next s else
  let s := s.writePages 32
  match worn with
  | some k => .next ((s.note 0x130A [k]).incU 0x4601 5)
  | none => .next s

/-- SIGNATURE_BLOCK_COMPLETE (R501). -/
def execSignatureBlockComplete (s : State) : Out :=
  match s.gran.sig with
  | some j => if s.st.power = .off ∨ s.st.power = .reset then .next s else .next (s.completeSig j)
  | none => .next s

/-- GRANARY_READ (R504): a read of 4620h:02h. -/
def execGranaryRead (p : Path) (s : State) : Out := if s.up then .next (s.readGranary p) else .next s

/-- CLEARING_TOKEN (R505, R506): a write of 4630h:02h. -/
def execClearingToken (p : Path) (b : List Byte) (s : State) : Out :=
  if s.up then .next (s.writeWith State.ruleToken p 0x4630 2 b) else .next s

end Sys2Proof.Machine
end

