-- ==== Sys2Proof/Machine/Husk.lean ====
section
/-! DEFINITION. The Husk (chapter 20): the owner CA and revocation list, firmware slots, the anti-rollback counter,
tamper. -/
namespace Sys2Proof.Machine

namespace State

def setHusk (s : State) (h : Husk) : State := { s with husk := h }

/-- Accept a value under the table's row for it. -/
def acceptAt (s : State) (idx sub : Nat) (v : Val) : State :=
  match findRow idx sub with
  | some r => s.acceptVal r idx sub v
  | none => s

/-- Owner CA (R512): a replacement needs a session whose certificate chains to the enrolled one. -/
def ruleOwnerCa (s : State) (p : Path) (idx sub : Nat) (v : Val) : Verdict :=
  if s.objD 0x4810 0 ≠ [] ∧ !(s.session p).owner then .refuse abRole s
  else .done ((s.acceptAt idx sub v).note 0x1401 [pId (Config.keyId v.asBytes)])

/-- Revocation list (R512): signed by the enrolled owner CA. -/
def ruleRevocation (s : State) (_ : Path) (idx sub : Nat) (v : Val) : Verdict :=
  if s.objD 0x4810 0 ≠ [] && Config.crlSignedBy v.asBytes (s.objD 0x4810 0) then
    .done ((s.acceptAt idx sub v).note 0x1402 [Config.crlEntries v.asBytes])
  else .refuse abSign s

/-! Firmware (R513, R514, Table 20-4). -/

/-- First check of a firmware image that fails: 1 layout, 2 digest, 3 signature, 4 product, 5 security version; 0 none. -/
def imageBad (s : State) (b : List Byte) : Nat :=
  let n := leAt b 16 4
  let k := leAt b 88 2
  if b.length ≠ 90 + k + n ∨ slice b 0 4 ≠ ascii "KFWI" ∨ leAt b 4 2 ≠ 1 ∨ 255 < leAt b 6 2 then 1
  else if Config.sha384 (slice b (90 + k) n) ≠ slice b 20 48 then 2
  else if !Config.ecdsaVerify Config.firmwareKey (b.take 90) (slice b 90 k) then 3
  else if leAt b 8 4 ≠ s.objU 0x1018 2 then 4
  else if leAt b 6 2 < s.objU 0x4820 3 then 5 else 0

/-- The header's fields with the image. -/
def parseImage (b : List Byte) : Image :=
  { security := leAt b 6 2, product := leAt b 8 4, version := leAt b 12 4, bytes := b }

/-- Image of a slot. -/
def slotImage (s : State) (slot : Nat) : Option Image := if slot = 0 then s.husk.slotA else s.husk.slotB
def putImage (s : State) (slot : Nat) (i : Image) : State :=
  s.setHusk (if slot = 0 then { s.husk with slotA := some i } else { s.husk with slotB := some i })

/-- A slot image (R514): not the running slot, and checked as R513 does. -/
def ruleSlot (s : State) (_ : Path) (_ sub : Nat) (v : Val) : Verdict :=
  let slot := sub - 1
  let bad := if slot = s.st.slot then 6 else s.imageBad v.asBytes
  if bad ≠ 0 then .refuse abSign (s.note 0x1405 [slot, Config.reason 0x1405 bad])
  else
    let i := parseImage v.asBytes
    .done ((s.putImage slot i).note 0x1404 [slot, i.version])

/-- Commit (R514): the counter rises to the running slot's security version and never falls. -/
def ruleCommit (s : State) (_ : Path) (_ _ : Nat) (_ : Val) : Verdict :=
  let v := max (s.objU 0x4820 3) ((s.slotImage s.st.slot).map (·.security) |>.getD 0)
  .done ((s.putBoth 0x4820 3 (.u v)).note 0x1406 [v])

/-! Tamper (R515). -/

/-- Record a tamper and apply the response. The tamper is then in force, at class F0 under response 0 (R575). -/
def tamperSeen (s : State) (code : Nat) (params : List Nat) : State :=
  if s.cfgU 0x4830 1 = 1 then
    (s.alarm code 0 1 params).setHusk { (s.alarm code 0 1 params).husk with limited := true }
  else
    let s := s.note code params
    { s with faults := (s.dropFault code 0).faults ++ [⟨code, 0, 0⟩] }

/-- A tamper in force has ended; one that stood at F0 goes without an EMCY (R496). -/
def endTamper (s : State) (code : Nat) : State :=
  if s.faults.any fun f => f.code == code && f.cls == 0 then s.dropFault code 0 else s.lower code 0

/-- A tamper latched while VIN was absent is recorded at the next start-up; at the one after it nothing is left of it, as
4830h:03h holds no value over a start (R539; log 161). -/
def tamperLatched (s : State) : State :=
  match s.husk.latched, s.husk.told with
  | some t, false => (s.tamperSeen 0x1408 [t]).setHusk { (s.tamperSeen 0x1408 [t]).husk with told := true }
  | some _, true => s.setHusk { s.husk with latched := none, told := false }
  | none, _ => s

/-- An Auditor's 1 ends the limitation; 4830h:02h reads 0. -/
def ruleTamperClear (s : State) (_ : Path) (_ _ : Nat) (v : Val) : Verdict :=
  if v.asNat = 1 then
    let s := s.setHusk { s.husk with limited := false, latched := none }
    .done (((s.endTamper 0x1407).endTamper 0x1408).note 0x1409 [])
  else .done s

/-- 4830h:03h. -/
def tamperWord (s : State) : Nat := bitAt s.husk.limited 2 + bitAt s.husk.latched.isSome 1 + bitAt s.husk.tamper 0

end State

/-- OWNER_CA_ENROLMENT (R512): a write of 4810h:00h. -/
def execOwnerCaEnrolment (p : Path) (b : List Byte) (s : State) : Out :=
  if s.up then .next (s.writeWith State.ruleOwnerCa p 0x4810 0 b) else .next s

/-- REVOCATION_LIST_LOAD (R512): a write of 4811h:00h. -/
def execRevocationListLoad (p : Path) (b : List Byte) (s : State) : Out :=
  if s.up then .next (s.writeWith State.ruleRevocation p 0x4811 0 b) else .next s

/-- FIRMWARE_SLOT_WRITE (R514): a write of 4821h:01h or 02h, slot 0 A, 1 B. -/
def execFirmwareSlotWrite (p : Path) (slot : Nat) (b : List Byte) (s : State) : Out :=
  if s.up && slot < 2 then .next (s.writeWith State.ruleSlot p 0x4821 (slot + 1) b) else .next s

/-- ANTI_ROLLBACK_COMMIT (R514): a write of 4820h:04h. -/
def execAntiRollbackCommit (p : Path) (b : List Byte) (s : State) : Out :=
  if s.up then .next (s.writeWith State.ruleCommit p 0x4820 4 b) else .next s

/-- TAMPER (R515): TAMPER_N low for 1 ms; without VIN, and in reset, where nothing records, it is latched with its time. -/
def execTamper (s : State) : Out :=
  let s := s.setHusk { s.husk with tamper := true }
  if s.st.power = .off ∨ s.st.power = .reset then .next (s.setHusk { s.husk with latched := some s.clk.time, told := false })
  else .next (s.tamperSeen 0x1407 [])

/-- TAMPER_ENDED (R515): bit 0 of 4830h:03h clears. -/
def execTamperEnded (s : State) : Out := .next (s.setHusk { s.husk with tamper := false })

/-- TAMPER_CLEAR (R515): a write of 4830h:02h. -/
def execTamperClear (p : Path) (b : List Byte) (s : State) : Out :=
  if s.up then .next (s.writeWith State.ruleTamperClear p 0x4830 2 b) else .next s

end Sys2Proof.Machine
end

