-- ==== Sys2Proof/Machine/Health.lean ====
section
/-! DEFINITION. Power, heat and health monitoring (chapter 21): readings, tiers, the fast cap, the heat stop, windows of
the monitors, the wake. -/
namespace Sys2Proof.Machine

namespace State

def setTherm (s : State) (t : Therm) : State := { s with therm := t }

/-! Own rules (Table 21-7). -/

/-- Thresholds: release below raise; the release margin above the raise margin. -/
def rulePower (s : State) (_ : Path) (idx sub : Nat) (v : Val) : Verdict :=
  let f := fun k => if k = sub then v.asRat else s.objR idx k
  if f 3 < f 2 ∧ f 5 < f 4 ∧ f 7 < f 6 then .store else .refuse abValue s

/-- Wake sources: the bits of Table 21-4. -/
def ruleWake (s : State) (_ : Path) (_ sub : Nat) (v : Val) : Verdict :=
  if sub = 2 ∧ 8 ≤ v.asNat then .refuse abValue s else .store

/-- Probe and argument (Table 21-6). -/
def ruleMonitor (s : State) (_ : Path) (idx sub : Nat) (v : Val) : Verdict :=
  let f := fun k => if k = sub then v.asNat else s.objU idx k
  let ok : Bool := match f 1 with
    | 1 => decide (f 2 < 256)
    | 5 => decide (f 2 < 8)
    | 6 | 8 => decide (f 2 < 4)
    | 0x0B => decide (f 2 < 4096)
    | _ => true
  if (sub = 1 ∨ sub = 2) ∧ !ok then .refuse abValue s else .store

/-! Readings of a frame (R516, R517, R519, R522). -/

/-- Case sensors that read within 10 °C of the median of the four. -/
def inside (r : Readings) (i : Nat) : Bool := decide (rabs (nth 0 r.case4 i - median r.case4) ≤ 10)

/-- Exclude a case sensor outside the band (R516). -/
def caseSensor (s : State) (r : Readings) (i : Nat) : State :=
  let t := s.therm
  if !inside r i then
    let s := s.setTherm { t with excluded := setBit t.excluded i true, inBand := tdel t.inBand i }
    if bit t.excluded i then s
    else (s.incU 0x4A50 3).alarm 0x1507 i 1 [i, pR (nth 0 r.case4 i)]
  else if bit t.excluded i && (tfind t.inBand i).isNone then
    s.setTherm { t with inBand := tset t.inBand i s.clk.frame }
  else s

/-- Case temperature: the largest reading inside the band; with none there the spec states no value, and it is free
(log 3). -/
def caseTemp (s : State) (r : Readings) : Rat × State :=
  match (List.range 4).filter fun i => inside r i && !bit s.therm.excluded i with
  | [] => s.freeR
  | i :: t => (t.foldl (fun m k => rmax m (nth 0 r.case4 k)) (nth 0 r.case4 i), s)

/-- Causes of a rise that hold (R519): 1 power, 2 case, 3 die. -/
def riseCauses (s : State) (p tc tj : Rat) : List Nat :=
  (if s.cfgR 0x4A00 1 - s.cfgR 0x4A00 7 ≤ p then [1] else []) ++ (if s.cfgR 0x4A00 2 ≤ tc then [2] else []) ++
    (if s.cfgR 0x4A00 4 ≤ tj then [3] else [])

/-- Every release condition holds. -/
def calm (s : State) (p tc tj : Rat) : Bool :=
  decide (p ≤ s.cfgR 0x4A00 1 - s.cfgR 0x4A00 6) && decide (tc ≤ s.cfgR 0x4A00 3) && decide (tj ≤ s.cfgR 0x4A00 5)

/-- A rise condition holds now. -/
def riseHolds (s : State) : Bool := s.riseCauses s.therm.now.p s.therm.tc s.therm.tj != []

/-- An R522 condition holds. -/
def heatHolds (s : State) : Bool := decide (105 ≤ s.therm.tc) || decide (125 ≤ s.therm.tj)

/-- Cases that the cap leaves unstarted in this frame (R517): in f4 those that the sweep would start beyond the top 16 of the
previous ranking, later those still waiting. -/
def unstarted (s : State) : Nat :=
  if s.fOff = 4 then (s.sweptCases.filter fun c => !(s.ctl.stook.ranking.take 16 ++ s.skippedCases).contains c).length
  else s.ctl.stook.waiting.length

/-- The fast cap of this frame (R517). -/
def fastCap (s : State) : State :=
  let t := s.therm
  let cap : Bool := decide (s.cfgR 0x4A00 1 - s.cfgR 0x4A00 7 < t.now.predicted)
  let s := s.setTherm { t with cap := cap }
  if !cap then s else
  let s := s.incU 0x4A50 2
  let due : Bool := match t.capTime with
    | some x => decide (x + 60000000000 ≤ s.clk.time)
    | none => true
  if due then (s.note 0x1506 [pR t.now.predicted, s.unstarted]).setTherm { s.therm with capTime := some s.clk.time } else s

/-- Word 4A40h:04h. -/
def thermWord (s : State) : Nat :=
  let t := s.therm
  let low : Rat := mkRat 108 10
  let high : Rat := mkRat 132 10
  bitAt s.heatHolds 15 + bitAt t.cap 14 + bitAt (decide (s.cfgR 0x4A00 1 - s.cfgR 0x4A00 7 ≤ t.now.p)) 13 +
    bitAt (decide (s.cfgR 0x4A00 2 ≤ t.tc)) 12 + bitAt (decide (s.cfgR 0x4A00 4 ≤ t.tj)) 11 +
    bitAt (decide (t.now.vin < low) || decide (high < t.now.vin)) 10 + bitAt (t.steps != 0) 9 +
    bitAt (decide (2 ≤ t.level)) 8 + bitAt (decide (1 ≤ t.level)) 7 + bitAt (t.excluded != 0) 6 + t.level % 4 * 16

/-- 4A40h and 4C42h at the end of a frame. -/
def publishTherm (s : State) : State :=
  let t := s.therm
  let s := s.publish 0x4A40 [.u s.thermWord, rv t.now.p, rv t.now.vin, rv t.tc, rv t.tj, .u t.level, .u t.steps]
  s.publish 0x4C42 ((List.range 64).map fun m => rv (rmax (rabs (s.monitor m).done.min) (rabs (s.monitor m).done.max)))

/-- A monitor whose configuration was written begins its windows at this frame (R529). -/
def startWindows (s : State) : State :=
  foldS s ((List.range 64).filter fun m => s.cfgU (0x4C00 + m) 1 != 0 && !(s.monitor m).win.live) fun s m =>
    s.setMonitor m { s.monitor m with paused := decide (2 ≤ s.therm.level), win := { live := true, start := s.clk.bound } }

/-- The manager's work at the start of a frame. -/
def thermFrame (s : State) (r : Readings) : State :=
  let s := s.publishTherm
  let old := s.therm
  let frame := s.clk.frame
  let wait := ns (s.cfgR 0x4A00 8)
  let s := foldS s (List.range 4) fun s i => s.caseSensor r i
  let c := s.caseTemp r
  let s := c.2
  let tc := c.1
  let tj := (r.die3).foldl rmax (nth 0 r.die3 0)
  let causes := s.riseCauses r.p tc tj
  let calm := s.calm r.p tc tj
  let hot : Bool := decide (105 ≤ tc) || decide (125 ≤ tj)
  let before' := s.riseCauses old.now.p old.tc old.tj
  let s := s.setTherm { s.therm with
    now := r, tc := tc, tj := tj,
    riseDue := if s.cfgU 0x4A00 9 ≤ old.riseFrames ∧ old.level < 3 then some (before'.head?.getD 1) else none,
    riseFrames := if causes = [] then 0 else old.riseFrames + 1,
    fallDue := (match old.releaseFrom with
      | some f => decide (wait ≤ (frame - f) * 1250000)
      | none => false) && old.level != 0,
    releaseFrom := if !calm then none else some (old.releaseFrom.getD frame),
    heatFrames := if hot then old.heatFrames + 1 else 0 }
  let s := s.fastCap.startWindows
  let head := rmin (s.cfgR 0x4A00 2 - tc) (s.cfgR 0x4A00 4 - tj)
  (s.probe 9 0 head).probe 0x0A 0 r.p

/-- The level changes: both counts begin again, from this frame on. -/
def setLevel (s : State) (l : Nat) : State :=
  let t := s.therm
  s.setTherm { t with
    level := l, riseDue := none, fallDue := false, riseFrames := b2n s.riseHolds,
    releaseFrom := if s.calm t.now.p t.tc t.tj then some s.clk.frame else none }

/-! Windows (R529). -/

/-- 4C41h of the inspected monitor. -/
def publishWindow (s : State) : State :=
  let m := s.cfgU 0x4C40 0
  let x := s.monitor m
  let w := x.done
  let mean : Rat := if w.count = 0 then 0 else w.sum / (w.count : Rat)
  s.publishAt 0x4C41 x.doneAt ([.u w.count, rv w.min, rv w.max, rv mean] ++
    (List.range 32).map (fun k => .u (tget 0 w.bins k)) ++ [.u w.start, .u (bitAt w.overs 1 + bitAt x.paused 0)])

/-- End of the window in progress of monitor m. -/
def windowEnd (s : State) (m : Nat) : Nat := (s.monitor m).win.start + ns (s.cfgR (0x4C00 + m) 4)

/-- Publish the window of monitor m and start the next. -/
def endWindow (s : State) (m : Nat) : State :=
  let x := s.monitor m
  let t := s.windowEnd m
  let s := s.setMonitor m { x with done := x.win, doneAt := t, win := { live := true, start := t } }
  let s := if x.win.overs then s else s.lower 0x1601 m
  if s.cfgU 0x4C40 0 = m then s.publishWindow else s

/-- After a write of 4C00h + m: the windows begin again at the next frame. -/
def monitorAfter (s : State) (m : Nat) : State := (s.setMonitor m { s.monitor m with win := {} }).lower 0x1601 m

/-- Every monitor is paused while T2 is shed (R521). -/
def pauseMonitors (s : State) : State :=
  let p : Bool := 2 ≤ s.therm.level
  { s with mons := s.mons.map fun (q : Nat × Monitor) => (q.1, { q.2 with paused := p }) }

end State

/-- LEVEL_RAISED (R519): at the start of a frame that follows the raise dwell. -/
def execLevelRaised (s : State) : Out :=
  match s.therm.riseDue with
  | some cause =>
    if !s.up then .next s else
    let l := s.therm.level + 1
    let s := (s.setLevel l).pauseMonitors.incU 0x4A50 1
    .next (if l = 3 then s.alarm 0x1501 0 1 [l, cause] else s.note 0x1501 [l, cause])
  | none => .next s

/-- LEVEL_LOWERED (R519): at the start of a frame that follows the release time. -/
def execLevelLowered (s : State) : Out :=
  if s.up && s.therm.fallDue && s.therm.level != 0 then
    let l := s.therm.level - 1
    let s := (s.setLevel l).pauseMonitors
    .next ((s.note 0x1502 [l]).lower 0x1501 0)
  else .next s

/-- HEAT_LIMIT_EXCEEDED (R522): 80 frames. -/
def execHeatLimitExceeded (s : State) : Out :=
  if s.up && decide (80 ≤ s.therm.heatFrames) then
    .next ((s.record 0x1503 3 [State.pR s.therm.tc, State.pR s.therm.tj]).unitStop 0x1503)
  else .next s

/-- CASE_SENSOR_RESTORE (R516): 10 s inside the band. -/
def execCaseSensorRestore (i : Nat) (s : State) : Out :=
  match tfind s.therm.inBand i with
  | some f =>
    if s.up && bit s.therm.excluded i && !s.degraded 11 i && decide (f + 8000 ≤ s.clk.frame) then
      .next ((s.setTherm { s.therm with excluded := setBit s.therm.excluded i false, inBand := tdel s.therm.inBand i }).lower 0x1507 i)
    else .next s
  | none => .next s

/-- MONITOR_WINDOW_END (R529); a paused monitor stays in its window (R521). -/
def execMonitorWindowEnd (m : Nat) (s : State) : Out :=
  let x := s.monitor m
  if s.up && decide (m < 64) && x.win.live && !x.paused && decide (s.windowEnd m ≤ s.clk.time) then .next (s.endWindow m)
  else .next s

/-- WAKE_SOURCE (R525): an enabled source holds at the start of a frame of Dormancy: 0 WAKE_N, low for 1.0 ms as the command
says, 1 the wake timer, 2 the GNSS check. -/
def execWakeSource (b : Nat) (s : State) : Out :=
  let timer := s.cfgR 0x4A10 1
  let holds : Bool := match b with
    | 0 => true
    | 1 => decide (timer ≠ 0) && (match s.st.dormantAt with
      | some t => decide (t + State.ns timer ≤ s.clk.time)
      | none => false)
    | 2 => s.gn.moved
    | _ => false
  if s.st.power == .dormant && bit (s.cfgU 0x4A10 2) b && holds then
    let s := { s with st := { s.st with power := .waking, wake := some (s.clk.frame, b) } }
    .next ((s.note 0x1505 [b]).incU 0x4A50 4)
  else .next s

end Sys2Proof.Machine
end

