-- ==== Sys2Proof/Machine/StartUp.lean ====
section
/-! DEFINITION. Start-up and restart (chapter 22), with the loss of VIN and reset (R508, R544, R560) and the wake
(R526). -/
namespace Sys2Proof.Machine

namespace State

def setSt (s : State) (x : Start) : State := { s with st := x }

/-! The parameter store at a start (R45, R46, R538). -/

/-- NV objects that the unit keeps in memory of their own, whatever a store writes: the Granary's counters and clear
register (R500, R502, R506), the lead epoch ("stored at each change", Table 17-6), the count of starts (DEDUCED, log 135). -/
def ownMemory (idx : Nat) : Bool := idx == 0x4601 || idx == 0x4631 || idx == 0x3E01 || idx == 0x2022

/-- Objects that a start finds as they stood: FAC objects and those with memory of their own. -/
def selfKept (key : Nat) : Bool :=
  match findRow (key / 256) (key % 256) with
  | some r => r.per == .fac || (r.per == .nv && ownMemory (key / 256))
  | none => false

/-- A stored value that a start takes (R36): an NV object of the parameter store, inside its range. -/
def storedOk (key : Nat) (v : Val) : Bool :=
  match findRow (key / 256) (key % 256) with
  | some r => r.per == .nv && !ownMemory (key / 256) && rangeAbort r v == 0 &&
      (match v with
        | .d b => lengthAbort r b == 0
        | _ => true)
  | none => false

/-- A restore mark covers a key (R45); the record count of R500 and the clear register of R506 are never reset. -/
def marked (marks key : Nat) : Bool :=
  let idx := key / 256
  ((List.range 3).any fun k => bit marks k && inArea (k + 1) idx) &&
    !(key == okey 0x4601 6 || idx == 0x4631) && (match findRow idx (key % 256) with
      | some r => r.per == .nv
      | none => false)

/-- Restores marked, in the copies. -/
def applyMarks (s : State) : State :=
  let m := s.acc.marks
  if m = 0 then s else
  let vals := match s.newestCopy with
    | some c => c.vals
    | none => []
  let s := { s with obj := s.obj.filter fun p => !marked m p.1 }
  let s := if s.newestCopy.isSome then s.writeCopy (vals.filter fun p => !marked m p.1) (s.objU 0x2011 2) else s
  { s with acc := { s.acc with marks := 0 } }

/-- Event 0004h where the newest copy's CRC is bad and the other was chosen (R46); the copy used is coded by the free
`Config.reason` (log 27). -/
def noteOlder (s : State) : State :=
  let a := s.acc.copyA
  let b := s.acc.copyB
  let used := if a.valid && !b.valid && decide (a.serial < b.serial) then some (1, a)
    else if b.valid && !a.valid && decide (b.serial < a.serial) then some (2, b) else none
  match used with
  | some (k, c) => s.note 0x0004 [Config.reason 0x0004 k, c.version]
  | none => s

/-- Values from the newest valid copy; with none every NV object is at its default, event 0009h. -/
def loadParams (s : State) : State :=
  let s := s.noteOlder.applyMarks
  let base := s.obj.filter fun p => selfKept p.1
  let load := fun (vals : List (Nat × Val)) =>
    (vals.filter fun p => storedOk p.1 p.2).foldl (fun o p => putV o p.1 p.2) base
  let s := match s.newestCopy with
    | some c => { s with obj := load c.vals, force := load c.vals }
    | none => ({ s with obj := base, force := base }).alarm 0x0009 0 1 []
  -- defaults that depend on the unit number (1F00h, 1014h)
  let s := if (tfind s.obj (okey 0x1F00 0)).isNone then s.putBoth 0x1F00 0 (.u (0x10 + s.st.unitId)) else s
  let s := if (tfind s.obj (okey 0x1014 0)).isNone then s.putBoth 0x1014 0 (.u (0x80 + s.objU 0x1F00 0)) else s
  s.putBoth 0x3E01 2 (.u s.st.unitId)

/-- The reference selection of a start: 2240h from 26xxh:03h (Tables 5-2, 5-4). -/
def loadSelection (s : State) : State :=
  foldS s (List.range 8) fun s n =>
    s.putBoth 0x2240 (n + 1) (.u (ofBits ((List.range 32).filter fun b => s.cfgB (0x2600 + (32 * n + b)) 3)))

/-- Check a stored artefact by its own rule; one that fails is left empty, with its refusal event. -/
def checkArtefact (s : State) (idx : Nat) (rule : State → Path → Nat → Nat → Val → Verdict) : State :=
  if s.objD idx 0 = [] then s else
  match rule s .panicle idx 0 (s.objV idx 0) with
  | .refuse _ s' => s'.putBoth idx 0 (.d [])
  | _ => s

/-- Chains that the store holds come into their channels: those of earlier sets as far as the stored objects of Table 6-5
still name them (R153: a channel without a record keeps its chain; log 148), then those of the stored set. -/
def loadChaff (s : State) : State :=
  let kept := s.acc.chains.filter fun (p : Nat × List Byte) =>
    let i := 0x2800 + p.1
    let same := fun (at' sub : Nat) => s.cfgV i sub == rv (recF p.2 at')
    s.cfgU i 3 == (stagesOf p.2).length && same 4 4 && same 8 5 && same 12 6 && same 16 7
  let s := foldS s kept fun s p => s.setChan p.1 { s.chan p.1 with record := p.2 }
  match parseSet "KCHF" (s.cfgD 0x2900 0) with
  | none => s
  | some p => match chaffBody p with
    | none => s
    | some l => foldS s l fun s r => s.setChan r.chan { s.chan r.chan with record := r.bytes }

/-- The work of stage 6 (R538). -/
def configStage (s : State) : State :=
  let s := s.loadParams.loadSelection
  let s := ((s.checkArtefact 0x2900 ruleChaffSet).checkArtefact 0x2C01 ruleCulmSet).checkArtefact 0x3200 ruleStubSet
  s.checkArtefact 0x3C01 ruleImage

/-! Beginning and ending a start. -/

/-- The internal reset of a start (R530, Table 22-4): kind 1 cold, 2 warm; what the start keeps stays. -/
def beginStart (s : State) (kind cause : Nat) : State :=
  let keep := s.obj.filter fun p => selfKept p.1
  let warm : Bool := kind == 2
  let g := s.gn
  { s with
    clk := { s.clk with sample := 0 }, obj := keep, force := keep, res := [], faults := [],
    acc := { copyA := s.acc.copyA, copyB := s.acc.copyB, marks := s.acc.marks, chains := s.acc.chains }, mode := {},
    gran := { s.gran with isOpen := false, queue := if warm then s.gran.queue else [], sig := none },
    husk := { s.husk with limited := false }, therm := {}, mons := [],
    st := { power := .starting 1, kind := kind, cause := cause, slot := s.st.slot, tried := [], began := s.clk.time,
            boot := s.st.boot, unitId := s.st.unitId, halts := s.st.halts, haltAt := s.st.haltAt,
            stops := if warm then s.st.stops else [], resetN := true, vin := true },
    hal := {}, sheaf := {}, win := {}, obs := {}, ctl := {}, net := {}, chaff := {}, fb := {}, io := { tap := if s.st.power = .off then {} else s.io.tap },
    gn := { archive := g.archive, snapSeq := g.snapSeq, navSeq := g.navSeq, snaps := if warm then g.snaps else [] },
    tb := { next := s.tb.next }, pan := { copyA := s.pan.copyA, copyB := s.pan.copyB, retainAt := s.pan.retainAt },
    mir := {}, can := {} }

/-- Records that a start kept until the store is open. -/
def flushNotes (s : State) : State :=
  let l := s.st.notes
  let s := s.setSt { s.st with notes := [] }
  foldS s l fun s n => if n.2.1 = 0 then s.note n.1 n.2.2 else s.alarm n.1 (n.2.2.head?.getD 0) n.2.1 n.2.2

def deferNote (s : State) (code cls : Nat) (params : List Nat) : State :=
  s.setSt { s.st with notes := s.st.notes ++ [(code, cls, params)] }

/-- The chain in its start state (R539, Table 21-5 row w + 136): slots learn, Chaff restarts, the observer is
uninitialised, Tiller cold-starts, incremental channels are unreferenced. -/
def chainStart (s : State) : State :=
  let s := { s with sheaf := { s.sheaf with slots := s.sheaf.slots.map fun (p : Nat × Slot) =>
    (p.1, if p.2.state = 0 then p.2 else relearned p.2) } }
  let s := s.restartChaff.obsUninit.restartAllEnc
  -- the observer has published nothing since this start or wake (R104, R108; log 141)
  let s := { s with obs := { s.obs with est := none, missed := false } }
  let s := s.setStook { s.ctl.stook with sweepDue := false, setDue := false, waiting := [] }
  s.setTill { s.ctl.till with core := { s.ctl.till.core with cold := some 1 } }

/-- Standby-ready (R534, R540): in Standby, healthy, joining; the first f0 is that of frame `f`. -/
def standbyReady (s : State) (f : Nat) : State :=
  let s := s.setSt { s.st with power := .running, role := 3, halts := 0, wake := none, dormantAt := none }
  let s := { s.toStandby with clk := { s.clk with f0 := f - s.clk.n } }
  let s := s.setHal { s.hal with join := 0, waited := 0, claim := none, lostLead := none }
  s.setNet { s.net with since := s.clk.frame }

/-- The chain and Panicle of stage 7, warm or cold (R539). -/
def startChain (s : State) : State :=
  let s := s.loadChaff
  let n := s.cfgU 0x2030 1
  let s := { s with clk := { s.clk with n := n } }
  let s := (s.putBoth 0x2030 2 (.u n)).chainStart
  let s := s.setPan { s.pan with prog := s.imageProg, restart := some (3 - s.st.kind, 1), len := s.cfgU 0x3C00 1 }
  s.standbyReady (s.clk.frame + 1)

/-- The start-up objects (Table 22-6) of the start that ends. -/
def startObjects (s : State) (ms : Nat) : State :=
  let s := ((s.putBoth 0x2022 1 (.u s.st.kind)).putBoth 0x2022 2 (.u s.st.cause)).putBoth 0x2022 3 (.u s.st.slot)
  let s := ((s.putBoth 0x2022 4 (.u ms)).putBoth 0x2022 5 (.u s.st.tests)).putBoth 0x2022 6 (.u s.st.boot)
  let s := s.putBoth 0x100A 0 (.d ((Config.softwareVersion s.st.slot (((s.slotImage s.st.slot).map (·.version)).getD 0)).take 255))
  (s.putBoth 0x2022 7 (.u ((s.objU 0x2022 7 + 1) % 2 ^ 32))).putBoth 0x4820 1 (.u s.st.slot)

/-- Stage 7 (R539): the chain's start state, Panicle warm or cold, event 0006h, F1 for degraded parts. -/
def lastStage (s : State) : State :=
  let s := s.startChain
  let ms := (s.clk.time - s.st.began) / 1000000
  let s := s.startObjects ms
  let s := if s.st.tried = [] then s
    else (s.putBoth 0x4820 2 (.u s.st.slot)).storeKeys [okey 0x4820 2]
  let s := s.note 0x0006 [s.st.kind, s.st.cause, s.st.slot, ms]
  let s := foldS s s.st.degraded fun s d => s.raise 0x0008 d 1
  s.setTherm { s.therm with excluded := ofBits ((List.range 4).filter fun i => s.degraded 11 i) }

/-! The stages (Table 22-1). -/

/-- The image of a slot may boot (R513): product code and security version here, digest and signature by the ROM. -/
def slotBoots (s : State) (slot : Nat) (image : Bool) : Bool :=
  match s.slotImage slot with
  | some i => image && i.product == s.objU 0x1018 2 && decide (s.objU 0x4820 3 ≤ i.security)
  | none => false

/-- Slot tried first: the straps', else that of 4820h:02h as stored. -/
def firstSlot (s : State) : Nat :=
  if s.st.boot = 1 then 0 else if s.st.boot = 2 then 1 else
  match s.newestCopy with
  | some c => (getV c.vals (okey 0x4820 2)).asNat
  | none => 0

/-- Slot to try now: the first one, or the other where the first is abandoned; none when both are. -/
def nextSlot (s : State) : Option Nat :=
  let gone := fun k => s.st.tried.any fun p => p.1 == k
  let f := s.firstSlot
  if !gone f then some f
  else if s.st.boot = 1 ∨ s.st.boot = 2 then none
  else if !gone (1 - f) then some (1 - f) else none

/-- A slot is abandoned (R535): reason 1 verification, 2 boot watchdog. -/
def abandonSlot (s : State) (slot reason : Nat) : State :=
  (s.setSt { s.st with tried := s.st.tried ++ [(slot, reason)] }).deferNote 0x0007 1 [slot, reason]

def holdRom (s : State) : State := s.setSt { s.st with power := .romHeld, haltAt := s.clk.time }

/-- Stage 4 finds the next slot or holds in ROM. -/
def chooseSlot (s : State) : State :=
  match s.nextSlot with
  | some k => s.setSt { s.st with power := .starting 4, slot := k }
  | none => s.holdRom

/-- Response of Table 22-2 to a failed item: halt, or degrade. -/
def testHalts (bit' inst : Nat) : Bool :=
  bit' == 0 || bit' == 1 || (bit' == 2 && inst < 2) || (3 ≤ bit' && bit' ≤ 6)

/-- A failed self-test: event 0008h, its bit in 2022h:05h. -/
def failTest (s : State) (f : Nat × Nat) : State :=
  let halts := testHalts f.1 f.2
  let s := s.record 0x0008 1 [f.1, if halts then 2 else 1]
  let s := s.setSt { s.st with
    tests := setBit s.st.tests f.1 true,
    degraded := if halts || s.st.degraded.contains (f.1 * 64 + f.2) then s.st.degraded else s.st.degraded ++ [f.1 * 64 + f.2] }
  s.putBoth 0x2022 5 (.u s.st.tests)

/-- Stage 1 (R547-R550): straps, unit number, VBAT. -/
def stage1 (s : State) (x : StageIn) : State :=
  if !x.ok || !x.agree || !x.testLow then s else
  let boot := x.boot % 8
  let s := s.setSt { s.st with boot := boot, unitId := x.unit % 4, power := .starting 2 }
  let s := if x.vbat < 2500 then
      -- device time starts from 0; no tamper has been latched (R548)
      ({ s with clk := { s.clk with time := 0 } }.setHusk { s.husk with latched := none }).deferNote 0x000D 0 [x.vbat]
    else s
  let s := if 5 ≤ boot then s.deferNote 0x000C 0 [boot] else s
  if boot = 3 ∧ s.st.kind = 2 then s.setSt { s.st with kind := 1, cause := 7 } else s

/-- Stage 4 (R513, R535). -/
def stage4 (s : State) (x : StageIn) : State :=
  if s.st.kind = 2 then
    if x.image then s.setSt { s.st with power := .starting 5 }
    else (s.setSt { s.st with kind := 1, cause := 8 }).chooseSlot
  else if s.slotBoots s.st.slot x.image then s.setSt { s.st with power := .starting 5 }
  else (s.abandonSlot s.st.slot 1).chooseSlot

/-- Stage 5 (R501, R509, R515, R537): the store opens, then the self-tests. -/
def stage5 (s : State) (x : StageIn) : State :=
  let s := s.openGranary.flushNotes.tamperLatched
  let s := foldS s x.fails failTest
  if x.fails.any fun f => testHalts f.1 f.2 then
    s.setSt { s.st with power := .halted, halts := s.st.halts + 1, haltAt := s.clk.time }
  else s.setSt { s.st with power := .starting 6 }

/-- A stage completes. -/
def stageDone (s : State) (x : StageIn) : State :=
  match s.st.power with
  | .starting 1 => s.stage1 x
  | .starting 2 => if x.ok then s.setSt { s.st with power := .starting 3 } else s.holdRom
  | .starting 3 =>
    if !x.ok then s.holdRom
    else if s.st.boot = 4 then s.setSt { s.st with power := .recovery }
    else if s.st.kind = 2 then s.setSt { s.st with power := .starting 4 } else s.chooseSlot
  | .starting 4 => s.stage4 x
  | .starting 5 => s.stage5 x
  | .starting 6 =>
    let s := s.configStage
    (s.setNet { s.net with phyFrom := s.clk.time }).setSt { s.st with power := .starting 7 }
  | .starting 7 => s.lastStage
  | _ => s

/-! Loss of VIN, reset, restarts (R508, R530-R533, R544, R560). -/

/-- The Granary store has been opened and the unit is powered. -/
def granOpen (s : State) : Bool := s.gran.isOpen && s.st.power != .off && s.st.power != .reset

/-- A store under way is cut off: the copy being written has no good CRC (R46). -/
def cutStore (s : State) : State :=
  if s.acc.store.isNone then s else
  let serial := match s.newestCopy with
    | some c => c.serial + 1
    | none => 1
  let bad : StoreCopy := { serial := serial }
  let a := s.acc
  { s with acc := if a.copyA.valid && (!a.copyB.valid || decide (a.copyB.serial < a.copyA.serial)) then
      { a with copyB := bad, store := none } else { a with copyA := bad, store := none } }

/-- Unpowered, or in reset: every line at its reset state. -/
def dark (s : State) (p : Power) : State :=
  { s with st := { s.st with power := p, role := 3, restartDue := none, ordered := none, notice := 0 },
           io := { s.io with safe := 0, driven := 0, panDio := 0, pulses := [] },
           acc := { s.acc with sessions := [], store := none }, hal := { s.hal with h0 := false, h1 := false } }

/-- A restart ordered by a write of 2020h (R531): event 000Ah; Panicle's retain copy is written. -/
def orderRestart (s : State) (p : Path) (kind : Nat) : State :=
  let s := (s.note 0x000A [kind, (s.roleOf p).code]).writeRetain
  s.setSt { s.st with ordered := some kind, handing := false }

/-- Own rule of 2020h:00h; it reads 0. -/
def ruleRestart2020 (s : State) (p : Path) (_ _ : Nat) (v : Val) : Verdict :=
  .done (if v.asNat = 0 then s else s.orderRestart p v.asNat)

/-- Start the ordered restart at f0 once the store, the Granary queue and the retain write have finished; a Lead with a
joined partner first hands over (R531). -/
def restartBoundary (s : State) : State :=
  match s.st.ordered with
  | none => s
  | some kind =>
    let s := s.writePages s.writable.length
    if s.acc.store.isSome ∨ s.gran.queue ≠ [] ∨ s.gran.sig.isSome then s else
    let u := s.others.find? fun u => (s.unit u).joined && (s.unit u).role == 1 && !(s.unit u).mirrorDeg
    match u with
    | some u =>
      if s.st.role = 0 then
        if s.st.handing then s
        else
          match s.ruleHand .panicle 0x3E20 0 (.u u) with
          | .done s' => s'.setSt { s'.st with handing := true }
          | _ => s.beginStart kind 3
      else s.beginStart kind 3
    | none => s.beginStart kind 3

/-- Entry to Dormancy at f0 (R524). -/
def enterDormancy (s : State) : State :=
  let s := (s.writePages s.writable.length).writeRetain.note 0x1504 []
  let s := s.setSt { s.st with power := .dormant, dormantAt := some s.clk.time, role := 3 }
  let s := s.setGn { s.gn with dormPos := s.gn.lastPos, dormCheck := s.clk.time, moved := false, en := [], chans := [] }
  let s := s.safeUpdate
  { s with io := { s.io with driven := 0, pulses := [] }, hal := { s.hal with h0 := false, h1 := false } }

end State

/-! Commands. -/

/-- VIN_APPLIED (R530, R347): VIN has stood in range; device time starts from the VBAT-held count. -/
def execVinApplied (t : Nat) (s : State) : Out :=
  if s.st.power = .off then
    .next (({ s with clk := { s.clk with time := t }, tb := { s.tb with next := t + 1250000 } }.setSt
      { s.st with halts := 0 }).beginStart 1 1)
  else .next s

/-- START_UP_STAGE (R534). -/
def execStartUpStage (x : StageIn) (s : State) : Out :=
  match s.st.power with
  | .starting _ => .next ((s.at' x.t).stageDone x)
  | _ => .next s

/-- BOOT_WATCHDOG (R535): a slot that has passed R513 is not Standby-ready within 10 s; the start that follows tries the
other slot. -/
def execBootWatchdog (t : Nat) (s : State) : Out :=
  match s.st.power with
  | .starting k =>
    if k < 5 ∨ t < s.st.began + 10000000000 then .next s else
    let slot := s.st.slot
    let tried := s.st.tried
    let s := (s.at' t).beginStart 1 6
    .next ((s.setSt { s.st with tried := tried }).abandonSlot slot 2)
  | _ => .next s

/-- SELF_TEST_HALT_RETRY (R537): 10 s after a halt; not after three in a row. -/
def execSelfTestHaltRetry (t : Nat) (s : State) : Out :=
  if s.st.power == .halted && decide (s.st.halts < 3) && decide (s.st.haltAt + 10000000000 ≤ t) then
    .next ((s.at' t).beginStart 1 s.st.cause)
  else .next s

/-- REPEATABLE_SELF_TEST (R537): T3 work, so only at level 0; tests 0 to 4, 6 and 10 repeat. -/
def execRepeatableSelfTest (item inst : Nat) (pass : Bool) (s : State) : Out :=
  let repeats := decide (item ≤ 4) || item == 6 || (item == 10 && s.hasGnss)
  if !(s.up && s.therm.level == 0 && repeats) || pass then .next s else
  let s := s.failTest (item, inst)
  .next (if State.testHalts item inst then s.unitStop 0x0008 (item * 64 + inst) else s.raise 0x0008 (item * 64 + inst) 1)

/-- RESET_N_LOW (R544): the queued records are written as R508 step 1 writes them; the internal reset follows. -/
def execResetNLow (s : State) : Out :=
  if s.st.power = .off ∨ s.st.power = .reset then .next s else
  let flush : State := if s.granOpen then
      let q := s.gran.queue
      (foldS (s.setGran { s.gran with queue := [], sig := none }) (q.take 256) State.flushRec).countHeld
    else s
  let s := (flush.cutStore).dark .reset
  .next (s.setSt { s.st with resetN := false })

/-- RESET_N_RELEASE (R530): the next start is cold. -/
def execResetNRelease (t : Nat) (s : State) : Out :=
  if s.st.power = .reset then .next (((s.at' t).setSt { s.st with halts := 0 }).beginStart 1 2) else .next s

/-- VIN_FALLING (R508, R560): the flush, the power-fail record, Panicle's retain copy; then the unit is unpowered. -/
def execVinFalling (s : State) : Out :=
  if s.st.power = .off then .next s else
  let flush := if s.granOpen then s.powerFlush else s
  let retain := if s.up then flush.writeRetain else flush
  let s := (retain.cutStore).dark .off
  .next (s.setSt { s.st with vin := false })

/-- SUPERVISOR_RESET (R533): 80 frames without a refresh. -/
def execSupervisorReset (frames t : Nat) (s : State) : Out :=
  if (s.up || s.st.power == .stopped) && decide (80 ≤ frames) then .next (((s.at' t).cutStore).beginStart 1 5) else .next s

/-- AUTOMATIC_RESTART (R532): the restart delay is over; `refresh` whether DRAM entered self-refresh, without which the
start is cold. -/
def execAutomaticRestart (t : Nat) (refresh : Bool) (s : State) : Out :=
  match s.st.power, s.st.restartDue with
  | .stopped, some d =>
    if t < d then .next s
    else .next (if refresh then (s.at' t).beginStart 2 4 else (s.at' t).beginStart 1 8)
  | _, _ => .next s

/-- RECOVERY_IMAGE (R536): checked under R513 and written to slot A; the ROM holds. -/
def execRecoveryImage (b : List Byte) (s : State) : Out :=
  if s.st.power == .recovery && s.imageBad b == 0 then .next (s.putImage 0 (State.parseImage b)) else .next s

/-- STRAP_CHECK (R551): the straps as read, BOOT in bits 2-0 and UNIT_ID in bits 4-3. -/
def execStrapCheck (boot unit : Nat) (s : State) : Out :=
  if !s.up then .next s else
  let was := s.st.boot + 8 * s.st.unitId
  let now := boot % 8 + 8 * (unit % 4)
  if was = now then .next ((s.setSt { s.st with strapMiss := 0 }).lower 0x000E 0) else
  let n := s.st.strapMiss + 1
  let s := s.setSt { s.st with strapMiss := n }
  let strap := ((List.range 5).find? fun k => bit was k != bit now k).getD 0
  .next (if n = 3 then s.alarm 0x000E 0 1 [strap, b2n (bit was strap), b2n (bit now strap)] else s)

/-- ROM_RETRY (R534, R535): every 10 s. -/
def execRomRetry (t : Nat) (s : State) : Out :=
  if s.st.power == .romHeld && decide (s.st.haltAt + 10000000000 ≤ t) then
    let s := s.at' t
    .next (s.setSt { s.st with power := .starting 2, tried := [], notes := s.st.notes.filter (·.1 != 0x0007) })
  else .next s

/-- RESTART_WARM_COMMAND (R531): a write of 1 to 2020h:00h. -/
def execRestartWarmCommand (p : Path) (s : State) : Out :=
  .next (if s.up then s.writeWith State.ruleRestart2020 p 0x2020 0 [1#8] else s)

/-- RESTART_COLD_COMMAND (R531): a write of 2 to 2020h:00h. -/
def execRestartColdCommand (p : Path) (s : State) : Out :=
  .next (if s.up then s.writeWith State.ruleRestart2020 p 0x2020 0 [2#8] else s)

/-- WAKE_COMPLETE (R526): at the start of frame w + 144 the unit is Standby-ready; a failed self-test goes on as a cold
start. -/
def execWakeComplete (ok : Bool) (s : State) : Out :=
  match s.st.power, s.st.wake with
  | .waking, some (w, _) =>
    if !ok then .next (s.beginStart 1 8)
    else if s.clk.frame ≠ w + 144 then .next s
    else
      let s := s.chainStart.standbyReady s.clk.frame
      let s := s.setNet { s.net with phyFrom := s.clk.time }
      .next (s.setPan { s.pan with restart := some (1, 1) })
  | _, _ => .next s

end Sys2Proof.Machine
end

