-- ==== Sys2Proof/Machine/Modes.lean ====
section
/-! DEFINITION. The mode manager (chapter 03): guards and transitions, commands with their sequence numbers, what they do at
f0, set points and soft start, track legs. -/
namespace Sys2Proof.Machine

/-- Modes from which a target is permitted, as a mask (Table 3-3). -/
def permittedFrom : Nat → Nat
  | 0 => 0x7E | 1 => 0x3D | 2 => 0x3B | 3 => 0x37 | 4 => 0x2F | 5 => 0x1F | _ => 0x01

/-- Guards of a target, bits 3-0 for G4-G1 (Table 3-3). -/
def guardsOf (target : Nat) (auto : Bool) : Nat :=
  match target with
  | 1 => 1 | 2 => if auto then 3 else 1 | 3 => 3 | 4 => 7 | 5 => 15 | _ => 0

/-- Axes under DW8 control, bits 0-2 surge, sway, yaw (Table 3-1). -/
def axesOf (mode : Nat) (auto : Bool) : Nat :=
  match mode with
  | 2 => if auto then 4 else 0
  | 3 => 4 | 4 => 7 | 5 => 7 | _ => 0

/-! Track legs (R83). -/

/-- A leg of a waypoint track: start, unit vector, length, leg speeds at its ends. -/
structure Leg where
  n : Rat
  e : Rat
  un : Rat
  ue : Rat
  len : Rat
  v0 : Rat
  v1 : Rat

/-- Waypoints of 2227h: north, east, leg speed. -/
def waypoints (b : List Byte) : List (Rat × Rat × Rat) :=
  (chunks 12 b).map fun c => (vget (f32s c) 0, vget (f32s c) 1, vget (f32s c) 2)

def legOf (a b : Rat × Rat × Rat) : Leg :=
  let dn := b.1 - a.1
  let de := b.2.1 - a.2.1
  let len := if dn = 0 ∧ de = 0 then 0 else rsqrt (rsq dn + rsq de)
  { n := a.1, e := a.2.1, un := if len = 0 then 0 else dn / len, ue := if len = 0 then 0 else de / len, len := len,
    v0 := a.2.2, v1 := b.2.2 }

def legsOf (b : List Byte) : List Leg := (State.pairsOf (waypoints b)).map fun p => legOf p.1 p.2

/-- Along-track position and cross-track offset, to starboard, of a point. -/
def Leg.at' (l : Leg) (n e : Rat) : Rat × Rat :=
  let dn := n - l.n
  let de := e - l.e
  (dn * l.un + de * l.ue, de * l.un - dn * l.ue)

/-- The point of the leg at an along-track position and an offset. -/
def Leg.point (l : Leg) (along cross : Rat) : Rat × Rat :=
  (l.n + along * l.un - cross * l.ue, l.e + along * l.ue + cross * l.un)

/-- The leg whose perpendicular foot of a point lies on it and is nearest (R83); where none does, the leg nearest to the
point (log 56). -/
def nearestLeg (l : List Leg) (n e : Rat) : Nat :=
  let facts := (List.zip (List.range l.length) l).map fun p => (p.1, p.2, p.2.at' n e)
  let on := facts.filter fun x => decide (0 ≤ x.2.2.1) && decide (x.2.2.1 ≤ x.2.1.len)
  match argMin (fun (x : Nat × Leg × (Rat × Rat)) => rsq x.2.2.2) on with
  | some x => x.1
  | none =>
    let far := fun (x : Nat × Leg × (Rat × Rat)) =>
      let a := rclamp 0 x.2.1.len x.2.2.1
      rsq (x.2.2.1 - a) + rsq x.2.2.2
    match argMin far facts with
    | some x => x.1
    | none => 0

namespace State

/-! Guards (R67, Table 3-2). -/

/-- A stream of a class is unmasked with confidence above 0. -/
def goodStream (s : State) (cls : Nat) : Bool :=
  (List.range 256).any fun k => (s.stream k).cfg.isSome && s.streamClass k == cls && !(s.winS k).masked &&
    decide (256 ≤ (s.winS k).q)

/-- Guards that hold, bits 3-0 for G4-G1, from the latest published results. -/
def guards (s : State) : Nat :=
  let g4 := if s.cfgU 0x2226 1 = 0 then decide (2 ≤ (s.cfgD 0x2227 0).length / 12)
    else (s.stream (s.cfgU 0x2226 3)).cfg.isSome && !(s.winS (s.cfgU 0x2226 3)).masked
  bitAt (s.thrusters.any s.ready) 0 + bitAt (s.goodStream 2 && s.obs.core.hInit) 1 +
    bitAt (s.goodStream 1 && s.posGood) 2 + bitAt g4 3

/-- A command to the mode in force, which changes nothing (R68). -/
def sameMode (s : State) (target : Nat) (auto : Bool) : Bool :=
  target == s.mode.mode && (target != 2 || auto == s.mode.autoHead)

/-- Refusal reason of a mode command (2202h:04h), 0 when it passes R68. -/
def modeReason (s : State) (target : Nat) (auto : Bool) : Nat :=
  if s.sameMode target auto then 0 else
  let permitted := target == s.mode.mode || bit (permittedFrom target) s.mode.mode
  let failing := guardsOf target auto &&& (15 - s.guards)
  b2n (!permitted) + 16 * failing

/-! Acceptance of commands (R71-R74, R78). -/

/-- Own rules of 2201h:00h and 2203h:00h; the tests of R71 come before, at step 5 of R577. -/
def ruleCommand (s : State) (_ : Path) (idx _ : Nat) (v : Val) : Verdict :=
  let w := v.asNat
  let isMode : Bool := idx == 0x2201
  let seq := w / 65536
  let last := s.objU 0x2202 1
  let d := (seq + 65536 - last) % 65536
  let set := bit (s.objU 0x2202 5) 0
  if set && d == 0 then
    if w = s.mode.lastWord ∧ isMode = s.mode.lastIsMode then .done (s.putU 0x2202 2 2) else .refuse abReused s
  else if set && 32767 < d then .refuse abOld (s.note 0x0108 [])
  else
    let r := if isMode then s.modeReason (w % 8) (bit w 8) else 0
    if r ≠ 0 then .refuse abMode (((s.putU 0x2202 3 seq).putU 0x2202 4 r).note 0x0103 [])
    else
      let s := (((s.putU 0x2202 1 seq).putU 0x2202 5 1).putU 0x2202 2 1).putBoth idx 0 (.u w)
      .done (s.setMode { s.mode with
        lastWord := w, lastIsMode := isMode, cmds := s.mode.cmds ++ [{ word := w, isMode := isMode, due := s.sharedDue }] })

/-! A mode change at f0 (R68, R75, R79, R80, R84, R269). -/

/-- The observer's predicted pose and velocity for the epoch: N, E, ψ °, u, v, r; class 1 or 2 initialised. After an overrun
there is no prediction for the epoch (R179). -/
def predPose (s : State) (cls : Nat) : Option (List Rat) :=
  match s.predNow with
  | some p => if cls = 1 ∧ p.pos.isSome ∨ cls = 2 ∧ p.head.isSome then some p.pose else none
  | none => none

/-- A heading as its object holds it, 0 to below 360°. -/
def headV (x : Rat) : Val :=
  let w := F32.ofRat (wrap360 x)
  .f (if F32.toRat w < 360 then w else 0)

/-- Loads of R84 on a change from mode `old`, with the axes that were under control. -/
def loadDemands (s : State) (old : Nat) : State :=
  let m := s.mode.mode
  let tau := s.ctl.culm.tau
  if m = 1 then
    foldS s s.thrusters fun s j =>
      let x := s.inner j
      (s.putBoth 0x2220 (j + 1) (headV x.core.az)).putBoth 0x2221 (j + 1) (rv x.emitN)
  else if m = 2 ∧ old = 2 then
    if s.mode.autoHead then s else s.putBoth 0x2222 3 (rv (vget tau 2))
  else
    let from' : Bool := (m == 2 || m == 3) && 2 ≤ old && old ≤ 5
    foldS s [0, 1, 2] fun s a => s.putBoth 0x2222 (a + 1) (rv (if from' then vget tau a else 0))

/-- Legs of the track in force; none in another mode, with a target stream or after the last waypoint. -/
def trackLegs (s : State) : List Leg :=
  if s.mode.mode = 5 ∧ s.cfgU 0x2226 1 = 0 then legsOf (s.cfgD 0x2227 0) else []

def trackLeg (s : State) : Option Leg := if s.mode.trackEnd then none else s.trackLegs[s.mode.leg]?

/-- Entry to Track (R79, R83): the leg in force, the set point upon it, the measured speed along it. -/
def enterTrack (s : State) : State :=
  let pose := (s.predPose 1).getD [s.mode.spN, s.mode.spE, s.mode.spH, 0, 0, 0]
  let k := nearestLeg s.trackLegs (vget pose 0) (vget pose 1)
  match s.trackLegs[k]? with
  | none => s.setMode { s.mode with trackEnd := false, leg := 0, along := 0, cross := 0, spV := 0 }
  | some l =>
    let a := l.at' s.mode.spN s.mode.spE
    let psi := vget pose 2
    let vn := vget pose 3 * cosd psi - vget pose 4 * sind psi
    let ve := vget pose 3 * sind psi + vget pose 4 * cosd psi
    s.setMode { s.mode with
      trackEnd := false, leg := k, along := a.1, cross := a.2, spV := vn * l.un + ve * l.ue }

/-- Axes newly under control start at the measured values (R79, R80); where the observer has no prediction for the epoch,
they start where their set point stands (DESIGN CHOICE, log 136). -/
def softStart (s : State) (new : Nat) : State :=
  let s := match s.predPose 1 with
    | some p => if bit new 0 then s.setMode { s.mode with spN := vget p 0, spE := vget p 1 } else s
    | none => s
  match s.predPose 2 with
  | some p => if bit new 2 then s.setMode { s.mode with spH := wrap360 (vget p 2) } else s
  | none => s

/-- Carry out a mode change. -/
def changeMode (s : State) (target : Nat) (auto : Bool) (seq : Nat) : State :=
  let old := s.mode.mode
  let oldAxes := s.mode.axes
  let axes := axesOf target auto
  let auto' : Bool := target == 2 && auto
  let s := s.setMode { s.mode with mode := target, autoHead := auto', axes := axes, held := false }
  let s := (s.putU 0x2200 2 target).putU 0x2200 3 0
  let s := s.softStart (axes &&& (7 - oldAxes))
  let s := if target = 5 then s.enterTrack else s
  let s := s.loadDemands old
  let s := if target = 0 ∨ target = 1 ∨ target = 6 then s.endBlend else s
  s.note 0x0101 [old, target, seq, b2n auto']

/-- A mode command at its f0 (R75); the guards are the Lead's to test (R67). -/
def takeMode (s : State) (c : Cmd) : State :=
  let seq := c.word / 65536
  let target := c.word % 8
  let auto := bit c.word 8
  let r := s.modeReason target auto
  let r := if s.st.role = 0 then r else r % 16
  if r ≠ 0 then (((s.putU 0x2202 2 3).putU 0x2202 3 seq).putU 0x2202 4 r).note 0x0103 []
  else if s.sameMode target auto then s.putU 0x2202 2 0
  else (s.changeMode target auto seq).putU 0x2202 2 0

/-- The operator's targets. -/
def targets (s : State) : List Rat := [s.cfgR 0x2224 1, s.cfgR 0x2224 2, s.cfgR 0x2224 3, s.cfgR 0x2224 4]

/-- A new target, taken at this f0 before the commands, releases a hold (R82). -/
def newTargets (s : State) : State :=
  s.setMode { s.mode with
    held := s.mode.held && (s.targets == s.mode.lastTgt || s.mode.lastTgt == []), lastTgt := s.targets }

/-- An action command at its f0 (R82). -/
def takeAction (s : State) (c : Cmd) : State :=
  let done := fun (s : State) => s.putU 0x2202 2 0
  let failed := (s.putU 0x2202 2 3).note 0x0103 []
  let free := s.setMode { s.mode with held := false }
  match c.word % 256 with
  | 1 => match s.predPose 1 with
    | some p => done ((free.putBoth 0x2224 1 (rv (vget p 0))).putBoth 0x2224 2 (rv (vget p 1)))
    | none => failed
  | 2 => match s.predPose 2 with
    | some p => done (free.putBoth 0x2224 3 (headV (vget p 2)))
    | none => failed
  | 3 => done (s.setMode { s.mode with held := true })
  | _ => done free

/-- A command is carried out at this f0: on the Lead when it is due; on another unit only once a full mirror has delivered
it, else at its first f0 as Lead (R87). -/
def isDue (s : State) (c : Cmd) : Bool := decide (c.due ≤ s.clk.frame) && (s.st.role == 0 || c.sent)

/-- Step 1 of Table 10-7: the commands due, in sequence order (R76). -/
def takeCommands (s : State) : State :=
  let s := s.newTargets
  let due := s.mode.cmds.filter s.isDue
  let s := s.setMode { s.mode with cmds := s.mode.cmds.filter fun c => !s.isDue c }
  let lastMode := (due.filter (·.isMode)).getLast?
  foldS s due fun s c =>
    if !c.isMode then s.takeAction c
    else if lastMode = some c then s.takeMode c
    else (s.putU 0x2202 2 4).note 0x0104 []

/-! Guard lost (R69). -/

/-- Failing guards of the mode in force, found on the Lead (R67); on a unit that has handed the Lead over, those it had
found clear at the first sample in which every guard holds. -/
def guardLost (s : State) : State :=
  let was := s.objU 0x2200 3
  let failing := guardsOf s.mode.mode s.mode.autoHead &&& (15 - s.guards)
  if s.st.role ≠ 0 then (if failing = 0 then s.putU 0x2200 3 0 else s) else
  let newly := failing &&& (15 - was % 16)
  let s := s.putU 0x2200 3 failing
  if newly = 0 then s else s.note 0x0106 [failing, newly, s.mode.mode]

/-- The guards of the mode in force after the results of f2, on a unit that runs on (R67, R69). -/
def testGuards (s : State) : State := if s.up then s.guardLost else s

/-! Set points (R81-R83, step 7 of Table 10-7). -/

/-- Position target of the mode in force off a leg; the present set point while the target stream has no value at the epoch
(R83 gives none; DESIGN CHOICE, log 137). -/
def posTarget (s : State) : Rat × Rat :=
  let n := s.cfgR 0x2224 1
  let e := s.cfgR 0x2224 2
  if s.mode.mode ≠ 5 then (n, e)
  else if s.cfgU 0x2226 1 = 1 then
    match (s.stream (s.cfgU 0x2226 3)).al with
    | some a => (vget a.vals 0 + n, vget a.vals 1 + e)
    | none => (s.mode.spN, s.mode.spE)
  else match (waypoints (s.cfgD 0x2227 0)).getLast? with
    | some w => (w.1, w.2.1)
    | none => (n, e)

/-- Heading target of the mode in force; after the last waypoint no leg is in force, and 2224h:03h is the target again (R83
gives none; DESIGN CHOICE, log 137). -/
def headTarget (s : State) : Rat :=
  match s.trackLeg with
  | some l => if s.cfgB 0x2226 4 then wrap360 (rad2deg (Config.atan2 l.ue l.un)) else s.cfgR 0x2224 3
  | none => s.cfgR 0x2224 3

/-- Speed target on the leg in force (log 55). -/
def speedTarget (s : State) : Rat :=
  match s.trackLeg with
  | some l => Config.legSpeed (s.cfgR 0x2224 4) l.v0 l.v1
  | none => s.mode.spV

/-- One step of the position set point along the straight line to a target. -/
def stepPos (s : State) (t : Rat × Rat) : State :=
  let d := s.cfgR 0x2210 1 * s.T
  let dn := t.1 - s.mode.spN
  let de := t.2 - s.mode.spE
  let q := rsq dn + rsq de
  if q ≤ rsq d then s.setMode { s.mode with spN := t.1, spE := t.2 }
  else
    let k := d / rsqrt q
    s.setMode { s.mode with spN := s.mode.spN + k * dn, spE := s.mode.spE + k * de }

/-- TRACK_LEG_ADVANCE (R83): one step along the leg in force; past its end, the next leg from where the set point stands, or
the last waypoint as the target. -/
def stepTrack (s : State) (l : Leg) : State :=
  let v := approach s.mode.spV s.speedTarget (s.cfgR 0x2210 3 * s.T)
  let along := s.mode.along + v * s.T
  let cross := approach s.mode.cross 0 (s.cfgR 0x2210 1 * s.T)
  let q := l.point along cross
  let s := s.setMode { s.mode with spV := v, along := along, cross := cross, spN := q.1, spE := q.2 }
  if along < l.len then s else
  match s.trackLegs[s.mode.leg + 1]? with
  | some l' =>
    let a := l'.at' q.1 q.2
    s.setMode { s.mode with leg := s.mode.leg + 1, along := a.1, cross := a.2 }
  | none => (s.setMode { s.mode with trackEnd := true }).stepPos s.posTarget

/-- One step of the heading set point along the shorter arc. -/
def stepHead (s : State) : State :=
  let d := s.cfgR 0x2210 2 * s.T
  let diff := wrap180 (s.headTarget - s.mode.spH)
  if rabs diff ≤ d then s.setMode { s.mode with spH := s.headTarget }
  else s.setMode { s.mode with spH := wrap360 (s.mode.spH + (if 0 < diff then d else -d)) }

/-- Ramp state (2230h:08h). -/
def rampState (s : State) : Nat :=
  let pos := match s.trackLeg with
    | some _ => s.mode.cross != 0
    | none => decide ((s.mode.spN, s.mode.spE) ≠ s.posTarget)
  let speed := s.trackLeg.isSome && s.mode.spV != s.speedTarget
  bitAt (bit s.mode.axes 0 && pos) 0 + bitAt (bit s.mode.axes 2 && s.mode.spH != s.headTarget) 1 + bitAt speed 2 +
    bitAt s.mode.held 3

/-- Form and publish the set points at f0; `before` the axes under control before this f0, which alone move. -/
def formSetPoints (s : State) (before : Nat) (entered : Bool) : State :=
  let c := s.ctl.culm.core
  let s : State := { s with ctl := { s.ctl with culm := { s.ctl.culm with core :=
    { c with prevSp := [s.mode.spN, s.mode.spE, s.mode.spH] } } } }
  let new := s.mode.axes &&& (7 - before)
  let s := s.setMode { s.mode with lastTgt := s.targets }
  let s :=
    if s.mode.held || !bit s.mode.axes 0 || bit new 0 || entered then s
    else match s.trackLeg with
      | some l => s.stepTrack l
      | none => s.stepPos s.posTarget
  let s := if s.mode.held || !bit s.mode.axes 2 || bit new 2 then s else s.stepHead
  let s := s.setMode { s.mode with ramp := s.rampState }
  s.publishEnd 0x2230 [rv s.mode.spN, rv s.mode.spE, rv s.mode.spH, rv s.mode.spV, .u s.mode.ramp]

/-! The vessel status word (R85, Table 3-9). -/

/-- Assemble the word from the values in force; Granary records and every message of the frame carry it. -/
def statusWord (s : State) : Nat :=
  let o := s.obs.core
  let dr := o.dr || (s.obs.est.isSome && !o.pInit)
  let mism := s.faults.any fun f => f.code == 0x0003
  let lr : Bool := s.ctl.plant.core.lr != [] || !s.scaledNow.isEmpty
  bitAt mism 25 + bitAt s.hal.degraded 24 + bitAt (s.ctl.till.sat != 0) 23 + bitAt lr 22 + (s.therm.level % 4) * 2 ^ 20 +
    bitAt s.ctl.stook.alarm 19 + (s.tb.quality % 4) * 2 ^ 17 + (s.gn.field % 8) * 2 ^ 14 + bitAt dr 13 +
    bitAt (s.ctl.stook.rem.any (·.promoted)) 12 + bitAt s.ctl.stub.core.blend.isSome 11 +
    bitAt s.ctl.stub.core.driving 10 + bitAt (s.objU 0x2200 3 != 0) 9 + bitAt (s.mode.ramp != 0) 8 +
    bitAt (s.mode.mode == 2 && s.mode.autoHead) 7 + (s.faultClass % 4) * 32 + (s.st.role % 4) * 8 + s.mode.mode % 8

def assembleStatus (s : State) : State := s.putU 0x2200 1 s.statusWord

end State

/-! Commands: a mode command carries bits 31-3 of its word, an action command bits 31-8. -/

/-- The word of a mode command. -/
def modeWord (hi target : Nat) : List Byte := natLe 4 ((hi * 8 + target) % 2 ^ 32)
/-- The word of an action command. -/
def actionWord (hi action : Nat) : List Byte := natLe 4 ((hi * 256 + action) % 2 ^ 32)

/-- MODE_COMMAND_STANDBY (R68, R71). -/
def execModeCommandStandby (p : Path) (hi : Nat) (s : State) : Out :=
  if s.up then .next (s.writeWith State.ruleCommand p 0x2201 0 (modeWord hi 0)) else .next s
/-- MODE_COMMAND_LEVER (R68, R71). -/
def execModeCommandLever (p : Path) (hi : Nat) (s : State) : Out :=
  if s.up then .next (s.writeWith State.ruleCommand p 0x2201 0 (modeWord hi 1)) else .next s
/-- MODE_COMMAND_JOYSTICK (R68, R71); bit 8 of the word, bit 5 of `hi`, selects auto heading. -/
def execModeCommandJoystick (p : Path) (hi : Nat) (s : State) : Out :=
  if s.up then .next (s.writeWith State.ruleCommand p 0x2201 0 (modeWord hi 2)) else .next s
/-- MODE_COMMAND_AUTO_HEADING (R68, R71). -/
def execModeCommandAutoHeading (p : Path) (hi : Nat) (s : State) : Out :=
  if s.up then .next (s.writeWith State.ruleCommand p 0x2201 0 (modeWord hi 3)) else .next s
/-- MODE_COMMAND_AUTO_POSITION (R68, R71). -/
def execModeCommandAutoPosition (p : Path) (hi : Nat) (s : State) : Out :=
  if s.up then .next (s.writeWith State.ruleCommand p 0x2201 0 (modeWord hi 4)) else .next s
/-- MODE_COMMAND_TRACK (R68, R71). -/
def execModeCommandTrack (p : Path) (hi : Nat) (s : State) : Out :=
  if s.up then .next (s.writeWith State.ruleCommand p 0x2201 0 (modeWord hi 5)) else .next s
/-- MODE_COMMAND_MAINTENANCE (R68, R71). -/
def execModeCommandMaintenance (p : Path) (hi : Nat) (s : State) : Out :=
  if s.up then .next (s.writeWith State.ruleCommand p 0x2201 0 (modeWord hi 6)) else .next s
/-- MODE_COMMAND_DORMANCY (R68, R71). -/
def execModeCommandDormancy (p : Path) (hi : Nat) (s : State) : Out :=
  if s.up then .next (s.writeWith State.ruleCommand p 0x2201 0 (modeWord hi 7)) else .next s
/-- ACTION_CAPTURE_POSITION (R71, R82). -/
def execActionCapturePosition (p : Path) (hi : Nat) (s : State) : Out :=
  if s.up then .next (s.writeWith State.ruleCommand p 0x2203 0 (actionWord hi 1)) else .next s
/-- ACTION_CAPTURE_HEADING (R71, R82). -/
def execActionCaptureHeading (p : Path) (hi : Nat) (s : State) : Out :=
  if s.up then .next (s.writeWith State.ruleCommand p 0x2203 0 (actionWord hi 2)) else .next s
/-- ACTION_HOLD_RAMPS (R71, R82). -/
def execActionHoldRamps (p : Path) (hi : Nat) (s : State) : Out :=
  if s.up then .next (s.writeWith State.ruleCommand p 0x2203 0 (actionWord hi 3)) else .next s
/-- ACTION_RELEASE_RAMPS (R71, R82). -/
def execActionReleaseRamps (p : Path) (hi : Nat) (s : State) : Out :=
  if s.up then .next (s.writeWith State.ruleCommand p 0x2203 0 (actionWord hi 4)) else .next s

/-! The observer's commands, with the test of the guards that follows its results. -/

/-- OBSERVER_UPDATE (R165): at f2 of a running unit; the guards are then tested on the sample's results (R67, R69). -/
def execObserverUpdate (s : State) : Out :=
  if s.up && s.fOff == 2 then .next s.observerRun.testGuards else .next s

/-- OBSERVER_OVERRUN (R179): the prediction stands as the estimate, held; the guards are tested as after an update. -/
def execObserverOverrun (s : State) : Out :=
  if !(s.up && s.fOff == 2) then .next s else
  let s := s.observerMiss.incU 0x2A50 1
  let l := s.overruns100 s.obs.overs
  let s := { s with obs := { s.obs with overs := l } }
  let s := s.alarm 0x0507 0 1 []
  .next (if 3 ≤ l.length then s.unitStop 0x0507 else s).testGuards

end Sys2Proof.Machine
end

