-- ==== Sys2Proof/Machine/Rules.lean ====
section
/-! DEFINITION. Every object's own rules together (step 7 of R577), computed reads, reads with side effects, and the
commands of chapter 02: generic writes, stores, restores, configuration sets. -/
namespace Sys2Proof.Machine

namespace State

/-! Reads. -/

/-- Objects whose value is computed at the read. -/
def liveRead (p : Path) (s : State) (idx sub : Nat) : Option Val :=
  if idx = 0x1001 then some (.u s.errorReg)
  else if idx = 0x1200 then some (.u ((if sub = 1 then 0x600 else 0x580) + s.objU 0x1F00 0))
  else if idx = 0x2010 then some (.d s.presentSet)
  else if idx = 0x2011 ∧ sub = 5 then some (.u s.sharedDigest)
  else if idx = 0x2226 ∧ sub = 2 then some (.u ((s.objD 0x2227 0).length / 12))
  else if 0x2700 ≤ idx ∧ idx < 0x2710 ∧ sub = 5 then some (.u (s.groupClass (idx - 0x2700)))
  else if idx = 0x3E01 ∧ sub = 3 then some (.u s.largestMirror)
  else if idx = 0x4620 ∧ sub = 1 then some (.u (s.cursorOf p))
  else if idx = 0x4631 then some (.d s.clearRegister)
  else if idx = 0x4830 ∧ sub = 3 then some (.u s.tamperWord)
  else s.liveGnss idx sub

/-- Objects that a read clears (R197, R151, R256, R356, R421). -/
def sticky (idx sub : Nat) : Bool :=
  idx == 0x2910 || idx == 0x2911 || (idx == 0x2C50 && sub ≤ 3) || idx == 0x2C51 || idx == 0x3204 || idx == 0x3842 ||
    idx == 0x3A90

/-- A read of 3A93h returns the compare status and clears the fired bits (R379). -/
def readCompares (s : State) (p : Path) (sub : Nat) : State :=
  let s' := s.readWith (fun _ _ _ => none) p 0x3A93 sub
  if s'.acc.answer.code = 0 ∧ 1 ≤ sub ∧ sub ≤ 32 then
    let e := s'.enc (sub - 1)
    (s'.setEnc (sub - 1) { e with compares := e.compares.map fun c => { c with fired := false } }).putCompares (sub - 1)
  else s'

/-- A read of any object by a session, with the side effects that its chapter gives it. -/
def readAny (s : State) (p : Path) (idx sub : Nat) : State :=
  if sticky idx sub && s.existsAbort idx sub == 0 then s.readSticky p idx sub
  else if idx = 0x3C51 ∧ sub = 0 then
    let s' := s.readWith (fun _ _ _ => none) p idx sub
    if s'.acc.answer.code = 0 then s'.putU idx 0 0 else s'
  else if idx = 0x3A93 then s.readCompares p sub
  else if idx = 0x4620 ∧ sub = 2 then s.readGranary p
  else if idx = 0x3645 ∧ sub = 0 then s.navRead p
  else s.readWith (liveRead p) p idx sub

/-! Own rules (step 7 of R577). -/

/-- "save" (R44): a store of an area begins; the Lead forwards it to its partners. -/
def ruleStore (s : State) (_ : Path) (idx sub : Nat) (v : Val) : Verdict :=
  if v.asNat ≠ 0x65766173 then .refuse abStore s
  else
    let s : State := { s with acc := { s.acc with store := some (sub, s.clk.time) } }
    .done (if s.st.role = 0 then s.acceptAction idx sub (.u 1) else s)

/-- "load" (R45): the area's objects are marked. -/
def ruleRestore (s : State) (_ : Path) (_ sub : Nat) (v : Val) : Verdict :=
  if v.asNat ≠ 0x64616F6C then .refuse abStore s
  else .done { s with acc := { s.acc with marks := setBit s.acc.marks (sub - 1) true } }

/-- Sample length (R29). -/
def ruleLength (s : State) (_ : Path) (_ sub : Nat) (v : Val) : Verdict :=
  if sub = 1 ∧ s.stubSet ≠ [] ∧ !(stubLaws s.stubSet).any (fun l => l.n == v.asNat) then .refuse abValue s else .store

/-- The jump threshold 3800h:03h, ms, is not below the step threshold 3800h:02h, µs (Table 13-5). -/
def ruleTimebase (s : State) (_ : Path) (idx sub : Nat) (v : Val) : Verdict :=
  let w := fun k => if k = sub then v.asRat else s.objR idx k
  if (sub = 2 ∨ sub = 3) ∧ w 3 * 1000 < w 2 then .refuse abValue s else .store

/-- Kind of a timebase entry: 01h is refused on a DW8N-A1 (R2, R337). -/
def ruleSource (s : State) (_ : Path) (_ _ : Nat) (v : Val) : Verdict :=
  if v.asNat = 1 ∧ !s.hasGnss then .refuse abValue s else .store

/-- The rules of every object that a configuration set may hold. -/
def rulePlain (s : State) (p : Path) (idx sub : Nat) (v : Val) : Verdict :=
  let within := fun (lo hi : Nat) => lo ≤ idx && idx ≤ hi
  if within 0x1400 0x15FF || within 0x1800 0x19FF then s.rulePdoComm p idx sub v
  else if within 0x1600 0x17FF || within 0x1A00 0x1BFF then s.rulePdoMap p idx sub v
  else if idx = 0x2030 then s.ruleLength p idx sub v
  else if within 0x2400 0x24FF then s.ruleDescriptor p idx sub v
  else if within 0x2600 0x26FF && sub == 1 then s.ruleGroup p idx sub v
  else if within 0x2800 0x28FF then s.ruleChaffSource p idx sub v
  else if within 0x2E80 0x2EDF then s.ruleThruster p idx sub v
  else if within 0x3080 0x30FF then s.ruleCase p idx sub v
  else if within 0x3400 0x34DF then s.rulePlant p idx sub v
  else if idx = 0x3800 then s.ruleTimebase p idx sub v
  else if within 0x3810 0x3817 && sub == 1 then s.ruleSource p idx sub v
  else if within 0x3A00 0x3A1F then s.ruleEnc p idx sub v
  else if idx = 0x4010 then s.ruleGate p idx sub v
  else if idx = 0x4020 then s.ruleNodes p idx sub v
  else if idx = 0x4030 ∨ idx = 0x4032 then s.ruleMap p idx sub v
  else if within 0x4200 0x4203 && 3 ≤ sub && sub ≤ 0x0A then s.ruleTiming p idx sub v
  else if within 0x4210 0x4213 then s.ruleFilter p idx sub v
  else if within 0x4240 0x425F then s.ruleCanDrive p idx sub v
  else if within 0x4470 0x4471 then s.ruleImu p idx sub v
  else if idx = 0x4A00 then s.rulePower p idx sub v
  else if idx = 0x4A10 then s.ruleWake p idx sub v
  else if within 0x4C00 0x4C3F then s.ruleMonitor p idx sub v
  else .store

/-! Configuration sets (R61-R64). -/

/-- Entries of a set body: key, type code, value octets; none where the layout is broken. -/
def strictEntries : Nat → List Byte → Option (List (Nat × Nat × List Byte))
  | 0, b => if b = [] then some [] else none
  | k + 1, b =>
    if b = [] then some []
    else if b.length < 6 then none
    else
      let n := leAt b 4 2
      let size := (6 + n + 3) / 4 * 4
      if b.length < size ∨ !((slice b (6 + n) (size - 6 - n)).all (· == 0#8)) then none
      else (strictEntries k (b.drop size)).map fun l => (okey (leAt b 0 2) (leAt b 2 1), leAt b 3 1, slice b 6 n) :: l

/-- The first entry out of order or repeated. -/
def disorder : List (Nat × Nat × List Byte) → Option Nat
  | a :: b :: l => if b.1 ≤ a.1 then some b.1 else disorder (b :: l)
  | _ => none

/-- An entry that no set may hold, or whose value its object's type or range does not admit (R33, R37, R61). -/
def entryBad (s : State) (e : Nat × Nat × List Byte) : Bool :=
  !s.hasIndex (e.1 / 256) || match findRow (e.1 / 256) (e.1 % 256) with
  | none => true
  | some r => !inSet (e.1 / 256) r || r.ty.code != e.2.1 || lengthAbort r e.2.2 != 0 || rangeAbort r (decodeVal r.ty e.2.2) != 0

/-- The state as the client would see it with the set's values. -/
def withEntries (s : State) (l : List (Nat × Nat × List Byte)) : State :=
  { s with obj := l.foldl (fun o e => putV o e.1 (entryVal e.1 e.2.2)) s.obj }

/-- The refusal of the first entry that breaks a rule of its own: its key and the state after that rule's event. -/
def brokenRule (s : State) (p : Path) : List (Nat × Nat × List Byte) → Option (Nat × State)
  | [] => none
  | e :: l =>
    match s.rulePlain p (e.1 / 256) (e.1 % 256) (entryVal e.1 e.2.2) with
    | .refuse _ s' => some (e.1, s')
    | _ => brokenRule s p l

/-- A configuration set is refused: 2011h:04h names the entry, event 0005h its version, abort and entry (R63). Where no entry
is at fault (signature, digest, product code, the size of R445), and when a set loads, 2011h:04h takes 0; the event gives an
entry as 2011h:04h codes it (DESIGN CHOICE, log 138). -/
def configRefuse (s : State) (b : List Byte) (a key : Nat) : Verdict :=
  .refuse a ((s.putU 0x2011 4 key).note 0x0005 [leAt b 12 4, a, key])

/-- The event of an entry's own rule stands; the values do not, but for the discard counter 4601h:04h. -/
def keepEvent (s s' : State) : State := { s' with obj := putV s.obj (okey 0x4601 4) (s'.objV 0x4601 4) }

/-- Own rule of 2010h:00h: structure, then signature, then content (R61-R63, R445). -/
def ruleConfig (s : State) (p : Path) (_ _ : Nat) (v : Val) : Verdict :=
  let b := v.asBytes
  match parseSet "KCFG" b with
  | none => s.configRefuse b abSet 0
  | some x =>
    match strictEntries x.body.length x.body with
    | none => s.configRefuse b abSet 0
    | some l =>
      if l.length ≠ x.count then s.configRefuse b abSet 0 else
      match disorder l with
      | some k => s.configRefuse b abSet k
      | none =>
        let (ok, s) := s.setSigned x
        if !ok then s.configRefuse b abSign 0 else
        match l.find? s.entryBad with
        | some e => s.configRefuse b abSet e.1
        | none =>
          let full := s.withEntries l
          match full.brokenRule p l with
          | some (k, s') =>
            (s.keepEvent s').configRefuse b abSet k
          | none =>
            if 496 * 1024 < full.largestMirror then (s.note 0x0F0C [full.largestMirror]).configRefuse b abSet 0 else .store

/-- Work that the acceptance of a write brings with it. -/
def afterWrite (s : State) (p : Path) (idx sub : Nat) (b : List Byte) : State :=
  if 0x4200 ≤ idx ∧ idx ≤ 0x4203 ∧ (sub = 1 ∨ sub = 2) then s.canAfter (idx - 0x4200)
  else if 0x4C00 ≤ idx ∧ idx ≤ 0x4C3F then s.monitorAfter (idx - 0x4C00)
  else if idx = 0x4C40 then s.publishWindow
  else if idx = 0x3601 ∧ sub = 2 then if s.feMaster then s.setGn { s.gn with scriptDue := some s.clk.time } else s
  else if idx = 0x3C10 then s.setPan { s.pan with forceRole := (s.roleOf p).code }
  else if idx = 0x3C01 then s.note 0x0E01 [((parseSet "KPAN" b).map (·.version)).getD 0]
  else if idx = 0x2030 then s.storeKeys [okey 0x2030 1]
  else s

/-- Own rules of every object. -/
def ruleAll (s : State) (p : Path) (idx sub : Nat) (v : Val) : Verdict :=
  if idx = 0x2201 ∨ idx = 0x2203 then s.ruleCommand p idx sub v
  else if idx = 0x1010 then s.ruleStore p idx sub v
  else if idx = 0x1011 then s.ruleRestore p idx sub v
  else if idx = 0x2010 then s.ruleConfig p idx sub v
  else if idx = 0x2020 then s.ruleRestart2020 p idx sub v
  else if idx = 0x2240 then s.ruleSelection p idx sub v
  else if idx = 0x2900 then s.ruleChaffSet p idx sub v
  else if idx = 0x2A10 then s.ruleObsReset p idx sub v
  else if idx = 0x2C01 then s.ruleCulmSet p idx sub v
  else if idx = 0x3200 then s.ruleStubSet p idx sub v
  else if idx = 0x3611 ∨ idx = 0x3620 ∨ idx = 0x3621 then s.ruleGnss p idx sub v
  else if idx = 0x3802 then s.ruleJump p idx sub v
  else if 0x3A20 ≤ idx ∧ idx ≤ 0x3A3F then s.ruleCompare p idx sub v
  else if idx = 0x3C01 then s.ruleImage p idx sub v
  else if idx = 0x3C03 then s.ruleRestart p idx sub v
  else if idx = 0x3C10 then s.ruleForces p idx sub v
  else if idx = 0x3E20 then s.ruleHand p idx sub v
  else if 0x4200 ≤ idx ∧ idx ≤ 0x4203 ∧ sub = 0x0D then s.ruleCanRestart p idx sub v
  else if 0x4420 ≤ idx ∧ idx ≤ 0x442F then s.ruleTransmit p idx sub v
  else if idx = 0x4620 then s.ruleCursor p idx sub v
  else if idx = 0x4630 then s.ruleToken p idx sub v
  else if idx = 0x4810 then s.ruleOwnerCa p idx sub v
  else if idx = 0x4811 then s.ruleRevocation p idx sub v
  else if idx = 0x4820 ∧ sub = 4 then s.ruleCommit p idx sub v
  else if idx = 0x4821 then s.ruleSlot p idx sub v
  else if idx = 0x4830 ∧ sub = 2 then s.ruleTamperClear p idx sub v
  else s.rulePlain p idx sub v

/-- A write of any object on any path. -/
def writeAny (s : State) (p : Path) (idx sub : Nat) (b : List Byte) : State :=
  let s' := if 0x4200 ≤ idx ∧ idx ≤ 0x4203 ∧ 3 ≤ sub ∧ sub ≤ 0x0A then s.writeTiming p idx sub b
    else s.writeWith ruleAll p idx sub b
  if s'.acc.answer.code = 0 then s'.afterWrite p idx sub b else s'

/-! A configuration set at its f0 (R62). -/

/-- Entries of the set last accepted. -/
def setInForce (s : State) : List (Nat × Nat × List Byte) :=
  match parseSet "KCFG" (s.objD 0x2010 0) with
  | some x => (strictEntries x.body.length x.body).getD []
  | none => []

/-- Every value comes into force, the store begins, event 0005h; a partner takes the pair-shared values (R41, log 57). -/
def applyConfigSet (s : State) : State :=
  match parseSet "KCFG" (s.objD 0x2010 0) with
  | none => s
  | some x =>
    let l := s.setInForce.filter fun e => !s.isFollower || sharedKey e.1
    let s := foldS s l fun s e => s.putBoth (e.1 / 256) (e.1 % 256) (entryVal e.1 e.2.2)
    let s := foldS s (List.range 4) fun s c =>
      if l.any fun e => e.1 == okey (0x4200 + c) 1 || e.1 == okey (0x4200 + c) 2 then s.canAfter c else s
    let s := ((s.putBoth 0x2011 1 (.u x.digest8)).putBoth 0x2011 2 (.u x.version)).putBoth 0x2011 3 (.u 0)
    let s := (s.putU 0x2011 4 0).note 0x0005 [x.version, 0, 0]
    { s with acc := { s.acc with store := some (4, s.clk.time) } }

/-- Keys that a store writes: of an area, or of the configuration set. -/
def storeArea (s : State) (area : Nat) : List Nat :=
  if area = 4 then s.setInForce.map (·.1) ++ [okey 0x2010 0, okey 0x2011 1, okey 0x2011 2, okey 0x2011 3] else s.nvKeys area

/-- A store ends: its copy and the copy's CRC are written (R46), with the values present now (DESIGN CHOICE, log 139). -/
def finishStore (s : State) : State :=
  match s.acc.store with
  | none => s
  | some (area, _) => { s.storeKeys (s.storeArea area) with acc := { (s.storeKeys (s.storeArea area)).acc with store := none } }

end State

/-! Commands. -/

/-- GENERIC_WRITE (R38, R577): a write of any object. -/
def execGenericWrite (p : Path) (idx sub : Nat) (b : List Byte) (s : State) : Out :=
  .next (if s.up then s.writeAny p idx sub b else s)

/-- RESULT_SAMPLE_READ (R55): a read of subindex 01h of a result object latches its buffer. -/
def execResultSampleRead (p : Path) (idx : Nat) (s : State) : Out :=
  .next (if s.up && (findRes idx).isSome then s.readAny p idx 1 else s)

/-- RESULT_LATCH_TIMEOUT (R55): 2 s have passed since the session's latch. -/
def execResultLatchTimeout (p : Path) (t : Nat) (s : State) : Out :=
  let s := s.at' t
  match (s.session p).latch with
  | some (_, _, t0) => .next (if t0 + 2000000000 ≤ s.clk.time then s.setSession p { s.session p with latch := none } else s)
  | none => .next s

/-- STORE_PARAMETERS (R44): a write of 1010h. -/
def execStoreParameters (p : Path) (sub : Nat) (b : List Byte) (s : State) : Out :=
  .next (if s.up then s.writeWith State.ruleStore p 0x1010 sub b else s)

/-- STORE_COMPLETE (R46). -/
def execStoreComplete (s : State) : Out := .next s.finishStore

/-- RESTORE_DEFAULTS (R45): a write of 1011h. -/
def execRestoreDefaults (p : Path) (sub : Nat) (b : List Byte) (s : State) : Out :=
  .next (if s.up then s.writeWith State.ruleRestore p 0x1011 sub b else s)

/-- CONFIGURATION_SET_LOAD (R62): a write of 2010h:00h. -/
def execConfigurationSetLoad (p : Path) (b : List Byte) (s : State) : Out :=
  .next (if s.up then s.writeWith State.ruleConfig p 0x2010 0 b else s)

/-- SAMPLE_LENGTH_WRITE (R29): a write of 2030h:01h. -/
def execSampleLengthWrite (p : Path) (b : List Byte) (s : State) : Out :=
  .next (if s.up then s.writeAny p 0x2030 1 b else s)

end Sys2Proof.Machine
end

