-- ==== Sys2Proof/Machine/Scan.lean ====
section
/-! DEFINITION. The input and output phases of a Panicle scan, which reach every object (R414, R424, R426). -/
namespace Sys2Proof.Machine

namespace State

/-- Present value of an object, as a read returns it. -/
def presentV (s : State) (idx sub : Nat) : Val := (liveRead .panicle s idx sub).getD (s.objV idx sub)

/-- The output bindings of one object, with their numbers. -/
def outBinds (p : Prog) (idx sub : Nat) : List (Nat × PBind) :=
  (List.zip (List.range p.binds.length) p.binds).filter fun x =>
    x.2.dir == 2 && x.2.kind == 1 && x.2.index == idx && x.2.sub == sub

/-- Objects with an output binding, each once. -/
def outObjects (p : Prog) : List (Nat × Nat) :=
  ((p.binds.filter fun b => b.dir == 2 && b.kind == 1).map fun b => (b.index, b.sub)).eraseDups

/-- The value that the bindings of an object give it: the variable's, or the present value with the bound bits replaced. -/
def outValue (s : State) (l : List (Nat × PBind)) (idx sub : Nat) : Val :=
  let var := fun (b : PBind) => varVal s.forcedVals s.pan.vals b.var
  match l.find? fun x => x.2.bit == 0xFF with
  | some x => var x.2
  | none => .u (l.foldl (fun n x => setBit n x.2.bit ((var x.2).asNat != 0)) (s.presentV idx sub).asNat)

/-- Write one object from its bindings where its value differs (R426). -/
def writeOut (s : State) (p : Prog) (o : Nat × Nat) : State :=
  let l := outBinds p o.1 o.2
  let v := s.outValue l o.1 o.2
  match findRow o.1 o.2 with
  | none => s
  | some r =>
    if (!r.loc && s.isFollower) || v == s.presentV o.1 o.2 then s else
    let s' := s.writeAny .panicle o.1 o.2 (encodeVal r.ty v)
    let code := s'.acc.answer.code
    let s' : State := { s' with acc := { s'.acc with answer := s.acc.answer } }
    let ks := l.map (·.1)
    if code = 0 then s'.setPan { s'.pan with refused := s'.pan.refused.filter fun k => !ks.contains k }
    else
      let s' := s'.incU 0x3C50 2
      if ks.any s'.pan.refused.contains then s'
      else (s'.note 0x0E09 [o.1, o.2, code]).setPan { s'.pan with refused := s'.pan.refused ++ ks }

/-- Output phase: objects, then lines, then the scan's results. The lines take their levels at the start of the next frame
(R414). -/
def outputPhase (s : State) : State :=
  match s.pan.prog with
  | none => s
  | some p =>
    let s := foldS s (outObjects p) fun s o => s.writeOut p o
    let lines := p.binds.filter fun b => b.dir == 2 && b.kind == 2
    let level := lines.foldl (fun n b => setBit n b.addr ((varVal s.forcedVals s.pan.vals b.var).asNat != 0)) s.io.panDio
    let s : State := { s with io := { s.io with panDio := level } }
    s.publishPan

end State

/-- PANICLE_INPUT_PHASE (R414, R424): at the start of a scan's first frame, after the changes of Table 10-7. -/
def execPanicleInputPhase (s : State) : Out :=
  if s.scans && s.scanBoundary && !s.pan.latched then .next (s.inputPhase (State.liveRead .panicle)) else .next s

/-- PANICLE_OUTPUT_PHASE (R414, R426): in the last 100 µs of offset S - 1, of a scan whose execution has ended. -/
def execPanicleOutputPhase (s : State) : Out :=
  if s.scans && s.pan.latched && s.pan.executed && s.scanOff + 1 == s.pan.len then .next s.outputPhase else .next s

end Sys2Proof.Machine
end

