-- ==== Sys2Proof/Machine/Serve.lean ====
section
/-! DEFINITION. Access from outside: SDO servers, PDOs and heartbeats (chapter 19), KDP sessions, published records and the
receive map (chapter 18). -/
namespace Sys2Proof.Machine

namespace State

/-- The octets of an object as process data carries it: a result from its published buffer (R473). -/
def objBytes (s : State) (idx sub : Nat) : List Byte :=
  match findRes idx with
  | some r => resSub r (s.result idx) sub
  | none => match findRow idx sub with
    | some r => encodeVal r.ty ((liveRead .recvMap s idx sub).getD (s.objV idx sub))
    | none => natLe 1 ((highestSub idx).getD 0)

/-- Write as process data does: the last answer to a client stands; the abort code of this write is returned. -/
def processWrite (s : State) (p : Path) (idx sub : Nat) (b : List Byte) : Nat × State :=
  let s' := s.writeAny p idx sub b
  (s'.acc.answer.code, { s' with acc := { s'.acc with answer := s.acc.answer } })

/-- A pair-shared object that this unit, a Shadow or Reserve, does not attempt to write (R474, R495). -/
def notMine (s : State) (idx sub : Nat) : Bool := s.isFollower && sharedKey (okey idx sub)

/-! Receive map (R473, R474). -/

/-- The octets of a field word for an object's type: its low octets (log 59). -/
def fieldBytes (s : State) (idx sub w : Nat) : List Byte :=
  match s.mapped idx sub with
  | some t => natLe (t.size.getD 0) w
  | none => []

/-- One entry of the receive map. -/
def receiveEntry (s : State) (k : Nat) (e : List Byte) : State :=
  let idx := leAt e 4 2
  let sub := leAt e 6 1
  let words := tget [] s.net.console (leAt e 0 2 * 8 + leAt e 2 1)
  let f := leAt e 3 1
  if words.length ≤ f ∨ s.notMine idx sub then s else
  let w := nth 0 words f
  if tfind s.net.wrote k = some w then s else
  let (code, s') := s.processWrite .recvMap idx sub (s.fieldBytes idx sub w)
  if code = 0 then s'.setNet { s'.net with wrote := tset s'.net.wrote k w, refused := tdel s'.net.refused k }
  else
    let s' := s'.incU 0x4050 8
    if tfind s'.net.refused k = some w then s'
    else (s'.note 0x100D [idx, sub, code]).setNet { s'.net with refused := tset s'.net.refused k w }

/-- The receive map at the start of a frame (R474). -/
def receiveMap (s : State) : State :=
  let l := chunks 8 (s.cfgD 0x4032 0)
  foldS s ((List.range l.length).zip l) fun s p => s.receiveEntry p.1 p.2

/-! Published records (R473, Table 18-4). -/

/-- Field words of published record k: the highest field that an entry names, and those before it. -/
def publishedWords (s : State) (k : Nat) : List Nat :=
  let l := (chunks 8 (s.cfgD 0x4030 0)).filter fun e => leAt e 3 1 == k
  let word := fun (e : List Byte) =>
    let idx := leAt e 0 2
    let sub := leAt e 2 1
    let n := leNat (s.objBytes idx sub)
    match s.mapped idx sub with
    | some .i8 => ofSigned 32 (toSigned 8 n)
    | some .i16 => ofSigned 32 (toSigned 16 n)
    | _ => n
  if l = [] then [] else
  (List.range (maxNat (l.map fun e => leAt e 4 1) + 1)).map fun f =>
    match l.find? fun e => leAt e 4 1 == f with
    | some e => word e
    | none => 0

/-- Frames between two published records k: four times the divisor from level 2 on (R521). -/
def publishedEvery (s : State) (k : Nat) : Nat := s.cfgU 0x4031 (k + 1) * (if 2 ≤ s.therm.level then 4 else 1)

/-- Published record k is due in this frame and not queued yet. -/
def publishedDue (s : State) (k : Nat) : Bool :=
  s.up && s.mode.mode != 7 && k < 8 && s.clk.frame % s.publishedEvery k == 0 &&
    !(s.net.queued.any fun f => f.recs.any fun r => r.type == 0x10 + k)

/-- Queue published record k; the spec gives its time of validity no value: free. -/
def publishRecord (s : State) (k : Nat) : State :=
  let w := s.publishedWords k
  if w = [] then s else
  let (tov, s) := s.freeN
  s.queueKpp [{ type := 0x10 + k, node := 4092 + s.st.unitId, tov := tov, words := w }]

/-! PDOs (R494, R495). -/

/-- Index, subindex and size of the entries of a mapping. -/
def mapping (s : State) (idx : Nat) : List (Nat × Nat × Nat) :=
  (List.range (s.cfgU idx 0)).map fun i =>
    let e := s.cfgU idx (i + 1)
    (e / 65536, e / 256 % 256, e % 256 / 8)

/-- One entry of RPDO n with its octets. -/
def rpdoEntry (s : State) (c n i idx sub : Nat) (b : List Byte) : State :=
  if s.notMine idx sub then s else
  let key := n * 64 + i
  let (code, s') := s.processWrite (.rpdo c) idx sub b
  if code = 0 then s'.setCan { s'.can with refused := tdel s'.can.refused key }
  else if tfind s'.can.refused key = some (leNat b) then s'
  else (s'.note 0x110E [idx, sub, code]).setCan { s'.can with refused := tset s'.can.refused key (leNat b) }

/-- The entries of RPDO n from octet `at'` on. -/
def rpdoEntries (s : State) (c n : Nat) (data : List Byte) : Nat → Nat → List (Nat × Nat × Nat) → State
  | _, _, [] => s
  | i, at', (idx, sub, k) :: l => rpdoEntries (s.rpdoEntry c n i idx sub (slice data at' k)) c n data (i + 1) (at' + k) l

/-- A received RPDO: applied when it holds the mapped length. -/
def rpdoApply (s : State) (c : Nat) (m : CanRx) : State :=
  foldS s ((List.range 512).filter fun n =>
      !bit (s.cfgU (0x1400 + n) 1) 31 && cobId (s.cfgU (0x1400 + n) 1) == m.id) fun s n =>
    let l := s.mapping (0x1600 + n)
    if m.data.length < nsum (l.map (·.2.2)) then s else s.rpdoEntries c n m.data 0 0 l

/-- The RPDOs of the frame before, at the start of a frame (R495). -/
def rpdosApply (s : State) : State :=
  let l := s.can.rpdo
  foldS (s.setCan { s.can with rpdo := [] }) l fun s p => s.rpdoApply p.1 p.2

/-- Smallest FD length that holds n octets. -/
def fdLength (n : Nat) : Nat := ([8, 12, 16, 20, 24, 32, 48, 64].find? fun k => n ≤ k).getD 64

/-- The octets of TPDO n. -/
def tpdoData (s : State) (n : Nat) : List Byte :=
  ((s.mapping (0x1A00 + n)).map fun e => (s.objBytes e.1 e.2.1 ++ List.replicate 8 0).take e.2.2).flatten

/-- Milliseconds rounded up to whole frames, in ns. -/
def framesUp (ms : Nat) : Nat := (ms * 1000000 + 1249999) / 1250000 * 1250000

/-- TPDO n is enabled on the Lead (R492, R494). -/
def tpdoOn (s : State) (n : Nat) : Bool :=
  s.up && s.st.role == 0 && s.mode.mode != 7 && n < 512 && !bit (s.cfgU (0x1800 + n) 1) 31 && s.cfgU (0x1A00 + n) 0 != 0

/-- TPDO n is due: 1 by its event timer, 2 by a change of a mapped value outside its inhibit time, 0 not. -/
def tpdoDue (s : State) (n : Nat) : Nat :=
  if !s.tpdoOn n then 0 else
  match tfind s.can.tpdo n with
  | none => 2
  | some (data, t) =>
    let timer := s.cfgU (0x1800 + n) 5
    if timer ≠ 0 ∧ t + framesUp timer ≤ s.clk.time then 1
    else if data ≠ s.tpdoData n ∧ t + s.cfgU (0x1800 + n) 3 * 100000 ≤ s.clk.time then 2 else 0

/-- Queue TPDO n on every controller that can carry it. -/
def tpdoSend (s : State) (n : Nat) (timer : Bool) : State :=
  let data := s.tpdoData n
  let fd : Bool := 8 < data.length
  let frame := if fd then data ++ List.replicate (fdLength data.length - data.length) 0 else data
  let id := cobId (s.cfgU (0x1800 + n) 1)
  let s := foldS s (List.range 4) fun s c =>
    if fd && !s.cfgB (canObj c) 0x0B then s else s.canQueue c { id := id, kind := .tpdo n timer, fd := fd, data := frame }
  s.setCan { s.can with tpdo := tset s.can.tpdo n (data, s.clk.time) }

/-- The producer heartbeat is due: running, or before Standby from start-up stage 7 on (R496, log 58). -/
def beatDue (s : State) : Bool :=
  (s.up || s.st.power == .starting 7) && s.mode.mode != 7 && s.cfgU 0x1017 0 != 0 &&
    decide (s.can.beatAt + s.cfgU 0x1017 0 * 1000000 ≤ s.clk.time)

/-- Queue the producer heartbeat (R496): NMT state 05h from Standby on, 7Fh before. -/
def beatSend (s : State) : State :=
  let state : Nat := if s.up then 0x05 else 0x7F
  let s := foldS s (List.range 4) fun s c =>
    s.canQueue c { id := 0x700 + s.canNode, kind := .heartbeat, fd := false, data := natLe 1 state }
  s.setCan { s.can with beatAt := s.clk.time }

/-! SDO (R493, CiA 301; what the spec does not repeat of CiA 301 is PRESUMED, log 60). -/

/-- CRC of block transfers: polynomial x^16 + x^12 + x^5 + 1, start value 0. -/
def crc16Bit (c : Nat) : Nat := if 32768 ≤ c then ((c * 2) % 65536) ^^^ 0x1021 else c * 2
def crc16Byte (c : Nat) (b : Byte) : Nat := (List.range 8).foldl (fun c _ => crc16Bit c) (c ^^^ (b.toNat * 256))
def crc16 (b : List Byte) : Nat := b.foldl crc16Byte 0

/-- A new transfer. -/
def newSdo (s : State) (kind : SdoKind) (idx sub : Nat) (buf : List Byte) (size : Nat) : Sdo :=
  { kind := kind, idx := idx, sub := sub, buf := buf, size := size, toggle := false, last := none, blk := 127, crc := false,
    seq := 0, done := 0, ended := false, at' := s.clk.time }

/-- Octets of an SDO frame: a command, the object, a U32. -/
def sdoFrame (cmd idx sub n : Nat) : List Byte := natLe 1 cmd ++ natLe 2 idx ++ natLe 1 sub ++ natLe 4 n

/-- Row that a request belongs to: 0 initiate or abort, 1 segment, 2 block segment, its acknowledgements and end. While the
segments of a block download arrive, every frame but an abort is one. -/
def sdoClass (x : Option Sdo) (b : List Byte) : Nat :=
  let c := leAt b 0 1
  let inBlock : Bool := match x with
    | some x => x.kind == .blockDown && !x.ended
    | none => false
  if c = 0x80 then 0
  else if inBlock then 2
  else if c / 32 = 0 ∨ c / 32 = 3 then 1
  else if c / 32 = 5 then (if c % 4 = 0 then 0 else 2)
  else if c / 32 = 6 then (if c % 2 = 0 then 0 else 2)
  else 0

/-- A download is complete: its length is the one indicated, and the write is made. -/
def sdoWrite (s : State) (c : Nat) (x : Sdo) (req data : List Byte) : State :=
  if x.size ≠ 0 ∧ x.size ≠ data.length then s.sdoAbort c x.idx x.sub abLength
  else
    let s := s.writeAny (.can c) x.idx x.sub data
    s.sdoFinish c x req s.acc.answer.code

/-- Size of the object's type where it has one of at most 4 octets (an expedited download that indicates no size). -/
def expeditedSize (idx sub : Nat) : Nat :=
  match findRow idx sub with
  | some r => match r.ty.size with
    | some k => min k 4
    | none => 4
  | none => 4

/-- Initiate download. -/
def sdoDown (s : State) (c : Nat) (b : List Byte) : State :=
  let cmd := leAt b 0 1
  let idx := leAt b 1 2
  let sub := leAt b 3 1
  if bit cmd 1 then
    let n := if bit cmd 0 then 4 - field cmd 2 2 else expeditedSize idx sub
    let x := s.newSdo .download idx sub [] 0
    s.sdoWrite c x b (slice b 4 n)
  else
    let x := s.newSdo .download idx sub [] (if bit cmd 0 then leAt b 4 4 else 0)
    (s.setSdo c (some x)).sdoSend c (sdoFrame 0x60 idx sub 0)

/-- Initiate upload. -/
def sdoUp (s : State) (c : Nat) (b : List Byte) : State :=
  let idx := leAt b 1 2
  let sub := leAt b 3 1
  let s := (s.setSdo c none).readAny (.can c) idx sub
  if s.acc.answer.code ≠ 0 then s.sdoAbort c idx sub s.acc.answer.code else
  let v := s.acc.answer.value
  let k := v.length
  if 1 ≤ k ∧ k ≤ 4 then s.sdoSend c (natLe 1 (0x43 + (4 - k) * 4) ++ natLe 2 idx ++ natLe 1 sub ++ (v ++ List.replicate 4 0).take 4)
  else (s.setSdo c (some (s.newSdo .upload idx sub v k))).sdoSend c (sdoFrame 0x41 idx sub k)

/-- Initiate block download. -/
def sdoBlockDown (s : State) (c : Nat) (b : List Byte) : State :=
  let cmd := leAt b 0 1
  let idx := leAt b 1 2
  let sub := leAt b 3 1
  let x := s.newSdo .blockDown idx sub [] (if bit cmd 1 then leAt b 4 4 else 0)
  (s.setSdo c (some { x with crc := bit cmd 2 })).sdoSend c (sdoFrame 0xA4 idx sub 127)

/-- Initiate block upload. -/
def sdoBlockUp (s : State) (c : Nat) (b : List Byte) : State :=
  let cmd := leAt b 0 1
  let idx := leAt b 1 2
  let sub := leAt b 3 1
  let blk := leAt b 4 1
  if blk = 0 ∨ 127 < blk then s.sdoAbort c idx sub abBlockSize else
  let s := (s.setSdo c none).readAny (.can c) idx sub
  if s.acc.answer.code ≠ 0 then s.sdoAbort c idx sub s.acc.answer.code else
  let v := s.acc.answer.value
  (s.setSdo c (some { s.newSdo .blockUp idx sub v v.length with blk := blk, crc := bit cmd 2 })).sdoSend c
    (sdoFrame 0xC6 idx sub v.length)

/-- An initiate, an abort of the client's, or a command that is none. An initiate ends the transfer before it. -/
def sdoInitiate (s : State) (c : Nat) (b : List Byte) : State :=
  let cmd := leAt b 0 1
  match cmd / 32 with
  | 1 => s.sdoDown c b
  | 2 => s.sdoUp c b
  | 4 => s.setSdo c none
  | 5 => s.sdoBlockUp c b
  | 6 => s.sdoBlockDown c b
  | _ => s.sdoAbort c (leAt b 1 2) (leAt b 3 1) abCommand

/-- A segment with the toggle of the last accepted one (R57): the previous response again where its content is the same. -/
def sdoRepeat (s : State) (c : Nat) (x : Sdo) (b : List Byte) : State :=
  match x.last with
  | some (req, r) =>
    if req = b then (if r = [] then s else s.sdoSend c r) else s.sdoAbort c x.idx x.sub abToggle
  | none => s.sdoAbort c x.idx x.sub abToggle

/-- Download segment. -/
def sdoDownSeg (s : State) (c : Nat) (x : Sdo) (b : List Byte) : State :=
  let cmd := leAt b 0 1
  if x.ended || bit cmd 4 != x.toggle then s.sdoRepeat c x b else
  let data := x.buf ++ slice b 1 (7 - field cmd 1 3)
  if bit cmd 0 then s.sdoWrite c { x with buf := data, at' := s.clk.time } b data
  else
    let r := natLe 1 (0x20 + bitAt x.toggle 4) ++ List.replicate 7 0
    (s.setSdo c (some { x with buf := data, toggle := !x.toggle, last := some (b, r), at' := s.clk.time })).sdoSend c r

/-- Upload segment. -/
def sdoUpSeg (s : State) (c : Nat) (x : Sdo) (b : List Byte) : State :=
  let cmd := leAt b 0 1
  if x.ended || bit cmd 4 != x.toggle then s.sdoRepeat c x b else
  let part := x.buf.take 7
  let rest := x.buf.drop 7
  let r := natLe 1 (bitAt x.toggle 4 + (7 - part.length) * 2 + b2n rest.isEmpty) ++ (part ++ List.replicate 7 0).take 7
  (s.setSdo c (some { x with
    buf := rest, toggle := !x.toggle, last := some (b, r), ended := rest.isEmpty, at' := s.clk.time })).sdoSend c r

/-- A segment of a segmented transfer. -/
def sdoSegment (s : State) (c : Nat) (b : List Byte) : State :=
  match (s.canC c).sdo with
  | none => s.sdoAbort c 0 0 abCommand
  | some x =>
    match leAt b 0 1 / 32, x.kind with
    | 0, .download => s.sdoDownSeg c x b
    | 3, .upload => s.sdoUpSeg c x b
    | _, _ => s.sdoAbort c x.idx x.sub abCommand

/-- A segment of a block download; the last of a block, or of the data, is acknowledged with the last good sequence. -/
def sdoBlockIn (s : State) (c : Nat) (x : Sdo) (b : List Byte) : State :=
  let cmd := leAt b 0 1
  let q := cmd % 128
  if q = 0 then s.sdoAbort c x.idx x.sub abSeq else
  let good : Bool := q == x.seq + 1
  let x := if good then { x with buf := x.buf ++ slice b 1 7, seq := q, ended := bit cmd 7 } else x
  let x := { x with at' := s.clk.time }
  if q = x.blk ∨ bit cmd 7 then
    (s.setSdo c (some { x with seq := 0 })).sdoSend c (natLe 1 0xA2 ++ natLe 1 x.seq ++ natLe 1 127 ++ List.replicate 5 0)
  else s.setSdo c (some x)

/-- The end of a block download. -/
def sdoBlockEnd (s : State) (c : Nat) (x : Sdo) (b : List Byte) : State :=
  let n := field (leAt b 0 1) 2 3
  let data := x.buf.take (x.buf.length - n)
  if x.crc && crc16 data != leAt b 1 2 then s.sdoAbort c x.idx x.sub abCrc
  else s.sdoWrite c { x with at' := s.clk.time } b data

/-- Segment k (from 1) of the block of `data` that begins at octet `at'`; the last of all carries bit 7. -/
def sdoBlockOut (data : List Byte) (at' k : Nat) : List Byte :=
  let p := at' + (k - 1) * 7
  natLe 1 (k + bitAt (data.length ≤ p + 7) 7) ++ (slice data p 7 ++ List.replicate 7 0).take 7

/-- Send the next block of an upload. -/
def sdoSendBlock (s : State) (c : Nat) (x : Sdo) : State :=
  let left := max 1 ((x.buf.length - x.done + 6) / 7)
  let n := min x.blk left
  let s := s.setSdo c (some { x with seq := n, at' := s.clk.time })
  foldS s (List.range n) fun s k => s.sdoSend c (sdoBlockOut x.buf x.done (k + 1))

/-- The client's acknowledgement of a block: the next block from the last good segment on, or the end. -/
def sdoBlockAck (s : State) (c : Nat) (x : Sdo) (b : List Byte) : State :=
  let q := leAt b 1 1
  let blk := leAt b 2 1
  if x.seq < q then s.sdoAbort c x.idx x.sub abSeq
  else if blk = 0 ∨ 127 < blk then s.sdoAbort c x.idx x.sub abBlockSize
  else
    let done := x.done + q * 7
    let x := { x with done := done, blk := blk, seq := 0 }
    if x.buf.length ≤ done ∧ 0 < q then
      let n := done - x.buf.length
      let crc := if x.crc then crc16 x.buf else 0
      (s.setSdo c (some { x with ended := true, at' := s.clk.time })).sdoSend c
        (natLe 1 (0xC1 + n * 4) ++ natLe 2 crc ++ List.replicate 5 0)
    else s.sdoSendBlock c x

/-- A frame of a block transfer. -/
def sdoBlock (s : State) (c : Nat) (b : List Byte) : State :=
  let cmd := leAt b 0 1
  match (s.canC c).sdo with
  | none => s.sdoAbort c 0 0 abCommand
  | some x =>
    match x.kind, x.ended with
    | .blockDown, false => s.sdoBlockIn c x b
    | .blockDown, true => if cmd / 32 = 6 then s.sdoBlockEnd c x b else s.sdoAbort c x.idx x.sub abCommand
    | .download, true => if cmd / 32 = 6 then s.sdoRepeat c x b else s.sdoAbort c x.idx x.sub abCommand
    | .blockUp, e =>
      if cmd / 32 ≠ 5 then s.sdoAbort c x.idx x.sub abCommand
      else if cmd % 4 = 3 ∧ !e then s.sdoSendBlock c x
      else if cmd % 4 = 2 ∧ !e then s.sdoBlockAck c x b
      else if cmd % 4 = 1 ∧ e then s.setSdo c none
      else s.sdoAbort c x.idx x.sub abCommand
    | _, _ => s.sdoAbort c x.idx x.sub abCommand

/-- The oldest request of controller c, where it is of a class: it is served at device time t. -/
def sdoServe (s : State) (c t cls : Nat) (serve : State → List Byte → State) : State :=
  let s := s.at' t
  if !(s.canHears c) then s else
  match (s.canC c).sdoIn with
  | [] => s
  | b :: rest =>
    if sdoClass (s.canC c).sdo b.2 ≠ cls then s
    else serve (s.setCanC c { s.canC c with sdoIn := rest, sdoNode := b.1 }) b.2

/-- A transfer that is in progress: one that has ended is kept for a repeat only. -/
def Sdo.busy (x : Sdo) : Bool :=
  !(x.ended && (x.kind == .upload || (x.kind == .download && match x.last with
    | some (_, []) => false
    | _ => true)))

/-! KDP (R476, R477, R57, R58). -/

/-- Open sessions. -/
def kdpCount (s : State) : Nat := (s.acc.sessions.filter fun p => 16 ≤ p.1).length
def kdpOpen (s : State) (id : Nat) : Bool := (tfind s.acc.sessions (16 + id)).isSome

/-- Close a session: its replay cache goes with it (R59); event 1009h with a cause whose codes the spec does not list
(log 27). -/
def kdpClose (s : State) (id cause : Nat) : State :=
  if !s.kdpOpen id then s else
  let x := s.session (.kdp id)
  let s : State := { s with acc := { s.acc with sessions := tdel s.acc.sessions (16 + id) } }
  s.note 0x1009 [x.role.code, x.peer, Config.reason 0x1009 cause]

/-- The age of a partner's mirror in frames, counted from its f(N-1) (R50). -/
def mirrorAge (s : State) (u : Nat) : List Byte := natLe 4 (s.clk.frame - (s.unit u).reportAt)

/-- A value of the last full mirror of unit u (R50). -/
def mirrorValue (s : State) (u idx sub : Nat) : Except Nat (List Byte) :=
  let p := s.unit u
  let e := s.existsAbort idx sub
  if e ≠ 0 then .error e
  else if p.report = [] ∧ p.reportRes = [] then .error abNoObject
  else match findRes idx with
    | some r => match tfind p.reportRes idx with
      | some b => .ok (resSub r b sub)
      | none => .error abNoObject
    | none =>
      if !reportObjs.contains idx then .error abNoObject else
      match findRow idx sub with
      | some r => .ok (encodeVal r.ty (getV p.report (okey idx sub)))
      | none => .ok (natLe 1 ((highestSub idx).getD 0))

/-- Read one object for a session. -/
def kdpRead (s : State) (id unit idx sub : Nat) : State :=
  if unit = 0xFF then s.readAny (.kdp id) idx sub
  else if 3 < unit then s.answer abIncompat
  else match s.mirrorValue unit idx sub with
    | .error a => s.answer a
    | .ok b => s.answer 0 (s.mirrorAge unit ++ b)

/-- Subindices in use of an index from 01h on. -/
def subsOf (idx : Nat) : List Nat :=
  ((List.range ((highestSub idx).getD 0)).map (· + 1)).filter fun k =>
    (findRes idx).isSome || (findRow idx k).isSome

/-- The octets of one subindex in a whole record: STRING and DOMAIN behind their length. -/
def recordPart (idx sub : Nat) (b : List Byte) : List Byte :=
  let ty : Option Ty := match findRes idx with
    | some r => if sub < 4 then none else some (nth .u8 r.types (sub - 4))
    | none => (findRow idx sub).map (·.ty)
  match ty with
  | some t => if t.size.isNone then natLe 4 b.length ++ b else b
  | none => b

/-- One subindex more of a whole record; after one that cannot be read, no more. -/
def recordStep (id idx : Nat) (a : State × List Byte × Nat) (k : Nat) : State × List Byte × Nat :=
  if a.2.2 ≠ 0 then a else
  let s := a.1.readAny (.kdp id) idx k
  (s, a.2.1 ++ recordPart idx k s.acc.answer.value, s.acc.answer.code)

/-- A whole record of this unit: each subindex is read in order; one that cannot be read ends the request with its abort
and nothing read. -/
def wholeOwn (s : State) (id idx : Nat) : State :=
  let e := s.existsAbort idx 0
  if e ≠ 0 then s.answer e else
  let r := (subsOf idx).foldl (recordStep id idx) (s, [], 0)
  if r.2.2 ≠ 0 then s.answer r.2.2 else r.1.answer 0 r.2.1

/-- A whole record of a partner's mirror. -/
def wholeMirror (s : State) (unit idx : Nat) : State :=
  let step := fun (a : Except Nat (List Byte)) (k : Nat) =>
    match a, s.mirrorValue unit idx k with
    | .ok b, .ok v => .ok (b ++ recordPart idx k v)
    | .error e, _ => .error e
    | _, .error e => .error e
  match (subsOf idx).foldl step (match s.mirrorValue unit idx 0 with
    | .ok _ => .ok []
    | .error e => .error e) with
  | .ok b => s.answer 0 (s.mirrorAge unit ++ b)
  | .error e => s.answer e

/-- Carry out a request that is no duplicate: body is the message from byte 8 on. -/
def kdpRun (s : State) (id : Nat) (b : List Byte) : State :=
  let unit := leAt b 1 1
  let idx := leAt b 2 2
  let sub := leAt b 4 1
  match leAt b 0 1 with
  | 1 => s.kdpRead id unit idx sub
  | 2 =>
    if unit = 0xFF then s.writeAny (.kdp id) idx sub (b.drop 8)
    else if 3 < unit then s.answer abIncompat
    else s.writeAny (.mirror id unit) idx sub (b.drop 8)
  | 3 => if unit = 0xFF then s.wholeOwn id idx else if 3 < unit then s.answer abIncompat else s.wholeMirror unit idx
  | _ => s.answer 0

/-- The oldest of request identifiers, compared modulo 2^32 (R58). -/
def oldestId : Nat → List Nat → Nat
  | a, [] => a
  | a, b :: l => oldestId (if newerMod (2 ^ 32) a b then b else a) l

/-- Carry out a request, or recognise it as a duplicate (R57, R58). -/
def kdpExecute (s : State) (id req : Nat) (b : List Byte) : State :=
  let x := s.session (.kdp id)
  match x.replay.find? fun r => r.id == req with
  | some r => if r.body = b then s.answer r.code r.value else s.answer abReused
  | none =>
    let old : Bool := match x.replay with
      | r :: l => newerMod (2 ^ 32) (oldestId r.id (l.map (·.id))) req
      | [] => false
    if old then s.answer abOld else
    let s := s.kdpRun id b
    let x := s.session (.kdp id)
    s.setSession (.kdp id) { x with tag := s.kdpTag, replay := lastN 64 (x.replay ++ [⟨req, b, s.acc.answer.code, s.acc.answer.value⟩]) }

/-- A DOMAIN write of the session waits for the partners (R447). -/
def kdpHeld (s : State) (id : Nat) : Bool := (s.session (.kdp id)).replay.any fun r => r.code == noAnswer

/-- A message that closes its session (R477): its length or its operation is none; b is the message from byte 8 on. -/
def kdpBad (b : List Byte) : Bool :=
  decide (b.length < 8) || decide (16 * 1024 * 1024 + 8 < b.length) || leAt b 0 1 == 0 || decide (4 < leAt b 0 1)

/-- Carry out the requests that wait behind an answered DOMAIN write, in order, until one is held again; one that the stream kept
unread while 16 were unanswered is read now. -/
def kdpDrain (s : State) (id : Nat) : State :=
  let l := (s.session (.kdp id)).wait
  foldS (s.setSession (.kdp id) { s.session (.kdp id) with wait := [] }) l fun s r =>
    if !s.kdpOpen id then s
    else if s.kdpHeld id then s.setSession (.kdp id) { s.session (.kdp id) with wait := (s.session (.kdp id)).wait ++ [r] }
    else if kdpBad r.2 then s.kdpClose id 3
    else s.kdpExecute id r.1 r.2
/-- With the request that is held and 15 behind it, 16 are unanswered: the unit reads no more from the stream (R477). -/
def kdpFull (s : State) (id : Nat) : Bool := s.kdpHeld id && decide (15 ≤ (s.session (.kdp id)).wait.length)

/-- Every session's waiting requests, at the start of a frame. -/
def kdpFrame (s : State) : State :=
  let ids := ((s.acc.sessions.filter fun p => 16 ≤ p.1 && !p.2.wait.isEmpty).map fun p => p.1 - 16)
  let a := s.acc.answer
  let s := foldS s ids kdpDrain
  if ids = [] then s else { s with acc := { s.acc with answer := if s.acc.answer.code = noAnswer then a else s.acc.answer } }

/-- A message of an open session arrives: a length or an operation that is none closes the session; the request is carried
out in its turn. -/
def kdpMessage (s : State) (id t req : Nat) (b : List Byte) : State :=
  let s := s.at' t
  if !(s.up && s.kdpOpen id) then s else
  if kdpBad b && !s.kdpFull id then s.kdpClose id 3 else
  let s := (s.setSession (.kdp id) { s.session (.kdp id) with last := s.clk.time }).kdpDrain id
  if !s.kdpOpen id then s
  else if s.kdpHeld id ∨ (s.session (.kdp id)).wait ≠ [] then
    s.setSession (.kdp id) { s.session (.kdp id) with wait := (s.session (.kdp id)).wait ++ [(req, b)] }
  else if kdpBad b then s.kdpClose id 3
  else s.kdpExecute id req b

/-- The role of a client certificate (R476, R511): its chain ends at the enrolled owner CA, or for Service at the Tagorund
service CA; dates are checked while time quality is not 11b. Events 1403h and 140Ah. -/
def clientRole (s : State) (kid : List Byte) : Option Role × State :=
  let s := if s.timeQuality = 3 then s.note 0x140A [] else s
  let ca := s.objD 0x4810 0
  let r := Config.sessionRole ca (s.objD 0x4811 0) kid
  let owner := ca != [] && Config.sessionOwner ca kid
  let refuse := fun (k : Nat) => ((none : Option Role), s.note 0x1403 [Config.reason 0x1403 k, pId kid])
  if !owner && r != 4 then refuse 1
  else if s.timeQuality ≠ 3 && !Config.datesHold kid s.clk.time then refuse 2
  else match r with
    | 1 => (some .operator, s)
    | 2 => (some .engineer, s)
    | 3 => (some .auditor, s)
    | 4 => (some .service, s)
    | _ => refuse 1

/-- A connection on a network's address: `tls` the parameters and the client's proof are those of R476. -/
def kdpConnect (s : State) (id peer net : Nat) (kid : List Byte) (tls : Bool) : State :=
  if !s.up ∨ s.kdpOpen id ∨ 1 < net ∨ s.cfgU 0x4000 (if net = 0 then 1 else 3) = 0 then s
  else if 8 ≤ s.kdpCount then s.incU 0x4050 7
  else if !tls then s.note 0x100A [peer]
  else
    let (r, s) := s.clientRole kid
    match r with
    | none => s.note 0x100A [peer]
    | some r =>
      let ca := s.objD 0x4810 0
      let x : Session := { role := r, last := s.clk.time, peer := peer, signer := kid,
                           owner := ca != [] && Config.sessionOwner ca kid }
      (s.setSession (.kdp id) x).note 0x1009 [r.code, peer, Config.reason 0x1009 1]

/-- The session has had no request for the idle timeout. -/
def kdpIdle (s : State) (id : Nat) : Bool :=
  s.kdpOpen id && decide ((s.session (.kdp id)).last + ns (s.cfgR 0x4000 0x0A) ≤ s.clk.time)

end State

/-! Commands. -/

/-- PUBLISHED_RECORD_SEND (R473): record k, every divisor frames from frame 0 of the counter. -/
def execPublishedRecordSend (k : Nat) (s : State) : Out :=
  .next (if s.publishedDue k then s.publishRecord k else s)

/-- TPDO_EVENT_TIMER (R494): TPDO n at its event timer, or on a change outside its inhibit time. -/
def execTpdoEventTimer (n t : Nat) (s : State) : Out :=
  let s := s.at' t
  .next (if s.tpdoDue n = 0 then s else s.tpdoSend n (s.tpdoDue n == 1))

/-- PRODUCER_HEARTBEAT (R496). -/
def execProducerHeartbeat (t : Nat) (s : State) : Out :=
  let s := s.at' t
  .next (if s.beatDue then s.beatSend else s)

/-- SDO_INITIATE (R493): the oldest request of controller c at time t is an initiate, an abort, or no command of CiA 301. -/
def execSdoInitiate (c t : Nat) (s : State) : Out := .next (s.sdoServe c t 0 fun s b => s.sdoInitiate c b)

/-- SDO_SEGMENT (R57, R493): the oldest request is a segment. -/
def execSdoSegment (c t : Nat) (s : State) : Out := .next (s.sdoServe c t 1 fun s b => s.sdoSegment c b)

/-- SDO_BLOCK_SEGMENT (R57, R493): the oldest request belongs to a block transfer. -/
def execSdoBlockSegment (c t : Nat) (s : State) : Out := .next (s.sdoServe c t 2 fun s b => s.sdoBlock c b)

/-- SDO_TRANSFER_TIMEOUT (R493): no frame for 1.0 s. -/
def execSdoTransferTimeout (c t : Nat) (s : State) : Out :=
  let s := s.at' t
  match (s.canC c).sdo with
  | some x =>
    .next (if s.canHears c && State.Sdo.busy x && decide (x.at' + 1000000000 ≤ s.clk.time)
      then s.sdoAbort c x.idx x.sub abTimeout else s)
  | none => .next s

/-- KDP_CONNECTION (R476): session number, remote address, network, key identifier of the client certificate, TLS
handshake within R476. -/
def execKdpConnection (id t peer net : Nat) (kid : List Byte) (tls : Bool) (s : State) : Out :=
  .next ((s.at' t).kdpConnect id peer net kid tls)

/-- KDP_IDLE_TIMEOUT (R476). -/
def execKdpIdleTimeout (id t : Nat) (s : State) : Out :=
  let s := s.at' t
  .next (if s.up && s.kdpIdle id then s.kdpClose id 2 else s)

/-- KDP_READ (R477): a message of operation 01h; `rest` is the message from byte 9 on. -/
def execKdpRead (id t req : Nat) (rest : List Byte) (s : State) : Out := .next (s.kdpMessage id t req (1 :: rest))

/-- KDP_WRITE (R477): a message of operation 02h. -/
def execKdpWrite (id t req : Nat) (rest : List Byte) (s : State) : Out := .next (s.kdpMessage id t req (2 :: rest))

/-- KDP_WHOLE_RECORD_READ (R55, R477): a message of operation 03h. -/
def execKdpWholeRecordRead (id t req : Nat) (rest : List Byte) (s : State) : Out := .next (s.kdpMessage id t req (3 :: rest))

/-- KDP_KEEPALIVE (R477): a message of operation 04h, or of an unknown operation, which closes the session. -/
def execKdpKeepalive (id t req : Nat) (op : Byte) (rest : List Byte) (s : State) : Out :=
  let op := if op = 1 ∨ op = 2 ∨ op = 3 then 4 else op
  .next (s.kdpMessage id t req (op :: rest))

/-- KDP_CONNECTION_CLOSED (R59): the client closes or resets the connection. -/
def execKdpConnectionClosed (id t : Nat) (s : State) : Out :=
  let s := s.at' t
  .next (if s.up then s.kdpClose id 4 else s)

end Sys2Proof.Machine
end

