-- ==== Sys2Proof/Machine/Frame.lean ====
section
/-! DEFINITION. The two boundaries: the start of a frame (R335) and f0 of a sample (R270, Table 10-7). -/
namespace Sys2Proof.Machine

namespace State

/-! The start of a frame. -/

/-- The class of a fault by the circumstances now in force: bus-off by the paths (Table 19-2), a tamper by the response
(Table 20-6; log 152). -/
def classNow (s : State) (f : Flt) : Nat :=
  if f.code = 0x1103 then (if s.otherPaths f.inst then 2 else 1)
  else if f.code = 0x1407 ∨ f.code = 0x1408 then b2n (s.cfgU 0x4830 1 == 1) else f.cls

/-- A condition holds the class that its rule gives for the circumstances now in force (R575). -/
def reclass (s : State) : State := { s with faults := s.faults.map fun f => { f with cls := s.classNow f } }

/-- What a running unit does at the start of a frame: results of the frame that has ended, the readings and latches of the
new one, process data, the SAFE and DIO lines, the vessel status word. -/
def runningFrame (s : State) (r : Readings) (ended prev : Nat) : State :=
  let s := ((s.exchange.timeFrame prev).halurFrame ended).netFrame ended
  let s := ((s.canFrame).thermFrame r).gnssFrame r.gck
  let s : State := { s with io := { s.io with wake := r.wake } }
  let s := ((s.takeAnalog r.analog).feedbackFrame).chaffFrame
  let s := ((s.publishDiscrete.safeUpdate.driveDio).publishImu).publishAnalog
  s.receiveMap.rpdosApply.kdpFrame.plantFrame.reclass.assembleStatus

/-- A unit stopped under F3: its stop notice runs out, its lines stand at their stop state. -/
def stoppedFrame (s : State) : State :=
  let s : State := { s with st := { s.st with notice := s.st.notice - 1 } }
  s.safeUpdate.driveDio

/-- FRAME_BOUNDARY by what the unit is doing. -/
def frameStart (s : State) (r : Readings) : State :=
  match s.st.power with
  | .off | .reset => s
  | .running => s.gridFrame.runningFrame r s.clk.frame s.clk.bound
  | .stopped => s.gridFrame.stoppedFrame
  | _ => s.gridFrame

/-! f0 of a sample. -/

/-- The entries of a store whose index lies in a range. -/
def ofRange (l : List (Nat × Val)) (lo hi : Nat) : List (Nat × Val) := l.filter fun p => lo * 256 ≤ p.1 && p.1 < hi * 256

/-- The sample begins: its number, epoch and f0; results of this sample are still to come. -/
def beginSample (s : State) : State :=
  { s with
    clk := { s.clk with sample := (s.clk.sample + 1) % 2 ^ 32, epoch := s.clk.bound, f0 := s.clk.frame },
    sheaf := { s.sheaf with handed := false, streams := s.sheaf.streams.map fun (p : Nat × Stream) =>
      (p.1, { p.2 with buf := p.2.buf.map fun (x : Smp) => { x with after := false } }) }, win := { s.win with handed := false },
    ctl := { s.ctl with
      culm := { s.ctl.culm with published := false, residue := false }, stub := { s.ctl.stub with published := false },
      till := { s.ctl.till with promoted := none, start := none } } }

/-- Mirror, join, roles and digests at f0 (R41, R42, R436, R456, R458). -/
def pairBoundary (s : State) : State := s.adoptFull.joinApply.roleBoundary.countDigests

/-- The stores that the Lead's writes of this f0 ask of a partner (R29, R44). -/
def forwardedStores (s : State) : State :=
  if !s.isFollower then s else
  let s := foldS s [1, 2, 3] fun s a =>
    if s.dueAt 0x1010 a then s.storeKeys ((s.nvKeys a).filter sharedKey) else s
  if s.dueAt 0x2030 1 then s.storeKeys [okey 0x2030 1] else s

/-- Accepted writes and configuration set come into force (R38, R41, R62); `old` the values before. Streams, channels and
ranges follow their descriptors; Tiller starts cold where its problem changed, which the allocation enable, a bound, does not
(R213, R222). -/
def writesInForce (s : State) : State :=
  let old := s.force
  let model := (List.range 9).any fun k => s.dueAt 0x2A00 (k + 1)
  let config := s.dueAt 0x2010 0
  let map := s.dueAt 0x4032 0
  let s := s.forwardedStores.applyDue
  let s := if config then s.applyConfigSet else s
  let s := if map then s.setNet { s.net with wrote := [], refused := [] } else s
  let s := (((s.refreshStreams.chaffSources old).applyEnc old).chaffDelays old).sourcesInForce old
  let ranges := s.rangesDue
  let s := (s.chaffSource ranges).applyRanges
  let s := if model || ofRange old 0x2A00 0x2A01 != ofRange s.force 0x2A00 0x2A01 then s.holdTest else s
  let described := fun (l : List (Nat × Val)) => (ofRange l 0x2E80 0x2EE0).filter fun p => !(p.1 < 0x2EA000 && p.1 % 256 == 0x10)
  let problem := described old ≠ described s.force ∨ getV old (okey 0x2E00 1) ≠ s.cfgV 0x2E00 1
  if problem then s.setTill { s.ctl.till with core := { s.ctl.till.core with cold := some 2 } } else s

/-- Step 4 of Table 10-7: the sets that were due, and the gain set selected (R155, R190, R202). -/
def setsInForce (s : State) (chaff culm stub : Bool) : State :=
  let s := if chaff then s.applyChaffSet else s
  let s := if culm then s.applyCulmSet.reclampInner (s.thrusters.map fun j => (j, s.innerKs j)) else s
  let s := if stub then s.applyStubSet else s
  s.putObj 0x2C00 2 (s.cfgV 0x2C00 1)

/-- Step 5 of Table 10-7. -/
def stubbleBoundary (s : State) : State :=
  let s := s.blendStep
  if s.ctl.stook.promotedNow then s.remix else s

/-- Azimuth and speed commands in force at the epoch (R161). -/
def epochCommands (s : State) : State :=
  { s with ctl := { s.ctl with atEpoch := s.thrusters.map fun j => (j, ((s.inner j).core.az, (s.inner j).emitN)) } }

/-- SAMPLE_BOUNDARY: Table 10-7 in its order, each step on the results of the steps before it. -/
def sampleStart (s : State) : State :=
  let s := s.stookBoundary.beginSample.pairBoundary
  let run := s.cfgB 0x3C00 2
  let image := s.dueAt 0x3C01 0
  let list := s.dueAt 0x3C10 0
  let chaff := s.dueAt 0x2900 0
  let culm := s.dueAt 0x2C01 0
  let stub := s.dueAt 0x3200 0
  let mode := s.mode.mode
  let axes := s.mode.axes
  let s := s.writesInForce.numberBoundary.takeCommands.quietAlarm
  let s := s.clearRemovals.promote
  let s := (s.setsInForce chaff culm stub).stubbleBoundary
  let s := s.panBoundary run image list
  let s := ((s.axesBoundary axes).stubAxes axes).formSetPoints axes (mode != 5 && s.mode.mode == 5)
  let s := (s.epochCommands).reductionStep s.riseHolds
  let s := s.assembleStatus
  let s := if s.mode.mode = 7 then s.enterDormancy else s
  s.restartBoundary

/-- The frame in progress is f0 of the next sample. -/
def atF0 (s : State) : Bool :=
  s.up && decide (s.nextF0 ≤ s.clk.frame) && (s.clk.frame - s.clk.f0) % s.clk.n == 0

end State

/-! Commands. -/

/-- FRAME_BOUNDARY (R335): the readings of R516 for the frame that begins; what the sample clocks and the JTAG balls brought in
the frame that ended. -/
def execFrameBoundary (r : Readings) (s : State) : Out := .next ((s.jtag r.jtag).frameStart r)

/-- SAMPLE_BOUNDARY (R270): at f0, after its frame boundary. -/
def execSampleBoundary (s : State) : Out := .next (if s.atF0 then s.sampleStart else s)

end Sys2Proof.Machine
end

