-- ==== Sys2Proof/Machine/Dispatch.lean ====
section
/-! DEFINITION. Which meaning each command has: one arm for each constructor. -/
namespace Sys2Proof.Machine
def exec (i : Instr) (s : State) : Host.Outcome State Fault Refusal :=
  match i with
  | .frameBoundary r => Sys2Proof.Machine.execFrameBoundary r s
  | .innerLoopRun => Sys2Proof.Machine.execInnerLoopRun s
  | .innerLoopSlotOverrun lane => Sys2Proof.Machine.execInnerLoopSlotOverrun lane s
  | .chaffSlot n xs => Sys2Proof.Machine.execChaffSlot n xs s
  | .chaffSlotOverrun n => Sys2Proof.Machine.execChaffSlotOverrun n s
  | .powerPlantModelRun => Sys2Proof.Machine.execPowerPlantModelRun s
  | .breakerStateConfirmed k => Sys2Proof.Machine.execBreakerStateConfirmed k s
  | .lrRelease k => Sys2Proof.Machine.execLrRelease k s
  | .breakerDiscrepancy k => Sys2Proof.Machine.execBreakerDiscrepancy k s
  | .powerPlantModelOverrun => Sys2Proof.Machine.execPowerPlantModelOverrun s
  | .sampleBoundary => Sys2Proof.Machine.execSampleBoundary s
  | .sheafAlignment => Sys2Proof.Machine.execSheafAlignment s
  | .sheafOverrun => Sys2Proof.Machine.execSheafOverrun s
  | .streamSilent k => Sys2Proof.Machine.execStreamSilent k s
  | .winnowRun => Sys2Proof.Machine.execWinnowRun s
  | .winnowOverrun => Sys2Proof.Machine.execWinnowOverrun s
  | .observerUpdate => Sys2Proof.Machine.execObserverUpdate s
  | .observerOverrun => Sys2Proof.Machine.execObserverOverrun s
  | .culmLaw => Sys2Proof.Machine.execCulmLaw s
  | .culmLawOverrun lane => Sys2Proof.Machine.execCulmLawOverrun lane s
  | .stubbleLaw => Sys2Proof.Machine.execStubbleLaw s
  | .stubbleLost residue => Sys2Proof.Machine.execStubbleLost residue s
  | .tillerNominalSolve forced => Sys2Proof.Machine.execTillerNominalSolve forced s
  | .tillerPublish => Sys2Proof.Machine.execTillerPublish s
  | .tillerOverrun => Sys2Proof.Machine.execTillerOverrun s
  | .allocationApply => Sys2Proof.Machine.execAllocationApply s
  | .stookSweep faults => Sys2Proof.Machine.execStookSweep faults s
  | .caseSetPublish => Sys2Proof.Machine.execCaseSetPublish s
  | .consequenceAlarm => Sys2Proof.Machine.execConsequenceAlarm s
  | .driveSilenceDetection j => Sys2Proof.Machine.execDriveSilenceDetection j s
  | .fastMirrorSend t => Sys2Proof.Machine.execFastMirrorSend t s
  | .fullMirrorSend => Sys2Proof.Machine.execFullMirrorSend s
  | .sharedValueDigestMismatch u => Sys2Proof.Machine.execSharedValueDigestMismatch u s
  | .panicleInputPhase => Sys2Proof.Machine.execPanicleInputPhase s
  | .panicleExecutePhase us => Sys2Proof.Machine.execPanicleExecutePhase us s
  | .panicleOutputPhase => Sys2Proof.Machine.execPanicleOutputPhase s
  | .panicleScanOverrun => Sys2Proof.Machine.execPanicleScanOverrun s
  | .panicleRetainWrite t => Sys2Proof.Machine.execPanicleRetainWrite t s
  | .genericWrite p idx sub b => Sys2Proof.Machine.execGenericWrite p idx sub b s
  | .resultSampleRead p idx => Sys2Proof.Machine.execResultSampleRead p idx s
  | .resultLatchTimeout p t => Sys2Proof.Machine.execResultLatchTimeout p t s
  | .storeParameters p sub b => Sys2Proof.Machine.execStoreParameters p sub b s
  | .storeComplete => Sys2Proof.Machine.execStoreComplete s
  | .restoreDefaults p sub b => Sys2Proof.Machine.execRestoreDefaults p sub b s
  | .configurationSetLoad p b => Sys2Proof.Machine.execConfigurationSetLoad p b s
  | .sampleLengthWrite p b => Sys2Proof.Machine.execSampleLengthWrite p b s
  | .modeCommandStandby p hi => Sys2Proof.Machine.execModeCommandStandby p hi s
  | .modeCommandLever p hi => Sys2Proof.Machine.execModeCommandLever p hi s
  | .modeCommandJoystick p hi => Sys2Proof.Machine.execModeCommandJoystick p hi s
  | .modeCommandAutoHeading p hi => Sys2Proof.Machine.execModeCommandAutoHeading p hi s
  | .modeCommandAutoPosition p hi => Sys2Proof.Machine.execModeCommandAutoPosition p hi s
  | .modeCommandTrack p hi => Sys2Proof.Machine.execModeCommandTrack p hi s
  | .modeCommandMaintenance p hi => Sys2Proof.Machine.execModeCommandMaintenance p hi s
  | .modeCommandDormancy p hi => Sys2Proof.Machine.execModeCommandDormancy p hi s
  | .actionCapturePosition p hi => Sys2Proof.Machine.execActionCapturePosition p hi s
  | .actionCaptureHeading p hi => Sys2Proof.Machine.execActionCaptureHeading p hi s
  | .actionHoldRamps p hi => Sys2Proof.Machine.execActionHoldRamps p hi s
  | .actionReleaseRamps p hi => Sys2Proof.Machine.execActionReleaseRamps p hi s
  | .streamDescriptorWrite p k sub b => Sys2Proof.Machine.execStreamDescriptorWrite p k sub b s
  | .clockSlotReset p k b => Sys2Proof.Machine.execClockSlotReset p k b s
  | .groupMembershipWrite p k b => Sys2Proof.Machine.execGroupMembershipWrite p k b s
  | .referenceSelection p sub b => Sys2Proof.Machine.execReferenceSelection p sub b s
  | .chaffCoefficientSet p b => Sys2Proof.Machine.execChaffCoefficientSet p b s
  | .chaffStickyRead p upper sub => Sys2Proof.Machine.execChaffStickyRead p upper sub s
  | .observerReset p b => Sys2Proof.Machine.execObserverReset p b s
  | .gainSetSelection p b => Sys2Proof.Machine.execGainSetSelection p b s
  | .culmCoefficientSet p b => Sys2Proof.Machine.execCulmCoefficientSet p b s
  | .culmStickyRead p sub => Sys2Proof.Machine.execCulmStickyRead p sub s
  | .thrusterDescriptorWrite p idx sub b => Sys2Proof.Machine.execThrusterDescriptorWrite p idx sub b s
  | .caseDescriptorWrite p c sub b => Sys2Proof.Machine.execCaseDescriptorWrite p c sub b s
  | .clearMismatchRemovals p b => Sys2Proof.Machine.execClearMismatchRemovals p b s
  | .stubbleSet p b => Sys2Proof.Machine.execStubbleSet p b s
  | .returnRequest p b => Sys2Proof.Machine.execReturnRequest p b s
  | .stubbleStickyRead p sub => Sys2Proof.Machine.execStubbleStickyRead p sub s
  | .plantDescriptorWrite p idx sub b => Sys2Proof.Machine.execPlantDescriptorWrite p idx sub b s
  | .frontEndScriptWrite p b => Sys2Proof.Machine.execFrontEndScriptWrite p b s
  | .spoofingClear p b => Sys2Proof.Machine.execSpoofingClear p b s
  | .snapshotCaptureCommand p b => Sys2Proof.Machine.execSnapshotCaptureCommand p b s
  | .archiveSelected p b => Sys2Proof.Machine.execArchiveSelected p b s
  | .keepSelected p b => Sys2Proof.Machine.execKeepSelected p b s
  | .navigationRecordsRead p => Sys2Proof.Machine.execNavigationRecordsRead p s
  | .acceptJump p b => Sys2Proof.Machine.execAcceptJump p b s
  | .queueOverflowRead p sub => Sys2Proof.Machine.execQueueOverflowRead p sub s
  | .channelDescriptorWrite p n sub b => Sys2Proof.Machine.execChannelDescriptorWrite p n sub b s
  | .comparePositionWrite p n sub b => Sys2Proof.Machine.execComparePositionWrite p n sub b s
  | .feedbackStickyRead p sub => Sys2Proof.Machine.execFeedbackStickyRead p sub s
  | .compareStatusRead p sub => Sys2Proof.Machine.execCompareStatusRead p sub s
  | .serialTransmit path p b => Sys2Proof.Machine.execSerialTransmit path p b s
  | .imuDescriptorWrite path k sub b => Sys2Proof.Machine.execImuDescriptorWrite path k sub b s
  | .programImageLoad p b => Sys2Proof.Machine.execProgramImageLoad p b s
  | .panicleRestartWarm p => Sys2Proof.Machine.execPanicleRestartWarm p s
  | .panicleRestartCold p => Sys2Proof.Machine.execPanicleRestartCold p s
  | .panicleRunWrite p b => Sys2Proof.Machine.execPanicleRunWrite p b s
  | .scanLengthWrite p b => Sys2Proof.Machine.execScanLengthWrite p b s
  | .forceListWrite p b => Sys2Proof.Machine.execForceListWrite p b s
  | .arithmeticStickyRead p => Sys2Proof.Machine.execArithmeticStickyRead p s
  | .handLeadToUnit p b => Sys2Proof.Machine.execHandLeadToUnit p b s
  | .gateControlListWrite p b => Sys2Proof.Machine.execGateControlListWrite p b s
  | .nodeTableWrite p b => Sys2Proof.Machine.execNodeTableWrite p b s
  | .processMapWrite p receive b => Sys2Proof.Machine.execProcessMapWrite p receive b s
  | .canTimingWrite p c sub b => Sys2Proof.Machine.execCanTimingWrite p c sub b s
  | .filterListWrite p c b => Sys2Proof.Machine.execFilterListWrite p c b s
  | .canRestart p c b => Sys2Proof.Machine.execCanRestart p c b s
  | .granaryRead p => Sys2Proof.Machine.execGranaryRead p s
  | .clearingToken p b => Sys2Proof.Machine.execClearingToken p b s
  | .ownerCaEnrolment p b => Sys2Proof.Machine.execOwnerCaEnrolment p b s
  | .revocationListLoad p b => Sys2Proof.Machine.execRevocationListLoad p b s
  | .firmwareSlotWrite p slot b => Sys2Proof.Machine.execFirmwareSlotWrite p slot b s
  | .antiRollbackCommit p b => Sys2Proof.Machine.execAntiRollbackCommit p b s
  | .tamperClear p b => Sys2Proof.Machine.execTamperClear p b s
  | .restartWarmCommand p => Sys2Proof.Machine.execRestartWarmCommand p s
  | .restartColdCommand p => Sys2Proof.Machine.execRestartColdCommand p s
  | .serialCharacterError p => Sys2Proof.Machine.execSerialCharacterError p s
  | .sentenceReceived p arrival text => Sys2Proof.Machine.execSentenceReceived p arrival text s
  | .rawFrameReceived p arrival b => Sys2Proof.Machine.execRawFrameReceived p arrival b s
  | .serialTransmitComplete p => Sys2Proof.Machine.execSerialTransmitComplete p s
  | .intakeDatagram e port arrival d => Sys2Proof.Machine.execIntakeDatagram e port arrival d s
  | .imuDrdy k t => Sys2Proof.Machine.execImuDrdy k t s
  | .imuReadComplete k b => Sys2Proof.Machine.execImuReadComplete k b s
  | .imuPortFault k => Sys2Proof.Machine.execImuPortFault k s
  | .aref1Low v => Sys2Proof.Machine.execAref1Low v s
  | .aref1Restored v => Sys2Proof.Machine.execAref1Restored v s
  | .dioLevelChange d t level => Sys2Proof.Machine.execDioLevelChange d t level s
  | .comparePulseEnd d => Sys2Proof.Machine.execComparePulseEnd d s
  | .supervisorRefreshMissed => Sys2Proof.Machine.execSupervisorRefreshMissed s
  | .safeOvercurrent k => Sys2Proof.Machine.execSafeOvercurrent k s
  | .safeOvercurrentRetry k follows => Sys2Proof.Machine.execSafeOvercurrentRetry k follows s
  | .lrOvercurrent k => Sys2Proof.Machine.execLrOvercurrent k s
  | .wakeNAsserted => Sys2Proof.Machine.execWakeNAsserted s
  | .quadratureEdge n t a b z => Sys2Proof.Machine.execQuadratureEdge n t a b z s
  | .channelFaultClear n => Sys2Proof.Machine.execChannelFaultClear n s
  | .homeEvent n => Sys2Proof.Machine.execHomeEvent n s
  | .trackingObserverUpdate n => Sys2Proof.Machine.execTrackingObserverUpdate n s
  | .ssiReadStart n t => Sys2Proof.Machine.execSsiReadStart n t s
  | .ssiReadComplete n idleLow word => Sys2Proof.Machine.execSsiReadComplete n idleLow word s
  | .ssiClockTaken n => Sys2Proof.Machine.execSsiClockTaken n s
  | .ssiClockYielded n => Sys2Proof.Machine.execSsiClockYielded n s
  | .magneticInputChange m t level => Sys2Proof.Machine.execMagneticInputChange m t level s
  | .gnssPortFault p t clock hz duty => Sys2Proof.Machine.execGnssPortFault p t clock hz duty s
  | .gnssPortFaultClear p t => Sys2Proof.Machine.execGnssPortFaultClear p t s
  | .frontEndEnable g => Sys2Proof.Machine.execFrontEndEnable g s
  | .frontEndScriptRun t reads => Sys2Proof.Machine.execFrontEndScriptRun t reads s
  | .frontEndAttention t reads => Sys2Proof.Machine.execFrontEndAttention t reads s
  | .frontEndScriptRetry t reads => Sys2Proof.Machine.execFrontEndScriptRetry t reads s
  | .acquisitionSearch p sys sat sig kind t peak noise => Sys2Proof.Machine.execAcquisitionSearch p sys sat sig kind t peak noise s
  | .acquisitionLockTimeout p sys sat sig t => Sys2Proof.Machine.execAcquisitionLockTimeout p sys sat sig t s
  | .channelFade c t cn0 => Sys2Proof.Machine.execChannelFade c t cn0 s
  | .coastExpiry c t => Sys2Proof.Machine.execCoastExpiry c t s
  | .sidePeakCheck c ve pr vl => Sys2Proof.Machine.execSidePeakCheck c ve pr vl s
  | .measurementEpoch m => Sys2Proof.Machine.execMeasurementEpoch m s
  | .jamming g t => Sys2Proof.Machine.execJamming g t s
  | .jammingEnded g t => Sys2Proof.Machine.execJammingEnded g t s
  | .snapshotArchive k => Sys2Proof.Machine.execSnapshotArchive k s
  | .timeOffer t => Sys2Proof.Machine.execTimeOffer t s
  | .navigationMessage r utc => Sys2Proof.Machine.execNavigationMessage r utc s
  | .lossAidedSearch t => Sys2Proof.Machine.execLossAidedSearch t s
  | .dormancyGnssCheck t pos => Sys2Proof.Machine.execDormancyGnssCheck t pos s
  | .timeMeasurement e t => Sys2Proof.Machine.execTimeMeasurement e t s
  | .timeStep t => Sys2Proof.Machine.execTimeStep t s
  | .sourceLost e t => Sys2Proof.Machine.execSourceLost e t s
  | .holdoverEntry => Sys2Proof.Machine.execHoldoverEntry s
  | .holdoverLimit t => Sys2Proof.Machine.execHoldoverLimit t s
  | .referenceChange present => Sys2Proof.Machine.execReferenceChange present s
  | .ppsInEdge p t => Sys2Proof.Machine.execPpsInEdge p t s
  | .ppsOutPulse n t => Sys2Proof.Machine.execPpsOutPulse n t s
  | .leapSecondChange t => Sys2Proof.Machine.execLeapSecondChange t s
  | .ptpSync domain port t capture t1 corr resp => Sys2Proof.Machine.execPtpSync domain port t capture t1 corr resp s
  | .ptpAnnounce domain port t d => Sys2Proof.Machine.execPtpAnnounce domain port t d s
  | .announceReceiptTimeout t => Sys2Proof.Machine.execAnnounceReceiptTimeout t s
  | .ptpEventForward inPort outPort type capIn capOut corr => Sys2Proof.Machine.execPtpEventForward inPort outPort type capIn capOut corr s
  | .transmitTimestamp port type seq capture => Sys2Proof.Machine.execTransmitTimestamp port type seq capture s
  | .halurTimeMeasurement t => Sys2Proof.Machine.execHalurTimeMeasurement t s
  | .canReferenceMessage c => Sys2Proof.Machine.execCanReferenceMessage c s
  | .halurFastFrame h b m => Sys2Proof.Machine.execHalurFastFrame h b m s
  | .halurFullFrame h m r => Sys2Proof.Machine.execHalurFullFrame h m r s
  | .leadLossDeclaration => Sys2Proof.Machine.execLeadLossDeclaration s
  | .claim h epoch prio => Sys2Proof.Machine.execClaim h epoch prio s
  | .takeLead => Sys2Proof.Machine.execTakeLead s
  | .yield h target => Sys2Proof.Machine.execYield h target s
  | .stopNotice h code => Sys2Proof.Machine.execStopNotice h code s
  | .joinRequest h prio nvEpoch => Sys2Proof.Machine.execJoinRequest h prio nvEpoch s
  | .election => Sys2Proof.Machine.execElection s
  | .bulkFrame h key length k data => Sys2Proof.Machine.execBulkFrame h key length k data s
  | .bulkAcknowledgement h key frags => Sys2Proof.Machine.execBulkAcknowledgement h key frags s
  | .bulkTransferTimeout => Sys2Proof.Machine.execBulkTransferTimeout s
  | .panicleRequest h => Sys2Proof.Machine.execPanicleRequest h s
  | .halurPortChange port isUp => Sys2Proof.Machine.execHalurPortChange port isUp s
  | .mirrorDegraded => Sys2Proof.Machine.execMirrorDegraded s
  | .halurDegraded => Sys2Proof.Machine.execHalurDegraded s
  | .phyLinkChange n link speed full => Sys2Proof.Machine.execPhyLinkChange n link speed full s
  | .kppFrame port mac tag arrival b => Sys2Proof.Machine.execKppFrame port mac tag arrival b s
  | .kppQueue => Sys2Proof.Machine.execKppQueue s
  | .kppWindowClose k => Sys2Proof.Machine.execKppWindowClose k s
  | .publishedRecordSend k => Sys2Proof.Machine.execPublishedRecordSend k s
  | .networkLost x => Sys2Proof.Machine.execNetworkLost x s
  | .networkRestored x => Sys2Proof.Machine.execNetworkRestored x s
  | .nodeLost id => Sys2Proof.Machine.execNodeLost id s
  | .leadOffFieldPath => Sys2Proof.Machine.execLeadOffFieldPath s
  | .kdpConnection id t peer net kid tls => Sys2Proof.Machine.execKdpConnection id t peer net kid tls s
  | .kdpIdleTimeout id t => Sys2Proof.Machine.execKdpIdleTimeout id t s
  | .kdpRead id t req rest => Sys2Proof.Machine.execKdpRead id t req rest s
  | .kdpWrite id t req rest => Sys2Proof.Machine.execKdpWrite id t req rest s
  | .kdpWholeRecordRead id t req rest => Sys2Proof.Machine.execKdpWholeRecordRead id t req rest s
  | .kdpKeepalive id t req op rest => Sys2Proof.Machine.execKdpKeepalive id t req op rest s
  | .canFrameReceived c id fd data sof good => Sys2Proof.Machine.execCanFrameReceived c id fd data sof good s
  | .canCyclicQueue begun => Sys2Proof.Machine.execCanCyclicQueue begun s
  | .canTransmitDone c result sof => Sys2Proof.Machine.execCanTransmitDone c result sof s
  | .canErrorStateChange c tec recv => Sys2Proof.Machine.execCanErrorStateChange c tec recv s
  | .busOffRecoveryStart c => Sys2Proof.Machine.execBusOffRecoveryStart c s
  | .busOffRecovered c => Sys2Proof.Machine.execBusOffRecovered c s
  | .controllerAlone c => Sys2Proof.Machine.execControllerAlone c s
  | .bitRateCandidate c => Sys2Proof.Machine.execBitRateCandidate c s
  | .sdoInitiate c t => Sys2Proof.Machine.execSdoInitiate c t s
  | .sdoSegment c t => Sys2Proof.Machine.execSdoSegment c t s
  | .sdoBlockSegment c t => Sys2Proof.Machine.execSdoBlockSegment c t s
  | .sdoTransferTimeout c t => Sys2Proof.Machine.execSdoTransferTimeout c t s
  | .rpdoReceived c id fd data sof => Sys2Proof.Machine.execRpdoReceived c id fd data sof s
  | .tpdoEventTimer n t => Sys2Proof.Machine.execTpdoEventTimer n t s
  | .producerHeartbeat t => Sys2Proof.Machine.execProducerHeartbeat t s
  | .consumerHeartbeatLoss c node => Sys2Proof.Machine.execConsumerHeartbeatLoss c node s
  | .nmtCommand c cmd node => Sys2Proof.Machine.execNmtCommand c cmd node s
  | .granaryPageWrite worn => Sys2Proof.Machine.execGranaryPageWrite worn s
  | .signatureBlockComplete => Sys2Proof.Machine.execSignatureBlockComplete s
  | .tamper => Sys2Proof.Machine.execTamper s
  | .levelRaised => Sys2Proof.Machine.execLevelRaised s
  | .levelLowered => Sys2Proof.Machine.execLevelLowered s
  | .heatLimitExceeded => Sys2Proof.Machine.execHeatLimitExceeded s
  | .caseSensorRestore k => Sys2Proof.Machine.execCaseSensorRestore k s
  | .monitorWindowEnd m => Sys2Proof.Machine.execMonitorWindowEnd m s
  | .wakeSource b => Sys2Proof.Machine.execWakeSource b s
  | .wakeComplete ok => Sys2Proof.Machine.execWakeComplete ok s
  | .vinApplied t => Sys2Proof.Machine.execVinApplied t s
  | .startUpStage x => Sys2Proof.Machine.execStartUpStage x s
  | .bootWatchdog t => Sys2Proof.Machine.execBootWatchdog t s
  | .selfTestHaltRetry t => Sys2Proof.Machine.execSelfTestHaltRetry t s
  | .repeatableSelfTest item inst pass => Sys2Proof.Machine.execRepeatableSelfTest item inst pass s
  | .resetNLow => Sys2Proof.Machine.execResetNLow s
  | .vinFalling => Sys2Proof.Machine.execVinFalling s
  | .supervisorReset frames t => Sys2Proof.Machine.execSupervisorReset frames t s
  | .automaticRestart t refresh => Sys2Proof.Machine.execAutomaticRestart t refresh s
  | .recoveryImage b => Sys2Proof.Machine.execRecoveryImage b s
  | .strapCheck boot unit => Sys2Proof.Machine.execStrapCheck boot unit s
  | .resetNRelease t => Sys2Proof.Machine.execResetNRelease t s
  | .romRetry t => Sys2Proof.Machine.execRomRetry t s
  | .tamperEnded => Sys2Proof.Machine.execTamperEnded s
  | .kdpConnectionClosed id t => Sys2Proof.Machine.execKdpConnectionClosed id t s
  | .ptpSyncTransmit port => Sys2Proof.Machine.execPtpSyncTransmit port s
  | .ptpDelayReqTransmit port => Sys2Proof.Machine.execPtpDelayReqTransmit port s

end Sys2Proof.Machine
end

