-- ==== Sys2Proof/Machine/Step.lean ====
section
/-! DEFINITION. A step takes the oldest waiting command; on an empty queue the block idles. -/
namespace Sys2Proof.Machine

/-- The command at the front of the queue acts on the unit, with the rest of the queue waiting; on an empty queue nothing
happens (log 61). -/
def step (s : State) : Host.Outcome State Fault Refusal :=
  match s.pending with
  | [] => .next s
  | c :: rest => exec c { s with pending := rest }

/-- The state with the command that a table word spells put at the front of its queue. -/
def State.withFetchWord (s : State) (nbits w : Nat) : State :=
  match decodeTableWord nbits w with
  | some c => { s with pending := c :: s.pending }
  | none => s

end Sys2Proof.Machine
end

