-- ==== Sys2Proof/WellFormed.lean ====
section
/-! DEFINITION. Commands as the outside world can send them: operand numbers within what the spec gives them. A command
that is not well formed still has its meaning; statements that need a bound take it from here. -/
namespace Sys2Proof

/-- A mode manager that the mode table allows: a mode of Table 3-1, yaw under control by choice in Joystick alone (R68), and
exactly the axes that the mode controls. -/
def Machine.ModeMgr.ok (m : Machine.ModeMgr) : Bool :=
  decide (m.mode < 8) && (!m.autoHead || m.mode == 2) && m.axes == Machine.axesOf m.mode m.autoHead

open Machine

/-- A device time: 64 bits (Table 2-1). -/
def timeOk (t : Nat) : Bool := t < 2 ^ 64
/-- A path of access: four CAN controllers, four units (R48). -/
def pathOk : Path → Bool
  | .can c | .rpdo c => c < 4
  | .mirror _ u => u < 4
  | _ => true
/-- The header of a Halur message within its fields (Table 17-1). -/
def headOk (h : HHead) : Bool :=
  h.sender < 4 && h.role < 4 && h.epoch < 65536 && timeOk h.frame && h.sample < 2 ^ 32 && h.seq < 65536 && h.hop < 2
/-- The readings of a frame: four case and three die sensors (R516), an analog sample for each of 16 inputs at most. -/
def readingsOk (r : Readings) : Bool := r.case4.length == 4 && r.die3.length == 3 && r.analog.length ≤ 16
/-- The findings of a start-up stage (Tables 22-1, 22-3). -/
def stageOk (x : StageIn) : Bool := timeOk x.t && x.boot < 8 && x.unit < 4
/-- A CAN frame carries at most 64 data bytes, a classic one at most 8. -/
def canDataOk (fd : Bool) (data : List Byte) : Bool := data.length ≤ (if fd then 64 else 8)

/-- The mode manager that a Lead's full message carries is one its mode table allows (Table 17-3 block 10h). -/
def fullOk : Option FullLead → Bool
  | some m => m.mode.ok
  | none => true

/-- Every operand lies within what the spec gives it. -/
def Instr.wf : Instr → Bool
  | .frameBoundary r => readingsOk r
  | .innerLoopRun => true
  | .innerLoopSlotOverrun _ => true
  | .chaffSlot n xs => n < 256 ∧ xs.length = 10
  | .chaffSlotOverrun n => n < 256
  | .powerPlantModelRun => true
  | .breakerStateConfirmed k => k < 48
  | .lrRelease k => k < 4
  | .breakerDiscrepancy k => k < 56
  | .powerPlantModelOverrun => true
  | .sampleBoundary => true
  | .sheafAlignment => true
  | .sheafOverrun => true
  | .streamSilent k => k < 256
  | .winnowRun => true
  | .winnowOverrun => true
  | .observerUpdate => true
  | .observerOverrun => true
  | .culmLaw => true
  | .culmLawOverrun _ => true
  | .stubbleLaw => true
  | .stubbleLost _ => true
  | .tillerNominalSolve _ => true
  | .tillerPublish => true
  | .tillerOverrun => true
  | .allocationApply => true
  | .stookSweep _ => true
  | .caseSetPublish => true
  | .consequenceAlarm => true
  | .driveSilenceDetection j => j < 32
  | .fastMirrorSend _ => true
  | .fullMirrorSend => true
  | .sharedValueDigestMismatch u => u < 4
  | .panicleInputPhase => true
  | .panicleExecutePhase _ => true
  | .panicleOutputPhase => true
  | .panicleScanOverrun => true
  | .panicleRetainWrite t => timeOk t
  | .genericWrite p idx sub _ => pathOk p && idx < 65536 && sub < 256
  | .resultSampleRead p idx => pathOk p && idx < 65536
  | .resultLatchTimeout p t => pathOk p && timeOk t
  | .storeParameters p sub _ => pathOk p && sub < 256
  | .storeComplete => true
  | .restoreDefaults p sub _ => pathOk p && sub < 256
  | .configurationSetLoad p _ => pathOk p
  | .sampleLengthWrite p _ => pathOk p
  | .modeCommandStandby p hi => pathOk p && hi < 2 ^ 29
  | .modeCommandLever p hi => pathOk p && hi < 2 ^ 29
  | .modeCommandJoystick p hi => pathOk p && hi < 2 ^ 29
  | .modeCommandAutoHeading p hi => pathOk p && hi < 2 ^ 29
  | .modeCommandAutoPosition p hi => pathOk p && hi < 2 ^ 29
  | .modeCommandTrack p hi => pathOk p && hi < 2 ^ 29
  | .modeCommandMaintenance p hi => pathOk p && hi < 2 ^ 29
  | .modeCommandDormancy p hi => pathOk p && hi < 2 ^ 29
  | .actionCapturePosition p hi => pathOk p && hi < 2 ^ 24
  | .actionCaptureHeading p hi => pathOk p && hi < 2 ^ 24
  | .actionHoldRamps p hi => pathOk p && hi < 2 ^ 24
  | .actionReleaseRamps p hi => pathOk p && hi < 2 ^ 24
  | .streamDescriptorWrite p k sub _ => pathOk p && k < 256 && sub < 256
  | .clockSlotReset p k _ => pathOk p && k < 64
  | .groupMembershipWrite p k _ => pathOk p && k < 256
  | .referenceSelection p sub _ => pathOk p && sub < 256
  | .chaffCoefficientSet p _ => pathOk p
  | .chaffStickyRead p _ sub => pathOk p && sub < 256
  | .observerReset p _ => pathOk p
  | .gainSetSelection p _ => pathOk p
  | .culmCoefficientSet p _ => pathOk p
  | .culmStickyRead p sub => pathOk p && sub < 256
  | .thrusterDescriptorWrite p idx sub _ => pathOk p && idx < 65536 && sub < 256
  | .caseDescriptorWrite p c sub _ => pathOk p && c < 128 && sub < 256
  | .clearMismatchRemovals p _ => pathOk p
  | .stubbleSet p _ => pathOk p
  | .returnRequest p _ => pathOk p
  | .stubbleStickyRead p sub => pathOk p && sub < 256
  | .plantDescriptorWrite p idx sub _ => pathOk p && idx < 65536 && sub < 256
  | .frontEndScriptWrite p _ => pathOk p
  | .spoofingClear p _ => pathOk p
  | .snapshotCaptureCommand p _ => pathOk p
  | .archiveSelected p _ => pathOk p
  | .keepSelected p _ => pathOk p
  | .navigationRecordsRead p => pathOk p
  | .acceptJump p _ => pathOk p
  | .queueOverflowRead p sub => pathOk p && sub < 256
  | .channelDescriptorWrite p n sub _ => pathOk p && n < 32 && sub < 256
  | .comparePositionWrite p n sub _ => pathOk p && n < 32 && sub < 256
  | .feedbackStickyRead p sub => pathOk p && sub < 256
  | .compareStatusRead p sub => pathOk p && sub < 256
  | .serialTransmit path p _ => pathOk path && p < 16
  | .imuDescriptorWrite path i sub _ => pathOk path && i < 2 && sub < 256
  | .programImageLoad p _ => pathOk p
  | .panicleRestartWarm p => pathOk p
  | .panicleRestartCold p => pathOk p
  | .panicleRunWrite p _ => pathOk p
  | .scanLengthWrite p _ => pathOk p
  | .forceListWrite p _ => pathOk p
  | .arithmeticStickyRead p => pathOk p
  | .handLeadToUnit p _ => pathOk p
  | .gateControlListWrite p _ => pathOk p
  | .nodeTableWrite p _ => pathOk p
  | .processMapWrite p _ _ => pathOk p
  | .canTimingWrite p c sub _ => pathOk p && c < 4 && sub < 256
  | .filterListWrite p c _ => pathOk p && c < 4
  | .canRestart p c _ => pathOk p && c < 4
  | .granaryRead p => pathOk p
  | .clearingToken p _ => pathOk p
  | .ownerCaEnrolment p _ => pathOk p
  | .revocationListLoad p _ => pathOk p
  | .firmwareSlotWrite p slot _ => pathOk p && slot < 2
  | .antiRollbackCommit p _ => pathOk p
  | .tamperClear p _ => pathOk p
  | .restartWarmCommand p => pathOk p
  | .restartColdCommand p => pathOk p
  | .serialCharacterError p => p < 16
  | .sentenceReceived p arrival _ => p < 16 && timeOk arrival
  | .rawFrameReceived p arrival _ => p < 16 && timeOk arrival
  | .serialTransmitComplete p => p < 16
  | .intakeDatagram e port arrival _ => e < 64 && port < 4 && timeOk arrival
  | .imuDrdy i t => i < 2 && timeOk t
  | .imuReadComplete i _ => i < 2
  | .imuPortFault i => i < 2
  | .aref1Low _ => true
  | .aref1Restored _ => true
  | .dioLevelChange d t _ => d < 24 && timeOk t
  | .comparePulseEnd d => d < 24
  | .supervisorRefreshMissed => true
  | .safeOvercurrent k => k < 8
  | .safeOvercurrentRetry k _ => k < 8
  | .lrOvercurrent k => k < 4
  | .wakeNAsserted => true
  | .quadratureEdge n t _ _ _ => n < 32 && timeOk t
  | .channelFaultClear n => n < 32
  | .homeEvent n => n < 32
  | .trackingObserverUpdate n => n < 32
  | .ssiReadStart n t => n < 32 && timeOk t
  | .ssiReadComplete n _ _ => n < 32
  | .ssiClockTaken n => n < 32
  | .ssiClockYielded n => n < 32
  | .magneticInputChange m t _ => m < 16 && timeOk t
  | .gnssPortFault p t _ _ _ => p < 8 && timeOk t
  | .gnssPortFaultClear p t => p < 8 && timeOk t
  | .frontEndEnable g => g < 2
  | .frontEndScriptRun t _ => timeOk t
  | .frontEndAttention t _ => timeOk t
  | .frontEndScriptRetry t _ => timeOk t
  | .acquisitionSearch p _ _ _ _ t _ _ => p < 8 && timeOk t
  | .acquisitionLockTimeout p _ _ _ t => p < 8 && timeOk t
  | .channelFade _ t _ => timeOk t
  | .coastExpiry _ t => timeOk t
  | .sidePeakCheck _ _ _ _ => true
  | .measurementEpoch _ => true
  | .jamming g t => g < 2 && timeOk t
  | .jammingEnded g t => g < 2 && timeOk t
  | .snapshotArchive _ => true
  | .timeOffer t => timeOk t
  | .navigationMessage _ _ => true
  | .lossAidedSearch t => timeOk t
  | .dormancyGnssCheck t _ => timeOk t
  | .timeMeasurement e t => e < 8 && timeOk t
  | .timeStep t => timeOk t
  | .sourceLost e t => e < 8 && timeOk t
  | .holdoverEntry => true
  | .holdoverLimit t => timeOk t
  | .referenceChange _ => true
  | .ppsInEdge _ t => timeOk t
  | .ppsOutPulse _ t => timeOk t
  | .leapSecondChange t => timeOk t
  | .ptpSync domain _ t _ _ _ _ => domain < 256 && timeOk t
  | .ptpAnnounce domain _ t _ => domain < 256 && timeOk t
  | .announceReceiptTimeout t => timeOk t
  | .ptpEventForward _ _ _ _ _ _ => true
  | .transmitTimestamp _ _ _ _ => true
  | .halurTimeMeasurement t => timeOk t
  | .canReferenceMessage c => c < 4
  | .halurFastFrame h _ _ => headOk h
  | .halurFullFrame h m _ => headOk h && fullOk m
  | .leadLossDeclaration => true
  | .claim h epoch prio => headOk h && epoch < 65536 && prio < 256
  | .takeLead => true
  | .yield h target => headOk h && target < 256
  | .stopNotice h code => headOk h && code < 65536
  | .joinRequest h prio nvEpoch => headOk h && prio < 256 && nvEpoch < 65536
  | .election => true
  | .bulkFrame h key length _ _ => headOk h && key < 2 ^ 24 && length < 16777217
  | .bulkAcknowledgement h key _ => headOk h && key < 2 ^ 24
  | .bulkTransferTimeout => true
  | .panicleRequest h => headOk h
  | .halurPortChange port _ => port < 2
  | .mirrorDegraded => true
  | .halurDegraded => true
  | .phyLinkChange n _ _ _ => n < 4
  | .kppFrame port mac _ arrival _ => port < 4 && mac < 2 ^ 48 && timeOk arrival
  | .kppQueue => true
  | .kppWindowClose _ => true
  | .publishedRecordSend k => k < 8
  | .networkLost x => x < 2
  | .networkRestored x => x < 2
  | .nodeLost id => id < 4096
  | .leadOffFieldPath => true
  | .kdpConnection _ t _ net _ _ => timeOk t && net < 2
  | .kdpIdleTimeout _ t => timeOk t
  | .kdpRead _ t req _ => timeOk t && req < 2 ^ 32
  | .kdpWrite _ t req _ => timeOk t && req < 2 ^ 32
  | .kdpWholeRecordRead _ t req _ => timeOk t && req < 2 ^ 32
  | .kdpKeepalive _ t req _ _ => timeOk t && req < 2 ^ 32
  | .canFrameReceived c id fd data sof _ => c < 4 && id < 2 ^ 32 && canDataOk fd data && timeOk sof
  | .canCyclicQueue _ => true
  | .canTransmitDone c result sof => c < 4 && result < 3 && timeOk sof
  | .canErrorStateChange c _ _ => c < 4
  | .busOffRecoveryStart c => c < 4
  | .busOffRecovered c => c < 4
  | .controllerAlone c => c < 4
  | .bitRateCandidate c => c < 4
  | .sdoInitiate c t => c < 4 && timeOk t
  | .sdoSegment c t => c < 4 && timeOk t
  | .sdoBlockSegment c t => c < 4 && timeOk t
  | .sdoTransferTimeout c t => c < 4 && timeOk t
  | .rpdoReceived c id fd data sof => c < 4 && id < 2 ^ 32 && canDataOk fd data && timeOk sof
  | .tpdoEventTimer n t => n < 512 && timeOk t
  | .producerHeartbeat t => timeOk t
  | .consumerHeartbeatLoss c node => c < 4 && node < 128
  | .nmtCommand c cmd node => c < 4 && cmd < 256 && node < 128
  | .granaryPageWrite _ => true
  | .signatureBlockComplete => true
  | .tamper => true
  | .levelRaised => true
  | .levelLowered => true
  | .heatLimitExceeded => true
  | .caseSensorRestore i => i < 4
  | .monitorWindowEnd m => m < 64
  | .wakeSource b => b < 3
  | .wakeComplete _ => true
  | .vinApplied t => timeOk t
  | .startUpStage x => stageOk x
  | .bootWatchdog t => timeOk t
  | .selfTestHaltRetry t => timeOk t
  | .repeatableSelfTest _ _ _ => true
  | .resetNLow => true
  | .vinFalling => true
  | .supervisorReset _ t => timeOk t
  | .automaticRestart t _ => timeOk t
  | .recoveryImage _ => true
  | .strapCheck boot unit => boot < 8 && unit < 4
  | .resetNRelease t => timeOk t
  | .romRetry t => timeOk t
  | .tamperEnded => true
  | .kdpConnectionClosed _ t => timeOk t
  | .ptpSyncTransmit _ => true
  | .ptpDelayReqTransmit _ => true

end Sys2Proof
end

