-- ==== Sys2Proof/Safety.lean ====
section
/-! DEFINITION. What counts as a safe state and a safe run of the unit, in the terms the statements use. -/
namespace Sys2Proof.Machine

/-- Keys strictly rising: each key has at most one entry. -/
def rising {α : Type} : List (Nat × α) → Bool
  | [] => true
  | [_] => true
  | a :: b :: t => decide (a.1 < b.1) && rising (b :: t)

/-- The canonical form of an object store: rising keys, and no entry equal to what an unlisted key reads as (R31). -/
def storeOk (l : List (Nat × Val)) : Bool := rising l && l.all fun p => decide (p.2 ≠ dfltAt p.1)

namespace State

/-- Every waiting command lies within what the spec gives its operands. -/
def queueOk (s : State) : Bool := s.pending.all (·.wf)
/-- Both object stores have their canonical form. -/
def storesOk (s : State) : Bool := storeOk s.obj && storeOk s.force
/-- The mode manager is one the mode table allows, and so is one that waits in an accepted full mirror (R443). -/
def modesOk (s : State) : Bool :=
  s.mode.ok && match s.mir.fullIn with
    | some (_, m) => m.mode.ok
    | none => true

/-- The invariant of the unit: well-formed commands, canonical stores, a mode the mode table allows. -/
def Inv (s : State) : Prop := s.queueOk = true ∧ s.storesOk = true ∧ s.modesOk = true

/-- Every output ball that could move the vessel is at rest: SAFE lines low, LR lines released. -/
def atRest (s : State) : Prop := s.io.safe = 0 ∧ s.lrMask = 0

/-! What an event, a fault and its clearing leave behind them: the relations that the statements of many commands share. -/

/-- The unit records events and the DRAM queue has room for one more (R499, R502, R503). -/
def records (s : State) : Bool := decide (s.st.power ≠ .off) && decide (s.st.power ≠ .reset) && s.granRoom

/-- The parameters of a record: four, the missing ones 0 (R499). -/
def recParams (l : List Nat) : List Nat := ((l ++ [0, 0, 0, 0]).take 4).map (· % 2 ^ 64)

/-- The newest record that waits in DRAM has this code, class and these parameters, and is stamped with the device time
and the sample number in force (R499). -/
def newest (s : State) (code cls : Nat) (params : List Nat) : Prop :=
  ∃ r, s.gran.queue.getLast? = some r ∧ r.code = code ∧ r.cls = cls ∧ r.params = recParams params ∧
    r.time = s.clk.time ∧ r.sample = s.clk.sample

/-- Every object reads as before, but for the count of discarded records 4601h:04h (R503). -/
def sameObjects (s t : State) : Prop := ∀ k, k ≠ okey 0x4601 4 → getV t.obj k = getV s.obj k

/-- From `s` to `t` one event is recorded, or counted as discarded, and nothing else happens. -/
structure Noted (s t : State) (code cls : Nat) (params : List Nat) : Prop where
  rest : { t with gran := s.gran, obj := s.obj } = s
  objects : s.sameObjects t
  event : s.records = true → t.newest code cls params

/-- From `s` to `t` the fault of a condition's instance comes into force with a class, its EMCY messages wait on the CAN
controllers, and nothing else happens. -/
structure Raised (s t : State) (code inst cls : Nat) : Prop where
  rest : { t with can := s.can, faults := s.faults } = s
  fault : Flt.mk code inst cls ∈ t.faults
  others : ∀ f : Flt, ¬(f.code = code ∧ f.inst = inst) → (f ∈ t.faults ↔ f ∈ s.faults)

/-- From `s` to `t` one event is recorded, its fault comes into force, and nothing else happens. -/
def Alarmed (s t : State) (code inst cls : Nat) (params : List Nat) : Prop :=
  ∃ u, s.Noted u code cls params ∧ u.Raised t code inst cls

/-- From `s` to `t` the fault of a condition's instance is in force no longer, and nothing else happens but its EMCY
messages. -/
structure Cleared (s t : State) (code inst : Nat) : Prop where
  rest : { t with can := s.can, faults := s.faults } = s
  gone : t.faultIs code inst = false
  others : ∀ f : Flt, ¬(f.code = code ∧ f.inst = inst) → (f ∈ t.faults ↔ f ∈ s.faults)

/-! Writes (R38, R577). -/

/-- The object's access class and persistence permit a write at all (R34, R36). -/
def rowWrites (r : Row) : Bool := decide (r.acc ≠ .ro) && decide (r.acc ≠ .konst) && decide (r.per ≠ .fac)

/-- The session's role, the tamper state and the unit's role permit a write on this path (step 3 of R577). -/
def permits (s : State) (p : Path) (i j : Nat) (r : Row) : Bool :=
  mayWrite (s.roleOf p) i j && (!s.husk.limited || s.roleOf p == .auditor || s.roleOf p == .service) &&
    (r.loc || decide (s.st.role = 0)) && (match p with
      | .mirror _ _ => false
      | _ => true)

/-- The abort of step 3 of R577 where the write is not permitted: a mirror path, then role and tamper state, then a unit
that is not the Lead. -/
def accessAbort (s : State) (p : Path) (i j : Nat) : Nat :=
  match p with
  | .mirror _ _ => 0x08000105
  | _ => if mayWrite (s.roleOf p) i j && (!s.husk.limited || s.roleOf p == .auditor || s.roleOf p == .service) then 0x08000104
    else 0x08000101

/-- The write of an object reaches step 4 of R577: it exists, may be written, and is permitted on this path. -/
abbrev reaches (s : State) (p : Path) (i j : Nat) (r : Row) : Prop :=
  s.existsAbort i j = 0 ∧ findRow i j = some r ∧ rowWrites r = true ∧ s.permits p i j r = true

/-- The commands 2201h and 2203h have reserved bits of their own (R71). -/
def isCommand (i : Nat) : Bool := i == 0x2201 || i == 0x2203

/-- From `s` to `t` a value of an object has been accepted: the answer is success, a read returns the value at once, the
unit uses it at once where the object is unit-local and no per-sample one and from its f0 otherwise (R38, R41), and every
other object reads as before but for 2011h:03h and the count 4601h:04h. -/
structure Taken (s t : State) (r : Row) (i j : Nat) (v : Val) : Prop where
  answer : t.acc.answer = ⟨0, []⟩
  value : t.objV i j = v
  force : if r.loc && !perSample i then t.cfgV i j = v ∧ t.acc.fresh = s.acc.fresh
    else t.force = s.force ∧ t.acc.fresh = s.acc.fresh ++ [⟨okey i j, v, if r.loc then s.nextF0 else s.sharedDue⟩]
  changed : r.per = .nv → okey i j ≠ okey 0x2011 3 → t.objU 0x2011 3 = 1
  others : ∀ k, k ≠ okey i j → k ≠ okey 0x2011 3 → k ≠ okey 0x4601 4 → getV t.obj k = getV s.obj k
  forces : ∀ k, k ≠ okey i j → getV t.force k = getV s.force k
  queue : t.pending = s.pending

end State

/-- The path, object and octets of a command that is a write of one object (R38): GENERIC_WRITE and every row that names
the object it writes. None for the rows that are no write, and for an instance that the unit does not have. -/
def writeOf : Instr → Option (Path × Nat × Nat × List Byte)
  | .genericWrite p i j b => some (p, i, j, b)
  | .storeParameters p j b => some (p, 0x1010, j, b)
  | .restoreDefaults p j b => some (p, 0x1011, j, b)
  | .configurationSetLoad p b => some (p, 0x2010, 0, b)
  | .sampleLengthWrite p b => some (p, 0x2030, 1, b)
  | .modeCommandStandby p h => some (p, 0x2201, 0, modeWord h 0)
  | .modeCommandLever p h => some (p, 0x2201, 0, modeWord h 1)
  | .modeCommandJoystick p h => some (p, 0x2201, 0, modeWord h 2)
  | .modeCommandAutoHeading p h => some (p, 0x2201, 0, modeWord h 3)
  | .modeCommandAutoPosition p h => some (p, 0x2201, 0, modeWord h 4)
  | .modeCommandTrack p h => some (p, 0x2201, 0, modeWord h 5)
  | .modeCommandMaintenance p h => some (p, 0x2201, 0, modeWord h 6)
  | .modeCommandDormancy p h => some (p, 0x2201, 0, modeWord h 7)
  | .actionCapturePosition p h => some (p, 0x2203, 0, actionWord h 1)
  | .actionCaptureHeading p h => some (p, 0x2203, 0, actionWord h 2)
  | .actionHoldRamps p h => some (p, 0x2203, 0, actionWord h 3)
  | .actionReleaseRamps p h => some (p, 0x2203, 0, actionWord h 4)
  | .streamDescriptorWrite p k j b => if k < 256 then some (p, 0x2400 + k, j, b) else none
  | .clockSlotReset p k b => if k < 64 then some (p, 0x2540 + k, 4, b) else none
  | .groupMembershipWrite p k b => if k < 256 then some (p, 0x2600 + k, 1, b) else none
  | .referenceSelection p j b => some (p, 0x2240, j, b)
  | .chaffCoefficientSet p b => some (p, 0x2900, 0, b)
  | .observerReset p b => some (p, 0x2A10, 1, b)
  | .gainSetSelection p b => some (p, 0x2C00, 1, b)
  | .culmCoefficientSet p b => some (p, 0x2C01, 0, b)
  | .thrusterDescriptorWrite p i j b => if 0x2E80 ≤ i ∧ i ≤ 0x2EDF then some (p, i, j, b) else none
  | .caseDescriptorWrite p c j b => if c < 128 then some (p, 0x3080 + c, j, b) else none
  | .clearMismatchRemovals p b => some (p, 0x3002, 0, b)
  | .stubbleSet p b => some (p, 0x3200, 0, b)
  | .returnRequest p b => some (p, 0x3203, 0, b)
  | .plantDescriptorWrite p i j b => if 0x3400 ≤ i ∧ i ≤ 0x34DF then some (p, i, j, b) else none
  | .frontEndScriptWrite p b => some (p, 0x3601, 2, b)
  | .spoofingClear p b => some (p, 0x3611, 0, b)
  | .snapshotCaptureCommand p b => some (p, 0x3620, 1, b)
  | .archiveSelected p b => some (p, 0x3621, 3, b)
  | .keepSelected p b => some (p, 0x3621, 4, b)
  | .acceptJump p b => some (p, 0x3802, 0, b)
  | .channelDescriptorWrite p n j b => if n < 32 then some (p, 0x3A00 + n, j, b) else none
  | .comparePositionWrite p n j b => if n < 32 then some (p, 0x3A20 + n, j, b) else none
  | .serialTransmit p n b => if n < 16 then some (p, 0x4420 + n, 0, b) else none
  | .imuDescriptorWrite p i j b => if i < 2 then some (p, 0x4470 + i, j, b) else none
  | .programImageLoad p b => some (p, 0x3C01, 0, b)
  | .panicleRestartWarm p => some (p, 0x3C03, 0, natLe 1 1)
  | .panicleRestartCold p => some (p, 0x3C03, 0, natLe 1 2)
  | .panicleRunWrite p b => some (p, 0x3C00, 2, b)
  | .scanLengthWrite p b => some (p, 0x3C00, 1, b)
  | .forceListWrite p b => some (p, 0x3C10, 0, b)
  | .handLeadToUnit p b => some (p, 0x3E20, 0, b)
  | .gateControlListWrite p b => some (p, 0x4010, 0, b)
  | .nodeTableWrite p b => some (p, 0x4020, 0, b)
  | .processMapWrite p r b => some (p, if r then 0x4032 else 0x4030, 0, b)
  | .canTimingWrite p c j b => if c < 4 ∧ 3 ≤ j ∧ j ≤ 0x0A then some (p, 0x4200 + c, j, b) else none
  | .filterListWrite p c b => if c < 4 then some (p, 0x4210 + c, 0, b) else none
  | .canRestart p c b => if c < 4 then some (p, 0x4200 + c, 0x0D, b) else none
  | .clearingToken p b => some (p, 0x4630, 2, b)
  | .ownerCaEnrolment p b => some (p, 0x4810, 0, b)
  | .revocationListLoad p b => some (p, 0x4811, 0, b)
  | .firmwareSlotWrite p k b => if k < 2 then some (p, 0x4821, k + 1, b) else none
  | .antiRollbackCommit p b => some (p, 0x4820, 4, b)
  | .tamperClear p b => some (p, 0x4830, 2, b)
  | .restartWarmCommand p => some (p, 0x2020, 0, [1#8])
  | .restartColdCommand p => some (p, 0x2020, 0, [2#8])
  | _ => none

/-- The command is a write of this object on a running unit that passes the tests of R577 with this value. -/
def State.passes (s : State) (c : Instr) (i j : Nat) (v : Val) : Prop :=
  ∃ p b r, writeOf c = some (p, i, j, b) ∧ s.up = true ∧ s.writeTests p i j b = .ok (r, v)

/-- The path and object of a command that reads flags which the read clears (R197). -/
def stickyOf : Instr → Option (Path × Nat × Nat)
  | .chaffStickyRead p upper j => some (p, if upper then 0x2911 else 0x2910, j)
  | .culmStickyRead p j => some (p, 0x2C50, j)
  | .stubbleStickyRead p j => some (p, 0x3204, j)
  | .queueOverflowRead p j => some (p, 0x3842, j)
  | .feedbackStickyRead p j => some (p, 0x3A90, j)
  | .arithmeticStickyRead p => some (p, 0x3C51, 0)
  | _ => none

/-! What the statements about a stage share. -/

namespace State

/-- From `s` to `t` a result is published for the sample in progress at the start of a frame: its number and epoch, valid, not
stale, not held (R51, R52). -/
def Published (s t : State) (i : Nat) : Prop := ∃ l, t.result i = ⟨s.clk.sample, s.clk.epoch, 0x80, l⟩

/-- From `s` to `t` the second buffer of a result is filled for the sample in progress; the readable one stays until the frame
ends (R51, R52). -/
def Filled (s t : State) (i : Nat) : Prop :=
  ∃ l, (tget {} t.res i).back = some ⟨s.clk.sample, s.clk.epoch, 0x80, l⟩ ∧ t.result i = s.result i

/-- From `s` to `t` neither buffer of a result changes. -/
def KeepsResult (s t : State) (i : Nat) : Prop := tget {} t.res i = tget {} s.res i

/-- From `s` to `t` a result keeps its values and its status gains bits: 40h stale, 20h held (R54). -/
def Marked (s t : State) (i bits : Nat) : Prop := t.result i = { s.result i with status := (s.result i).status ||| bits }

/-- The unit stops under F3 for a cause (Table 0-4): its fault is in force, it has left its role, the stop notice names it. -/
structure Stops (t : State) (code : Nat) (inst : Nat := 0) : Prop where
  power : t.st.power = .stopped
  role : t.st.role = 3
  notice : t.st.noticeCode = code
  fault : Flt.mk code inst 3 ∈ t.faults

/-- A counter object counts one more, at its width. -/
def Counts (s t : State) (i j : Nat) : Prop := t.objU i j = (s.objU i j + 1) % 2 ^ width i j

end State

/-- A valid frame of another unit on a link of several, the first copy of its sequence (R435, R438). -/
abbrev State.Hears (s : State) (h : HHead) (type : Nat) : Prop :=
  s.units ≠ 1 ∧ h.sender ≤ 3 ∧ h.valid = true ∧ h.sender ≠ s.st.unitId ∧ tfind s.mir.seen (h.sender * 16 + type) ≠ some h.seq

/-- The session is open, nothing of it waits, and the request is a new one (R57, R58, R477). -/
abbrev State.FreshRequest (s : State) (id req : Nat) : Prop :=
  s.up = true ∧ s.kdpOpen id = true ∧ (s.session (.kdp id)).wait = [] ∧
    (∀ r ∈ (s.session (.kdp id)).replay, r.code ≠ State.noAnswer ∧ r.id ≠ req) ∧
    (∀ r l, (s.session (.kdp id)).replay = r :: l → newerMod (2 ^ 32) (State.oldestId r.id (l.map (·.id))) req = false)

/-- From `s` to `t` a request of the session is answered, and its answer kept for a repeat of the request (R57). -/
def State.Replied (s t : State) (id req : Nat) (b : List Byte) (code : Nat) (value : List Byte) : Prop :=
  t.acc.answer = ⟨code, value⟩ ∧
    (t.session (.kdp id)).replay = lastN 64 ((s.session (.kdp id)).replay ++ [⟨req, b, code, value⟩])

/-- Objects whose read shows what the unit computes, or has an effect of its own. -/
def readsLive (i j : Nat) : Bool :=
  State.sticky i j || (0x2700 ≤ i && i < 0x2710) || [0x1001, 0x1200, 0x2010, 0x2011, 0x2226, 0x3621, 0x3622, 0x3645, 0x3A93,
    0x3C51, 0x3E01, 0x4620, 0x4631, 0x4830].contains i

/-- A frame of the SDO server of controller c waits for its turn, or stands in a transmit buffer, under the identifier of the node
that the request addressed (R38, R493); a controller that does not send answers nothing. -/
def State.Responds (t : State) (c : Nat) (frame : List Byte) : Prop :=
  t.canSends c = true → (0x580 + (t.canC c).sdoNode, frame) ∈ (t.canC c).sdoOut ∨
    ∃ m ∈ (t.canC c).tx, m.kind = .sdo ∧ m.id = 0x580 + (t.canC c).sdoNode ∧ m.data = frame

/-- The oldest request of controller c, that it has served at device time t0 (R493). -/
abbrev State.Serves (s u : State) (c t0 cls : Nat) (b : List Byte) : Prop :=
  s.canHears c = true ∧ State.sdoClass (s.canC c).sdo b = cls ∧ ∃ node, (s.canC c).sdoIn.head? = some (node, b) ∧
    u = (s.at' t0).setCanC c { s.canC c with sdoIn := (s.canC c).sdoIn.drop 1, sdoNode := node }

/-- From `s` to `t` a start begins (R530, Table 22-4): its kind and cause, the chain and the faults as a start finds them, and
what every start keeps: the two copies of the parameters with their restore marks, keys and images, the records in NAND and
those that wait in DRAM where the start is warm, and the objects that the unit keeps itself. -/
structure State.Started (s t : State) (kind cause : Nat) : Prop where
  power : t.st.power = .starting 1
  named : t.st.kind = kind ∧ t.st.cause = cause
  straps : t.st.boot = s.st.boot ∧ t.st.unitId = s.st.unitId
  faults : t.faults = []
  results : t.res = []
  access : t.acc = { copyA := s.acc.copyA, copyB := s.acc.copyB, marks := s.acc.marks, chains := s.acc.chains }
  mode : t.mode = {}
  records : t.gran.held = s.gran.held ∧ t.gran.next = s.gran.next ∧ t.gran.queue = if kind = 2 then s.gran.queue else []
  husk : t.husk = { s.husk with limited := false }
  chain : t.sheaf = {} ∧ t.win = {} ∧ t.obs = {} ∧ t.ctl = {} ∧ t.chaff = {} ∧ t.fb = {}
  retain : t.pan.copyA = s.pan.copyA ∧ t.pan.copyB = s.pan.copyB
  objects : t.force = t.obj ∧ ∀ k, getV t.obj k = if State.selfKept k then getV s.obj k else dfltAt k
  queue : t.pending = s.pending

/-- Objects that stage 6 may set by a rule of their own: those of the four signed sets, the node numbers that follow the unit
number, 2240h after 26xxh:03h, 3E01h, and the count of discarded records. -/
def stageSix : List Nat := [0x2900, 0x2901, 0x2C01, 0x2C02, 0x3200, 0x3201, 0x3C01, 0x3C02, 0x1F00, 0x1014, 0x2240, 0x3E01, 0x4601]

/-- The parts of the unit, one per field of `State` but the queue, in their order. -/
inductive Part where
  /-- free values drawn (log 3) -/
  | free
  /-- device time, frames, samples -/
  | clk
  /-- objects as a client reads them -/
  | obj
  /-- objects as the unit uses them -/
  | force
  /-- published results -/
  | res
  /-- faults in force -/
  | faults
  /-- access: sessions, stores, answers -/
  | acc
  /-- mode manager -/
  | mode
  /-- event store -/
  | gran
  /-- keys, firmware, tamper -/
  | husk
  /-- power and heat -/
  | therm
  /-- health monitors -/
  | mons
  /-- start-up and power -/
  | st
  /-- Halur link -/
  | hal
  /-- Sheaf -/
  | sheaf
  /-- Winnow -/
  | win
  /-- observer -/
  | obs
  /-- control laws, allocation, plant -/
  | ctl
  /-- Ethernet and KPP -/
  | net
  /-- Chaff -/
  | chaff
  /-- feedback channels -/
  | fb
  /-- ports and pins -/
  | io
  /-- GNSS -/
  | gn
  /-- time base -/
  | tb
  /-- Panicle -/
  | pan
  /-- mirror of the Lead -/
  | mir
  /-- CAN controllers -/
  | can
  deriving DecidableEq, Repr

/-- From `s` to `t` a part is unchanged. -/
def Part.same : Part → State → State → Prop
  | .free, s, t => t.free = s.free
  | .clk, s, t => t.clk = s.clk
  | .obj, s, t => t.obj = s.obj
  | .force, s, t => t.force = s.force
  | .res, s, t => t.res = s.res
  | .faults, s, t => t.faults = s.faults
  | .acc, s, t => t.acc = s.acc
  | .mode, s, t => t.mode = s.mode
  | .gran, s, t => t.gran = s.gran
  | .husk, s, t => t.husk = s.husk
  | .therm, s, t => t.therm = s.therm
  | .mons, s, t => t.mons = s.mons
  | .st, s, t => t.st = s.st
  | .hal, s, t => t.hal = s.hal
  | .sheaf, s, t => t.sheaf = s.sheaf
  | .win, s, t => t.win = s.win
  | .obs, s, t => t.obs = s.obs
  | .ctl, s, t => t.ctl = s.ctl
  | .net, s, t => t.net = s.net
  | .chaff, s, t => t.chaff = s.chaff
  | .fb, s, t => t.fb = s.fb
  | .io, s, t => t.io = s.io
  | .gn, s, t => t.gn = s.gn
  | .tb, s, t => t.tb = s.tb
  | .pan, s, t => t.pan = s.pan
  | .mir, s, t => t.mir = s.mir
  | .can, s, t => t.can = s.can

/-- Every part. -/
def Part.all : List Part := [.free, .clk, .obj, .force, .res, .faults, .acc, .mode, .gran, .husk, .therm, .mons, .st, .hal, .sheaf, .win, .obs, .ctl, .net, .chaff, .fb, .io, .gn, .tb, .pan, .mir, .can]

/-- The parts of the unit that a command may change, as the rules of its chapter give its effects: its own chapter's part;
event store, faults, EMCY and the count of discarded events where it records or raises; the stop's parts where it can stop
the unit. -/
def touches : Instr → List Part
  | .frameBoundary .. =>
    Part.all.filter fun p => ! [.win].contains p
  | .innerLoopRun .. =>
    [.obj, .res, .faults, .gran, .ctl, .net, .can]
  | .innerLoopSlotOverrun .. =>
    [.obj, .res, .faults, .gran, .st, .ctl, .net, .can]
  | .chaffSlot .. =>
    [.obj, .faults, .gran, .sheaf, .chaff, .can]
  | .chaffSlotOverrun .. =>
    [.obj, .faults, .gran, .st, .chaff, .can]
  | .powerPlantModelRun .. | .caseSetPublish .. =>
    [.res, .faults, .ctl, .can]
  | .breakerStateConfirmed .. | .breakerDiscrepancy .. | .stubbleLaw .. | .consequenceAlarm .. =>
    [.obj, .res, .faults, .gran, .ctl, .can]
  | .lrRelease .. | .driveSilenceDetection .. =>
    [.obj, .gran, .ctl]
  | .powerPlantModelOverrun .. =>
    [.obj, .res, .faults, .gran, .st, .ctl, .can]
  | .sampleBoundary .. | .wakeComplete .. | .vinApplied .. | .bootWatchdog .. | .selfTestHaltRetry .. |
  .supervisorReset .. | .automaticRestart .. | .resetNRelease .. =>
    Part.all.filter fun p => ! [.free].contains p
  | .sheafAlignment .. =>
    [.obj, .force, .res, .faults, .gran, .mons, .sheaf, .can]
  | .sheafOverrun .. =>
    [.obj, .res, .faults, .gran, .st, .sheaf, .can]
  | .streamSilent .. =>
    [.obj, .gran, .sheaf]
  | .winnowRun .. =>
    [.obj, .res, .faults, .gran, .sheaf, .win, .can]
  | .winnowOverrun .. =>
    [.obj, .res, .faults, .gran, .st, .win, .can]
  | .observerUpdate .. =>
    [.obj, .res, .faults, .gran, .st, .obs, .ctl, .can]
  | .observerOverrun .. =>
    [.obj, .res, .faults, .gran, .st, .obs, .can]
  | .culmLaw .. =>
    [.free, .obj, .res, .faults, .gran, .mons, .ctl, .can]
  | .culmLawOverrun .. | .stubbleLost .. | .tillerNominalSolve .. | .tillerOverrun .. =>
    [.obj, .res, .faults, .gran, .st, .ctl, .can]
  | .tillerPublish .. =>
    [.obj, .res, .faults, .gran, .mons, .ctl, .can]
  | .allocationApply .. =>
    [.obj, .force, .res, .faults, .gran, .st, .ctl, .can]
  | .stookSweep .. =>
    [.free, .obj, .faults, .gran, .mons, .ctl, .can]
  | .fastMirrorSend .. =>
    [.obj, .acc, .hal, .mir]
  | .fullMirrorSend .. =>
    [.mode, .hal, .pan, .mir]
  | .sharedValueDigestMismatch .. | .canCyclicQueue .. | .canErrorStateChange .. | .busOffRecovered .. |
  .controllerAlone .. | .granaryPageWrite .. | .signatureBlockComplete .. =>
    [.obj, .faults, .gran, .can]
  | .panicleInputPhase .. =>
    [.obj, .faults, .gran, .pan, .can]
  | .panicleExecutePhase .. =>
    [.obj, .faults, .gran, .mons, .hal, .pan, .can]
  | .panicleOutputPhase .. | .genericWrite .. | .sampleLengthWrite .. =>
    Part.all.filter fun p => ! [.clk, .therm, .sheaf, .win, .ctl, .net, .chaff, .mir].contains p
  | .panicleScanOverrun .. =>
    [.obj, .faults, .gran, .st, .pan, .can]
  | .panicleRetainWrite .. =>
    [.clk, .faults, .pan, .can]
  | .resultSampleRead .. | .compareStatusRead .. =>
    [.obj, .acc, .fb]
  | .resultLatchTimeout .. =>
    [.clk, .acc]
  | .storeParameters .. | .restoreDefaults .. | .configurationSetLoad .. | .streamDescriptorWrite .. |
  .clockSlotReset .. | .groupMembershipWrite .. | .referenceSelection .. | .chaffCoefficientSet .. |
  .gainSetSelection .. | .culmCoefficientSet .. | .thrusterDescriptorWrite .. | .caseDescriptorWrite .. |
  .clearMismatchRemovals .. | .stubbleSet .. | .returnRequest .. | .plantDescriptorWrite .. |
  .channelDescriptorWrite .. | .imuDescriptorWrite .. | .programImageLoad .. | .panicleRestartWarm .. |
  .panicleRestartCold .. | .panicleRunWrite .. | .scanLengthWrite .. | .gateControlListWrite .. | .nodeTableWrite ..
  | .processMapWrite .. | .canTimingWrite .. | .filterListWrite .. | .ownerCaEnrolment .. | .revocationListLoad .. |
  .antiRollbackCommit .. =>
    [.obj, .force, .acc, .gran]
  | .storeComplete .. | .granaryRead .. =>
    [.acc]
  | .modeCommandStandby .. | .modeCommandLever .. | .modeCommandJoystick .. | .modeCommandAutoHeading .. |
  .modeCommandAutoPosition .. | .modeCommandTrack .. | .modeCommandMaintenance .. | .modeCommandDormancy .. |
  .actionCapturePosition .. | .actionCaptureHeading .. | .actionHoldRamps .. | .actionReleaseRamps .. =>
    [.obj, .force, .acc, .mode, .gran]
  | .chaffStickyRead .. | .culmStickyRead .. | .stubbleStickyRead .. | .navigationRecordsRead .. |
  .queueOverflowRead .. | .feedbackStickyRead .. | .arithmeticStickyRead .. =>
    [.obj, .acc]
  | .observerReset .. =>
    [.obj, .force, .acc, .gran, .obs]
  | .frontEndScriptWrite .. | .spoofingClear .. | .snapshotCaptureCommand .. | .archiveSelected .. |
  .keepSelected .. =>
    [.obj, .force, .acc, .gran, .gn]
  | .acceptJump .. =>
    [.obj, .force, .faults, .acc, .gran, .tb, .can]
  | .comparePositionWrite .. =>
    [.obj, .force, .acc, .gran, .fb]
  | .serialTransmit .. =>
    [.obj, .force, .acc, .gran, .io]
  | .forceListWrite .. =>
    [.obj, .force, .acc, .gran, .pan]
  | .handLeadToUnit .. =>
    [.obj, .force, .acc, .gran, .hal]
  | .canRestart .. =>
    [.obj, .force, .faults, .acc, .gran, .can]
  | .clearingToken .. =>
    [.free, .obj, .force, .acc, .gran]
  | .firmwareSlotWrite .. =>
    [.obj, .force, .acc, .gran, .husk]
  | .tamperClear .. =>
    [.obj, .force, .faults, .acc, .gran, .husk, .can]
  | .restartWarmCommand .. | .restartColdCommand .. =>
    [.obj, .force, .faults, .acc, .gran, .st, .pan, .can]
  | .serialCharacterError .. | .supervisorRefreshMissed .. | .wakeNAsserted .. =>
    [.obj, .gran, .io]
  | .sentenceReceived .. | .rawFrameReceived .. | .intakeDatagram .. =>
    [.obj, .gran, .sheaf, .io]
  | .serialTransmitComplete .. | .comparePulseEnd .. =>
    [.io]
  | .imuDrdy .. | .dioLevelChange .. =>
    [.obj, .io]
  | .imuReadComplete .. =>
    [.obj, .faults, .gran, .sheaf, .io, .can]
  | .imuPortFault .. | .aref1Low .. | .safeOvercurrent .. | .safeOvercurrentRetry .. | .lrOvercurrent .. =>
    [.obj, .faults, .gran, .io, .can]
  | .aref1Restored .. =>
    [.obj, .faults, .gran, .chaff, .io, .can]
  | .quadratureEdge .. | .ssiReadComplete .. =>
    [.obj, .faults, .gran, .fb, .io, .can]
  | .channelFaultClear .. =>
    [.obj, .faults, .gran, .fb, .can]
  | .homeEvent .. =>
    [.obj, .force, .gran, .fb]
  | .trackingObserverUpdate .. | .ssiClockTaken .. | .ssiClockYielded .. =>
    [.obj, .gran, .fb]
  | .ssiReadStart .. =>
    [.fb]
  | .magneticInputChange .. =>
    [.obj, .fb]
  | .gnssPortFault .. | .frontEndScriptRun .. | .frontEndAttention .. | .frontEndScriptRetry .. | .jamming .. |
  .jammingEnded .. =>
    [.clk, .obj, .faults, .gran, .gn, .can]
  | .gnssPortFaultClear .. =>
    [.clk, .faults, .gn, .can]
  | .frontEndEnable .. | .sidePeakCheck .. =>
    [.gn]
  | .acquisitionSearch .. | .acquisitionLockTimeout .. | .channelFade .. | .timeOffer .. | .lossAidedSearch .. =>
    [.clk, .gn]
  | .coastExpiry .. =>
    [.clk, .obj, .gn]
  | .measurementEpoch .. =>
    [.clk, .obj, .res, .faults, .gran, .sheaf, .gn, .can]
  | .snapshotArchive .. =>
    [.obj, .gran, .gn]
  | .navigationMessage .. =>
    [.gn, .tb]
  | .dormancyGnssCheck .. =>
    [.clk, .obj, .gran, .gn]
  | .timeMeasurement .. =>
    [.clk, .obj, .faults, .gran, .mons, .tb, .can]
  | .timeStep .. =>
    [.clk, .obj, .acc, .mode, .gran, .therm, .hal, .sheaf, .ctl, .net, .chaff, .fb, .tb, .pan, .mir]
  | .sourceLost .. | .ptpAnnounce .. | .announceReceiptTimeout .. =>
    [.clk, .obj, .faults, .gran, .tb, .can]
  | .holdoverEntry .. =>
    [.obj, .faults, .gran, .tb, .can]
  | .holdoverLimit .. | .leapSecondChange .. =>
    [.clk, .obj, .gran, .tb]
  | .referenceChange .. =>
    [.obj, .gran, .tb]
  | .ppsInEdge .. | .ppsOutPulse .. | .ptpSync .. =>
    [.clk, .tb]
  | .ptpEventForward .. | .ptpSyncTransmit .. | .ptpDelayReqTransmit .. =>
    [.tb]
  | .transmitTimestamp .. =>
    [.obj, .tb]
  | .halurTimeMeasurement .. =>
    [.clk, .obj, .faults, .gran, .mons, .st, .hal, .tb, .can]
  | .canReferenceMessage .. | .busOffRecoveryStart .. | .bitRateCandidate .. =>
    [.can]
  | .halurFastFrame .. =>
    Part.all.filter fun p => ! [.free, .res, .husk, .sheaf, .win, .obs, .io, .gn].contains p
  | .halurFullFrame .. =>
    [.clk, .obj, .force, .faults, .acc, .gran, .st, .hal, .mir, .can]
  | .leadLossDeclaration .. | .mirrorDegraded .. =>
    [.obj, .faults, .gran, .hal, .can]
  | .claim .. | .yield .. | .stopNotice .. | .joinRequest .. | .bulkFrame .. | .bulkAcknowledgement .. =>
    [.obj, .force, .faults, .acc, .gran, .st, .hal, .mir, .can]
  | .takeLead .. | .election .. =>
    [.obj, .force, .faults, .acc, .mode, .gran, .st, .hal, .ctl, .io, .tb, .mir, .can]
  | .bulkTransferTimeout .. =>
    [.obj, .acc, .gran, .can]
  | .panicleRequest .. =>
    [.obj, .force, .faults, .acc, .gran, .st, .hal, .pan, .mir, .can]
  | .halurPortChange .. =>
    [.obj, .gran, .hal]
  | .halurDegraded .. =>
    [.obj, .faults, .gran, .hal, .tb, .can]
  | .phyLinkChange .. =>
    [.obj, .gran, .net]
  | .kppFrame .. =>
    [.obj, .faults, .gran, .mons, .hal, .sheaf, .ctl, .net, .can]
  | .kppQueue .. =>
    [.net]
  | .kppWindowClose .. | .networkLost .. | .networkRestored .. | .nodeLost .. =>
    [.obj, .faults, .gran, .net, .can]
  | .publishedRecordSend .. =>
    [.free, .net]
  | .leadOffFieldPath .. =>
    [.obj, .faults, .gran, .hal, .net, .can]
  | .kdpConnection .. | .kdpIdleTimeout .. | .kdpConnectionClosed .. =>
    [.clk, .obj, .acc, .gran]
  | .kdpRead .. | .kdpWrite .. | .kdpWholeRecordRead .. | .kdpKeepalive .. | .sdoInitiate .. | .sdoSegment .. |
  .sdoBlockSegment .. =>
    Part.all.filter fun p => ! [.therm, .sheaf, .win, .ctl, .net, .chaff, .mir].contains p
  | .canFrameReceived .. | .rpdoReceived .. =>
    [.obj, .force, .faults, .gran, .hal, .can]
  | .canTransmitDone .. =>
    [.obj, .faults, .gran, .mons, .can]
  | .sdoTransferTimeout .. =>
    [.clk, .obj, .gran, .can]
  | .tpdoEventTimer .. | .producerHeartbeat .. =>
    [.clk, .can]
  | .consumerHeartbeatLoss .. =>
    [.obj, .gran, .can]
  | .nmtCommand .. =>
    []
  | .tamper .. =>
    [.obj, .faults, .gran, .husk, .can]
  | .levelRaised .. | .levelLowered .. =>
    [.obj, .faults, .gran, .therm, .mons, .can]
  | .heatLimitExceeded .. | .strapCheck .. =>
    [.obj, .faults, .gran, .st, .can]
  | .caseSensorRestore .. =>
    [.faults, .therm, .can]
  | .monitorWindowEnd .. =>
    [.res, .faults, .mons, .can]
  | .wakeSource .. =>
    [.obj, .gran, .st]
  | .startUpStage .. =>
    Part.all.filter fun p => ! [.res, .mons, .win, .io, .gn, .tb, .mir].contains p
  | .repeatableSelfTest .. =>
    [.obj, .force, .faults, .gran, .st, .can]
  | .resetNLow .. =>
    [.obj, .acc, .gran, .st, .hal, .io]
  | .vinFalling .. =>
    [.obj, .faults, .acc, .gran, .st, .hal, .io, .pan, .can]
  | .recoveryImage .. | .tamperEnded .. =>
    [.husk]
  | .romRetry .. =>
    [.clk, .st]

/-- `n` steps from a state, each answering a next state; none where a step stops. -/
def run : Nat → State → Option State
  | 0, s => some s
  | n + 1, s => match step s with
    | .next t => run n t
    | _ => none

end Sys2Proof.Machine
end

