-- ==== Sys2Proof/Certificates/Slice0/Obligations.lean ====
section
/-! DEFINITION. The statements for the provers. -/
open Sys2Proof Sys2Proof.Machine

/-! The whole machine. -/

/-- A step runs the command at the front of the queue on the unit with the rest of the queue; on an empty queue the unit
idles (log 61, the model's choice). -/
def Obligations.StepTakesFrontCommand : Prop :=
  (∀ (s : State) (c : Instr) (rest : List Instr), s.pending = c :: rest →
    step s = exec c { s with pending := rest }) ∧
  (∀ s : State, s.pending = [] → step s = .next s)

/-- The state right after reset meets the invariant. -/
def Obligations.ResetMeetsInvariant : Prop := State.reset.Inv

/-- The invariant holds after every step that starts where it holds: well-formed commands wait, both object stores are in
canonical form with no entry at its default, and the mode manager is one that Table 3-1 allows. -/
def Obligations.StepKeepsInvariant : Prop :=
  ∀ s t : State, s.Inv → step s = .next t → t.Inv

/-- Every command within the bounds of its operands is carried through: it answers a next state, and leaves the commands
behind it as they wait. -/
def Obligations.EveryCommandCompletes : Prop :=
  ∀ (c : Instr) (s : State), c.wf = true → ∃ t, exec c s = .next t ∧ t.pending = s.pending

/-- The frame of every command: of the parts of the unit it changes none but its own (`touches`), and the queue of waiting
commands stays as it is. -/
def Obligations.FrameOfEveryCommand : Prop :=
  ∀ (c : Instr) (s t : State), c.wf = true → exec c s = .next t →
    t.pending = s.pending ∧ ∀ p : Part, p ∉ touches c → p.same s t

/-- What reset leaves: start-up stage 1 of a cold start by VIN (log 9, the model's choice), every object at its default in
what a client reads and in what the unit uses, no result published, no fault in force, no event waiting, no role held. -/
def Obligations.ResetState : Prop :=
  State.reset.pending = [] ∧ State.reset.st.power = .starting 1 ∧ State.reset.st.cause = 1 ∧
  (∀ i j, State.reset.objV i j = dfltAt (okey i j) ∧ State.reset.cfgV i j = dfltAt (okey i j)) ∧
  (∀ i, (State.reset.result i).status = 0) ∧ State.reset.faults = [] ∧ State.reset.gran.queue = [] ∧
  State.reset.st.role = 3 ∧ State.reset.mode.mode = 0

/-! Access to the dictionary (chapter 02). -/

/-- Writing an object in a store in canonical form: it reads what was written, and every other object reads as before. -/
def Obligations.ObjectReadsWhatWasWritten : Prop :=
  ∀ (s : State) (i j : Nat) (v : Val), s.storesOk = true →
    (s.putObj i j v).objV i j = v ∧ (s.putBoth i j v).objV i j = v ∧ (s.putBoth i j v).cfgV i j = v ∧
    ∀ i' j', okey i' j' ≠ okey i j →
      (s.putObj i j v).objV i' j' = s.objV i' j' ∧ (s.putBoth i j v).objV i' j' = s.objV i' j' ∧
      (s.putBoth i j v).cfgV i' j' = s.cfgV i' j'

/-- A write on a running unit is tested in the order of R577, and the first failing test answers. Nothing else changes, but
that step 6 records event 0102h. -/
def Obligations.WriteAnswersFirstFailingTest : Prop :=
  ∀ (c : Instr) (p : Path) (i j : Nat) (b : List Byte) (s : State), writeOf c = some (p, i, j, b) → s.up = true →
    -- 1: the object and subindex exist
    (∀ a, s.existsAbort i j = a → a ≠ 0 → exec c s = .next (s.answer a)) ∧
    -- 2: the access class permits a write
    (s.existsAbort i j = 0 → (∀ r, findRow i j = some r → State.rowWrites r = false) →
      exec c s = .next (s.answer 0x06010002)) ∧
    -- 3: the path, the session's role, the tamper state and the unit's role permit it
    (∀ r, s.existsAbort i j = 0 → findRow i j = some r → State.rowWrites r = true → s.permits p i j r = false →
      exec c s = .next (s.answer (s.accessAbort p i j))) ∧
    -- 4: the length matches
    (∀ r, s.reaches p i j r → lengthAbort r b ≠ 0 → exec c s = .next (s.answer (lengthAbort r b))) ∧
    -- 5: the value lies in its range; a bit timing answers otherwise (R478)
    (∀ r, s.reaches p i j r → lengthAbort r b = 0 → rangeAbort r (decodeVal r.ty b) ≠ 0 →
      ¬(0x4200 ≤ i ∧ i ≤ 0x4203 ∧ 3 ≤ j ∧ j ≤ 0x0A) →
      exec c s = .next (s.answer (rangeAbort r (decodeVal r.ty b)))) ∧
    -- 6: the present mode permits it
    (∀ r, s.reaches p i j r → lengthAbort r b = 0 → rangeAbort r (decodeVal r.ty b) = 0 → State.isCommand i = false →
      r.acc = .rwm → bit r.modes s.mode.mode = false →
      ∃ u, s.Noted u 0x0102 0 [okey i j, s.mode.mode, (s.roleOf p).code, 0] ∧ exec c s = .next (u.answer 0x08000022)) ∧
    -- 7: no store or load is in progress
    (∀ r, s.reaches p i j r → lengthAbort r b = 0 → rangeAbort r (decodeVal r.ty b) = 0 →
      (r.acc = .rwm → bit r.modes s.mode.mode = true) → s.storing = true → i = 0x1010 ∨ i = 0x1011 ∨ i = 0x2010 →
      exec c s = .next (s.answer 0x08000106))

/-- A pair-shared object is written on the Lead alone (R40): another unit answers such a write with an abort, 0800 0104h where
the tests before it pass, and nothing changes but the answer. -/
def Obligations.SharedWriteOnlyOnLead : Prop :=
  ∀ (c : Instr) (p : Path) (i j : Nat) (b : List Byte) (r : Row) (s : State), writeOf c = some (p, i, j, b) → s.up = true →
    s.st.role ≠ 0 → findRow i j = some r → r.loc = false →
    (∃ a, a ≠ 0 ∧ exec c s = .next (s.answer a)) ∧
    (s.existsAbort i j = 0 → State.rowWrites r = true → State.mayWrite (s.roleOf p) i j = true → s.husk.limited = false →
      (∀ k u, p ≠ .mirror k u) → exec c s = .next (s.answer 0x08000104))

/-- A write that passes every test of R577 and its object's own rules is taken; a pair-shared DOMAIN on a Lead with
partners first goes to them, and its answer is withheld (R447). -/
def Obligations.AcceptedWriteTakesValue : Prop :=
  ∀ (c : Instr) (p : Path) (i j : Nat) (b : List Byte) (s : State) (r : Row) (v : Val),
    writeOf c = some (p, i, j, b) → s.up = true → s.storesOk = true →
    s.writeTests p i j b = .ok (r, v) → s.ruleAll p i j v = .store →
    (s.needsBulk r = false → ∃ t, exec c s = .next t ∧ s.Taken t r i j v) ∧
    (s.needsBulk r = true → ∃ t, exec c s = .next t ∧ t.acc.answer = ⟨0xFFFFFFFF, []⟩ ∧
      t.acc.bulk = s.acc.bulk ++ [⟨okey i j, v.asBytes, p, none, s.joined.map fun u => (u, List.range (State.fragCount v.asBytes.length)),
        s.clk.frame, []⟩] ∧
      t.obj = s.obj ∧ t.force = s.force ∧ t.acc.fresh = s.acc.fresh)

/-- Mode and action commands by their sequence number (R72), from a write that passes R577. A new one is accepted if it is an
action or its transition and guards hold (R68): it waits for the f0 of R74, and the mode in force stays. A new mode command
that fails R68 answers as R78 says. The last accepted word again is confirmed and does nothing; another word of the same
number aborts with 0800 0107h, and an older number with 0800 0108h and event 0108h. -/
def Obligations.CommandSequenceRule : Prop :=
  ∀ (c : Instr) (i : Nat) (v : Val) (s : State), s.passes c i 0 v → State.isCommand i = true → s.storesOk = true →
    let w := v.asNat
    let seq := w / 65536
    let isMode := i == 0x2201
    let last := s.objU 0x2202 1
    let unset := bit (s.objU 0x2202 5) 0 = false
    let d := (seq + 65536 - last) % 65536
    let reason := if isMode then s.modeReason (w % 8) (bit w 8) else 0
    (unset ∨ (1 ≤ d ∧ d ≤ 32767) → reason = 0 →
      ∃ t, exec c s = .next t ∧ t.acc.answer = ⟨0, []⟩ ∧ t.objU 0x2202 1 = seq ∧ t.objU 0x2202 5 = 1 ∧ t.objU 0x2202 2 = 1 ∧
        t.mode = { s.mode with lastWord := w, lastIsMode := isMode, cmds := s.mode.cmds ++ [{ word := w, isMode := isMode, due := s.sharedDue }] } ∧
        { t with obj := s.obj, force := s.force, mode := s.mode, acc := s.acc } = s) ∧
    (unset ∨ (1 ≤ d ∧ d ≤ 32767) → reason ≠ 0 →
      ∃ t, exec c s = .next t ∧ t.acc.answer = ⟨0x08000022, []⟩ ∧ t.objU 0x2202 3 = seq ∧ t.objU 0x2202 4 = reason ∧
        t.objU 0x2202 1 = last ∧ t.mode = s.mode ∧ (s.records = true → t.newest 0x0103 0 [])) ∧
    (¬unset → d = 0 → w = s.mode.lastWord ∧ isMode = s.mode.lastIsMode →
      ∃ t, exec c s = .next t ∧ t.acc.answer = ⟨0, []⟩ ∧ { t with obj := s.obj, acc := s.acc } = s ∧
        (∀ k, k ≠ okey 0x2202 2 → getV t.obj k = getV s.obj k)) ∧
    (¬unset → d = 0 → ¬(w = s.mode.lastWord ∧ isMode = s.mode.lastIsMode) → exec c s = .next (s.answer 0x08000107)) ∧
    (¬unset → 32767 < d → ∃ u, s.Noted u 0x0108 0 [] ∧ exec c s = .next (u.answer 0x08000108))

/-- A new mode command that fails R68 (R78): it aborts with 0800 0022h and records event 0103h, its sequence number and the
reason stand at 2202h:03h and 04h, and the last accepted number stays. -/
def Obligations.RefusedModeCommandAnswers : Prop :=
  ∀ (c : Instr) (v : Val) (s : State), s.passes c 0x2201 0 v → s.storesOk = true →
    let seq := v.asNat / 65536
    let d := (seq + 65536 - s.objU 0x2202 1) % 65536
    let reason := s.modeReason (v.asNat % 8) (bit v.asNat 8)
    bit (s.objU 0x2202 5) 0 = false ∨ (1 ≤ d ∧ d ≤ 32767) → reason ≠ 0 →
    ∃ t, exec c s = .next t ∧ t.acc.answer = ⟨0x08000022, []⟩ ∧ t.objU 0x2202 3 = seq ∧ t.objU 0x2202 4 = reason ∧
      t.objU 0x2202 1 = s.objU 0x2202 1 ∧ (s.records = true → t.newest 0x0103 0 [])

/-- Store and restore (R44-R46): the right word begins the store, or marks the area; any other word aborts with 0800 0020h
and changes nothing. A store that ends leaves a good copy that is the newest and holds the present value of every object of
its area. -/
def Obligations.StoresAndRestores : Prop :=
  (∀ (p : Path) (j : Nat) (b : List Byte) (v : Val) (s : State), s.passes (.storeParameters p j b) 0x1010 j v →
    (v.asNat = 0x65766173 → ∃ t, exec (.storeParameters p j b) s = .next t ∧ t.acc.answer = ⟨0, []⟩ ∧
      t.acc.store = some (j, s.clk.time) ∧ { t with acc := s.acc } = s) ∧
    (v.asNat ≠ 0x65766173 → exec (.storeParameters p j b) s = .next (s.answer 0x08000020))) ∧
  (∀ (p : Path) (j : Nat) (b : List Byte) (v : Val) (s : State), s.passes (.restoreDefaults p j b) 0x1011 j v →
    (v.asNat = 0x64616F6C → exec (.restoreDefaults p j b) s =
      .next (State.answer { s with acc := { s.acc with marks := setBit s.acc.marks (j - 1) true } } 0)) ∧
    (v.asNat ≠ 0x64616F6C → exec (.restoreDefaults p j b) s = .next (s.answer 0x08000020))) ∧
  (∀ (s : State) (area start : Nat), s.acc.store = some (area, start) → (∀ c, s.newestCopy = some c → storeOk c.vals = true) →
    ∃ t c, exec .storeComplete s = .next t ∧ t.acc.store = none ∧ t.newestCopy = some c ∧ c.valid = true ∧
      (∀ k, k ∈ s.storeArea area → getV c.vals k = getV s.obj k) ∧ { t with acc := s.acc } = s) ∧
  (∀ s : State, s.acc.store = none → exec .storeComplete s = .next s)

/-- A result is published in a second buffer, which becomes the readable one when its frame ends (R52). A read of subindex 01h
of a result latches the readable buffer for the session (R55); every result object of the part is read so. The latch ends 2 s
after that read. -/
def Obligations.ResultReadLatches : Prop :=
  (∀ (i : Nat) (l : List Val) (s : State), s.Filled (s.publishEnd i l) i ∧
    ((s.publishEnd i l).exchange).result i = ⟨s.clk.sample, s.clk.epoch, 0x80, l⟩ ∧
    (∀ j, j ≠ i → s.KeepsResult (s.publishEnd i l) j)) ∧
  (∀ (i : Nat) (s : State), (tget {} s.res i).back = none → s.exchange.result i = s.result i) ∧
  (∀ (p : Path) (i : Nat) (r : ResRow) (s : State), s.up = true → findRes i = some r → s.existsAbort i 1 = 0 →
    ∃ t, exec (.resultSampleRead p i) s = .next t ∧ t.acc.answer = ⟨0, natLe 4 (s.result i).sample⟩ ∧
      (t.session p).latch = some (i, s.result i, s.clk.time) ∧ (∀ q, State.sessKey q ≠ State.sessKey p → t.session q = s.session q) ∧
      { t with acc := s.acc } = s) ∧
  (∀ (p : Path) (now i t0 : Nat) (x : ResBuf) (s : State), (s.session p).latch = some (i, x, t0) →
    ∃ t, exec (.resultLatchTimeout p now) s = .next t ∧ t.clk = { s.clk with time := max s.clk.time now } ∧
      (t0 + 2000000000 ≤ max s.clk.time now → (t.session p).latch = none) ∧
      (max s.clk.time now < t0 + 2000000000 → t.acc = s.acc) ∧ { t with acc := s.acc, clk := s.clk } = s)

/-- A read of sticky flags returns them and clears exactly those it returned (R197); subindex 00h and a subindex that does
not exist clear nothing. -/
def Obligations.StickyReadClears : Prop :=
  ∀ (c : Instr) (p : Path) (i j : Nat) (s : State), stickyOf c = some (p, i, j) → s.up = true →
    (∀ r, s.existsAbort i j = 0 → findRow i j = some r → s.storesOk = true →
      ∃ t, exec c s = .next t ∧ t.acc.answer = ⟨0, encodeVal r.ty (s.objV i j)⟩ ∧ t.objV i j = .u 0 ∧
        (∀ k, k ≠ okey i j → getV t.obj k = getV s.obj k) ∧ { t with obj := s.obj, acc := s.acc } = s) ∧
    (s.existsAbort i j = 0 → findRow i j = none → exec c s = .next (s.answer 0 (natLe 1 ((highestSub i).getD 0)))) ∧
    (s.existsAbort i j ≠ 0 → exec c s = .next (s.answer (s.existsAbort i j)))

/-! Writes that act (chapters 05, 07, 12 to 22): the command passes the tests of R577. -/

/-- Commands that order a restart or hand the Lead over. A restart by 2020h (R531) is ordered with its kind, once event 000Ah
is recorded; one of Panicle (R432) waits for its f0 as a pair-shared write does; a unit that the Lead names and can hand to
is to receive the Yield in f(N-1) (R458), any other is refused with 0609 0030h. -/
def Obligations.RestartAndHandOverCommands : Prop :=
  (∀ (p : Path) (v : Val) (s : State), s.passes (.restartWarmCommand p) 0x2020 0 v →
    ∃ t, exec (.restartWarmCommand p) s = .next t ∧ t.acc.answer = ⟨0, []⟩ ∧
      t.st = { s.st with ordered := some 1, handing := false } ∧
      (s.records = true → t.newest 0x000A 0 [1, (s.roleOf p).code])) ∧
  (∀ (p : Path) (v : Val) (s : State), s.passes (.restartColdCommand p) 0x2020 0 v →
    ∃ t, exec (.restartColdCommand p) s = .next t ∧ t.acc.answer = ⟨0, []⟩ ∧
      t.st = { s.st with ordered := some 2, handing := false } ∧
      (s.records = true → t.newest 0x000A 0 [2, (s.roleOf p).code])) ∧
  (∀ (p : Path) (v : Val) (s : State), s.passes (.panicleRestartWarm p) 0x3C03 0 v →
    ∃ t, exec (.panicleRestartWarm p) s = .next t ∧ t.acc.answer = ⟨0, []⟩ ∧
      t.acc.fresh = s.acc.fresh ++ [⟨okey 0x3C03 0, .u 1, s.sharedDue⟩] ∧ { t with acc := s.acc } = s) ∧
  (∀ (p : Path) (v : Val) (s : State), s.passes (.panicleRestartCold p) 0x3C03 0 v →
    ∃ t, exec (.panicleRestartCold p) s = .next t ∧ t.acc.answer = ⟨0, []⟩ ∧
      t.acc.fresh = s.acc.fresh ++ [⟨okey 0x3C03 0, .u 2, s.sharedDue⟩] ∧ { t with acc := s.acc } = s) ∧
  (∀ (p : Path) (b : List Byte) (v : Val) (s : State), s.passes (.handLeadToUnit p b) 0x3E20 0 v →
    let u := v.asNat
    let can := u ≠ s.st.unitId ∧ (s.unit u).joined = true ∧ s.gone u = false ∧ (s.unit u).mirrorDeg = false
    (can → exec (.handLeadToUnit p b) s =
      .next ((s.setHal { s.hal with yield := some (u, s.sharedDue - 1) }).answer 0)) ∧
    (¬can → exec (.handLeadToUnit p b) s = .next (s.answer 0x06090030)))

/-- Commands of the operator to the observer, the reference selection, the integrity monitor, the snapshots, a refused time
source, a serial port, a compare and a CAN controller, each carried out at once. -/
def Obligations.ActingWrites : Prop :=
  -- OBSERVER_RESET
  (∀ (p : Path) (b : List Byte) (v : Val) (s : State), s.passes (.observerReset p b) 0x2A10 1 v → v.asNat = 1 →
    exec (.observerReset p b) s = .next (State.answer { s with obs := { s.obs with reset := true } } 0)) ∧
  -- REFERENCE_SELECTION: the words change as accepted
  (∀ (p : Path) (j : Nat) (b : List Byte) (v : Val) (s : State), s.passes (.referenceSelection p j b) 0x2240 j v →
    s.storesOk = true → ∃ t, exec (.referenceSelection p j b) s = .next t ∧ t.acc.answer = ⟨0, []⟩ ∧ t.objV 0x2240 j = v) ∧
  -- SPOOFING_CLEAR
  (∀ (p : Path) (b : List Byte) (v : Val) (s : State), s.passes (.spoofingClear p b) 0x3611 0 v → v.asNat = 1 →
    let early := s.clk.time < s.gn.lastPair + State.ns (s.cfgR 0x3610 0x0D) ∧ s.gn.lastPair ≠ 0
    (¬early → exec (.spoofingClear p b) s = .next ((s.setGn { s.gn with clearReq := true }).answer 0)) ∧
    (early → exec (.spoofingClear p b) s = .next (s.answer 0x08000022))) ∧
  -- ARCHIVE_SELECTED, KEEP_SELECTED: the snapshot that 3621h:01h selects
  (∀ (p : Path) (b : List Byte) (v : Val) (x : Snap) (s : State), s.passes (.archiveSelected p b) 0x3621 3 v →
    tfind s.gn.snaps (s.cfgU 0x3621 1) = some x → exec (.archiveSelected p b) s =
      .next ((s.setGn { s.gn with snaps := tset s.gn.snaps (s.cfgU 0x3621 1) { x with await := decide (v.asNat = 1) } }).answer 0)) ∧
  (∀ (p : Path) (b : List Byte) (v : Val) (x : Snap) (s : State), s.passes (.keepSelected p b) 0x3621 4 v →
    tfind s.gn.snaps (s.cfgU 0x3621 1) = some x → exec (.keepSelected p b) s =
      .next ((s.setGn { s.gn with snaps := tset s.gn.snaps (s.cfgU 0x3621 1) { x with keep := decide (v.asNat = 1) } }).answer 0)) ∧
  -- SNAPSHOT_CAPTURE_COMMAND: an empty slot takes it (R329)
  (∀ (p : Path) (b : List Byte) (v : Val) (k : Nat) (s : State), s.passes (.snapshotCaptureCommand p b) 0x3620 1 v →
    v.asNat = 1 → s.gnOn = true → (List.range 64).find? (fun k => (tfind s.gn.snaps k).isNone) = some k →
    ∃ t x, exec (.snapshotCaptureCommand p b) s = .next t ∧ t.acc.answer = ⟨0, []⟩ ∧ tfind t.gn.snaps k = some x ∧
      x.seq = s.gn.snapSeq ∧ x.cause = 2 ∧ x.trigger = s.clk.bound ∧ x.ms = s.cfgU 0x3620 2 ∧ x.ports = s.cfgU 0x3620 4 ∧
      t.gn.snapSeq = (s.gn.snapSeq + 1) % 2 ^ 32 ∧ (s.records = true → t.newest 0x0B0F 0 [s.gn.snapSeq, 2]) ∧
      (∀ j, j ≠ k → tfind t.gn.snaps j = tfind s.gn.snaps j)) ∧
  -- ACCEPT_JUMP: the refused source of lowest number is refused no longer; with none, nothing happens
  (∀ (p : Path) (b : List Byte) (v : Val) (s : State), s.passes (.acceptJump p b) 0x3802 0 v → v.asNat = 1 →
    (∀ e, (List.range 8).find? (fun e => s.srcOn e && (s.src e).refused) = some e →
      ∃ t, exec (.acceptJump p b) s = .next t ∧ t.acc.answer = ⟨0, []⟩ ∧ (t.src e).refused = false) ∧
    ((List.range 8).find? (fun e => s.srcOn e && (s.src e).refused) = none →
      exec (.acceptJump p b) s = .next (s.answer 0))) ∧
  -- SERIAL_TRANSMIT: a port that is enabled, not in line mode 0 and idle takes the octets (R386, log 37)
  (∀ (p : Path) (n : Nat) (b : List Byte) (v : Val) (s : State), s.passes (.serialTransmit p n b) (0x4420 + n) 0 v →
    let can := s.cfgU (0x4400 + n) 1 ≠ 0 ∧ s.cfgU (0x4400 + n) 4 ≠ 0 ∧ (s.serial n).tx = none
    (can → exec (.serialTransmit p n b) s =
      .next ((s.setSerial n { s.serial n with tx := some v.asBytes }).answer 0)) ∧
    (¬can → exec (.serialTransmit p n b) s = .next (s.answer 0x08000020))) ∧
  -- CAN_RESTART: both counters at 0, no longer held off or bus-off, its faults lowered (R488)
  (∀ (p : Path) (c : Nat) (b : List Byte) (v : Val) (s : State), s.passes (.canRestart p c b) (0x4200 + c) 0x0D v → v.asNat = 1 →
    ∃ t, exec (.canRestart p c b) s = .next t ∧ t.acc.answer = ⟨0, []⟩ ∧ (t.canC c).tec = 0 ∧ (t.canC c).rec' = 0 ∧
      (t.canC c).held = false ∧ (t.canC c).off = false ∧ (t.canC c).recovering = false ∧ (t.canC c).passive = false ∧
      t.faultIs 0x1107 c = false ∧ t.faultIs 0x1103 c = false ∧ t.faultIs 0x1102 c = false ∧
      { t with can := s.can, faults := s.faults, acc := s.acc } = s)

/-- Owner CA, revocation list, firmware slots, anti-rollback counter and tamper limitation (R512-R515). What a signature
decides stands in the conclusion: the verdict is that of Config's opaque checks. -/
def Obligations.IdentityAndFirmwareWrites : Prop :=
  -- OWNER_CA_ENROLMENT: the first one, or one in a session whose certificate chains to it
  (∀ (p : Path) (b : List Byte) (v : Val) (s : State), s.passes (.ownerCaEnrolment p b) 0x4810 0 v → s.storesOk = true →
    (s.objD 0x4810 0 = [] ∨ (s.session p).owner = true → ∃ t, exec (.ownerCaEnrolment p b) s = .next t ∧
      t.acc.answer = ⟨0, []⟩ ∧ t.objV 0x4810 0 = v) ∧
    (s.objD 0x4810 0 ≠ [] → (s.session p).owner = false → exec (.ownerCaEnrolment p b) s = .next (s.answer 0x08000101))) ∧
  -- REVOCATION_LIST_LOAD: signed by the enrolled owner CA
  (∀ (p : Path) (b : List Byte) (v : Val) (s : State), s.passes (.revocationListLoad p b) 0x4811 0 v → s.storesOk = true →
    ∃ t, exec (.revocationListLoad p b) s = .next t ∧
      (s.objD 0x4810 0 ≠ [] ∧ Config.crlSignedBy v.asBytes (s.objD 0x4810 0) = true →
        t.acc.answer = ⟨0, []⟩ ∧ t.objV 0x4811 0 = v) ∧
      (¬(s.objD 0x4810 0 ≠ [] ∧ Config.crlSignedBy v.asBytes (s.objD 0x4810 0) = true) → t = s.answer 0x08000102)) ∧
  -- FIRMWARE_SLOT_WRITE: never the running slot, and only an image that passes every check of R513
  (∀ (p : Path) (k : Nat) (b : List Byte) (v : Val) (s : State), s.passes (.firmwareSlotWrite p k b) 0x4821 (k + 1) v →
    ∃ t, exec (.firmwareSlotWrite p k b) s = .next t ∧
      (k ≠ s.st.slot ∧ s.imageBad v.asBytes = 0 → t.acc.answer = ⟨0, []⟩ ∧ t.slotImage k = some (State.parseImage v.asBytes) ∧
        t.slotImage (1 - k) = s.slotImage (1 - k) ∧
        (s.records = true → t.newest 0x1404 0 [k, (State.parseImage v.asBytes).version])) ∧
      (¬(k ≠ s.st.slot ∧ s.imageBad v.asBytes = 0) → t.acc.answer = ⟨0x08000102, []⟩ ∧ t.husk = s.husk)) ∧
  -- ANTI_ROLLBACK_COMMIT: the counter rises to the running slot's security version and never falls
  (∀ (p : Path) (b : List Byte) (v : Val) (s : State), s.passes (.antiRollbackCommit p b) 0x4820 4 v → s.storesOk = true →
    let n := max (s.objU 0x4820 3) ((s.slotImage s.st.slot).map (·.security) |>.getD 0)
    ∃ t, exec (.antiRollbackCommit p b) s = .next t ∧ t.acc.answer = ⟨0, []⟩ ∧ t.objU 0x4820 3 = n ∧
      (s.records = true → t.newest 0x1406 0 [n])) ∧
  -- TAMPER_CLEAR: an Auditor's 1 ends the limitation
  (∀ (p : Path) (b : List Byte) (v : Val) (s : State), s.passes (.tamperClear p b) 0x4830 2 v → v.asNat = 1 →
    ∃ t, exec (.tamperClear p b) s = .next t ∧ t.acc.answer = ⟨0, []⟩ ∧
      t.husk = { s.husk with limited := false, latched := none } ∧ t.faultIs 0x1407 0 = false ∧ t.faultIs 0x1408 0 = false ∧
      (s.records = true → t.newest 0x1409 0 [])) ∧
  -- TAMPER, TAMPER_ENDED: the input's state; a tamper limits the unit where 4830h:01h says so, and is latched without VIN
  (∀ s : State, ∃ t, exec .tamper s = .next t ∧ t.husk.tamper = true ∧
    (s.st.power = .off ∨ s.st.power = .reset → t = { s with husk := { s.husk with
      tamper := true, latched := some s.clk.time, told := false } }) ∧
    (s.st.power ≠ .off → s.st.power ≠ .reset → t.husk.limited = (s.husk.limited || decide (s.cfgU 0x4830 1 = 1)) ∧
      Flt.mk 0x1407 0 (if s.cfgU 0x4830 1 = 1 then 1 else 0) ∈ t.faults ∧
      (s.records = true → t.newest 0x1407 (if s.cfgU 0x4830 1 = 1 then 1 else 0) []))) ∧
  (∀ s : State, exec .tamperEnded s = .next { s with husk := { s.husk with tamper := false } })

/-- A clearing token (R505, R506, Table 20-3). A token that does not fit the unit, repeats another challenge, is not signed by
an Auditor, reaches beyond the newest record or finds the register full is refused with its reason in event 1307h; a good
one is entered in the register and its clear begins. Every token is answered with a new challenge in 4630h:01h. -/
def Obligations.ClearingTokenRule : Prop :=
  ∀ (p : Path) (b : List Byte) (v : Val) (s : State), s.passes (.clearingToken p b) 0x4630 2 v → s.storesOk = true →
    let k := v.asBytes
    let n := leAt k 56 2
    let q := leAt k 24 4
    let kid := slice k 36 20
    let fits := 58 ≤ k.length ∧ slice k 0 4 = ascii "KGCT" ∧ leAt k 4 2 = 1 ∧ leAt k 6 2 = 0 ∧
      leAt k 8 4 = s.objU 0x1018 2 ∧ leAt k 12 4 = s.objU 0x1018 4
    let fresh := leAt k 16 8 = s.gran.challenge
    let c := s.certOk 3 kid
    let signed := c.1 = true ∧ n ≤ 104 ∧ k.length = 58 + n ∧
      Config.ecdsaVerify (Config.publicKey kid) (k.take 56) (slice k 58 n) = true
    let reached := State.notAfter q ((c.2.gran.next + 2 ^ 32 - 1) % 2 ^ 32) = true
    let room := s.gran.reg.length < 256
    ∃ t, exec (.clearingToken p b) s = .next t ∧ t.objU 0x4630 1 = t.gran.challenge ∧
      (fits ∧ fresh ∧ signed ∧ reached ∧ room → t.acc.answer = ⟨0, []⟩ ∧ t.gran.clearing = some q ∧
        ∃ e, t.gran.reg = s.gran.reg ++ [e] ∧ e.seq = q ∧ e.time = s.clk.time ∧ e.signer = kid) ∧
      (¬(fits ∧ fresh ∧ signed ∧ reached ∧ room) → t.acc.answer = ⟨0x08000102, []⟩ ∧ t.gran.reg = s.gran.reg ∧
        t.gran.clearing = s.gran.clearing) ∧
      (s.records = true → ¬fits → t.newest 0x1307 0 [1]) ∧ (s.records = true → fits → ¬fresh → t.newest 0x1307 0 [2])

/-- The event store (R500-R504). A page that falls due goes to NAND in order, each record linked to the CRC of the one before,
and leaves the queue; its erase block is set aside here. A signature block that completes takes its two reserved numbers in
the queue, with the unit's signature over the records it covers, before the records that follow it. A read returns the
records from the session's cursor on, and moves the cursor past them. -/
def Obligations.EventStoreKeepsOrder : Prop :=
  (∀ (worn : Option Nat) (s : State), s.st.power ≠ .off → s.st.power ≠ .reset → s.pageDue = true →
    s.gran.held.length + 32 ≤ State.storeSize →
    let page := s.writable.take 32
    ∃ t l, exec (.granaryPageWrite worn) s = .next t ∧ t.gran.queue = s.gran.queue.drop page.length ++ l ∧
      t.gran.held.map (fun r => { r with blk := 0 }) =
        (s.gran.held ++ State.sealed s.gran.lastCrc page).map (fun r => { r with blk := 0 })) ∧
  (∀ (j : SigJob) (s : State), s.st.power ≠ .off → s.st.power ≠ .reset → s.gran.sig = some j → s.gran.clearing = none →
    ∃ t a b, exec .signatureBlockComplete s = .next t ∧ t.gran.sig = none ∧ t.gran.cover = (j.seq + 2) % 2 ^ 32 ∧
      t.gran.queue = s.writable ++ [a, b] ++ s.gran.queue.drop s.writable.length ∧
      a.code = 0x1301 ∧ a.seq = j.seq ∧ b.code = 0x1302 ∧ b.seq = (j.seq + 1) % 2 ^ 32 ∧
      a.sig ++ b.sig = Config.unitSign (Config.sha384 ((s.covered j.seq).map (·.bytes)).flatten) ∧
      { t with gran := s.gran } = s) ∧
  (∀ (p : Path) (s : State), s.up = true → let l := s.granFrom p
    ∃ t, exec (.granaryRead p) s = .next t ∧ t.acc.answer = ⟨0, (l.map (·.bytes)).flatten⟩ ∧
      (t.session p).cursor = (match l.getLast? with
        | some r => some ((r.seq + 1) % 2 ^ 32)
        | none => (s.session p).cursor) ∧ t.gran = s.gran)


/-! The stages of a sample (chapters 04, 05, 07 to 11). -/

/-- Each stage that runs in its frame publishes its results for the sample in progress (R51, R102, R134, R174, R191, R223,
R240, R255, R280), readable when the frame ends (R52), and leaves every other
result as it is. The observer publishes unless a numeric fault stops the unit
(R180); Winnow uses only streams that Sheaf delivered, that nothing masks. -/
def Obligations.StagesPublish : Prop :=
  ∀ s : State, s.up = true →
    (s.fOff = 1 → let l := [0x2510, 0x2520, 0x2521, 0x2522, 0x2523]
      ∃ t, exec .sheafAlignment s = .next t ∧ t.sheaf.handed = true ∧ (∀ i ∈ l, s.Filled t i) ∧
        (∀ i, i ∉ l → s.KeepsResult t i) ∧ t.faultIs 0x0207 0 = false) ∧
    (s.fOff = 1 → let l := [0x2712, 0x2720, 0x2721, 0x2722, 0x2723, 0x2724, 0x2725, 0x2726]
      ∃ t, exec .winnowRun s = .next t ∧ t.win.handed = true ∧ (∀ i ∈ l, s.Filled t i) ∧
        (∀ i, i ∉ l → s.KeepsResult t i) ∧ t.faultIs 0x0307 0 = false ∧
        ∀ k, k < 256 → (s.stream k).cfg.isSome → (t.winS k).used = true →
          (t.stream k).al.isSome ∧ (t.winS k).masked = false ∧ 0 < (t.winS k).w) ∧
    (s.fOff = 2 → let l := [0x2A40, 0x2A41, 0x2A42, 0x2A43]
      ∃ t, exec .observerUpdate s = .next t ∧ (∀ i, i ∉ l → s.KeepsResult t i) ∧
        ((∀ i ∈ l, s.Filled t i) ∧ t.st = s.st ∧ t.faultIs 0x0507 0 = false ∨ t.Stops 0x0508)) ∧
    (s.fOff = 3 → let l := [0x2C40, 0x2C41, 0x2C42]
      ∃ t, exec .culmLaw s = .next t ∧ t.ctl.culm.published = true ∧ t.ctl.culm.held = false ∧ (∀ i ∈ l, s.Filled t i) ∧
        t.freshest 0x2C40 = ⟨s.clk.sample, s.clk.epoch, 0x80, t.ctl.culm.tau.map rv ++ (t.freshest 0x2C40).vals.drop 3⟩ ∧
        (∀ i, i ∉ l → s.KeepsResult t i) ∧ t.faultIs 0x0601 0 = false) ∧
    (s.fOff = 3 → let l := [0x3210, 0x3211]
      ∃ t, exec .stubbleLaw s = .next t ∧ t.ctl.stub.published = true ∧ (∀ i ∈ l, s.Filled t i) ∧
        (∀ i, i ∉ l → s.KeepsResult t i) ∧ t.faultIs 0x0905 0 = false) ∧
    (∀ sol, s.fOff = 7 → s.ctl.till.sol = some sol → let l := [0x2E40, 0x2E41, 0x2E42, 0x2E43]
      ∃ t a, exec .tillerPublish s = .next t ∧ t.ctl.till.sol = none ∧ t.ctl.till.last = some sol ∧
        t.ctl.till.out = some a ∧ a.sample = s.clk.sample ∧ (∀ i ∈ l, s.Filled t i) ∧
        (∀ i, i ∉ l → s.KeepsResult t i) ∧ t.faultIs 0x0701 0 = false) ∧
    (s.fOff + 1 = s.clk.n → let l := [0x3040, 0x3041, 0x3042, 0x3043]
      ∃ t, exec .caseSetPublish s = .next t ∧ (∀ i ∈ l, s.Filled t i) ∧ (∀ i, i ∉ l → s.KeepsResult t i) ∧
        t.ctl.stook.setDue = false) ∧
    (let l := [0x3440, 0x3441]
      ∃ t, exec .powerPlantModelRun s = .next t ∧ (∀ i ∈ l, s.Filled t i) ∧
        (∀ i, i ∉ l → s.KeepsResult t i) ∧ t.faultIs 0x0A0A 0 = false ∧
        (s.fOff = 3 → t.ctl.plant.f3 = t.ctl.plant.res))

/-- A stage that overruns: its results are marked stale, or held where the chain goes on with them (R54, Table 2-5), its
fault comes into force, its counter counts, and the overrun that completes the number of its rule within 100 samples
(R110, R135, R179, R206, R228) or 800 frames (R152, R204, R291) stops the unit. -/
def Obligations.StageOverruns : Prop :=
  ∀ s : State, s.up = true → s.storesOk = true →
    (s.fOff = 1 → let n := (s.overruns100 s.sheaf.overs).length
      ∃ t, exec .sheafOverrun s = .next t ∧ t.sheaf.handed = false ∧ (∀ k, (t.stream k).al = none) ∧
        (∀ i ∈ [0x2510, 0x2520, 0x2521, 0x2522, 0x2523], s.Marked t i 0x40) ∧ t.faultIs 0x0207 0 = true ∧
        s.Counts t 0x2501 6 ∧ (3 ≤ n → t.Stops 0x0207) ∧ (n < 3 → t.st = s.st)) ∧
    (s.fOff = 1 → let n := (s.overruns100 s.win.overs).length
      ∃ t, exec .winnowOverrun s = .next t ∧ t.win.handed = false ∧ t.win.streams = s.win.streams ∧
        (∀ i ∈ [0x2712, 0x2720, 0x2721, 0x2722, 0x2723, 0x2724, 0x2725, 0x2726], s.Marked t i 0x40) ∧
        t.faultIs 0x0307 0 = true ∧ s.Counts t 0x2710 1 ∧ (3 ≤ n → t.Stops 0x0307) ∧ (n < 3 → t.st = s.st)) ∧
    (s.fOff = 2 → let n := (s.overruns100 s.obs.overs).length
      ∃ t e, exec .observerOverrun s = .next t ∧ t.obs.missed = true ∧ t.obs.est = some e ∧ e.held = true ∧
        e.sample = s.clk.sample ∧ e.epoch = s.clk.epoch ∧
        (s.obs.missed = false → t.obs.core = s.obs.core) ∧ (s.obs.missed = true → t.obs.core = s.coreAhead none) ∧
        [e.n, e.e, e.psi, e.u, e.v, e.r] = (List.range 6).map (vget t.obs.core.x) ∧
        (∀ i ∈ [0x2A42, 0x2A43], s.Marked t i 0x40) ∧ (t.result 0x2A40).status = (s.result 0x2A40).status ||| 0x40 ∧ s.Marked t 0x2A41 0x60 ∧ t.faultIs 0x0507 0 = true ∧
        s.Counts t 0x2A50 1 ∧ (3 ≤ n → t.Stops 0x0507) ∧ (n < 3 → t.st = s.st)) ∧
    (∀ lane : Option (Nat × Nat), s.fOff = 3 → lane.isSome ∨ s.ctl.culm.published = false → s.ctl.culm.residue = false →
      let n := (s.overruns100 s.ctl.culm.overs).length
      ∃ t, exec (.culmLawOverrun lane) s = .next t ∧ t.ctl.culm.held = true ∧ t.ctl.culm.tau = s.ctl.culm.tau ∧
        s.Marked t 0x2C40 0x60 ∧ s.Marked t 0x2C41 0x40 ∧ s.Marked t 0x2C42 0x40 ∧ t.faultIs 0x0601 0 = true ∧
        t.ctl.culm.lastOver = some s.clk.sample ∧ (5 ≤ n → t.st.power = .stopped)) ∧
    -- a further lane that fails in the same sample is recorded and counts no second overrun (R205)
    (∀ lane : Nat × Nat, s.fOff = 3 → s.ctl.culm.residue = true →
      ∃ t, exec (.culmLawOverrun (some lane)) s = .next t ∧ t.ctl = s.ctl ∧ t.res = s.res ∧ t.faults = s.faults ∧
        s.Counts t 0x2C58 4 ∧ (s.records = true → t.newest 0x060B 0 [lane.1, lane.2])) ∧
    (s.fOff = 7 → s.tillerDone = false → let n := (s.overruns100 s.ctl.till.overs).length
      ∃ t, exec .tillerOverrun s = .next t ∧ t.ctl.till.held = true ∧ t.ctl.till.sol = none ∧ s.Marked t 0x2E40 0x60 ∧
        s.Marked t 0x2E42 0x40 ∧ s.Marked t 0x2E43 0x40 ∧ t.faultIs 0x0701 0 = true ∧
        t.ctl.till.lastOver = some s.clk.sample ∧ (5 ≤ n → t.st.power = .stopped)) ∧
    (∀ residue : Bool, s.fOff = 3 → residue = true ∨ s.ctl.stub.published = false →
      ∃ t, exec (.stubbleLost residue) s = .next t ∧ t.ctl.stub.lost = true ∧ t.ctl.stub.published = false ∧
        s.Marked t 0x3210 0x40 ∧ s.Marked t 0x3211 0x40 ∧
        (s.ctl.stub.core.driving = true ∨ s.ctl.stub.core.cause.isSome → t.Stops 0x0907) ∧
        (s.ctl.stub.core.driving = false → s.ctl.stub.core.cause = none → t.st = s.st ∧
          t.faultIs 0x0905 0 = true)) ∧
    (let n := (s.ctl.plant.overs.filter fun f => s.clk.frame < f + 800).length + 1
      ∃ t, exec .powerPlantModelOverrun s = .next t ∧ t.ctl.plant.res = s.ctl.plant.res ∧ t.ctl.plant.overNow = true ∧
        (s.fOff = 3 → t.ctl.plant.f3 = s.ctl.plant.res) ∧ s.Filled t 0x3440 ∧ s.Filled t 0x3441 ∧
        t.faultIs 0x0A0A 0 = true ∧ s.Counts t 0x3450 3 ∧ (3 ≤ n → t.Stops 0x0A0A) ∧ (n < 3 → t.st = s.st)) ∧
    (∀ lane : Option (Nat × Nat), s.ctl.innerOver.contains s.clk.frame = false →
      let n := (s.ctl.innerOver.filter fun f => s.clk.frame < f + 800).length + 1
      ∃ t, exec (.innerLoopSlotOverrun lane) s = .next t ∧ (∀ j, (t.inner j).core.az = (s.inner j).core.az ∧
          (t.inner j).core.n = (s.inner j).core.n) ∧
        t.faultIs 0x060A 0 = true ∧ (3 ≤ n → t.Stops 0x060A) ∧ (n < 3 → t.st = s.st)) ∧
    (∀ lane : Nat × Nat, s.ctl.innerOver.contains s.clk.frame = true →
      ∃ t, exec (.innerLoopSlotOverrun (some lane)) s = .next t ∧ t.ctl = s.ctl ∧ t.faults = s.faults ∧
        s.Counts t 0x2C58 4 ∧ (s.records = true → t.newest 0x060B 0 [lane.1, lane.2])) ∧
    (∀ k, k < 256 → (s.chan k).ran = false → let n := (s.chaff.overs.filter fun f => s.clk.frame < f + 800).length + 1
      ∃ t, exec (.chaffSlotOverrun k) s = .next t ∧ (t.chan k).ran = true ∧ (t.chan k).outs = [] ∧
        t.faultIs 0x0405 k = true ∧ s.Counts t 0x2912 1 ∧ (∀ j, j ≠ k → t.chan j = s.chan j) ∧
        (3 ≤ n → t.Stops 0x0405 k) ∧ (n < 3 → t.st = s.st))

/-- The two boundaries. A frame boundary advances the frame counter by 1 and stamps the boundary with the device time of the
grid (R335); a running unit publishes its discrete lines, inertial ports and analog inputs there, a unit stopped under F3
holds its SAFE lines low and counts its stop notice down. At f0 of a sample whose unit has no restart ordered the sample
number advances by 1, its epoch is the boundary (R6, R12); what was accepted for this f0 or an earlier one waits no longer
(R38, R75); a unit that enters mode 7 is in Dormancy (R524). -/
def Obligations.FrameAndSampleBoundaries : Prop :=
  -- the edges of TCK of the frame that ended come first; without VIN the unit has no test logic (R552)
  (∀ (r : Readings) (s : State), s.st.power = .off ∨ s.st.power = .reset → exec (.frameBoundary r) s = .next (s.jtag r.jtag)) ∧
  (∀ (r : Readings) (s : State), s.st.power ≠ .off → s.st.power ≠ .reset →
    let clk := { s.clk with frame := s.clk.frame + 1, time := s.tb.next, bound := s.tb.next }
    ∃ t, exec (.frameBoundary r) s = .next t ∧ t.clk = clk ∧
      (s.st.power = .running → ∀ i ∈ [0x4E30, 0x44D0, 0x44C0], s.clk.sample = (t.result i).sample ∧
        (t.result i).epoch = s.clk.epoch ∧ (t.result i).status = 0x80) ∧
      (s.st.power = .stopped → t.st = { s.st with notice := s.st.notice - 1 } ∧ t.io.safe = 0) ∧
      (s.st.power ≠ .running → s.st.power ≠ .stopped →
        t = { s.jtag r.jtag with clk := clk, tb := { s.tb with next := s.tb.next + 1250000 } })) ∧
  (∀ s : State, s.atF0 = true → s.st.ordered = none →
    ∃ t, exec .sampleBoundary s = .next t ∧
      t.clk = { s.clk with sample := (s.clk.sample + 1) % 2 ^ 32, epoch := s.clk.bound, f0 := s.clk.frame } ∧
      t.sheaf.handed = false ∧ t.win.handed = false ∧ t.ctl.culm.published = false ∧ t.ctl.stub.published = false ∧
      (∀ p ∈ t.acc.fresh, s.clk.frame < p.due) ∧ (∀ c ∈ t.mode.cmds, s.clk.frame < c.due ∨ (c.sent = false ∧ t.st.role ≠ 0)) ∧
      (t.mode.mode = 7 → t.st.power = .dormant)) ∧
  (∀ s : State, s.atF0 = false → exec .sampleBoundary s = .next s)

/-- The inner loops in a frame (R198-R202): the Lead outside Dormancy leaves one command record for each drive of the node
table, any other unit none (R25). A thruster whose divider is due tracks in Standby and Maintenance, with its rate command
and both integrators at 0; in the modes under control its speed ramp moves by no more than the ramp of its descriptor where
nothing frees it (R285), and the ramps of the thrusters that run are then renormalised as one vector (R195; log 145, the
model's choice). A thruster that is not due keeps its commands. -/
def Obligations.InnerLoops : Prop :=
  ∀ s : State, s.up = true → ∃ t, exec .innerLoopRun s = .next t ∧ t.faultIs 0x060A 0 = false ∧
    (s.st.role = 0 → s.mode.mode ≠ 7 → t.net.cmds.map (·.node) = (s.nodes.filter (·.kind == 1)).map (·.id)) ∧
    (s.st.role ≠ 0 ∨ s.mode.mode = 7 → t.net.cmds = []) ∧
    (s.mode.mode ≠ 0 → s.mode.mode ≠ 6 → let due := s.thrusters.filter fun j => s.fOff % s.cfgU (0x2C80 + j) 1 == 0
      ∃ l : List Rat, l.length = due.length ∧
        ∀ i j, due[i]? = some j → s.rampFree j = false → t.rampFree j = false → 0 ≤ (s.desc j).ramp →
          rabs (vget l i - (s.inner j).core.nr) ≤ (s.desc j).ramp * ((s.cfgU (0x2C80 + j) 1 : Rat) / 800) ∧
          (t.inner j).core.nr = vget (State.vec l) i) ∧
    ∀ j ∈ s.thrusters, let old := (s.inner j).core
      let new := (t.inner j).core
      let i := 0x2C80 + j
      (s.fOff % s.cfgU i 1 = 0 → s.mode.mode = 0 ∨ s.mode.mode = 6 → new.rate = 0 ∧ new.iaz = 0 ∧ new.inn = 0) ∧
      (s.fOff % s.cfgU i 1 ≠ 0 → new.az = old.az ∧ new.rate = old.rate ∧ new.n = old.n ∧ new.iaz = old.iaz ∧
        new.inn = old.inn)

/-- The power plant's events: a contact read alike for the confirm count takes its new state, and the model is solved for it
(R278); an LR line whose times have run releases with event 0A07h (R288); a contact whose binding is lost, or whose two
readings agree for too long, is an F1 fault, shown in 3440h (R279). -/
def Obligations.PlantEvents : Prop :=
  (∀ (k : Nat) (x : Bool) (s : State), s.up = true → k < 48 → s.contactsOf.contains k = true → (s.contact k).cand = some x →
    x ≠ (s.contact k).closed → s.cfgU 0x3400 1 ≤ (s.contact k).count →
    let u := s.setContact k { s.contact k with closed := x }
    ∃ t, exec (.breakerStateConfirmed k) s = .next t ∧ (t.contact k).closed = x ∧
      (∀ j, j ≠ k → t.contact j = s.contact j) ∧
      t.ctl.plant.res = u.plantOf u.onlineMask u.closedMask s.ctl.plant.res.load ∧
      (s.fOff = 3 → t.ctl.plant.f3 = t.ctl.plant.res) ∧ s.Filled t 0x3440 ∧ s.Filled t 0x3441) ∧
  (∀ (k a c : Nat) (s : State), s.up = true → tfind s.ctl.plant.core.lr k = some a → tfind s.ctl.plant.core.calm k = some c →
    a + State.ns (s.cfgR 0x3400 7) ≤ s.clk.time → c + State.ns (s.cfgR 0x3400 8) ≤ s.clk.time →
    ∃ t, exec (.lrRelease k) s = .next t ∧ t.ctl.plant.core.lr = tdel s.ctl.plant.core.lr k ∧
      t.ctl.plant.core.calm = tdel s.ctl.plant.core.calm k ∧ (s.records = true → t.newest 0x0A07 0 [k]) ∧
      { t with ctl := s.ctl, gran := s.gran, obj := s.obj } = s ∧ s.sameObjects t) ∧
  (∀ (k b : Nat) (s : State), s.up = true → s.contactsOf.contains k = true → s.lostBinding k = some b →
    (s.contact k).lost = false → ∃ u, (s.setContact k { s.contact k with lost := true }).Alarmed u 0x0A09 k 1 [b] ∧
      exec (.breakerDiscrepancy k) s = .next u.publishPlant) ∧
  (∀ (k : Nat) (s : State), s.up = true → s.contactsOf.contains k = true → s.contactLost k = false ∨ (s.contact k).lost = true →
    s.cfgU 0x3400 1 ≤ (s.contact k).alike → (s.contact k).disc = false →
    ∃ u, (s.setContact k { s.contact k with disc := true }).Alarmed u 0x0A08 k 1 [k] ∧
      exec (.breakerDiscrepancy k) s = .next u.publishPlant)

/-- Tiller's solve in f4 leaves a solution of the sample in progress, or, on a numeric fault, none, with F2 (event 0706h) and
a handover to Stubble where it can take over (R221, R227, R262). At f8 the allocation in force becomes the one of this sample:
Tiller's, Stubble's while it drives with no blend, a blend of both, and in Lever the operator's (R15, R198, R263, R264); in
the modes that track, the set points follow the commands (log 144, the model's choice). -/
def Obligations.SolveAndApply : Prop :=
  (∀ (forced : Option (Nat × Nat)) (s : State), s.up = true → s.fOff = 4 →
    ∃ t, exec (.tillerNominalSolve forced) s = .next t ∧ t.ctl.till.solved = some s.clk.sample ∧
      t.ctl.alloc = s.ctl.alloc ∧
      (∀ sol, t.ctl.till.sol = some sol → sol.sample = s.clk.sample ∧ t.ctl.till.fault = false ∧
        t.ctl.till.core.cold = none ∧ t.ctl.till.core.plan = sol.plan) ∧
      (t.ctl.till.sol = none → t.ctl.till.fault = true ∧ t.ctl.till.core.cold = some 3 ∧ t.faultIs 0x0706 0 = true ∧
        (s.ctl.stub.core.cause = none → s.ctl.stub.core.driving = false → s.ctl.stub.lost = false →
          t.ctl.stub.core.cause = some 3 ∧ t.ctl.stub.core.lastCause = 3 ∧ t.faultIs 0x0901 0 = true)) ∧
      (forced ≠ none → t.ctl.till.sol = none)) ∧
  (∀ s : State, s.up = true → s.fOff = 8 → let b := s.ctl.stub.core.blend
    ∃ t, exec .allocationApply s = .next t ∧ s.Filled t 0x3212 ∧
      (s.mode.mode = 1 → t.ctl.lever = s.leverPoints ∧ t.ctl.leverOn = true ∧ t.ctl.alloc = s.ctl.alloc) ∧
      (s.mode.mode = 0 ∨ 6 ≤ s.mode.mode → t.ctl.lever = s.emittedPoints ∧ t.ctl.leverOn = true ∧ t.ctl.alloc = s.ctl.alloc) ∧
      (s.allocates = true → b = none → s.ctl.stub.core.driving = true →
        t.ctl.alloc = { pts := s.ctl.stub.pts, sample := s.clk.sample, any := true }) ∧
      (∀ a, s.allocates = true → b = none → s.ctl.stub.core.driving = false → s.ctl.till.out = some a → t.ctl.alloc = a) ∧
      (∀ i, s.allocates = true → b = some (true, i) →
        t.ctl.alloc = { pts := s.mix ((i : Rat) / 10) s.ctl.stub.core.frozen s.ctl.stub.pts, sample := s.clk.sample, any := true }) ∧
      (∀ a i, s.allocates = true → b = some (false, i) → s.ctl.stub.core.cause = none → s.ctl.till.out = some a →
        t.ctl.alloc = { pts := s.mix ((i : Rat) / 10) s.ctl.stub.pts a.pts, sample := s.clk.sample, any := true }))

/-- Stook (R26, R236, R241, R245, R246, R517). The sweep solves every case in use, but for a reference-set case, on a Reserve
those that are not the Lead's 16 highest-ranked, those it must skip, which only age, and those that the fast cap holds back: they
wait for a frame without it, and are skipped where none comes. The consequence alarm is set once its delay of samples below 100 % has passed (F1, event 0803h) and clears once the
other delay has; a thruster silent for the silence frames is latched as silent and detected. -/
def Obligations.CasesAndAlarm : Prop :=
  (∀ (faults : List (Nat × Nat)) (s : State), s.up = true → s.fOff = 4 →
    let todo := s.caseNums.filter fun c => s.caseType c != 5 &&
      (s.st.role != 2 || s.ctl.stook.lead.any fun (e : CaseEntry) => e.num == c && e.rank < 16)
    let skip := fun c => s.skippedCases.contains c && (tfind s.ctl.stook.cases c).isSome
    let wait := todo.filter fun c => s.therm.cap && !(s.ctl.stook.ranking.take 16).contains c && !skip c
    ∃ t, exec (.stookSweep faults) s = .next t ∧ t.ctl.stook.horizon = s.caseHorizon ∧ t.ctl.stook.waiting = wait ∧
      t.ctl.stook.swept = (todo.filter fun c => !skip c && !wait.contains c).length ∧ t.ctl.stook.sweepDue = false ∧
      (∀ c x, c ∈ todo → skip c = true → tfind s.ctl.stook.cases c = some x →
        ∃ y, tfind t.ctl.stook.cases c = some y ∧ y.skipped = true ∧ y.age = x.age + 1 ∧ y.plan = x.plan ∧ y.margin = x.margin) ∧
      (∀ c x, tfind t.ctl.stook.cases c = some x → c ∈ s.caseNums)) ∧
  (∀ (faults : List (Nat × Nat)) (s : State), s.up = true → 4 < s.fOff →
    (s.therm.cap = true → exec (.stookSweep faults) s = .next s) ∧
    (s.therm.cap = false → ∃ t, exec (.stookSweep faults) s = .next t ∧ t.ctl.stook.waiting = [] ∧
      t.ctl.stook.swept = s.ctl.stook.swept + s.ctl.stook.waiting.length)) ∧
  (∀ s : State, s.up = true → s.fOff + 1 = s.clk.n → s.ctl.stook.setDue = false → s.alarmSets = true →
    ∃ t, exec .consequenceAlarm s = .next t ∧ t.ctl.stook = { s.ctl.stook with alarm := true } ∧
      Flt.mk 0x0803 0 1 ∈ t.faults ∧ (s.records = true → t.newest 0x0803 1 [s.worst.1, s.worst.2]) ∧ s.Filled t 0x3040) ∧
  (∀ s : State, s.up = true → s.fOff + 1 = s.clk.n → s.ctl.stook.setDue = false → s.alarmSets = false → s.alarmClears = true →
    ∃ t, exec .consequenceAlarm s = .next t ∧ t.ctl.stook = { s.ctl.stook with alarm := false } ∧
      t.faultIs 0x0803 0 = false ∧ (s.records = true → t.newest 0x0804 0 []) ∧ s.Filled t 0x3040) ∧
  (∀ (j : Nat) (s : State), s.up = true → s.driveSilent j = true →
    ∃ t, exec (.driveSilenceDetection j) s = .next t ∧ t.ctl.stook.silent = s.ctl.stook.silent ++ [j] ∧
      t.ctl.stook.readyFrom = tdel s.ctl.stook.readyFrom j ∧
      (t.ctl.stook.det.any fun p => p.1 == 1 && p.2.1 == j) = true)

/-! Ports and lines (chapter 15). -/

/-- Serial ports and IEC 61162-450 intake (R386-R395). A character error, a sentence too long or with a wrong checksum and a
raw frame that fails its check count at their port; a sentence and a frame taken count as accepted, and a sentence feeds a
stream without a clock slot that names its port, formatter and talker (R89, R388), stamped with its arrival, where it is
later than what the stream holds. A datagram is counted as its header, TAG block and sequence say (R393-R395). A transmission
that ends frees its port (R386). -/
def Obligations.SerialAndIntake : Prop :=
  (∀ (p : Nat) (s : State), s.storesOk = true → portOn s p 1 = true ∨ portOn s p 2 = true → portDeaf s p = false →
    ∃ t, exec (.serialCharacterError p) s = .next t ∧ s.Counts t (0x4490 + p) 3) ∧
  (∀ (p arrival : Nat) (text : List Byte) (s : State), s.storesOk = true → portOn s p 1 = true → portDeaf s p = false →
    ∃ t, exec (.sentenceReceived p arrival text) s = .next t ∧
      match readSentence (s.cfgB (0x4400 + p) 7) text with
      | .tooLong => s.Counts t (0x4490 + p) 5
      | .badSum => s.Counts t (0x4490 + p) 2
      | .none => t = s
      | .ok x => s.Counts t (0x4490 + p) 1 ∧ ∀ k kind a v, k < 256 → (s.stream k).cfg = some (kind, 1, a, 0xFF) → a % 16 = p →
          field a 8 8 = x.code → field a 16 16 = 0 ∨ field a 16 16 = x.talker → kind ≠ 0x01 → x.code ≠ 0x03 →
          x.vals kind (s.cfgR 0x2500 3) = some v →
          let smp : Smp := { stamp := arrival, arrival := arrival, raw := v, after := decide (1 ≤ s.fOff) }
          (∀ y, (s.stream k).buf.getLast? = some y → s.tov k 0xFF y < s.tov k 0xFF smp) →
          s.tov k 0xFF smp ≤ (arrival : Rat) + 1250000 →
          (t.stream k).buf = lastN 8 ((s.stream k).buf ++ [smp]) ∧ (t.stream k).silent = false ∧ (t.stream k).since = arrival) ∧
  (∀ (p arrival : Nat) (b : List Byte) (s : State), s.storesOk = true → portOn s p 2 = true → portDeaf s p = false →
    (s.delimited p b = false → exec (.rawFrameReceived p arrival b) s = .next s) ∧
    (s.delimited p b = true → let ok := checkOk (s.cfgU (0x4400 + p) 0x0F) (s.cfgU (0x4400 + p) 0x10) b
    ∃ t, exec (.rawFrameReceived p arrival b) s = .next t ∧ (ok = true → s.Counts t (0x4490 + p) 1) ∧
      (ok = false → s.Counts t (0x4490 + p) 6 ∧ t.sheaf = s.sheaf))) ∧
  (∀ (p : Nat) (s : State), s.up = true → (s.serial p).tx.isSome →
    exec (.serialTransmitComplete p) s = .next (s.setSerial p { s.serial p with tx := none })) ∧
  (∀ (e port arrival : Nat) (d : List Byte) (s : State), s.up = true → s.storesOk = true → e < 64 →
    s.cfgB (0x4430 + e) 1 = true → port < 4 → bit (s.cfgU (0x4430 + e) 4) port = true →
    let head := d.take 6 = ascii "UdPbC" ++ [0#8]
    let lines := ((splitAt' 0x0A#8 (d.drop 6)).filter (· != [])).map fun l => State.datagramLine (l ++ [0x0A#8])
    let tags := (lines.filterMap fun x => x.1.getD none).flatten
    ∃ t, exec (.intakeDatagram e port arrival d) s = .next t ∧ (¬head → s.Counts t 0x44B0 2 ∧ t.sheaf = s.sheaf) ∧
      (head → lines.any (fun x => x.1.isNone) = true → s.Counts t 0x44B0 3 ∧ t.sheaf = s.sheaf) ∧
      (head → lines.any (fun x => x.1.isNone) = false → tags = [] → s.cfgD (0x4430 + e) 5 = [] → s.Counts t 0x44B0 1))

/-- Inertial ports and the analog reference (R396-R403, R556). A DRDY edge begins a read, or counts one missed while a read runs.
A read is good where it has its length, its checksum holds and every field that is mapped can be read; a bad one counts and
delivers nothing, a good one counts and gives its fields, with the time of validity of its edge less the latency. A port that
has failed is an F1 fault until 100 good reads in succession. A reference below 0.9 V while an input uses it is an F1 fault, with
no effect where none does, and it returns above 1.0 V. -/
def Obligations.ImuAndReference : Prop :=
  (∀ (i t0 : Nat) (s : State), s.up = true → i < 2 → s.cfgB (0x4470 + i) 1 = true →
    ((s.imu i).reading = none → exec (.imuDrdy i t0) s =
      .next (s.setImu i { s.imu i with reading := some t0, lastEdge := t0 })) ∧
    (∀ t1, (s.imu i).reading = some t1 → s.storesOk = true → ∃ t, exec (.imuDrdy i t0) s = .next t ∧
      t.imu i = { s.imu i with lastEdge := t0 } ∧ s.Counts t (0x44B8 + i) 2)) ∧
  (∀ (i t0 : Nat) (b : List Byte) (s : State), s.up = true → i < 2 → s.storesOk = true → (s.imu i).reading = some t0 →
    let idx := 0x4470 + i
    let field := fun k => if bit (s.cfgU idx (0x0B + k)) 31
      then (rawField (s.cfgU idx (0x0B + k)) b).map fun r => (r.1 * s.cfgR idx (0x12 + k), r.2) else some (0, true)
    let good := b.length = s.cfgU idx 8 ∧ checkOk (s.cfgU idx 0x0A) 0 b = true ∧ ∀ k < 7, (field k).map (·.2) = some true
    ∃ t, exec (.imuReadComplete i b) s = .next t ∧ (t.imu i).reading = none ∧
      (¬good → s.Counts t (0x44B8 + i) 3 ∧ t.sheaf = s.sheaf ∧
        t.imu i = { s.imu i with reading := none, bad := (s.imu i).bad + 1, good := 0 }) ∧
      (good → s.Counts t (0x44B8 + i) 1 ∧ (t.imu i).bad = 0 ∧ (∀ k < 7, field k = some (nth 0 (t.imu i).fields k, true)) ∧
        (t.imu i).tov = t0 - (s.cfgR idx 5 * 1000000).floor.toNat ∧
        ((s.imu i).fault = false → (t.imu i).fault = false) ∧
        ((s.imu i).fault = true → (s.imu i).good < 99 → (t.imu i).fault = true ∧ (t.imu i).good = (s.imu i).good + 1) ∧
        ((s.imu i).fault = true → 99 ≤ (s.imu i).good → (t.imu i).fault = false ∧ t.faultIs 0x1202 i = false))) ∧
  (∀ (i : Nat) (s : State), s.up = true → s.imuFaulty i ≠ 0 →
    ∃ t, exec (.imuPortFault i) s = .next t ∧
      (s.setImu i { s.imu i with fault := true, good := 0 }).Alarmed t 0x1202 i 1 [i, s.imuFaulty i]) ∧
  (∀ (v : Rat) (s : State), s.arefWatched = false → exec (.aref1Low v) s = .next s) ∧
  (∀ (v : Rat) (s : State), s.up = true → s.arefWatched = true → v < 9 / 10 → s.io.aref = false →
    ∃ t, exec (.aref1Low v) s = .next t ∧
      State.Alarmed { s with io := { s.io with aref := true, arefV := v } } t 0x1204 0 1 []) ∧
  (∀ (v : Rat) (s : State), s.up = true → 1 < v → s.io.aref = true →
    ∃ t, exec (.aref1Restored v) s = .next t ∧ t.io = { s.io with aref := false, arefV := v } ∧
      t.faultIs 0x1204 0 = false ∧ (s.records = true → t.newest 0x1205 0 []) ∧
      { t with io := s.io, chaff := s.chaff, gran := s.gran, obj := s.obj, faults := s.faults, can := s.can } = s)

/-- Discrete lines, SAFE and LR lines and WAKE_N (R404-R412). A supervisor refresh that is missed, or an overcurrent, takes
the SAFE lines low at once (R408, R410); a retry drives the line again as Table 15-2 says, and only when the output follows. -/
def Obligations.DiscreteAndSafeLines : Prop :=
  (∀ (d t0 : Nat) (level : Bool) (s : State), s.up = true ∨ s.st.power = .stopped → d < 24 → bit s.io.dio d ≠ level →
    exec (.dioLevelChange d t0 level) s =
      .next (State.putU { s with io := { s.io with dio := setBit s.io.dio d level } } (0x4E00 + d) 6 t0)) ∧
  (∀ (d a : Nat) (s : State), tfind s.io.pulses d = some a → a ≤ s.clk.time →
    ∃ t, exec (.comparePulseEnd d) s = .next t ∧ t.io.pulses = tdel s.io.pulses d ∧ t.io.safe = s.io.safe ∧
      { t with io := s.io } = s) ∧
  (∀ s : State, s.up = true → ∃ t, exec .supervisorRefreshMissed s = .next t ∧ t.io.safe = 0 ∧ t.io.latchedLow = true ∧
    t.io.driven = s.io.driven ∧ { t with io := s.io, gran := s.gran, obj := s.obj } = s) ∧
  (∀ (k : Nat) (s : State), s.up = true → k < 8 → bit s.io.safe k = true → bit s.io.overs k = false →
    ∃ t, exec (.safeOvercurrent k) s = .next t ∧ t.io.safe = setBit s.io.safe k false ∧ t.io.overs = setBit s.io.overs k true ∧
      tfind t.io.retry k = some s.clk.time ∧ Flt.mk 0x1702 k 1 ∈ t.faults) ∧
  (∀ (k : Nat) (s : State), s.up = true → bit s.io.overs k = true → tget 0 s.io.retry k + 1000000000 ≤ s.clk.time →
    exec (.safeOvercurrentRetry k false) s = .next { s with io := { s.io with retry := tset s.io.retry k s.clk.time } }) ∧
  (∀ (k : Nat) (s : State), s.up = true → k < 8 → bit s.io.overs k = true → tget 0 s.io.retry k + 1000000000 ≤ s.clk.time →
    ∃ t, exec (.safeOvercurrentRetry k true) s = .next t ∧ t.io.overs = setBit s.io.overs k false ∧
      t.io.retry = tdel s.io.retry k ∧ t.faultIs 0x1702 k = false ∧
      bit t.io.safe k = (s.safeWish k && !s.io.latchedLow && !s.degraded 7 k)) ∧
  (∀ (k : Nat) (s : State), s.up = true → k < 4 → bit s.lrMask k = true → bit s.io.overLr k = false →
    ∃ t, exec (.lrOvercurrent k) s = .next t ∧
      State.Alarmed { s with io := { s.io with overLr := setBit s.io.overLr k true } } t 0x1702 (8 + k) 1 [1, k]) ∧
  (∀ s : State, s.st.power ≠ .dormant → s.st.power ≠ .off →
    ∃ t, exec .wakeNAsserted s = .next t ∧ State.Noted { s with io := { s.io with wake := true } } t 0x1705 0 [])

/-! Feedback channels (chapter 14) and Chaff's slots (chapter 06). -/

/-- Encoder channels (R361-R363, R368-R371, R380). In mode 01h an edge of A or B moves the count by its step, A leading B up (log
38), in mode 02h a rising edge of A by one in the direction of B; a step in modulo mode wraps, and one past a soft limit is not
taken, leaves the channel unreferenced and records event 0D05h. A and B together are an illegal transition, counted and
flagged, and one more than the permitted number within a second is an F1 fault that 10 s without one end. A rising edge of Z is
the home event where its source says so; the home event sets the count to the home count. An update moves the tracking
observer by the third-order law, or, where the count is missing, by its prediction alone; the first takes the count. The
active edge of a magnetic input is the home event of the armed channels that name it. -/
def Obligations.EncoderChannels : Prop :=
  (∀ (n t0 : Nat) (a b z : Bool) (s : State), s.up = true → n < 32 →
    let e := s.enc n
    let a0 := nth false e.lv 0
    let b0 := nth false e.lv 1
    let home := e.homed || (z && !nth false e.lv 2 && s.zHomes n)
    let sense : Int := if s.cfgB (0x3A00 + n) 4 then -1 else 1
    -- the step of the edge, and the case that it is an illegal transition
    let d : Int := if s.encMode n = 1 then sense * State.quadStep (s.cfgU (0x3A00 + n) 3) a0 b0 a b
      else if s.encMode n = 2 ∧ a = true ∧ a0 = false then sense * (if b then 1 else -1) else 0
    let bad := (s.encMode n = 1 ∧ a ≠ a0 ∧ b ≠ b0) ∨ (s.encMode n = 2 ∧ a = true ∧ a0 = false ∧ b ≠ b0)
    ∃ t, exec (.quadratureEdge n t0 a b z) s = .next t ∧ (t.enc n).lv = [a, b, z] ∧ (t.enc n).homed = home ∧
      (∀ m, m ≠ n → t.enc m = s.enc m) ∧
      (¬bad → d = 0 → t = s.setEnc n { e with lv := [a, b, z], homed := home }) ∧
      (¬bad → s.modulo n = true → d ≠ 0 → (t.enc n).count = (e.count + d) % s.modM n ∧ (t.enc n).bad = e.bad) ∧
      (¬bad → s.modulo n = false → d ≠ 0 → s.softMin n ≤ e.count + d → e.count + d ≤ s.softMax n →
        (t.enc n).count = e.count + d ∧ (t.enc n).bad = e.bad) ∧
      (¬bad → s.modulo n = false → d ≠ 0 → e.count + d < s.softMin n ∨ s.softMax n < e.count + d →
        (t.enc n).count = e.count ∧ (t.enc n).referenced = false ∧ (t.enc n).atLimit = true ∧
        (s.records = true → t.newest 0x0D05 0 [])) ∧
      (bad → s.storesOk = true → (t.enc n).count = e.count ∧ (t.enc n).bad = true ∧ (t.enc n).lastIllegal = t0 ∧
        s.Counts t 0x3A91 (n + 1) ∧
        (e.fault = false → s.cfgU (0x3A00 + n) 0x1C < (e.illegal.filter fun x => t0 < x + 1000000000).length + 1 →
          (t.enc n).fault = true ∧ t.faultIs 0x0D02 n = true))) ∧
  (∀ (n : Nat) (s : State), s.up = true → (s.enc n).fault = true → s.encMode n ≠ 3 →
    (s.enc n).lastIllegal + 10000000000 ≤ s.clk.time →
    ∃ t, exec (.channelFaultClear n) s = .next t ∧ t.enc n = { s.enc n with fault := false } ∧ t.faultIs 0x0D02 n = false ∧
      (s.records = true → t.newest 0x0D03 0 [])) ∧
  (∀ (n : Nat) (s : State), s.up = true → n < 32 →
    (s.homeDue n = false → exec (.homeEvent n) s = .next s) ∧
    (s.homeDue n = true → let c0 := s.cfgI (0x3A00 + n) 0x15
    let c := if s.modulo n then c0 % s.modM n else c0
    ∃ t, exec (.homeEvent n) s = .next t ∧ (t.enc n).count = c ∧ (t.enc n).referenced = true ∧ (t.enc n).armed = false ∧
      (t.enc n).homed = false ∧ (t.enc n).p = (s.enc n).p + ((c - (s.enc n).count : Int) : Rat) ∧ (t.enc n).v = (s.enc n).v ∧
      (s.records = true → t.newest 0x0D04 0 [n, State.pI c]))) ∧
  (∀ (n : Nat) (bad : Bool) (h tu : Rat) (s : State), s.up = true → n < 32 →
    let e := s.enc n
    ((s.encMode n = 1 ∨ s.encMode n = 2) ∧ e.upd = none ∧ (e.begun = true → e.tu + 25000 ≤ s.clk.time) ∧
        h = 25 / 1000000 ∧ (tu = if e.begun then e.tu + 25000 else (s.clk.time : Rat)) ∧ bad = e.bad) ∨
      (s.encMode n = 3 ∧ ∃ t1 : Nat, e.upd = some (t1, bad) ∧ h = ((t1 : Rat) - e.tu) / 1000000000 ∧ tu = t1) →
    let w := 2 * Config.pi * s.cfgR (0x3A00 + n) 0x17
    let pp := e.p + h * e.v + h * h * e.a / 2
    let err := s.rdiff n ((e.count : Rat) - pp)
    ∃ t, exec (.trackingObserverUpdate n) s = .next t ∧ (t.enc n).tu = tu ∧ (t.enc n).bad = false ∧
      (t.enc n).upd = none ∧ (t.enc n).missing = bad ∧ (t.enc n).begun = (e.begun || !bad) ∧
      (e.begun = true → bad = false → (t.enc n).p = pp + 3 * (w * h) * err ∧
        (t.enc n).v = e.v + h * e.a + 3 * rsq (w * h) * err / h ∧ (t.enc n).a = e.a + w * h * rsq (w * h) * err / (h * h)) ∧
      (e.begun = true → bad = true → (t.enc n).p = pp ∧ (t.enc n).v = e.v + h * e.a ∧ (t.enc n).a = e.a) ∧
      (e.begun = false → bad = false → (t.enc n).p = e.count ∧ (t.enc n).v = 0 ∧ (t.enc n).a = 0)) ∧
  (∀ (m t0 : Nat) (level : Bool) (s : State), s.up = true → m < 16 → (tget {} s.fb.mag m).level ≠ level →
    let home := fun n => (s.enc n).armed = true ∧ s.cfgU (0x3A00 + n) 0x13 = 2 ∧ s.cfgU (0x3A00 + n) 0x14 = m ∧
      level = s.cfgB (0x3A40 + m) 2
    ∃ t, exec (.magneticInputChange m t0 level) s = .next t ∧ tget {} t.fb.mag m = ⟨level⟩ ∧
      (s.storesOk = true → t.objU (0x3A40 + m) 3 = t0 % 2 ^ State.width (0x3A40 + m) 3) ∧
      (∀ n < 32, home n → t.enc n = { s.enc n with homed := true }) ∧ (∀ n, ¬home n → t.enc n = s.enc n) ∧
      { t with fb := s.fb, obj := s.obj } = s)

/-- The fault of a channel by its illegal transitions (R362, R363): one more of them than the permitted number within a second
raises F1 with event 0D02h, and 10 s without one lower it with event 0D03h. -/
def Obligations.IllegalTransitionFault : Prop :=
  (∀ (n t0 : Nat) (a b z : Bool) (s : State), s.up = true → n < 32 → s.storesOk = true → (s.enc n).fault = false →
    let e := s.enc n
    let a0 := nth false e.lv 0
    let b0 := nth false e.lv 1
    (s.encMode n = 1 ∧ a ≠ a0 ∧ b ≠ b0) ∨ (s.encMode n = 2 ∧ a0 = false ∧ a = true ∧ b ≠ b0) →
    ∃ t, exec (.quadratureEdge n t0 a b z) s = .next t ∧
      (s.cfgU (0x3A00 + n) 0x1C < (e.illegal.filter fun x => t0 < x + 1000000000).length + 1 →
        (t.enc n).fault = true ∧ Flt.mk 0x0D02 n 1 ∈ t.faults ∧ (s.records = true → t.newest 0x0D02 1 [n, 1])) ∧
      ((e.illegal.filter fun x => t0 < x + 1000000000).length + 1 ≤ s.cfgU (0x3A00 + n) 0x1C → (t.enc n).fault = false ∧
        t.faults = s.faults)) ∧
  (∀ (n : Nat) (s : State), s.up = true → (s.enc n).fault = true → s.encMode n ≠ 3 →
    ((s.enc n).lastIllegal + 10000000000 ≤ s.clk.time → ∃ t, exec (.channelFaultClear n) s = .next t ∧
      (t.enc n).fault = false ∧ t.faultIs 0x0D02 n = false ∧ (s.records = true → t.newest 0x0D03 0 [])) ∧
    (s.clk.time < (s.enc n).lastIllegal + 10000000000 → exec (.channelFaultClear n) s = .next s))

/-- SSI channels and compares (R364-R367, R376-R379). A read that starts is in progress until it completes; a bad one (the
data line low at its begin) is missing, the eighth in succession an F1 fault; a good one that passes every test gives the
count. The clock of a quiet channel is taken, and yielded where another unit drives it. An accepted compare position waits for
the next frame; a read of the compare status clears the fired bits. -/
def Obligations.SsiAndCompares : Prop :=
  (∀ (n t0 : Nat) (s : State), s.up = true → n < 32 → s.encMode n = 3 → exec (.ssiReadStart n t0) s =
    .next (s.setEnc n { s.enc n with reading := some t0, edgeAt := some s.clk.frame })) ∧
  (∀ (n t0 word : Nat) (s : State), s.up = true → n < 32 → s.encMode n = 3 → (s.enc n).reading = some t0 →
    ∃ t, exec (.ssiReadComplete n true word) s = .next t ∧ (t.enc n).reading = none ∧ (t.enc n).upd = some (t0, true) ∧
      (t.enc n).miss = (s.enc n).miss + 1 ∧ (t.enc n).pass = 0 ∧ (t.enc n).count = (s.enc n).count ∧
      ((s.enc n).miss = 7 → (s.enc n).fault = false → (t.enc n).fault = true ∧ t.faultIs 0x0D02 n = true)) ∧
  (∀ (n t0 word : Nat) (s : State), s.up = true → n < 32 → s.encMode n = 3 → (s.enc n).reading = some t0 →
    (s.enc n).fault = false → s.modulo n = false →
    let i := 0x3A00 + n
    let raw := word / 2 ^ s.cfgU i 6 % 2 ^ (s.cfgU i 5 - s.cfgU i 6)
    let pos := if s.cfgU i 7 = 1 then State.grayTo 5 raw else raw
    let c : Int := if s.cfgB i 4 then -(pos : Int) else pos
    (word % 2 ^ s.cfgU i 6) &&& s.cfgU i 0x0B = 0 → s.softMin n ≤ c → c ≤ s.softMax n →
    (s.enc n).begun = false ∨ rabs ((c : Rat) - (s.encAt n t0).1) ≤ (s.cfgU i 0x19 : Rat) →
    ∃ t, exec (.ssiReadComplete n false word) s = .next t ∧ (t.enc n).count = c ∧ (t.enc n).reading = none ∧
      (t.enc n).upd = some (t0, false) ∧ (t.enc n).miss = 0 ∧ (t.enc n).pass = (s.enc n).pass + 1 ∧
      (t.enc n).prev = some (c, t0) ∧ (t.enc n).fault = false) ∧
  (∀ (n : Nat) (s : State), s.up = true → n < 32 → s.ssiQuiet n = true →
    let u := s.setEnc n { s.enc n with driving := true }
    (s.cfgU (0x3A00 + n) 0x0C = 1 → ∃ t, exec (.ssiClockTaken n) s = .next t ∧ u.Noted t 0x0D09 0 [n, 1]) ∧
    (s.cfgU (0x3A00 + n) 0x0C ≠ 1 → exec (.ssiClockTaken n) s = .next u)) ∧
  (∀ (n : Nat) (s : State), s.up = true → n < 32 → (s.enc n).driving = true →
    ∃ t, exec (.ssiClockYielded n) s = .next t ∧
      (s.setEnc n { s.enc n with driving := false, edgeAt := some s.clk.frame }).Noted t 0x0D09 0 [n, 0]) ∧
  (∀ (p : Path) (n j : Nat) (b : List Byte) (v : Val) (s : State), s.passes (.comparePositionWrite p n j b) (0x3A20 + n) j v →
    s.storesOk = true → 1 ≤ j → j ≤ 4 →
    let c := roundAway ((v.asRat - s.cfgR (0x3A00 + n) 0x10) / s.perCount n)
    s.modulo n = true ∨ (s.softMin n ≤ c ∧ c ≤ s.softMax n) →
    ∃ t, exec (.comparePositionWrite p n j b) s = .next t ∧ t.acc.answer = ⟨0, []⟩ ∧ t.objV (0x3A20 + n) j = v ∧
      t.cfgV (0x3A20 + n) j = v ∧ (∀ k, k ≠ j - 1 → nth {} (t.enc n).compares k = nth {} (s.enc n).compares k) ∧
      (j ≤ (s.enc n).compares.length → (nth {} (t.enc n).compares (j - 1)).pending = true)) ∧
  (∀ (p : Path) (j : Nat) (s : State), s.up = true → s.existsAbort 0x3A93 j = 0 → 1 ≤ j → j ≤ 32 →
    ∃ t, exec (.compareStatusRead p j) s = .next t ∧ t.acc.answer.code = 0 ∧
      (t.enc (j - 1)).compares = (s.enc (j - 1)).compares.map (fun c => { c with fired := false }) ∧
      (∀ m, m ≠ j - 1 → t.enc m = s.enc m))

/-- Chaff's slot and a silent stream. A slot runs once in a frame: it ends the overrun mark of its channel, an analog source
below its fill time or an idle cascade leaves its stages as they are, and an encoder source latches the instant and the value
of the next slot (R138, R141, R149); the decimator's samples of a frame are those of the first slot that brings them (log 150).
A stream that has accepted nothing for ten nominal periods is silent (R105). -/
def Obligations.SlotsAndSilence : Prop :=
  (∀ (n : Nat) (xs : List Rat) (s : State), s.up = true → n < 256 → (s.chan n).ran = false →
    let u := s.gridSamples n xs
    ∃ t, exec (.chaffSlot n xs) s = .next t ∧ (t.chan n).ran = true ∧ (t.chan n).overLast = false ∧
      t.faultIs 0x0405 n = false ∧ (t.chan n).record = (s.chan n).record ∧
      (∀ m, m ≠ n → t.chan m = s.chan m ∨ t.chan m = { s.chan m with up := true }) ∧
      (u.slotInputs n xs = [] → (t.chan n).stages = (s.chan n).stages ∧ (t.chan n).outs = (s.chan n).outs) ∧
      (let addr := s.cfgU (0x2800 + n) 2
      let at' := s.clk.bound + n * 4800
      let x := s.encAt (addr % 32) at'
      let k := s.perCount (addr % 32)
      (t.chan n).latch = if s.cfgU (0x2800 + n) 1 = 2 then some (at', match field addr 8 2 with
          | 0 => s.posOf (addr % 32) x.1
          | 1 => x.2.1 * k
          | _ => x.2.2 * k)
        else none)) ∧
  (∀ (n : Nat) (xs : List Rat) (s : State), s.up = true → n < 256 → (s.chan n).ran = false →
    (s.chan n).stages = [] → (s.chan n).due = [] → (s.chan n).up = false → (s.chan n).tunes = [] →
    let l := (s.gridSamples n xs).slotInputs n xs
    (∀ i ∈ l, ((s.chan n).fromT : Rat) ≤ i.inst) →
    -- a chain of no stages delivers its inputs, less the delay of the source (R147), the first with the restart mark
    ∃ t o, exec (.chaffSlot n xs) s = .next t ∧ (t.chan n).outs = (s.chan n).outs ++ o ∧
      o.map (fun x => (x.idx, x.tov, x.y, x.delivered)) =
        l.map (fun i => (i.idx, i.inst - s.tauIn (s.chan n) * 1000000000, i.x, true)) ∧
      (∀ x, o.head? = some x → x.mark = (s.chan n).mark) ∧ ∀ x ∈ o.tail, x.mark = false) ∧
  (∀ (k : Nat) (s : State), s.up = true → (s.stream k).cfg.isSome → (s.stream k).silent = false →
    10 * s.periodNs k ≤ (s.clk.time : Rat) - (s.stream k).since →
    ∃ t, exec (.streamSilent k) s = .next t ∧ (s.setStream k { s.stream k with silent := true }).Noted t 0x0204 0 [k])

/-! The GNSS baseband (chapter 12). -/

/-- Ports and front ends (R295-R298). A port without its clock is an F1 fault, which 1.0 s without a condition ends. The
master asserts the enable of a selected group, and the script is due after the settle time. A run of the script (log 43: chip
select a serves antenna a) that reads back what it expects clears the front-end faults; one that does not stops at that entry,
sets the chip select's bit, raises F1 0B02h and is tried again 10 s later. Attention runs its verify entries alone. -/
def Obligations.GnssPortsAndFrontEnds : Prop :=
  (∀ (p t0 : Nat) (hz duty : Rat) (s : State), s.gnOn = true → s.storesOk = true → p < 8 → (s.gport p).fault = false →
    ∃ t, exec (.gnssPortFault p t0 false hz duty) s = .next t ∧ (t.gport p).fault = true ∧ bit (t.gport p).cond 0 = true ∧
      (t.gport p).okFrom = none ∧ Flt.mk 0x0B03 p 1 ∈ t.faults ∧ s.Counts t 0x3670 6 ∧
      (s.records = true → t.newest 0x0B03 1 [p, 1])) ∧
  (∀ (p t0 a : Nat) (s : State), s.gnOn = true → (s.gport p).fault = true → (s.gport p).cond = 0 →
    (s.gport p).okFrom = some a → a + 1000000000 ≤ max s.clk.time t0 →
    ∃ t, exec (.gnssPortFaultClear p t0) s = .next t ∧ t.gport p = { s.gport p with fault := false } ∧
      t.faultIs 0x0B03 p = false ∧ t.clk = { s.clk with time := max s.clk.time t0 }) ∧
  (∀ (g : Nat) (s : State), s.feMaster = true → g < 2 → bit (s.cfgU 0x3600 3) g = true → tfind s.gn.en g = none →
    exec (.frontEndEnable g) s = .next (s.setGn { s.gn with
      en := tset s.gn.en g s.clk.time, scriptDue := some (s.clk.time + State.ns (s.cfgR 0x3601 5 / 1000)) })) ∧
  (∀ (t0 : Nat) (reads : List Nat) (verify : Bool) (c : Instr) (s : State), s.feMaster = true → s.storesOk = true →
    (verify = true ∧ c = .frontEndAttention t0 reads) ∨
      (verify = false ∧ c = .frontEndScriptRun t0 reads ∧ ∃ d, s.gn.scriptDue = some d ∧ d ≤ max s.clk.time t0) ∨
      (verify = false ∧ c = .frontEndScriptRetry t0 reads ∧ ∃ d, s.gn.retry = some d ∧ d ≤ max s.clk.time t0) →
    let l := State.feUntilEnd (State.feScript (s.cfgD 0x3601 2))
    let q := (List.zip (List.range l.length) l).filter fun e => !verify || e.2.op == 2 || e.2.op == 4
    let x := State.feRun q reads []
    ∃ t, exec c s = .next t ∧ t.gn.spi = x.1 ∧
      (∀ k i, x.2 = some (k, i) → bit (t.objU 0x3601 6) k = true ∧ t.faultIs 0x0B02 k = true ∧
        t.gn.retry = some (max s.clk.time t0 + 10000000000)) ∧
      (x.2 = none → verify = false → t.objU 0x3601 6 = 0 ∧ t.gn.retry = none ∧ t.gn.scriptDue = none) ∧
      (x.2 = none → verify = true → t.gn.retry = s.gn.retry ∧ t.gn.scriptDue = s.gn.scriptDue ∧ t.obj = s.obj ∧
        t.faults = s.faults))

/-- Acquisition and tracking (R299-R307, R310, R312, R313, R327). A cell above the noise by the margin, of a signal and on a
port that are searched, is a detection, for 500 ms; a tracking channel that fades coasts, and one that does not recover
within its coast time is given up; a side peak stronger than the prompt three times moves a channel by half a chip. The time
offer stands after the return hold; in loss an aided search runs every second. A message demodulated is queued with the next
number, its content used only where its check passed; a session reads the records from its cursor on. -/
def Obligations.GnssTracking : Prop :=
  (∀ (p sys sat sig kind t0 : Nat) (peak noise : Rat) (s : State), s.gnOn = true →
    let gps := (((s.gn.chans.filter fun q => q.2.sys == 0 && q.2.state == 2).map (·.2.sat)).eraseDups).length
    let new' := ∀ q ∈ s.gn.chans, q.2.sys = sys → q.2.sat ≠ sat
    let can := s.portOn p = true ∧ p = sigPort (s.cfgU 0x3608 1) sig ∧ (s.gport p).fault = false ∧
      bit (s.cfgU 0x3600 2) sys = true ∧ noise + s.cfgR 0x3604 3 < peak ∧
      (kind = 2 → (sig = 1 ∨ sig = 7 ∨ (sigGroup sig = 1 ∧ s.cfgB 0x3604 4 = true)) ∧ new' ∧
        (s.gn.lossAt = none ∨ s.gn.cold = true)) ∧
      (kind = 3 → (sig = 3 ∨ sig = 5) ∧ 3 ≤ gps)
    let u := s.at' t0
    (can → exec (.acquisitionSearch p sys sat sig kind t0 peak noise) s =
      .next (u.setGn { s.gn with dets := s.gn.dets ++ [⟨p, sys, sat, sig, max s.clk.time t0 + 500000000⟩] })) ∧
    (¬can → exec (.acquisitionSearch p sys sat sig kind t0 peak noise) s = .next u)) ∧
  (∀ (p sys sat sig t0 : Nat) (s : State), s.gnOn = true →
    ∃ t, exec (.acquisitionLockTimeout p sys sat sig t0) s = .next t ∧
      (∀ d, d ∈ t.gn.dets ↔ d ∈ s.gn.dets ∧
        ¬(d.port = p ∧ d.sys = sys ∧ d.sat = sat ∧ d.sig = sig ∧ d.until' ≤ max s.clk.time t0)) ∧
      { t with gn := s.gn, clk := s.clk } = s ∧ { t.gn with dets := s.gn.dets } = s.gn) ∧
  (∀ (c t0 cn0 : Nat) (x : GChan) (s : State), s.gnOn = true → s.gchan c = some x → x.state = 2 →
    (cn0 : Rat) / 100 < s.lossAtCn0 x.sig →
    ∃ t, exec (.channelFade c t0 cn0) s = .next t ∧ t.gchan c = some { x with state := 3, coastAt := max s.clk.time t0 } ∧
      (∀ d, d ≠ c → t.gchan d = s.gchan d) ∧ { t with gn := s.gn, clk := s.clk } = s) ∧
  (∀ (c t0 : Nat) (x : GChan) (s : State), s.gnOn = true → s.storesOk = true → s.gchan c = some x → x.state = 3 →
    x.coastAt + s.coastNs x.sig ≤ max s.clk.time t0 →
    ∃ t, exec (.coastExpiry c t0) s = .next t ∧ t.gn.chans = tdel s.gn.chans c ∧ s.Counts t 0x3670 2) ∧
  (∀ (c : Nat) (ve pr vl : Rat) (x : GChan) (s : State), s.gnOn = true → s.gchan c = some x → x.sig = 3 ∨ x.sig = 5 →
    (pr < ve ∨ pr < vl → x.side < 2 → exec (.sidePeakCheck c ve pr vl) s = .next (s.setGchan c { x with side := x.side + 1 })) ∧
    (pr < ve ∨ pr < vl → 2 ≤ x.side → exec (.sidePeakCheck c ve pr vl) s =
      .next (s.setGchan c { x with side := 0, moved := x.moved + (if vl < ve then -1 else 1) })) ∧
    (ve ≤ pr → vl ≤ pr → exec (.sidePeakCheck c ve pr vl) s = .next (s.setGchan c { x with side := 0 }))) ∧
  (∀ (t0 a : Nat) (s : State), s.gnOn = true → s.gn.offered = false → s.gn.field = 0 → s.gn.nominalFrom = some a →
    a + State.ns (s.cfgR 0x3600 8) ≤ max s.clk.time t0 →
    exec (.timeOffer t0) s = .next ((s.at' t0).setGn { s.gn with offered := true })) ∧
  (∀ (t0 a : Nat) (s : State), s.gnOn = true → s.gn.lossAt = some a → s.gn.lastSearch + 1000000000 ≤ max s.clk.time t0 →
    exec (.lossAidedSearch t0) s = .next ((s.at' t0).setGn { s.gn with
      lastSearch := max s.clk.time t0, cold := decide (a + 600000000000 ≤ max s.clk.time t0) })) ∧
  (∀ (r : NavRec) (utc : Option (Int × Option (Nat × Int))) (s : State), s.gnOn = true →
    ∃ t, exec (.navigationMessage r utc) s = .next t ∧ t.gn.nav = lastN 1024 (s.gn.nav ++ [{ r with seq := s.gn.navSeq }]) ∧
      t.gn.navSeq = (s.gn.navSeq + 1) % 2 ^ 32 ∧
      (State.NavRec.passed r = false → t.gn.eph = s.gn.eph ∧ t.tb = s.tb) ∧
      (State.NavRec.passed r = true → tfind t.gn.eph (satId r.sys r.sat * 16 + r.msg) = some (r.first, r.bytes) ∧
        ∀ v l, utc = some (v, l) → t.tb = { s.tb with navTai := some v, leap := l })) ∧
  (∀ (p : Path) (s : State), s.up = true → s.existsAbort 0x3645 0 = 0 →
    (s.gn.nav = [] → exec (.navigationRecordsRead p) s = .next (s.answer 0)) ∧
    (∀ old rest, s.gn.nav = old :: rest → (s.session p).nav = none →
      let l := (s.gn.nav.filter fun r => r.seq == old.seq || newerMod (2 ^ 32) r.seq old.seq).take 64
      ∃ t, exec (.navigationRecordsRead p) s = .next t ∧ t.acc.answer = ⟨0, (l.map State.navBytes).flatten⟩ ∧
        (t.session p).nav = l.getLast?.map (fun r => (r.seq + 1) % 2 ^ 32) ∧ t.gn = s.gn))

/-- Epochs, jamming and snapshots (R308, R309, R320, R327-R332). Each measurement epoch publishes position, attitude,
measurements and integrity with its own instant as epoch; the solution is valid where the residual test passes with four
satellites, and then gives the position. Jamming of a group sets the integrity field and withdraws the time offer until it
has ended. A snapshot that awaits it is archived, older ones deleted where the archive is full. In Dormancy a position
further away than the anchor radius is a movement. -/
def Obligations.GnssEpochs : Prop :=
  (∀ (m : GEpoch) (s : State), s.gnOn = true → s.gn.epoch < m.t → m.t * s.cfgU 0x3600 4 % 1000000000 = 0 →
    ∃ t, exec (.measurementEpoch m) s = .next t ∧ t.gn.epoch = m.t ∧
      (∀ i ∈ [0x3640, 0x3641, 0x3642, 0x3643], ∃ l, t.result i = ⟨s.clk.sample, m.t, 0x80, l⟩) ∧
      (m.sols = [] → t.gn.valid = false) ∧
      (∀ x rest, m.sols = x :: rest → x.stat ≤ Config.chi2 (s.cfgR 0x3610 0x0E) x.sats.length → 4 ≤ x.sats.length →
        t.gn.valid = true ∧ t.gn.lossAt = none ∧ t.gn.offset = x.clock ∧ t.gn.lastPos = some (x.lat, x.lon, x.h)) ∧
      (2 ≤ s.therm.level → t.gn.field = s.gn.field ∧ t.gn.declared = s.gn.declared)) ∧
  (∀ (g t0 : Nat) (s : State), s.gnOn = true → g < 2 → bit s.gn.jammed g = false →
    let hit := ((s.groupPorts g).filter s.indicated).length
    2 ≤ hit ∨ ((s.groupPorts g).length = 1 ∧ hit = 1) →
    ∃ t, exec (.jamming g t0) s = .next t ∧ t.gn.jammed = s.gn.jammed ||| 2 ^ g ∧ t.gn.offered = false ∧
      t.gn.field = (if s.gn.declared then 5 else 3) ∧ t.faultIs 0x0B08 g = true) ∧
  (∀ (g t0 a : Nat) (s : State), s.gnOn = true → bit s.gn.jammed g = true → tfind s.gn.calmFrom g = some a →
    a + State.ns (s.cfgR 0x3610 0x0B) ≤ max s.clk.time t0 →
    ∃ t, exec (.jammingEnded g t0) s = .next t ∧ t.gn.jammed = setBit s.gn.jammed g false ∧ t.faultIs 0x0B08 g = false ∧
      (s.records = true → t.newest 0x0B09 0 [])) ∧
  (∀ (k : Nat) (x : Snap) (s : State), s.up = true → s.hasGnss = true → tfind s.gn.snaps k = some x → x.await = true →
    s.therm.level = 0 →
    ∃ t l, exec (.snapshotArchive k) s = .next t ∧ t.gn.archive = l ++ [{ x with await := false }] ∧
      (∀ y ∈ l, y ∈ s.gn.archive) ∧ tfind t.gn.snaps k = some { x with await := false } ∧
      (nsum (s.gn.archive.map State.snapSize) + State.snapSize x ≤ 201326592 → l = s.gn.archive) ∧
      (l = s.gn.archive → s.records = true → t.newest 0x0B10 0 [x.seq, 1])) ∧
  (∀ (t0 : Nat) (pos : Option (Int × Int × Rat)) (s : State), s.st.power = .dormant → s.hasGnss = true →
    s.cfgB 0x3600 1 = true → s.cfgR 0x3620 7 ≠ 0 → s.gn.dormCheck + State.ns (s.cfgR 0x3620 7) ≤ max s.clk.time t0 →
    let u := (s.at' t0).setGn { s.gn with dormCheck := max s.clk.time t0 }
    let fresh := s.gn.eph.any fun p => decide (max s.clk.time t0 < p.2.1 + 14400000000000)
    let xyz := fun (a : Int × Int × Rat) => State.ecef ((a.1 : Rat) / 1000000000) ((a.2.1 : Rat) / 1000000000) a.2.2
    let stays := fun (t : State) => t.gn.moved = s.gn.moved ∧
      ∀ q ∈ t.gn.snaps, ¬(q.2.cause = 4 ∧ q.2.seq = s.gn.snapSeq)
    -- every check captures a snapshot; that of a check without movement is discarded
    let x := u.capture 4 (max s.clk.time t0) true
    ∃ t, exec (.dormancyGnssCheck t0 pos) s = .next t ∧ t.gn.dormCheck = max s.clk.time t0 ∧ t.clk = u.clk ∧
      t.gn.snapSeq = x.gn.snapSeq ∧ (pos = none ∨ s.gn.dormPos = none ∨ fresh = false → stays t) ∧
      (∀ p q, pos = some p → s.gn.dormPos = some q → fresh = true →
        let d := rsqrt (rsq ((xyz p).1 - (xyz q).1) + rsq ((xyz p).2.1 - (xyz q).2.1) + rsq ((xyz p).2.2 - (xyz q).2.2))
        (s.cfgR 0x3620 8 < d → t.gn.moved = true ∧ t.gn.snaps = x.gn.snaps ∧
          (x.records = true → t.newest 0x0B11 0 [State.pR d])) ∧
        (d ≤ s.cfgR 0x3620 8 → stays t)))

/-! The timebase (chapter 13). -/

/-- Sources and the servo (R337-R349). A measurement of the source in use whose mean over the last three lies within the step
threshold drives the servo of R342; between the thresholds a step is planned for the next whole second, and beyond the jump
threshold the source is refused, but the first beyond it waits for the next, and a single one is discarded; before device time
is set, the first sets it. A step that falls due shifts device time and the grid, the initial one numbers the frames
(log 49). A source that meets the loss condition of its kind is qualified no longer; without a source the unit holds over, at
quality 2 and after the limit at 3. -/
def Obligations.SourcesAndServo : Prop :=
  (∀ (e t0 : Nat) (theta : Rat) (s : State), s.up = true → e < 8 → s.srcOn e = true → s.follower = false →
    s.ready' e = some theta → s.tb.use = some e → s.bestSrc = some e →
    let now := max s.clk.time t0
    let meas := (s.src e).meas
    -- beyond the jump threshold: this measurement, and the one before it, which is a single one (R344)
    let beyond := s.jumpThr < rabs theta
    let before := ∃ p, meas.getLast? = some p ∧ s.jumpThr < rabs p.2
    let single := before ∧ ¬beyond ∧ ∀ q, meas.dropLast.getLast? = some q → rabs q.2 ≤ s.jumpThr
    let plan := fun (l : List (Nat × Rat)) (initial : Bool) =>
      (State.nextSecond now, -(roundEven (rsum (l.map (·.2)) / (l.length : Rat) +
        State.rateOf l * ((State.nextSecond now : Rat) - rsum (l.map fun p => (p.1 : Rat)) / (l.length : Rat)) / 1000000000)), initial)
    -- the decision on the measurements that stand
    let decided := fun (l : List (Nat × Rat)) =>
      let mean := rsum (l.map (·.2)) / 3
      let kp := s.cfgR (0x3810 + e) 4
      let ki := s.cfgR (0x3810 + e) 5
      let tau : Rat := match s.tb.last with
        | some a => ((now - a : Nat) : Rat) / 1000000000
        | none => 0
      let r := if 50000 < rabs (-(kp * theta)) then s.tb.r else rclamp (-100000) 100000 (s.tb.r - ki * tau * theta)
      (l.length < 3 ∨ s.tb.step.isSome ∨ rabs mean ≤ s.stepThr →
        ∃ t, exec (.timeMeasurement e t0) s = .next t ∧ t.tb.theta = theta ∧ t.tb.r = r ∧
          t.tb.y = r + rclamp (-50000) 50000 (-(kp * theta)) ∧ t.tb.last = some now ∧ t.tb.use = some e ∧
          t.tb.inLock = (if rabs theta ≤ s.lockThr then s.tb.inLock + 1 else 0)) ∧
      (l.length = 3 → s.tb.step = none → s.stepThr < rabs mean → rabs mean ≤ s.jumpThr →
        ∃ t, exec (.timeMeasurement e t0) s = .next t ∧ t.tb.step = some (plan l false) ∧ t.tb.dec = [] ∧ t.tb.y = s.tb.y) ∧
      (l.length = 3 → s.tb.step = none → s.stepThr < rabs mean → s.jumpThr < rabs mean →
        ∃ t, exec (.timeMeasurement e t0) s = .next t ∧ (t.src e).refused = true ∧ t.tb.step = none ∧
          t.tb.refusedTheta = roundEven mean ∧ t.faultIs 0x0C07 e = true)
    let l := lastN 3 (s.tb.dec ++ [(now, theta)])
    -- the first beyond the jump threshold waits for the next; a single one is discarded and counted
    (s.tb.initial = true → beyond → ¬before → ∃ t, exec (.timeMeasurement e t0) s = .next t ∧ t.tb.dec = l ∧
      t.tb.y = s.tb.y ∧ t.tb.step = s.tb.step ∧ (t.src e).refused = (s.src e).refused) ∧
    (s.tb.initial = true → single → decided (lastN 3 (s.tb.dec.dropLast ++ [(now, theta)])) ∧
      ∃ t, exec (.timeMeasurement e t0) s = .next t ∧ (t.src e).outliers = (s.src e).outliers + 1 ∧
        (t.src e).meas = lastN 3 (meas.dropLast ++ [(now, theta)])) ∧
    (s.tb.initial = true → ¬single → ¬(beyond ∧ ¬before) → decided l) ∧
    -- the initial set of device time (R347)
    (s.tb.initial = false → s.tb.step.isSome → decided l) ∧
    (s.tb.initial = false → s.tb.step = none →
      ∃ t, exec (.timeMeasurement e t0) s = .next t ∧ t.tb.step = some (plan l true) ∧ t.tb.dec = [])) ∧
  (∀ (t0 S : Nat) (d : Int) (init : Bool) (s : State), s.up = true → s.storesOk = true → s.tb.step = some (S, d, init) →
    S ≤ t0 →
    ∃ t, exec (.timeStep t0) s = .next t ∧ t.clk.time = State.shiftNat S d ∧ t.tb.step = none ∧ t.tb.lastStep = d ∧
      t.tb.initial = true ∧ s.Counts t 0x3841 1 ∧
      (init = false → t.clk.frame = s.clk.frame ∧ t.tb.next = State.shiftNat s.tb.next d) ∧
      (init = true → t.clk.frame = State.shiftNat S d / 1250000 ∧ t.tb.next = (State.shiftNat S d / 1250000 + 1) * 1250000)) ∧
  (∀ (e t0 : Nat) (s : State), s.up = true → s.storesOk = true → e < 8 → (s.src e).qualified = true →
    let k := s.srcKind e
    let now := max s.clk.time t0
    (k = 1 ∧ s.gn.offered = false) ∨ (k = 4 ∧ s.tb.ptp.gm = none) ∨
      ((k = 2 ∨ k = 3) ∧ ((s.src e).off = true ∨ (s.src e).labelled + 3000000000 ≤ now ∨ (s.src e).edges = [] ∨
        ∃ a, (s.src e).edges.getLast? = some a ∧ a + 1250000000 ≤ (now : Rat))) →
    ∃ t, exec (.sourceLost e t0) s = .next t ∧ (t.src e).qualified = false ∧ (t.src e).meas = [] ∧ s.Counts t 0x3841 3 ∧
      (∀ j, j ≠ e → t.src j = s.src j)) ∧
  (∀ s : State, s.up = true → s.tb.lost = true → s.tb.use = none → s.tb.holdFrom = none →
    ∃ t, exec .holdoverEntry s = .next t ∧ State.Alarmed (s.setTb { s.tb with
      lost := false, holdFrom := some s.clk.time, r := if s.tb.learned then s.tb.rMean else s.tb.r,
      y := if s.tb.learned then s.tb.rMean else s.tb.r, quality := 2,
      slewing := false }) t 0x0C02 0 1 []) ∧
  (∀ (t0 a : Nat) (s : State), s.up = true → s.tb.holdFrom = some a → s.tb.quality = 2 →
    a + State.ns (s.cfgR 0x3800 5) ≤ max s.clk.time t0 →
    ∃ t, exec (.holdoverLimit t0) s = .next t ∧ ((s.at' t0).setTb { s.tb with quality := 3 }).Noted t 0x0C03 0 []) ∧
  (∀ (t0 : Nat) (s : State), s.up = true → s.follower = true → s.hal.thetas ≠ [] →
    let now := max s.clk.time t0
    let theta := rsum s.hal.thetas / (s.hal.thetas.length : Rat)
    (s.tb.initial = true → s.jumpThr < rabs theta →
      ∃ t, exec (.halurTimeMeasurement t0) s = .next t ∧ t.st.role = 3 ∧ t.hal.thetas = [] ∧ t.faultIs 0x0C0C 0 = true) ∧
    (s.tb.initial = true ∧ rabs theta ≤ s.jumpThr ∨ s.tb.initial = false ∧ s.tb.step.isSome →
      ∃ t, exec (.halurTimeMeasurement t0) s = .next t ∧ t.hal.thetas = [] ∧ t.tb.theta = theta ∧ t.tb.last = some now ∧
        t.tb.use = some 8 ∧ t.tb.y = t.tb.r + rclamp (-50000) 50000 (-(s.cfgR 0x3800 9 * theta)) ∧
        (∀ a, s.tb.use = some 8 → s.tb.last = some a → t.tb.r = if 50000 < rabs (-(s.cfgR 0x3800 9 * theta)) then s.tb.r
          else rclamp (-100000) 100000 (s.tb.r - s.cfgR 0x3800 0x0A * (((now - a : Nat) : Rat) / 1000000000) * theta)) ∧
        t.faultIs 0x0C0C 0 = false ∧ t.st.role = s.st.role) ∧
    (s.tb.initial = false → s.tb.step = none →
      ∃ t, exec (.halurTimeMeasurement t0) s = .next t ∧ t.hal.thetas = [] ∧
        ∃ d, t.tb.step = some (State.nextSecond now, d, true))) ∧
  (∀ (t0 : Nat) (s : State), s.up = true → s.st.role = 3 → s.hal.joinTime = true → s.hal.thetas ≠ [] →
    let theta := rsum s.hal.thetas / (s.hal.thetas.length : Rat)
    ∃ t, exec (.halurTimeMeasurement t0) s = .next t ∧ t.hal = { s.hal with thetas := [], joinTime := false } ∧
      t.tb = { s.tb with step := some (State.nextSecond (max s.clk.time t0), -(roundEven theta), true) } ∧
      { t with hal := s.hal, tb := s.tb, clk := s.clk } = s)

/-- Reference and pulses (R336, R338, R350, R351). The reference in use follows 3800h:01h, a change of it forgets the learned
rate; an edge of an input enters its entries less their delay; an output pulses at its second unless the quality squelches it;
an announced leap second takes effect at the end of its day. -/
def Obligations.ReferenceAndPulses : Prop :=
  (∀ (present : Bool) (s : State), s.up = true →
    let use := match s.cfgU 0x3800 1 with
      | 0 => present
      | 1 => false
      | _ => true
    let u := { s.tb with ref10 := present, onRef10 := use }
    (use = s.tb.onRef10 → exec (.referenceChange present) s = .next (s.setTb u)) ∧
    (use ≠ s.tb.onRef10 → ∃ t, exec (.referenceChange present) s = .next t ∧
      (s.setTb { u with rates := [], learnFrom := 0, learned := false }).Noted t 0x0C0A 0 [if use then 2 else 1])) ∧
  (∀ (p t0 e : Nat) (s : State), s.up = true → p < 2 → e < 8 → s.srcOn e = true → s.srcKind e = 2 + p →
    ∃ t, exec (.ppsInEdge p t0) s = .next t ∧
      (t.src e).edges = lastN 2 ((s.src e).edges ++ [(t0 : Rat) - s.cfgR (0x3810 + e) 3]) ∧
      (t.src e).qualified = (s.src e).qualified ∧ (∀ j, s.srcKind j ≠ 2 + p → t.src j = s.src j)) ∧
  (∀ (n t0 : Nat) (s : State), s.up = true → n < 2 → (t0 + (s.cfgR (0x3820 + n) 2).floor.toNat) % 1000000000 = 0 →
    let q := (s.cfgU (0x3820 + n) 3 == 1 && s.tb.quality == 3) || (s.cfgU (0x3820 + n) 3 == 2 && s.tb.quality != 0)
    exec (.ppsOutPulse n t0) s = .next ((s.at' t0).setTb { s.tb with
      squelch := setBit s.tb.squelch n q,
      ppsHigh := if q then tdel s.tb.ppsHigh n else tset s.tb.ppsHigh n (t0 + State.ns (s.cfgR (0x3820 + n) 1 / 1000)) })) ∧
  (∀ (t0 d : Nat) (v : Int) (s : State), s.up = true → s.storesOk = true → s.tb.leap = some (d, v) → d ≤ t0 →
    ∃ t, exec (.leapSecondChange t0) s = .next t ∧ t.objI 0x3801 1 = v ∧ t.tb = { s.tb with navTai := some v, leap := none } ∧
      (s.records = true → t.newest 0x0C0D 0 [State.pI (s.objI 0x3801 1), State.pI v]))

/-- PTP (R352-R357, Table 13-1). A Sync of the grandmaster on its port gives its entries their next measurement, capture less
origin time, correction and link delay. An Announce of the grandmaster keeps it, a better clock than the unit and the
grandmaster takes its place and the PTP entries lose their qualification, as they do where Announces or Syncs stay out. The
correction field of a message forwarded gains its residence. A transmit timestamp enters its port's queue of 16 or is lost. -/
def Obligations.PtpEngine : Prop :=
  (∀ (domain port t0 : Nat) (capture : Rat) (t1 corr : Int) (s : State), s.up = true → s.cfgU 0x3830 1 ≠ 0 →
    s.cfgU 0x3830 3 = domain → s.tb.ptp.gm.isSome → s.tb.ptp.port = port →
    let t2 := capture - 2128 / 10 - s.cfgR 0x3860 (port + 1)
    ∃ t, exec (.ptpSync domain port t0 capture t1 corr none) s = .next t ∧ t.tb.ptp =
        { s.tb.ptp with synced := max s.clk.time t0, sync := some (t1, roundEven t2) } ∧
      (∀ e ∈ s.ptpSrcs domain port, (t.src e).next = some (t2 - t1 - (corr : Rat) / 65536 - s.tb.ptp.delay)) ∧
      (∀ e, e ∉ s.ptpSrcs domain port → t.src e = s.src e)) ∧
  (∀ (domain port t0 seq type at' : Nat) (capture : Rat) (t1 corr t4 rc : Int) (s : State), s.up = true →
    s.cfgU 0x3830 1 ≠ 0 → s.cfgU 0x3830 3 = domain → s.tb.ptp.gm.isSome → s.tb.ptp.port = port →
    s.tb.ptp.times.find? (fun x => x.2.1 == seq && x.1 != 0) = some (type, seq, at') →
    -- the newest answer to a delay request gives the delay (R342), in a peer profile that of the link (R354)
    let t2 := capture - 2128 / 10 - s.cfgR 0x3860 (port + 1)
    let there := t2 - t1 - (corr : Rat) / 65536
    let back := (t4 : Rat) - at' - (rc : Rat) / 65536
    let delay := if s.cfgU 0x3830 1 = 1 then (there + back) / 2 else back / 2
    ∃ t, exec (.ptpSync domain port t0 capture t1 corr (some (seq, t4, rc))) s = .next t ∧ t.tb.ptp.delay = delay ∧
      (s.cfgU 0x3830 1 ≠ 1 → tget 0 t.tb.ptp.link port = delay) ∧
      ∀ e ∈ s.ptpSrcs domain port, (t.src e).next = some (there - delay)) ∧
  (∀ (domain port t0 : Nat) (d : Dataset) (s : State), s.up = true → s.cfgU 0x3830 1 ≠ 0 → s.cfgU 0x3830 3 = domain →
    let now := max s.clk.time t0
    (∀ g, s.tb.ptp.gm = some g → g.identity = d.identity → exec (.ptpAnnounce domain port t0 d) s =
      .next ((s.at' t0).setPtp { s.tb.ptp with gm := some d, port := port, announced := now })) ∧
    ((∀ g, s.tb.ptp.gm = some g → g.identity ≠ d.identity ∧ State.better d g = true) → State.better d s.ownDataset = true →
      ∃ t, exec (.ptpAnnounce domain port t0 d) s = .next t ∧ t.tb.ptp.gm = some d ∧ t.tb.ptp.port = port ∧
        t.tb.ptp.announced = now ∧ (∀ e, e < 8 → s.srcKind e = 4 → (t.src e).qualified = false)) ∧
    ((∀ g, s.tb.ptp.gm = some g → g.identity ≠ d.identity) →
      State.better d s.ownDataset = false ∨ (∃ g, s.tb.ptp.gm = some g ∧ State.better d g = false) →
      exec (.ptpAnnounce domain port t0 d) s = .next (s.at' t0))) ∧
  (∀ (t0 : Nat) (s : State), s.up = true → s.tb.ptp.gm.isSome →
    let now := max s.clk.time t0
    s.tb.ptp.announced + 3 * State.logNs (s.cfgI 0x3830 9) ≤ now ∨ s.tb.ptp.synced + 3 * State.logNs (s.cfgI 0x3830 8) ≤ now →
    ∃ t, exec (.announceReceiptTimeout t0) s = .next t ∧ t.tb.ptp = { s.tb.ptp with gm := none, sync := none } ∧
      (∀ e, e < 8 → s.srcKind e = 4 → (t.src e).qualified = false)) ∧
  (∀ (a b type : Nat) (capIn capOut : Rat) (corr : Int) (s : State), s.up = true → a ≠ b → type < 4 →
    s.cfgU (0x4001 + a) 2 = s.cfgU (0x4001 + b) 2 → s.cfgU 0x3830 1 ≠ 0 →
    -- but between the ports of a boundary clock
    ¬(s.cfgU 0x3830 2 = 1 ∧ bit (s.cfgU 0x3830 0x0B) a = true ∧ bit (s.cfgU 0x3830 0x0B) b = true) →
    let residence := capOut + 168 + s.cfgR 0x3860 (b + 5) - (capIn - 2128 / 10 - s.cfgR 0x3860 (a + 1))
    let link := if type = 0 ∧ s.cfgU 0x3830 1 = 2 then tget 0 s.tb.ptp.link a else 0
    exec (.ptpEventForward a b type capIn capOut corr) s =
      .next (s.setPtp { s.tb.ptp with forwarded := corr + roundEven ((residence + link) * 65536) })) ∧
  (∀ (port type seq : Nat) (capture : Rat) (s : State), s.up = true → port < 4 →
    let q := tget [] s.tb.ptp.queues port
    let at' := (capture + 168 + s.cfgR 0x3860 (port + 5)).floor.toNat
    (q.length < 16 → exec (.transmitTimestamp port type seq capture) s =
      .next (s.setPtp { s.tb.ptp with queues := tset s.tb.ptp.queues port (q ++ [(type, seq, at')]) })) ∧
    (16 ≤ q.length → s.storesOk = true → ∃ t, exec (.transmitTimestamp port type seq capture) s = .next t ∧
      t.tb.ptp.queues = s.tb.ptp.queues ∧ t.tb.ptp.overflow = setBit s.tb.ptp.overflow port true ∧
      s.Counts t 0x3841 (4 + port))) ∧
  (∀ (a b type : Nat) (capIn capOut : Rat) (corr : Int) (s : State), s.cfgU 0x3830 1 = 0 →
    exec (.ptpEventForward a b type capIn capOut corr) s = .next s) ∧
  (∀ (port : Nat) (s : State), s.up = true → s.cfgU 0x3830 1 ≠ 0 → s.cfgB 0x3830 7 = false →
    -- an ordinary clock that knows no better one, a boundary clock on its ports but the one towards its grandmaster
    (s.cfgU 0x3830 2 ≠ 1 ∧ s.tb.ptp.gm = none) ∨ (s.cfgU 0x3830 2 = 1 ∧ bit (s.cfgU 0x3830 0x0B) port = true ∧
      (s.tb.ptp.gm = none ∨ s.tb.ptp.port ≠ port)) →
    exec (.ptpSyncTransmit port) s = .next (s.setPtp { s.tb.ptp with
      sent := s.tb.ptp.sent ++ [(0, s.tb.ptp.syncSeq, port)], syncSeq := (s.tb.ptp.syncSeq + 1) % 65536 })) ∧
  (∀ (port : Nat) (s : State), s.up = true → s.cfgU 0x3830 1 ≠ 0 → s.tb.ptp.gm.isSome ∨ s.cfgU 0x3830 1 ≠ 1 →
    exec (.ptpDelayReqTransmit port) s = .next (s.setPtp { s.tb.ptp with
      sent := s.tb.ptp.sent ++ [(if s.cfgU 0x3830 1 = 1 then 1 else 2, s.tb.ptp.delaySeq, port)],
      delaySeq := (s.tb.ptp.delaySeq + 1) % 65536 }))

/-! Panicle (chapter 16). -/

/-- A scan (R414, R416, R424, R426, R427, R433). At its first frame the inputs are latched; from offset 1 a unit that follows
no Lead runs the instructions once in order over the latched inputs and the forces; in the last frame each output binding
writes its object as a write on Panicle's path does, and the scan's results are published. A scan whose execution has not ended
stops the unit and writes no output. The retained variables go to the older of the two copies with the next serial number. -/
def Obligations.PanicleScan : Prop :=
  (∀ s : State, s.scans = true → s.scanBoundary = true → s.pan.latched = false →
    ∃ t, exec .panicleInputPhase s = .next t ∧ t.pan.latched = true ∧ t.pan.executed = false ∧ t.pan.start = s.clk.frame ∧
      (s.pan.restart = none → t.pan.vals = s.pan.vals ∧ t.pan.sts = s.pan.sts ∧ t.pan.scan = s.pan.scan ∧
        t.pan.first = s.pan.old.isSome ∧ ∀ p, s.pan.prog = some p →
          t.pan.inputs.map (·.1) = (p.binds.filter (·.dir == 1)).map (·.var)) ∧
      (∀ k c, s.pan.restart = some (k, c) → t.pan.scan = 0 ∧ t.pan.first = true ∧ t.pan.restart = none)) ∧
  (∀ (us : Rat) (p : Prog) (s : State), s.scans = true → s.storesOk = true → s.pan.latched = true → s.pan.executed = false →
    1 ≤ s.clk.frame - s.pan.start → s.clk.frame - s.pan.start < s.pan.len → s.st.role ≠ 1 → s.st.role ≠ 2 →
    s.pan.prog = some p → s.pan.old = none →
    let vals := foldS s.pan.vals s.pan.inputs fun l x => if (tfind s.forcedVals x.1).isSome then l else putNth l x.1 x.2
    let m := Vm.run p s.forcedVals (5 * s.pan.len) ⟨vals, s.pan.sts, false, 0⟩
    ∃ t, exec (.panicleExecutePhase us) s = .next t ∧ t.pan.vals = m.vals ∧ t.pan.sts = m.sts ∧ t.pan.executed = true ∧
      t.pan.time = us ∧ t.pan.maxTime = rmax s.pan.maxTime us ∧ t.pan.prevVals = s.pan.vals ∧
      (m.sticky = true → t.objU 0x3C51 0 = 1) ∧ (m.sticky = false → s.sameObjects t)) ∧
  (∀ (p : Prog) (s : State), s.scans = true → s.storesOk = true → s.pan.latched = true → s.pan.executed = true →
    s.clk.frame - s.pan.start + 1 = s.pan.len → s.pan.prog = some p →
    let lines := p.binds.filter fun b => b.dir == 2 && b.kind == 2
    (State.outObjects p = [] →
      ∃ t, exec .panicleOutputPhase s = .next t ∧ t.pan.latched = false ∧ t.pan.scan = (s.pan.scan + 1) % 2 ^ 32 ∧
        s.Published t 0x3C40 ∧ s.Published t 0x3C41 ∧ s.Counts t 0x3C50 1 ∧
        t.io.panDio = lines.foldl (fun n b => setBit n b.addr ((varVal s.forcedVals s.pan.vals b.var).asNat != 0)) s.io.panDio) ∧
    (∀ i j r, State.outObjects p = [(i, j)] → findRow i j = some r → r.loc = true ∨ s.isFollower = false →
      let v := s.outValue (State.outBinds p i j) i j
      v ≠ s.presentV i j →
      ∃ t w, exec .panicleOutputPhase s = .next t ∧ exec (.genericWrite .panicle i j (encodeVal r.ty v)) s = .next w ∧
        t.acc.fresh = w.acc.fresh ∧ (∀ k, k ≠ okey 0x3C50 1 → k ≠ okey 0x3C50 2 → k ≠ okey 0x4601 4 → getV t.obj k = getV w.obj k) ∧
        (w.acc.answer.code = 0 → t.gran = w.gran))) ∧
  (∀ s : State, s.scans = true → s.pan.latched = true → s.pan.executed = false → s.clk.frame - s.pan.start + 1 = s.pan.len →
    ∃ t, exec .panicleScanOverrun s = .next t ∧ t.Stops 0x0E04 ∧ t.pan = { s.pan with latched := false } ∧ t.io = s.io) ∧
  (∀ (t0 : Nat) (p : Prog) (s : State), s.up = true → s.pan.retainAt + State.ns (s.cfgR 0x3C00 4) ≤ max s.clk.time t0 →
    s.pan.prog = some p →
    let key := fun k => idKey (nth ⟨0, 0, 0, 0⟩ p.vars k).id (nth ⟨0, 0, 0, 0⟩ p.vars k).ty
    ∃ t c, exec (.panicleRetainWrite t0) s = .next t ∧ t.pan.retainAt = max s.clk.time t0 ∧ c.valid = true ∧
      c.serial = (s.pan.newest.map (·.serial)).getD 0 + 1 ∧
      (t.pan.copyA = c ∧ t.pan.copyB = s.pan.copyB ∨ t.pan.copyB = c ∧ t.pan.copyA = s.pan.copyA) ∧
      t.faultIs 0x0E0A 0 = false ∧
      (∀ k, k < p.vars.length → bit (nth ⟨0, 0, 0, 0⟩ p.vars k).flags 0 = true →
        (∀ j, j < p.vars.length → key j = key k → j = k) → tfind c.vars (key k) = some (nth (.u 0) s.matchNow.pan.vals k)))

/-! The Halur link (chapter 17). -/

/-- Sending (R27, R41, R42, R427, R441): a fast message in each frame, with the Lead's blocks where the unit is Lead, and a
full message in f(N-1). A partner whose digest has differed for 8 samples, a mirror missed for the configured samples, a
partner silent on the link but seen on the field network are F1 faults (R42, R443, Table 17-4), a change of a port is an
event (R439). -/
def Obligations.HalurSendingAndWatch : Prop :=
  (∀ (t0 : Int) (s : State), s.up = true → s.units ≠ 1 → s.hal.conflict = false → s.st.unitId < s.units → s.mode.mode ≠ 7 →
    s.hal.fastSent ≠ some s.clk.frame →
    ∃ t, exec (.fastMirrorSend t0) s = .next t ∧ t.hal.fastSent = some s.clk.frame ∧ t.mir.tx = some (s.clk.frame, t0) ∧
      t.mir.fastOut = some (s.beat t0, if s.st.role = 0 then some s.fastLead else none)) ∧
  (∀ s : State, s.up = true → s.units ≠ 1 → s.st.role ≠ 3 → s.fOff + 1 = s.clk.n → s.hal.fullSent ≠ some s.clk.frame →
    ∃ t x r, exec .fullMirrorSend s = .next t ∧ t.hal.fullSent = some s.clk.frame ∧ t.mir.fullOut = some (x, r) ∧
      x = (if s.st.role = 0 then some s.fullLead else none) ∧ r.mirrorDeg = s.hal.mirrorDeg ∧
      (s.st.role = 0 → t.pan.asked = false ∧ t.mir.commits = s.mir.commits.filter (fun p => p.2 != s.nextF0) ∧ ∀ c ∈ t.mode.cmds, c.sent = true)) ∧
  (∀ (u : Nat) (s : State), s.up = true → 8 ≤ tget 0 s.acc.mismatch u → s.faultIs 0x0003 u = false →
    ∃ t, exec (.sharedValueDigestMismatch u) s = .next t ∧
      s.Alarmed t 0x0003 u 1 [u, s.sharedDigest, if s.st.role = 0 then s.sharedDigest else (s.unit u).digest]) ∧
  (∀ s : State, s.up = true → s.isFollower = true → s.hal.mirrorDeg = false → s.cfgU 0x3E00 5 ≤ s.hal.missed →
    ∃ t, exec .mirrorDegraded s = .next t ∧ (s.setHal { s.hal with mirrorDeg := true }).Alarmed t 0x0F09 0 1 []) ∧
  (∀ (u : Nat) (s : State), s.up = true → s.st.role ≠ 3 → s.hal.degraded = false → u ∈ s.others → 3 ≤ (s.unit u).silentH →
    (s.unit u).silentF = 0 → (s.unit u).role ≠ 3 →
    ∃ t, exec .halurDegraded s = .next t ∧ t.hal = { s.hal with degraded := true } ∧ t.faultIs 0x0F06 0 = true) ∧
  (∀ (port : Nat) (b : Bool) (s : State), s.up = true → port < 2 → (if port = 0 then s.hal.h0 else s.hal.h1) ≠ b →
    ∃ t, exec (.halurPortChange port b) s = .next t ∧
      (s.setHal (if port = 0 then { s.hal with h0 := b } else { s.hal with h1 := b })).Noted t 0x0F0E 0 [port, b2n b])

/-- Messages of the other units (R427, R442, R447, R449, R454). A heartbeat says what its unit is. The Lead's fast and full
messages are accepted by a Shadow or Reserve where epoch, frame and sample are those in force and they come in time; one that
comes late is counted and changes nothing of what they carry. A second Lead is an F1 fault, and the unit that it outranks
yields. -/
def Obligations.HalurMessages : Prop :=
  (∀ (h : HHead) (b : Beat) (s : State), s.up = true → s.Hears h 1 → h.role ≠ 0 →
    ∃ t, exec (.halurFastFrame h b none) s = .next t ∧ (t.unit h.sender).heard = some s.clk.frame ∧
      (t.unit h.sender).role = h.role ∧ (t.unit h.sender).epoch = h.epoch ∧ (t.unit h.sender).prio = b.prio ∧
      (t.unit h.sender).digest = b.digest ∧ (t.unit h.sender).silentH = 0 ∧ (t.unit h.sender).stopped = false) ∧
  (∀ (h : HHead) (b : Beat) (s : State), s.up = true → s.Hears h 1 → h.role = 0 → s.st.role = 0 → s.hal.degraded = false →
    ∃ t, exec (.halurFastFrame h b none) s = .next t ∧ t.hal.twoLeads = some h.sender ∧ t.faultIs 0x0F0F h.sender = true ∧
      (s.outranked h.sender = true → t.hal.yielding = true)) ∧
  (∀ (h : HHead) (b : Beat) (f : FastLead) (s : State), s.up = true → s.storesOk = true → s.Hears h 1 → s.isFollower = true →
    s.hal.degraded = false → h.role = 0 → h.epoch = s.leadEpoch → h.frame = s.clk.frame → h.sample = s.clk.sample →
    (h.us ≤ 450 → ∃ t, exec (.halurFastFrame h b (some f)) s = .next t ∧ t.mir.fastIn = some (s.clk.frame, f) ∧
      t.hal.fastMiss = false ∧ t.ctl.stook.leadDet = f.det ∧ t.ctl.stook.rem = f.rem ∧ t.tb.step = f.step ∧
      (∀ c ∈ f.cmds, ∃ d ∈ t.mode.cmds, d.word = c.word ∧ d.isMode = c.isMode) ∧
      (f.seqSet = true → t.objU 0x2202 1 = f.lastSeq ∧ t.objU 0x2202 5 = 1)) ∧
    (450 < h.us → ∃ t, exec (.halurFastFrame h b (some f)) s = .next t ∧ t.mir.fastIn = s.mir.fastIn ∧ t.mode = s.mode ∧
      t.tb = s.tb ∧ t.hal.fastMiss = true ∧ s.Counts t 0x3E50 1)) ∧
  (∀ (h : HHead) (m : FullLead) (r : Report) (s : State), s.up = true → s.storesOk = true → s.Hears h 2 → s.isFollower = true →
    s.hal.degraded = false → h.role = 0 → h.epoch = s.leadEpoch → h.frame = s.clk.frame → h.sample = s.clk.sample →
    (h.us ≤ 1200 → ∃ t, exec (.halurFullFrame h (some m) r) s = .next t ∧ t.mir.fullIn = some (s.clk.frame, m) ∧
      t.hal.fullMiss = false ∧ (t.unit h.sender).report = r.objs ∧ (t.unit h.sender).reportRes = r.res) ∧
    (1200 < h.us → ∃ t, exec (.halurFullFrame h (some m) r) s = .next t ∧ t.mir.fullIn = s.mir.fullIn ∧
      t.hal.fullMiss = true ∧ s.Counts t 0x3E50 2 ∧ (t.unit h.sender).report = (s.unit h.sender).report)) ∧
  (∀ (h : HHead) (r : Report) (s : State), s.up = true → s.Hears h 2 → h.role = 1 ∨ h.role = 2 →
    ∃ t, exec (.halurFullFrame h none r) s = .next t ∧ (t.unit h.sender).report = r.objs ∧
      (t.unit h.sender).reportRes = r.res ∧ (t.unit h.sender).reportAt = h.frame ∧ t.mir.fullIn = s.mir.fullIn) ∧
  (∀ (h : HHead) (s : State), s.up = true → s.Hears h 9 → s.st.role = 0 →
    ∃ t, exec (.panicleRequest h) s = .next t ∧ t.pan = { s.pan with asked := true })

/-- Loss and change of the Lead (R437, R450-R452, R454, R456-R458). The unit that finds the Lead it follows gone claims the
next epoch in the last frame; a claim or a stop notice, a yield of another unit are taken in; the claim that stands for five
frames takes the Lead with its epoch. Where no Lead is heard for the join wait, a unit that works alone takes the Lead, else
one that no unit without a role outranks claims. -/
def Obligations.LeadChanges : Prop :=
  (∀ (u : Nat) (s : State), s.up = true → s.lossDue = some u →
    let e := (s.leadEpoch + 1) % 65536
    ∃ t, exec .leadLossDeclaration s = .next t ∧ t.hal = { s.hal with claim := some (s.clk.frame - 1, e), lostLead := some u } ∧
      t.faultIs 0x0F02 u = true ∧ t.st = s.st) ∧
  (∀ (h : HHead) (epoch prio : Nat) (s : State), s.up = true → s.storesOk = true → s.Hears h 3 → h.role ≠ 0 →
    let wins := State.before prio h.sender (s.cfgU 0x3E00 1) s.st.unitId
    ∃ t, exec (.claim h epoch prio) s = .next t ∧ (t.unit h.sender).prio = prio ∧
      (wins = true → t.hal.claim = none ∧ (s.hal.claim.isSome → s.Counts t 0x3E50 4)) ∧
      (wins = false → t.hal.claim = s.hal.claim)) ∧
  (∀ (fd e : Nat) (s : State), s.up = true → s.storesOk = true → s.hal.claim = some (fd, e) → fd + 5 ≤ s.clk.frame →
    ∃ t, exec .takeLead s = .next t ∧ t.st.role = 0 ∧ t.leadEpoch = e % 65536 ∧ t.hal.claim = none ∧ t.hal.join = 0 ∧
      t.mir.fastIn = none ∧ t.mir.fullIn = none ∧ s.Counts t 0x3E50 3) ∧
  (∀ (h : HHead) (target : Nat) (s : State), s.up = true → s.Hears h 4 →
    ∃ t, exec (.yield h target) s = .next t ∧ (target ≠ 0xFF → t.hal.yieldIn = some (target, s.nextF0)) ∧
      (target = 0xFF → (t.unit h.sender).role = 3 ∧ t.hal.yieldIn = s.hal.yieldIn)) ∧
  (∀ (h : HHead) (code : Nat) (s : State), s.up = true → s.Hears h 5 →
    ∃ t, exec (.stopNotice h code) s = .next t ∧ (t.unit h.sender).stopped = true ∧
      (t.unit h.sender).role = (s.unit h.sender).role) ∧
  (∀ s : State, s.up = true → s.storesOk = true → s.st.role = 3 → s.hal.conflict = false → s.st.unitId < s.units →
    s.hal.claim = none → s.cfgU 0x3E00 3 ≤ s.hal.waited →
    let heard := s.others.filter fun u => (s.unit u).role == 3 && (s.unit u).heard.isSome && !s.gone u
    let e := (maxNat (s.leadEpoch :: heard.map fun u => (s.unit u).nvEpoch) + 1) % 65536
    (s.units = 1 → ∃ t, exec .election s = .next t ∧ t.st.role = 0 ∧ t.leadEpoch = (s.leadEpoch + 1) % 65536 ∧
      t.mode.mode = 0) ∧
    (s.units ≠ 1 → heard.any s.outranked = false → ∃ t, exec .election s = .next t ∧
      (s.setHal { s.hal with claim := some (s.clk.frame - 1, e) }).Noted t 0x0F03 0 [e]) ∧
    (s.units ≠ 1 → heard.any s.outranked = true → exec .election s = .next s))

/-- Large writes and a joining unit (R447, R456). The Lead sends a joining unit the pair-shared values. A fragment is kept and
acknowledged; the Lead drops what a unit acknowledges, and accepts the write once no unit has a fragment open; 64 frames from
its start the transfer ends and the write changes nothing. -/
def Obligations.LargeWrites : Prop :=
  (∀ (h : HHead) (prio nvEpoch : Nat) (s : State), s.up = true → s.Hears h 6 → s.st.role = 0 → s.hal.degraded = false →
    h.role ≠ 0 → (∀ b ∈ s.acc.bulk, b.key = 0 → ∀ p ∈ b.open', p.1 ≠ h.sender) →
    let body := s.sharedBody
    ∃ t, exec (.joinRequest h prio nvEpoch) s = .next t ∧ (t.unit h.sender).prio = prio ∧
      (t.unit h.sender).nvEpoch = nvEpoch ∧
      t.acc.bulk = s.acc.bulk ++ [⟨0, body, .recvMap, none, [(h.sender, List.range (State.fragCount body.length))], s.clk.frame, []⟩]) ∧
  (∀ (h : HHead) (key length k : Nat) (data : List Byte) (s : State), s.up = true → s.Hears { h with seq := h.seq * 65536 + k } 7 →
    s.st.role ≠ 0 → h.role = 0 → s.hal.degraded = false →
    let old := match s.acc.bulkIn with
      | some y => if y.key = key ∧ y.length = length then y.frags else []
      | none => []
    let frags := tset old k data
    let whole := ∀ j, j < State.fragCount length → (tfind frags j).isSome
    ∃ t, exec (.bulkFrame h key length k data) s = .next t ∧ t.mir.ack = some (key, frags.map (·.1)) ∧
      (key ≠ 0 ∨ ¬whole → t.acc.bulkIn = some ⟨key, length, frags⟩) ∧
      (key ≠ 0 → whole → tfind t.acc.bulkHeld key = some (frags.map (·.2)).flatten) ∧
      -- the pair-shared values of a join are whole: the unit goes on to set its time
      (key = 0 → whole → s.st.role = 3 → s.hal.join < 2 → t.hal.join = 2 ∧ t.hal.joinTime = true ∧ t.acc.bulkIn = none)) ∧
  (∀ (h : HHead) (frags : List Nat) (b : Bulk) (rest : List Bulk) (s : State), s.up = true → s.storesOk = true → s.Hears h 8 →
    s.st.role = 0 → h.role ≠ 0 → s.acc.bulk = b :: rest → b.start.isSome →
    let left := b.open'.map fun p => if p.1 = h.sender then (p.1, p.2.filter fun k => !frags.contains k) else p
    (left.all (fun p => p.2.isEmpty) = false →
      ∃ t, exec (.bulkAcknowledgement h b.key frags) s = .next t ∧ t.acc.bulk = { b with open' := left } :: rest) ∧
    (∀ r, left.all (fun p => p.2.isEmpty) = true → b.key ≠ 0 → findRow (b.key / 256) (b.key % 256) = some r →
      ∃ t, exec (.bulkAcknowledgement h b.key frags) s = .next t ∧ t.acc.bulk = rest ∧
        t.objV (b.key / 256) (b.key % 256) = .d b.val ∧ t.mir.commits = s.mir.commits ++ [(b.key, s.sharedDue)])) ∧
  (∀ (f : Nat) (b : Bulk) (rest : List Bulk) (s : State), s.up = true → s.acc.bulk = b :: rest → b.start = some f →
    f + 64 ≤ s.clk.frame →
    ∃ t, exec .bulkTransferTimeout s = .next t ∧ t.acc.bulk = rest ∧ s.sameObjects t ∧ t.force = s.force ∧ t.acc.fresh = s.acc.fresh)

/-! The field network and KDP (chapter 18). -/

/-- Ports and KPP (R460, R464-R470, R473, R475). On a port that is up, a frame that fails its checks, or whose sequence is not
newer, is counted with its reason, changes no sequence and shows no node; a second copy is counted and shows its node; a frame
that passes is counted, shows its node on the network of that port and ends a loss, and a data node's record is kept. The
unit's status, with the Lead's commands, and a published record wait for the window; what the window leaves is lost, an F1
fault. A network without arrivals is an F2 fault until it is restored, a silent node is lost, a Lead off its path hands over
to a Shadow that can take it. -/
def Obligations.FieldNetwork : Prop :=
  (∀ (n speed : Nat) (link full : Bool) (s : State), s.up = true → n < 4 →
    let ok := link && !s.degraded 8 n && s.cfgB (0x4001 + n) 1 && full && (speed == 100 || speed == 1000)
    let new : NetPort := { up := ok, speed := if ok then speed else 0 }
    (s.port n ≠ new ∨ (link = true ∧ ok = false) → ∃ t, exec (.phyLinkChange n link speed full) s = .next t ∧
      (s.setNet { s.net with ports := tset s.net.ports n new }).Noted t 0x1001 0 [n, b2n ok, speed]) ∧
    (s.port n = new → (link = true → ok = true) → exec (.phyLinkChange n link speed full) s = .next s)) ∧
  (∀ (p mac arrival e : Nat) (tag : Option Nat) (b : List Byte) (s : State), s.up = true → s.storesOk = true →
    p < 4 → s.portUp p = true → State.parseKpp b = .error e →
    ∃ t, exec (.kppFrame p mac tag arrival b) s = .next t ∧ s.Counts t 0x4050 (1 + e) ∧
      (∀ id, (t.nodeSt id).seq = (s.nodeSt id).seq) ∧ t.sheaf = s.sheaf) ∧
  (∀ (p mac arrival : Nat) (tag : Option Nat) (b : List Byte) (k : State.KppIn) (s : State), s.up = true →
    s.storesOk = true → p < 4 → s.portUp p = true → State.parseKpp b = .ok k → s.knownNode k.source = true → k.source ≠ 4092 + s.st.unitId →
    let net := s.cfgU (0x4001 + p) 2
    let x := s.nodeSt k.source
    let newer := x.seq = none ∨ ∃ q, x.seq = some q ∧ newerMod (2 ^ 32) k.seq q = true
    let second := ∃ n, tag = some n ∧ (State.recoverTag (tfind s.net.recov mac) n arrival).1 = false
    let heard := fun (y : NodeSt) => y.lost = false ∧ y.at' = arrival ∧
      (net = 0 → y.onA = some s.clk.frame ∧ y.onB = x.onB) ∧ (net ≠ 0 → y.onB = some s.clk.frame ∧ y.onA = x.onA)
    ∃ t, exec (.kppFrame p mac tag arrival b) s = .next t ∧
      (second → s.Counts t 0x4050 6 ∧ (t.nodeSt k.source).seq = x.seq ∧ heard (t.nodeSt k.source) ∧ t.sheaf = s.sheaf) ∧
      (¬second → ¬newer → s.Counts t 0x4050 3 ∧ (t.nodeSt k.source).seq = x.seq ∧ (t.nodeSt k.source).onA = x.onA ∧
        (t.nodeSt k.source).onB = x.onB ∧ (t.nodeSt k.source).lost = x.lost ∧ t.sheaf = s.sheaf) ∧
      (¬second → newer → s.Counts t 0x4050 1 ∧ (t.nodeSt k.source).seq = some k.seq ∧ heard (t.nodeSt k.source))) ∧
  (∀ (p mac arrival : Nat) (b : List Byte) (k : State.KppIn) (s : State), s.up = true → s.storesOk = true →
    p < 4 → s.portUp p = true → State.parseKpp b = .ok k → s.knownNode k.source = false ∨ k.source = 4092 + s.st.unitId →
    ∃ t, exec (.kppFrame p mac none arrival b) s = .next t ∧ s.Counts t 0x4050 4 ∧ t.sheaf = s.sheaf) ∧
  (∀ (p mac arrival : Nat) (b : List Byte) (k : State.KppIn) (n : Node) (r : KppRec) (s : State), s.up = true → p < 4 → s.portUp p = true →
    s.cfgU (0x4001 + p) 2 = 1 →
    State.parseKpp b = .ok k → s.node k.source = some n → n.kind = 2 → k.source < 4092 → (s.nodeSt k.source).seq = none →
    k.recs = [r] → r.type = 3 → r.node = k.source → r.words.length = n.fields →
    ∃ t, exec (.kppFrame p mac none arrival b) s = .next t ∧ (t.nodeSt k.source).data = r.words ∧
      (t.nodeSt k.source).dataAt = s.clk.frame ∧ (t.nodeSt k.source).onB = some s.clk.frame) ∧
  (∀ s : State, s.up = true → s.mode.mode ≠ 7 →
    let f : KppOut := { tag := s.kppTag, group := s.cfgU 0x4000 5, port := s.cfgU 0x4000 6, node := 4092 + s.st.unitId,
                        seq := s.net.seq, rtag := s.net.rtag, status := s.objU 0x2200 1, frame := s.clk.frame,
                        recs := s.unitStatus :: if s.st.role = 0 then s.net.cmds else [] }
    exec .kppQueue s = .next (s.setNet { s.net with
      queued := s.net.queued ++ [f], seq := (s.net.seq + 1) % 2 ^ 32, rtag := (s.net.rtag + 1) % 65536, cmds := [] })) ∧
  (∀ (k : Nat) (s : State), s.publishedDue k = true → s.publishedWords k ≠ [] →
    ∃ t f tov, exec (.publishedRecordSend k) s = .next t ∧ t.net.queued = s.net.queued ++ [f] ∧
      f.recs = [{ type := 0x10 + k, node := 4092 + s.st.unitId, tov := tov, words := s.publishedWords k }] ∧
      f.seq = s.net.seq ∧ t.net.seq = (s.net.seq + 1) % 2 ^ 32) ∧
  (∀ (k : Nat) (s : State), s.publishedDue k = false ∨ s.publishedWords k = [] → exec (.publishedRecordSend k) s = .next s) ∧
  (∀ (k : Nat) (s : State), s.up = true → s.storesOk = true → 0 < k → s.net.queued ≠ [] →
    let lost := min k s.net.queued.length
    ∃ t, exec (.kppWindowClose k) s = .next t ∧ t.net.queued = s.net.queued.take (s.net.queued.length - lost) ∧
      t.net.winLoss = true ∧ t.objU 0x4050 5 = (s.objU 0x4050 5 + lost) % 2 ^ 32 ∧ t.faultIs 0x100C 0 = true ∧
      (s.records = true → t.newest 0x100C 1 [])) ∧
  (∀ (x : Nat) (s : State), s.up = true → x < 2 → bit s.net.lostNets x = false → s.judged x = true →
    s.cfgU 0x4000 0x0C ≤ tget 0 s.net.quiet x →
    ∃ t, exec (.networkLost x) s = .next t ∧
      (s.setNet { s.net with lostNets := setBit s.net.lostNets x true }).Alarmed t 0x1002 x 2 [x]) ∧
  (∀ (x : Nat) (s : State), s.up = true → x < 2 → bit s.net.lostNets x = true → 800 ≤ tget 0 s.net.good x →
    ∃ t, exec (.networkRestored x) s = .next t ∧ t.net = { s.net with lostNets := setBit s.net.lostNets x false } ∧
      t.faultIs 0x1002 x = false ∧ (s.records = true → t.newest 0x1003 0 [])) ∧
  (∀ (id : Nat) (n : Node) (s : State), s.up = true → s.node id = some n → s.nodeLossDue n = true →
    let u := s.setNodeSt id { s.nodeSt id with lost := true, seq := none }
    ∃ t, exec (.nodeLost id) s = .next t ∧ (n.lossClass = 1 → u.Alarmed t 0x1005 id 1 [id]) ∧
      (n.lossClass ≠ 1 → u.Noted t 0x1004 0 [id])) ∧
  (∀ (u : Nat) (s : State), s.up = true → s.st.role = 0 → 16 ≤ s.hal.offField → s.net.offPath = false →
    (s.others.find? fun u => (s.unit u).role == 1 && (s.unit u).joined) = some u →
    let can := s.gone u = false ∧ (s.unit u).mirrorDeg = false ∧ u ≠ s.st.unitId
    ∃ t, exec .leadOffFieldPath s = .next t ∧ t.net = { s.net with offPath := true } ∧ t.faultIs 0x1008 0 = true ∧
      (can → t.hal = { s.hal with yield := some (u, if s.fOff + 1 < s.clk.n then s.clk.f0 + s.clk.n - 1 else s.clk.f0 + 2 * s.clk.n - 1) }) ∧ (¬can → t.hal = s.hal)) ∧
  (∀ s : State, s.up = true → s.st.role = 0 → 16 ≤ s.hal.offField → s.net.offPath = false →
    (∀ u ∈ s.others, ¬((s.unit u).role = 1 ∧ (s.unit u).joined = true)) →
    ∃ t, exec .leadOffFieldPath s = .next t ∧ t.net = { s.net with offPath := true } ∧ t.faultIs 0x1008 0 = true ∧
      t.hal = s.hal)

/-- KDP (R57-R59, R476, R477). A connection within R476 whose certificate gives a role opens a session, of at most eight; the
idle timeout and the client close it. A new request is carried out and its answer kept: a read of a result answers from its
buffer, of another object its value, of none the abort of R577; a write is the write that the dictionary makes on the session's
path; a whole record gives every subindex of one buffer. A repeat of a request answers as it did and does nothing. -/
def Obligations.KdpSessions : Prop :=
  (∀ (id t0 peer net : Nat) (kid : List Byte) (s : State), s.up = true → s.kdpOpen id = false → net < 2 →
    s.cfgU 0x4000 (if net = 0 then 1 else 3) ≠ 0 → s.kdpCount < 8 →
    let ca := s.objD 0x4810 0
    let r := Config.sessionRole ca (s.objD 0x4811 0) kid
    let good := (r = 4 ∨ (ca ≠ [] ∧ Config.sessionOwner ca kid = true)) ∧ 1 ≤ r ∧ r ≤ 4 ∧
      (s.timeQuality = 3 ∨ Config.datesHold kid (max s.clk.time t0) = true)
    ∃ t, exec (.kdpConnection id t0 peer net kid true) s = .next t ∧
      (good → t.kdpOpen id = true ∧ (t.session (.kdp id)).role.code + 1 = r ∧ (t.session (.kdp id)).replay = [] ∧
        (t.session (.kdp id)).last = max s.clk.time t0) ∧
      (¬good → t.acc = s.acc)) ∧
  (∀ (id t0 peer net : Nat) (kid : List Byte) (s : State), s.up = true → s.kdpOpen id = false → net < 2 →
    s.cfgU 0x4000 (if net = 0 then 1 else 3) ≠ 0 →
    (8 ≤ s.kdpCount → exec (.kdpConnection id t0 peer net kid true) s = .next ((s.at' t0).incU 0x4050 7)) ∧
    (s.kdpCount < 8 → ∃ t, exec (.kdpConnection id t0 peer net kid false) s = .next t ∧
      (s.at' t0).Noted t 0x100A 0 [peer])) ∧
  (∀ (id t0 : Nat) (c : Instr) (s : State), s.up = true → s.kdpOpen id = true → c = .kdpConnectionClosed id t0 ∨
    (c = .kdpIdleTimeout id t0 ∧ (s.session (.kdp id)).last + State.ns (s.cfgR 0x4000 0x0A) ≤ max s.clk.time t0) →
    ∃ t, exec c s = .next t ∧ t.acc = { s.acc with sessions := tdel s.acc.sessions (16 + id) } ∧ s.sameObjects t) ∧
  (∀ (id t0 req : Nat) (rest : List Byte) (s : State), s.FreshRequest id req → 7 ≤ rest.length → rest.length ≤ 16777223 →
    let i := leAt rest 1 2
    let j := leAt rest 3 1
    let own := leAt rest 0 1 = 0xFF
    let b := fun (op : Byte) => op :: rest
    -- KDP_READ
    (own → s.existsAbort i j ≠ 0 → i ≠ 0x4620 → ∃ t, exec (.kdpRead id t0 req rest) s = .next t ∧
      s.Replied t id req (b 1) (s.existsAbort i j) []) ∧
    (∀ r, own → s.existsAbort i j = 0 → findRes i = some r → (s.session (.kdp id)).latch = none →
      ∃ t, exec (.kdpRead id t0 req rest) s = .next t ∧ s.Replied t id req (b 1) 0 (State.resSub r (s.result i) j)) ∧
    (∀ r, own → s.existsAbort i j = 0 → findRes i = none → findRow i j = some r → r.acc ≠ .wo → readsLive i j = false →
      ∃ t, exec (.kdpRead id t0 req rest) s = .next t ∧ s.Replied t id req (b 1) 0 (encodeVal r.ty (s.objV i j)) ∧
        t.obj = s.obj) ∧
    -- KDP_WRITE
    (own → ∃ t w, exec (.kdpWrite id t0 req rest) s = .next t ∧
      exec (.genericWrite (.kdp id) i j (rest.drop 7)) ((s.at' t0).setSession (.kdp id) { s.session (.kdp id) with
        last := max s.clk.time t0 }) = .next w ∧
      t.obj = w.obj ∧ t.force = w.force ∧ t.acc.fresh = w.acc.fresh ∧
      s.Replied t id req (b 2) w.acc.answer.code w.acc.answer.value) ∧
    -- KDP_WHOLE_RECORD_READ
    (∀ r, own → findRes i = some r → (∀ k ∈ 0 :: State.subsOf i, s.existsAbort i k = 0) →
      ∃ t, exec (.kdpWholeRecordRead id t0 req rest) s = .next t ∧
        s.Replied t id req (b 3) 0 ((State.subsOf i).map fun k => State.recordPart i k (State.resSub r (s.result i) k)).flatten) ∧
    -- KDP_KEEPALIVE, and an operation that is none
    (∃ t, exec (.kdpKeepalive id t0 req 4 rest) s = .next t ∧ s.Replied t id req (b 4) 0 [] ∧
      (t.session (.kdp id)).last = max s.clk.time t0) ∧
    (∀ op : Byte, op = 0 ∨ 4 < op → ∃ t, exec (.kdpKeepalive id t0 req op rest) s = .next t ∧
      t.acc.sessions = tdel s.acc.sessions (16 + id))) ∧
  (∀ (id t0 req : Nat) (rest : List Byte) (r : Reply) (s : State), s.up = true → s.kdpOpen id = true → 7 ≤ rest.length →
    rest.length ≤ 16777223 → (s.session (.kdp id)).wait = [] → s.kdpHeld id = false →
    (s.session (.kdp id)).replay.find? (fun r => r.id == req) = some r →
    ∃ t, exec (.kdpWrite id t0 req rest) s = .next t ∧ t.obj = s.obj ∧ t.force = s.force ∧ t.acc.fresh = s.acc.fresh ∧
      (r.body = 2 :: rest → t.acc.answer = ⟨r.code, r.value⟩) ∧ (r.body ≠ 2 :: rest → t.acc.answer.code = 0x08000107))

/-- A request older than every request that the session keeps (R58): it is answered with 0800 0108h and not executed. -/
def Obligations.OldRequestAborts : Prop :=
  ∀ (id t0 req : Nat) (rest : List Byte) (r : Reply) (c : Instr) (s : State), s.up = true → s.kdpOpen id = true →
    7 ≤ rest.length → rest.length ≤ 16777223 → (s.session (.kdp id)).wait = [] → s.kdpHeld id = false →
    (∃ l, (s.session (.kdp id)).replay = r :: l ∧ newerMod (2 ^ 32) (State.oldestId r.id (l.map (·.id))) req = true) →
    (∀ q ∈ (s.session (.kdp id)).replay, q.id ≠ req) →
    c = .kdpRead id t0 req rest ∨ c = .kdpWrite id t0 req rest ∨ c = .kdpWholeRecordRead id t0 req rest ∨
      c = .kdpKeepalive id t0 req 4 rest →
    ∃ t, exec c s = .next t ∧ t.acc.answer = ⟨0x08000108, []⟩ ∧
      { t with acc := s.acc, clk := s.clk } = s ∧ t.acc.fresh = s.acc.fresh ∧
      (t.session (.kdp id)).replay = (s.session (.kdp id)).replay

/-! The CAN controllers (chapter 19). -/

/-- Messages (R481, R483-R485, R490, R492, R494-R497). A frame received counts, and goes to the FIFO of its identifier: a full
FIFO 0 overwrites its oldest, a full FIFO 1 drops it, each counted. A message acknowledged leaves its buffer. 60 µs into a
frame the cyclic messages are queued, the Lead's commands with the sequence of their identifier. TPDOs, the heartbeat and the
reference message are queued when they are due; a heartbeat that stays out is an event; an NMT command is ignored (R496). -/
def Obligations.CanMessages : Prop :=
  (∀ (c id sof : Nat) (fd : Bool) (data : List Byte) (cmd : Instr) (s : State), s.canHears c = true → s.storesOk = true →
    cmd = .canFrameReceived c id fd data sof true ∨ (cmd = .rpdoReceived c id fd data sof ∧
      ∃ n, n < 512 ∧ bit (s.cfgU (0x1400 + n) 1) 31 = false ∧ State.cobId (s.cfgU (0x1400 + n) 1) = id) →
    let m : CanRx := { id := id, data := data, sof := sof, node := if id = 0x600 + s.canNode then s.canNode else 0 }
    let x := s.canC c
    ∃ t, exec cmd s = .next t ∧ s.Counts t (State.canCnt c) 1 ∧ (t.canC c).heard = true ∧ (t.canC c).alone = false ∧
      (s.fifoOf c id = none → (t.canC c).fifo0 = x.fifo0 ∧ (t.canC c).fifo1 = x.fifo1) ∧
      (s.fifoOf c id = some 0 → (t.canC c).fifo1 = x.fifo1 ∧ (x.fifo0.length < 64 → (t.canC c).fifo0 = x.fifo0 ++ [m]) ∧
        (64 ≤ x.fifo0.length → (t.canC c).fifo0 = x.fifo0.drop 1 ++ [m] ∧ s.Counts t (State.canCnt c) 5)) ∧
      (s.fifoOf c id = some 1 → (t.canC c).fifo0 = x.fifo0 ∧ (x.fifo1.length < 64 → (t.canC c).fifo1 = x.fifo1 ++ [m]) ∧
        (64 ≤ x.fifo1.length → (t.canC c).fifo1 = x.fifo1 ∧ s.Counts t (State.canCnt c) 5))) ∧
  (∀ (c sof : Nat) (m : CanMsg) (s : State), s.canSends c = true → s.storesOk = true → State.nextTx (s.canC c) = some m →
    (s.canC c).sdoOut = [] → (s.canC c).tec ≤ 256 →
    ∃ t, exec (.canTransmitDone c 0 sof) s = .next t ∧ (t.canC c).tx = (s.canC c).tx.erase m ∧
      (t.canC c).tec = (s.canC c).tec - 1 ∧ (t.canC c).alone = false ∧ s.Counts t (State.canCnt c) 2) ∧
  (∀ (c j : Nat) (s : State), s.up = true → s.mode.mode ≠ 7 → c < 4 → (∀ k, k < 4 → (s.canC k).tx = []) →
    s.canSends c = true → s.cfgU (State.canObj c) 0x0B ≠ 0 →
    let id := s.cfgU (0x4240 + j) 2
    let q := tget 0 s.can.seq id
    let n : Node := { id := s.cfgU (0x4240 + j) 4, kind := 1, nets := 0, mac := [], thruster := j, fields := 0, ints := 0,
                      timeout := 0, lossClass := 0, failAction := s.cfgU (0x4240 + j) 6, driveTimeout := s.cfgU (0x4240 + j) 5 }
    ∃ t, exec (.canCyclicQueue []) s = .next t ∧
      (∃ m ∈ (t.canC c).tx, m.kind = .status ∧ m.id = s.cfgU 0x4220 1 + s.st.unitId ∧
        m.data = ((s.unitStatus.words).map (natLe 4)).flatten) ∧
      (s.st.role ≠ 0 → t.can.seq = s.can.seq ∧ (t.canC c).tx.length = 1) ∧
      (s.st.role = 0 → j < 32 → bit (s.cfgU (0x4240 + j) 1) c = true →
        (∃ m ∈ (t.canC c).tx, m.kind = .command j ∧ m.id = id ∧
          m.data = ((s.cmdRecord n).words.map (natLe 4)).flatten ++ natLe 4 q) ∧
        tget 0 t.can.seq id = (q + 1) % 2 ^ 32)) ∧
  (∀ (n t0 : Nat) (s : State), (s.at' t0).tpdoDue n ≠ 0 →
    let data := (s.at' t0).tpdoData n
    ∃ t, exec (.tpdoEventTimer n t0) s = .next t ∧ tfind t.can.tpdo n = some (data, max s.clk.time t0) ∧
      (∀ c, s.canSends c = true → (s.canC c).tx.length < 64 → data.length ≤ 8 →
        ∃ m, (t.canC c).tx = (s.canC c).tx ++ [m] ∧ m.data = data ∧ m.id = State.cobId (s.cfgU (0x1800 + n) 1))) ∧
  (∀ (t0 : Nat) (s : State), (s.at' t0).beatDue = true →
    ∃ t, exec (.producerHeartbeat t0) s = .next t ∧ t.can.beatAt = max s.clk.time t0 ∧
      (∀ c, s.canSends c = true → (s.canC c).tx.length < 64 → ∃ m, (t.canC c).tx = (s.canC c).tx ++ [m] ∧
        m.id = 0x700 + s.canNode ∧ m.data = natLe 1 (if s.up then 0x05 else 0x7F))) ∧
  (∀ (c : Nat) (s : State), s.canSends c = true → s.st.role = 0 → bit (s.cfgU 0x3868 1) c = true →
    s.clk.frame % s.cfgU 0x3868 3 = 0 → (s.canC c).refAt ≠ some s.clk.frame → (s.canC c).tx = [] →
    ∃ t m, exec (.canReferenceMessage c) s = .next t ∧ (t.canC c).refAt = some s.clk.frame ∧
      (t.canC c).cycle = ((s.canC c).cycle + 1) % s.cfgU 0x4220 3 ∧ (t.canC c).tx = [m] ∧ m.kind = .reference ∧
      m.id = s.cfgU 0x4220 2 ∧ m.data = natLe 1 ((s.canC c).cycle % 64)) ∧
  (∀ (c node e t0 : Nat) (s : State), s.canHears c = true → tfind (s.canC c).beats node = some (t0, false) →
    s.watchedBeat node = some e → t0 + e % 65536 * 1000000 ≤ s.clk.time →
    ∃ t, exec (.consumerHeartbeatLoss c node) s = .next t ∧
      (s.setCanC c { s.canC c with beats := tset (s.canC c).beats node (t0, true) }).Noted t 0x110D 0 [c, node, 1]) ∧
  (∀ (c cmd node : Nat) (s : State), exec (.nmtCommand c cmd node) s = .next s)

/-- Errors (R479, R486-R489). The error counters give the levels; a counter beyond 255 takes the controller off the bus with
its messages cancelled, to recover after its delay with counters of 0. A controller that hears nothing but its own errors
for three frames is alone; a candidate rate that has not locked for 100 ms gives way to the next. -/
def Obligations.CanErrors : Prop :=
  (∀ (c tec rec' : Nat) (s : State), s.canHears c = true → s.storesOk = true → s.cfgU (State.canObj c) 2 = 0 →
    ∃ t, exec (.canErrorStateChange c tec rec') s = .next t ∧ (t.canC c).tec = tec ∧ (t.canC c).rec' = rec' ∧
      (t.canC c).warn = (decide (96 ≤ tec) || decide (96 ≤ rec')) ∧
      (t.canC c).passive = (decide (128 ≤ tec) || decide (128 ≤ rec')) ∧
      (tec ≤ 255 → (t.canC c).off = false) ∧
      (128 ≤ tec → (s.canC c).passive = false → t.faultIs 0x1102 c = true) ∧
      (tec < 128 → rec' < 128 → (s.canC c).passive = true → t.faultIs 0x1102 c = false) ∧
      (255 < tec → (t.canC c).off = true ∧ (t.canC c).tx = [] ∧ (t.canC c).offAt = s.clk.time ∧ t.faultIs 0x1103 c = true ∧
        s.Counts t (State.canCnt c) 3)) ∧
  (∀ (c : Nat) (s : State), s.up = true → c < 4 → (s.canC c).off = true → (s.canC c).held = false →
    (s.canC c).recovering = false → (s.canC c).offAt + State.ns (s.cfgR (State.canObj c) 0x0C / 1000) ≤ s.clk.time →
    exec (.busOffRecoveryStart c) s = .next (s.setCanC c { s.canC c with recovering := true })) ∧
  (∀ (c : Nat) (s : State), s.up = true → c < 4 → (s.canC c).recovering = true →
    ∃ t, exec (.busOffRecovered c) s = .next t ∧ (t.canC c).off = false ∧ (t.canC c).recovering = false ∧ (t.canC c).tec = 0 ∧
      (t.canC c).rec' = 0 ∧ t.faultIs 0x1103 c = false ∧ t.faultIs 0x1102 c = false ∧
      -- event 1104h carries the class of the fault that it ends
      (s.records = true → s.gran.queue.length + 8 ≤ 4096 → s.cfgU 0x4600 1 = 0 → ∃ r ∈ t.gran.queue, r.code = 0x1104 ∧
        r.params = [0, 0, 0, 0] ∧ (s.faultIs 0x1103 c = false → r.cls = 0) ∧
        ∀ f ∈ s.faults, f.code = 0x1103 → f.inst = c → (s.faults.find? fun f => f.code == 0x1103 && f.inst == c) = some f →
          r.cls = f.cls)) ∧
  (∀ (c : Nat) (s : State), s.canSends c = true → (s.canC c).alone = false →
    3 ≤ (s.canC c).aloneFrames ∨ ((s.canC c).aloneFrames = 2 ∧ State.loneFrame (s.canC c) = true) →
    ∃ t, exec (.controllerAlone c) s = .next t ∧
      (s.setCanC c { s.canC c with alone := true }).Alarmed t 0x1105 c 1 []) ∧
  (∀ (c : Nat) (s : State), s.canHears c = true → s.cfgU (State.canObj c) 2 = 2 → (s.canC c).locked = false →
    (s.canC c).since + 100000000 ≤ s.clk.time → exec (.bitRateCandidate c) s =
      .next (s.setCanC c { s.canC c with cand := ((s.canC c).cand + 1) % 4, since := s.clk.time, good := 0 })) ∧
  (∀ (c sof : Nat) (m : CanMsg) (s : State), s.canSends c = true → s.storesOk = true → State.nextTx (s.canC c) = some m →
    (s.canC c).tec + 8 ≤ 255 →
    ∃ t, exec (.canTransmitDone c 1 sof) s = .next t ∧ s.Counts t (State.canCnt c) 4 ∧
      (t.canC c).ackErr = (s.canC c).ackErr + 1 ∧
      (t.canC c).tec = if (s.canC c).passive = true then (s.canC c).tec else (s.canC c).tec + 8)

/-- The third bus-off within 60 s (R488): the controller is held off, its standby ball high, and neither transmits nor
receives, with an F1 fault and event 1107h; a 1 written to its restart object starts it with both counters at 0. -/
def Obligations.ThirdBusOffHolds : Prop :=
  (∀ (c tec rec' k sof : Nat) (cmd : Instr) (s : State), s.canHears c = true → s.cfgU (State.canObj c) 2 = 0 →
    (cmd = .canErrorStateChange c tec rec' ∧ 255 < tec) ∨ (cmd = .canTransmitDone c k sof ∧ k ≠ 0 ∧
      (k = 1 → (s.canC c).passive = false) ∧ (State.nextTx (s.canC c)).isSome = true ∧ 247 < (s.canC c).tec) →
    2 ≤ ((s.canC c).offs.filter fun a => s.clk.time < a + 60000000000).length →
    ∃ t, exec cmd s = .next t ∧ (t.canC c).off = true ∧ (t.canC c).held = true ∧
      t.canStb c = .high ∧ t.canSends c = false ∧ t.canHears c = false ∧ Flt.mk 0x1107 c 1 ∈ t.faults ∧
      (s.records = true → s.gran.queue.length + 8 ≤ 4096 → s.cfgU 0x4600 1 = 0 →
        ∃ r ∈ t.gran.queue, r.code = 0x1107 ∧ r.cls = 1 ∧ r.params = [0, 0, 0, 0])) ∧
  (∀ (cmd : Instr) (c : Nat) (v : Val) (s : State), c < 4 → s.passes cmd (0x4200 + c) 0x0D v → v.asNat = 1 →
    ∃ t, exec cmd s = .next t ∧ t.acc.answer = ⟨0, []⟩ ∧ (t.canC c).tec = 0 ∧ (t.canC c).rec' = 0 ∧
      (t.canC c).held = false ∧ (t.canC c).off = false)

/-- The SDO server (R57, R493; the frames are CiA 301's, log 60). An expedited download makes the write that the dictionary
makes on the controller's path and confirms it, or aborts with its code; an upload of up to four octets answers with them.
A segment appends its octets and is confirmed with its toggle; the same segment again is confirmed again and appends nothing.
A block segment in order is kept. A transfer without a frame for a second is aborted, with event 110Ch. -/
def Obligations.SdoServer : Prop :=
  (∀ (c t0 : Nat) (b : List Byte) (s u : State), s.Serves u c t0 0 b →
    let cmd := leAt b 0 1
    let i := leAt b 1 2
    let j := leAt b 3 1
    let data := slice b 4 (4 - field cmd 2 2)
    -- expedited download with its size
    (cmd / 32 = 1 → bit cmd 1 = true → bit cmd 0 = true → ∃ t w, exec (.sdoInitiate c t0) s = .next t ∧
      exec (.genericWrite (.can c) i j data) u = .next w ∧ t.force = w.force ∧
      (w.acc.answer.code = 0 → t.obj = w.obj ∧ t.Responds c (natLe 1 0x60 ++ natLe 2 i ++ natLe 1 j ++ natLe 4 0)) ∧
      (w.acc.answer.code ≠ 0 → w.acc.answer.code ≠ State.noAnswer → (t.canC c).sdo = none ∧
        t.Responds c (natLe 1 0x80 ++ natLe 2 i ++ natLe 1 j ++ natLe 4 w.acc.answer.code))) ∧
    -- download in segments
    (cmd / 32 = 1 → bit cmd 1 = false → ∃ t x, exec (.sdoInitiate c t0) s = .next t ∧ (t.canC c).sdo = some x ∧
      x.kind = .download ∧ x.idx = i ∧ x.sub = j ∧ x.buf = [] ∧ t.Responds c (natLe 1 0x60 ++ natLe 2 i ++ natLe 1 j ++ natLe 4 0)) ∧
    -- upload
    (∀ r, cmd / 32 = 2 → s.existsAbort i j = 0 → findRes i = none → findRow i j = some r → r.acc ≠ .wo → readsLive i j = false →
      let v := encodeVal r.ty (s.objV i j)
      (1 ≤ v.length → v.length ≤ 4 → ∃ t, exec (.sdoInitiate c t0) s = .next t ∧ (t.canC c).sdo = none ∧ t.Responds c
        (natLe 1 (0x43 + (4 - v.length) * 4) ++ natLe 2 i ++ natLe 1 j ++ (v ++ List.replicate 4 0).take 4)) ∧
      (4 < v.length → ∃ t x, exec (.sdoInitiate c t0) s = .next t ∧ (t.canC c).sdo = some x ∧ x.kind = .upload ∧ x.buf = v ∧
        t.Responds c (natLe 1 0x41 ++ natLe 2 i ++ natLe 1 j ++ natLe 4 v.length))) ∧
    -- abort by the client
    (cmd / 32 = 4 → exec (.sdoInitiate c t0) s = .next (u.setCanC c { u.canC c with sdo := none }))) ∧
  (∀ (c t0 : Nat) (b : List Byte) (x : Sdo) (s u : State), s.Serves u c t0 1 b → (s.canC c).sdo = some x → x.ended = false →
    let cmd := leAt b 0 1
    (x.kind = .download → cmd / 32 = 0 → bit cmd 4 = x.toggle → bit cmd 0 = false →
      ∃ t y, exec (.sdoSegment c t0) s = .next t ∧ (t.canC c).sdo = some y ∧ y.buf = x.buf ++ slice b 1 (7 - field cmd 1 3) ∧
        y.toggle = !x.toggle ∧ t.Responds c (natLe 1 (0x20 + bitAt x.toggle 4) ++ List.replicate 7 0)) ∧
    (x.kind = .upload → cmd / 32 = 3 → bit cmd 4 = x.toggle →
      ∃ t y, exec (.sdoSegment c t0) s = .next t ∧ (t.canC c).sdo = some y ∧ y.buf = x.buf.drop 7 ∧ y.toggle = !x.toggle ∧
        y.ended = (x.buf.drop 7).isEmpty) ∧
    (∀ r, (x.kind = .download ∧ cmd / 32 = 0) ∨ (x.kind = .upload ∧ cmd / 32 = 3) → bit cmd 4 ≠ x.toggle → x.last = some (b, r) →
      r ≠ [] → ∃ t, exec (.sdoSegment c t0) s = .next t ∧ (t.canC c).sdo = some x ∧ t.Responds c r ∧ t.obj = s.obj)) ∧
  (∀ (c t0 : Nat) (b : List Byte) (x : Sdo) (s u : State), s.Serves u c t0 2 b → (s.canC c).sdo = some x →
    x.kind = .blockDown → x.ended = false →
    let cmd := leAt b 0 1
    cmd % 128 = x.seq + 1 →
      ∃ t y, exec (.sdoBlockSegment c t0) s = .next t ∧ (t.canC c).sdo = some y ∧ y.buf = x.buf ++ slice b 1 7 ∧
        y.ended = bit cmd 7 ∧ (cmd % 128 ≠ x.blk → bit cmd 7 = false → y.seq = x.seq + 1) ∧
        (cmd % 128 = x.blk ∨ bit cmd 7 = true → y.seq = 0 ∧
          t.Responds c (natLe 1 0xA2 ++ natLe 1 (x.seq + 1) ++ natLe 1 127 ++ List.replicate 5 0))) ∧
  (∀ (c t0 : Nat) (x : Sdo) (s : State), s.canHears c = true → (s.canC c).sdo = some x → State.Sdo.busy x = true →
    x.at' + 1000000000 ≤ max s.clk.time t0 →
    ∃ t, exec (.sdoTransferTimeout c t0) s = .next t ∧ (t.canC c).sdo = none ∧
      t.Responds c (natLe 1 0x80 ++ natLe 2 x.idx ++ natLe 1 x.sub ++ natLe 4 0x05040000) ∧ s.sameObjects t)

/-! Power, heat and monitors (chapter 21). -/

/-- Levels and the heat limit (R518, R519, R521, R522). A rise that is due at this frame takes the next level and counts it; the
third is a fault, the others an event; from level 2 on every monitor is paused. A fall that is due takes the level below. 80
frames beyond the heat limit stop the unit. -/
def Obligations.HeatLevels : Prop :=
  (∀ (cause : Nat) (s : State), s.up = true → s.storesOk = true → s.therm.riseDue = some cause →
    let l := s.therm.level + 1
    ∃ u t : State, exec .levelRaised s = .next t ∧ u.therm.level = l ∧ u.therm.riseDue = none ∧ u.therm.fallDue = false ∧
      (∀ q ∈ u.mons, q.2.paused = decide (2 ≤ l)) ∧ s.Counts u 0x4A50 1 ∧
      { u with therm := s.therm, mons := s.mons, obj := s.obj } = s ∧
      (l = 3 → u.Alarmed t 0x1501 0 1 [3, cause]) ∧ (l ≠ 3 → u.Noted t 0x1501 0 [l, cause])) ∧
  (∀ s : State, s.therm.riseDue = none → exec .levelRaised s = .next s) ∧
  (∀ s : State, s.up = true → s.therm.fallDue = true → s.therm.level ≠ 0 →
    ∃ u v t : State, exec .levelLowered s = .next t ∧ u.therm.level = s.therm.level - 1 ∧ u.therm.riseDue = none ∧
      u.therm.fallDue = false ∧ (∀ q ∈ u.mons, q.2.paused = decide (2 ≤ s.therm.level - 1)) ∧
      { u with therm := s.therm, mons := s.mons } = s ∧ u.Noted v 0x1502 0 [s.therm.level - 1] ∧ v.Cleared t 0x1501 0) ∧
  (∀ s : State, s.up = true → 80 ≤ s.therm.heatFrames →
    ∃ u t, exec .heatLimitExceeded s = .next t ∧ s.Noted u 0x1503 3 [State.pR s.therm.tc, State.pR s.therm.tj] ∧
      t.Stops 0x1503 ∧ (∀ r ∈ u.gran.queue, r ∈ t.gran.queue)) ∧
  (∀ s : State, s.therm.heatFrames < 80 → exec .heatLimitExceeded s = .next s)

/-- Case sensors and windows (R516, R521, R529). An excluded sensor that has read inside the band for 8,000 frames is used
again. The window of a monitor that ends becomes its finished one and the next begins at its end; a window without a value
beyond the limit clears the fault; the inspected monitor's window is published with its end as the epoch. A paused monitor
stays in its window. -/
def Obligations.CaseSensorsAndWindows : Prop :=
  (∀ (i f : Nat) (s : State), s.up = true → tfind s.therm.inBand i = some f → bit s.therm.excluded i = true →
    s.degraded 11 i = false →
    (f + 8000 ≤ s.clk.frame → ∃ u t : State, exec (.caseSensorRestore i) s = .next t ∧ bit u.therm.excluded i = false ∧
      (∀ k, k ≠ i → bit u.therm.excluded k = bit s.therm.excluded k) ∧
      { u with therm := { u.therm with excluded := s.therm.excluded, inBand := s.therm.inBand } } = s ∧ u.Cleared t 0x1507 i) ∧
    (s.clk.frame < f + 8000 → exec (.caseSensorRestore i) s = .next s)) ∧
  (∀ (m : Nat) (s : State), s.up = true → m < 64 → (s.monitor m).win.live = true → (s.monitor m).paused = false →
    s.windowEnd m ≤ s.clk.time →
    let w := (s.monitor m).win
    ∃ t, exec (.monitorWindowEnd m) s = .next t ∧ (t.monitor m).done = w ∧ (t.monitor m).doneAt = s.windowEnd m ∧
      (t.monitor m).win = { live := true, start := s.windowEnd m } ∧ (t.monitor m).paused = false ∧
      (∀ k, k ≠ m → t.monitor k = s.monitor k) ∧ (w.overs = false → t.faultIs 0x1601 m = false) ∧
      (s.cfgU 0x4C40 0 = m → (t.result 0x4C41).epoch = s.windowEnd m ∧ (t.result 0x4C41).sample = s.clk.sample ∧
        t.resV 0x4C41 4 = .u w.count ∧ t.resV 0x4C41 5 = rv w.min ∧ t.resV 0x4C41 6 = rv w.max) ∧
      (s.cfgU 0x4C40 0 ≠ m → t.res = s.res)) ∧
  (∀ (m : Nat) (s : State), (s.monitor m).paused = true → exec (.monitorWindowEnd m) s = .next s)

/-- Dormancy and the loss of power (R508, R525, R526, R544, R560). An enabled source that holds wakes the unit: WAKE_N, the
timer at its time, a moved vessel. 144 frames later it is Standby-ready with Panicle warm; a failed self-test goes on as a
cold start. Without VIN, or in reset, the SAFE lines are low, no output is driven, no session is open, and the queued records
have gone to NAND. -/
def Obligations.WakeAndLossOfPower : Prop :=
  (∀ (b : Nat) (s : State), s.st.power = .dormant → bit (s.cfgU 0x4A10 2) b = true → s.storesOk = true →
    b = 0 ∨ (b = 2 ∧ s.gn.moved = true) ∨
      (b = 1 ∧ s.cfgR 0x4A10 1 ≠ 0 ∧ ∃ d, s.st.dormantAt = some d ∧ d + State.ns (s.cfgR 0x4A10 1) ≤ s.clk.time) →
    ∃ u t, exec (.wakeSource b) s = .next t ∧
      State.Noted { s with st := { s.st with power := .waking, wake := some (s.clk.frame, b) } } u 0x1505 0 [b] ∧
      u.Counts t 0x4A50 4 ∧ { t with obj := u.obj } = u) ∧
  (∀ (b : Nat) (s : State), s.st.power ≠ .dormant → exec (.wakeSource b) s = .next s) ∧
  (∀ (w b : Nat) (s : State), s.st.power = .waking → s.st.wake = some (w, b) →
    (s.clk.frame = w + 144 → ∃ t, exec (.wakeComplete true) s = .next t ∧ t.st.power = .running ∧ t.st.role = 3 ∧
      t.mode.mode = 0 ∧ t.clk.f0 = s.clk.frame - s.clk.n ∧ t.pan.restart = some (1, 1) ∧ t.obs.pred = none ∧
      t.ctl.till.core.cold = some 1) ∧
    (s.clk.frame ≠ w + 144 → exec (.wakeComplete true) s = .next s) ∧
    (∃ t, exec (.wakeComplete false) s = .next t ∧ s.Started t 1 8)) ∧
  (∀ s : State, s.st.power ≠ .off →
    ∃ t, exec .vinFalling s = .next t ∧ t.st.power = .off ∧ t.st.vin = false ∧ t.atRest ∧ t.io.driven = 0 ∧
      t.acc.sessions = [] ∧ t.acc.store = none ∧ t.st.role = 3 ∧ (s.granOpen = true → s.gran.held.length + 257 < State.storeSize → t.gran.queue = [])) ∧
  (∀ s : State, s.st.power ≠ .off → s.st.power ≠ .reset →
    ∃ t, exec .resetNLow s = .next t ∧ t.st.power = .reset ∧ t.st.resetN = false ∧ t.atRest ∧ t.io.driven = 0 ∧
      t.acc.sessions = [] ∧ t.acc.store = none ∧ t.st.role = 3 ∧ (s.granOpen = true → s.gran.held.length + 257 < State.storeSize → t.gran.queue = [])) ∧
  (∀ s : State, s.st.power = .off → exec .vinFalling s = .next s ∧ exec .resetNLow s = .next s)

/-! Start-up and restart (chapter 22). -/

/-- What begins a start (R530, R532, R533, R535, R537): VIN and RESET_N cold, with device time from the VBAT-held count; the
supervisor after 80 frames without a refresh; the automatic restart at its time, warm where DRAM is in self-refresh; the boot
watchdog after 10 s, with the slot abandoned; a halt after 10 s, but for the third in a row. -/
def Obligations.StartsBegin : Prop :=
  (∀ (t0 : Nat) (s : State), s.st.power = .off → ∃ t, exec (.vinApplied t0) s = .next t ∧ s.Started t 1 1 ∧ t.clk.time = t0 ∧
    t.st.halts = 0 ∧ t.st.began = t0) ∧
  (∀ (t0 : Nat) (s : State), s.st.power ≠ .off → exec (.vinApplied t0) s = .next s) ∧
  (∀ (t0 : Nat) (s : State), s.st.power = .reset → ∃ t, exec (.resetNRelease t0) s = .next t ∧ s.Started t 1 2 ∧
    t.clk.time = max s.clk.time t0 ∧ t.st.halts = 0) ∧
  (∀ (frames t0 : Nat) (s : State), s.up = true ∨ s.st.power = .stopped →
    (80 ≤ frames → s.acc.store = none → ∃ t, exec (.supervisorReset frames t0) s = .next t ∧ s.Started t 1 5) ∧
    (80 ≤ frames → (s.acc.copyA.valid = true → s.acc.copyB.valid = true → s.acc.copyA.serial ≠ s.acc.copyB.serial) →
      ∃ t, exec (.supervisorReset frames t0) s = .next t ∧ t.st.power = .starting 1 ∧ t.st.cause = 5 ∧
        t.newestCopy = s.newestCopy) ∧
    (frames < 80 → exec (.supervisorReset frames t0) s = .next s)) ∧
  (∀ (t0 d : Nat) (refresh : Bool) (s : State), s.st.power = .stopped → s.st.restartDue = some d →
    (d ≤ t0 → ∃ t, exec (.automaticRestart t0 refresh) s = .next t ∧
      s.Started t (if refresh then 2 else 1) (if refresh then 4 else 8) ∧
      t.st.stops = if refresh then s.st.stops else []) ∧
    (t0 < d → exec (.automaticRestart t0 refresh) s = .next s)) ∧
  (∀ (t0 : Nat) (refresh : Bool) (s : State), s.st.restartDue = none → exec (.automaticRestart t0 refresh) s = .next s) ∧
  (∀ (k t0 : Nat) (s : State), s.st.power = .starting k → 5 ≤ k →
    (s.st.began + 10000000000 ≤ t0 → ∃ t, exec (.bootWatchdog t0) s = .next t ∧ s.Started t 1 6 ∧
      t.st.tried = s.st.tried ++ [(s.st.slot, 2)] ∧ (0x0007, 1, [s.st.slot, 2]) ∈ t.st.notes) ∧
    (t0 < s.st.began + 10000000000 → exec (.bootWatchdog t0) s = .next s)) ∧
  (∀ (t0 : Nat) (s : State), s.st.power = .halted → s.st.haltAt + 10000000000 ≤ t0 →
    (s.st.halts < 3 → ∃ t, exec (.selfTestHaltRetry t0) s = .next t ∧ s.Started t 1 s.st.cause ∧ t.st.halts = s.st.halts) ∧
    (3 ≤ s.st.halts → exec (.selfTestHaltRetry t0) s = .next s))

/-- The stages (Table 22-1, R513, R534-R540). Stage 1 samples the straps, and waits while they disagree; stages 2 and 3 hold in
ROM where they fail; BOOT 4 takes the recovery image; stage 4 starts the slot whose image passes, or abandons it for the other;
stage 5 opens the event store and halts on a failed test that Table 22-2 halts on; stage 6 takes the newest good copy of the
parameters, or the defaults; stage 7 ends in Standby with event 0006h. -/
def Obligations.StartUpStages : Prop :=
  ∀ (x : StageIn) (s : State),
    (s.st.power = .starting 1 → ∃ t, exec (.startUpStage x) s = .next t ∧
      (x.ok = true → x.agree = true → x.testLow = true → t.st.power = .starting 2 ∧ t.st.boot = x.boot % 8 ∧
        t.st.unitId = x.unit % 4 ∧
        (x.boot % 8 = 3 → s.st.kind = 2 → t.st.kind = 1 ∧ t.st.cause = 7) ∧
        (¬(x.boot % 8 = 3 ∧ s.st.kind = 2) → t.st.kind = s.st.kind ∧ t.st.cause = s.st.cause) ∧
        (x.vbat < 2500 → t.clk.time = 0 ∧ (0x000D, 0, [x.vbat]) ∈ t.st.notes) ∧
        (5 ≤ x.boot % 8 → (0x000C, 0, [x.boot % 8]) ∈ t.st.notes)) ∧
      (x.ok = false ∨ x.agree = false ∨ x.testLow = false → t = s.at' x.t)) ∧
    (s.st.power = .starting 2 → ∃ t, exec (.startUpStage x) s = .next t ∧
      t.st.power = if x.ok then .starting 3 else .romHeld) ∧
    (s.st.power = .starting 3 → ∃ t, exec (.startUpStage x) s = .next t ∧ (x.ok = false → t.st.power = .romHeld) ∧
      (x.ok = true → s.st.boot = 4 → t.st.power = .recovery) ∧
      (x.ok = true → s.st.boot ≠ 4 → s.st.kind = 2 → t.st.power = .starting 4 ∧ t.st.slot = s.st.slot) ∧
      (x.ok = true → s.st.boot ≠ 4 → s.st.kind ≠ 2 → s.st.tried = [] → t.st.power = .starting 4 ∧ t.st.slot = s.firstSlot)) ∧
    (s.st.power = .starting 4 → s.st.kind ≠ 2 → ∃ t, exec (.startUpStage x) s = .next t ∧
      (s.slotBoots s.st.slot x.image = true → t.st.power = .starting 5 ∧ t.st.slot = s.st.slot) ∧
      (s.slotBoots s.st.slot x.image = false → t.st.tried = s.st.tried ++ [(s.st.slot, 1)] ∧
        (0x0007, 1, [s.st.slot, 1]) ∈ t.st.notes ∧
        (s.st.tried = [] → s.st.boot = 0 → s.st.slot = s.firstSlot → s.firstSlot ≤ 1 →
          t.st.power = .starting 4 ∧ t.st.slot = 1 - s.st.slot) ∧
        (s.st.tried = [] → (s.st.boot = 1 ∨ s.st.boot = 2) → s.st.slot = s.firstSlot → t.st.power = .romHeld))) ∧
    (s.st.power = .starting 4 → s.st.kind = 2 → ∃ t, exec (.startUpStage x) s = .next t ∧
      (x.image = true → t.st.power = .starting 5) ∧ (x.image = false → t.st.kind = 1 ∧ t.st.cause = 8)) ∧
    (s.st.power = .starting 5 → ∃ t, exec (.startUpStage x) s = .next t ∧ t.gran.isOpen = true ∧ t.st.notes = [] ∧
      ((∀ f ∈ x.fails, State.testHalts f.1 f.2 = false) → t.st.power = .starting 6 ∧ t.st.halts = s.st.halts) ∧
      ((∃ f ∈ x.fails, State.testHalts f.1 f.2 = true) → t.st.power = .halted ∧ t.st.halts = s.st.halts + 1 ∧
        t.st.haltAt = max s.clk.time x.t) ∧
      (∀ f ∈ x.fails, bit t.st.tests f.1 = true ∧ (State.testHalts f.1 f.2 = false → f.1 * 64 + f.2 ∈ t.st.degraded))) ∧
    (s.st.power = .starting 6 → ∃ t, exec (.startUpStage x) s = .next t ∧ t.st.power = .starting 7 ∧ t.acc.marks = 0 ∧
      (∀ c, s.newestCopy = some c → storeOk c.vals = true → s.acc.marks = 0 → ∀ k, ¬(k / 256) ∈ stageSix →
        getV t.obj k = if State.storedOk k (getV c.vals k) ∧ getV c.vals k ≠ dfltAt k then getV c.vals k
          else if State.selfKept k then getV s.obj k else dfltAt k) ∧
      -- the reference selection is that of the stream objects (Table 5-4)
      (s.newestCopy = none ∨ (∃ c, s.newestCopy = some c ∧ storeOk c.vals = true) → ∀ n < 8, t.objU 0x2240 (n + 1) =
        ofBits ((List.range 32).filter fun b => t.cfgB (0x2600 + (32 * n + b)) 3)) ∧
      (s.newestCopy = none → t.faultIs 0x0009 0 = true ∧ ∀ k, ¬(k / 256) ∈ stageSix →
        getV t.obj k = if State.selfKept k ∧ ¬State.marked s.acc.marks k then getV s.obj k else dfltAt k)) ∧
    (s.st.power = .starting 7 → s.storesOk = true → ∃ t u v : State, exec (.startUpStage x) s = .next t ∧ t.up = true ∧ t.st.role = 3 ∧ t.mode.mode = 0 ∧
      t.st.halts = 0 ∧ t.clk.n = s.cfgU 0x2030 1 ∧ t.objU 0x2030 2 = s.cfgU 0x2030 1 ∧ t.pan.restart = some (3 - s.st.kind, 1) ∧
      t.ctl.till.core.cold = some 1 ∧ t.objU 0x2022 1 = s.st.kind ∧ t.objU 0x2022 2 = s.st.cause ∧
      t.objU 0x2022 3 = s.st.slot ∧ t.objU 0x4820 1 = s.st.slot ∧
      (∀ d ∈ s.st.degraded, Flt.mk 0x0008 d 1 ∈ t.faults) ∧
      u.Noted v 0x0006 0 [s.st.kind, s.st.cause, s.st.slot, (max s.clk.time x.t - s.st.began) / 1000000] ∧
      { t with faults := v.faults, can := v.can, therm := v.therm } = v) ∧
    ((∀ k, s.st.power ≠ .starting k) → exec (.startUpStage x) s = .next s)

/-- The event store opens (R509): event 1309h is recorded with 1 where the newest record is a power-fail record, and with 2
where it is not or there is none. -/
def Obligations.PowerFailNotedAtStart : Prop :=
  ∀ (x : StageIn) (s : State), s.st.power = .starting 5 → s.records = true →
    let k := match (s.gran.held ++ s.gran.queue).getLast? with
      | some r => if r.code = 0x1308 then 1 else 2
      | none => 2
    ∃ t r, exec (.startUpStage x) s = .next t ∧ r ∈ t.gran.queue ∧ r.code = 0x1309 ∧ r.cls = 0 ∧ r.params = [k, 0, 0, 0]

/-- While the unit runs or holds (R534-R537, R551). A repeated test that fails stops the unit, or degrades its part with a
fault; one that passes leaves all as it was. Straps that read otherwise three times in a row are a fault, and one equal reading
clears it. In ROM a retry every 10 s begins at stage 2; the recovery image that passes stands in slot A. -/
def Obligations.TestsStrapsAndRom : Prop :=
  (∀ (item inst : Nat) (s : State), s.up = true → s.therm.level = 0 → item ≤ 4 ∨ item = 6 ∨ (item = 10 ∧ s.hasGnss = true) →
    ∃ t, exec (.repeatableSelfTest item inst false) s = .next t ∧ bit t.st.tests item = true ∧
      (State.testHalts item inst = true → t.Stops 0x0008 (item * 64 + inst)) ∧
      (State.testHalts item inst = false → t.up = true ∧ item * 64 + inst ∈ t.st.degraded ∧
        Flt.mk 0x0008 (item * 64 + inst) 1 ∈ t.faults ∧ (s.records = true → t.newest 0x0008 1 [item, 1]))) ∧
  (∀ (item inst : Nat) (s : State), exec (.repeatableSelfTest item inst true) s = .next s) ∧
  (∀ (boot unit : Nat) (s : State), s.up = true → boot < 8 → unit < 4 → s.st.boot < 8 →
    (boot = s.st.boot ∧ unit = s.st.unitId →
      ∃ t, exec (.strapCheck boot unit) s = .next t ∧ t.st.strapMiss = 0 ∧ (s.setSt { s.st with strapMiss := 0 }).Cleared t 0x000E 0) ∧
    (¬(boot = s.st.boot ∧ unit = s.st.unitId) → s.st.strapMiss ≠ 2 →
      exec (.strapCheck boot unit) s = .next (s.setSt { s.st with strapMiss := s.st.strapMiss + 1 })) ∧
    (¬(boot = s.st.boot ∧ unit = s.st.unitId) → s.st.strapMiss = 2 →
      ∃ t k, exec (.strapCheck boot unit) s = .next t ∧
        let was := s.st.boot + 8 * s.st.unitId
        let now := boot + 8 * unit
        (s.setSt { s.st with strapMiss := 3 }).Alarmed t 0x000E 0 1 [k, b2n (bit was k), b2n (bit now k)] ∧
          (s.st.unitId < 4 → bit was k ≠ bit now k))) ∧
  (∀ (t0 : Nat) (s : State), s.st.power = .romHeld →
    (s.st.haltAt + 10000000000 ≤ t0 → ∃ t, exec (.romRetry t0) s = .next t ∧ t.st.power = .starting 2 ∧ t.st.tried = []) ∧
    (t0 < s.st.haltAt + 10000000000 → exec (.romRetry t0) s = .next s)) ∧
  (∀ (b : List Byte) (s : State), s.st.power = .recovery →
    (s.imageBad b = 0 → ∃ t, exec (.recoveryImage b) s = .next t ∧ t.slotImage 0 = some (State.parseImage b) ∧
      t.slotImage 1 = s.slotImage 1 ∧ { t with husk := s.husk } = s) ∧
    (s.imageBad b ≠ 0 → exec (.recoveryImage b) s = .next s))
end

