-- ==== Sys2Proof/Laws/Store.lean ====
section
/-! SUPPORT. The sparse tables and the object store: reads after writes, and the canonical form that every store
operation keeps. -/
namespace Sys2Proof.Machine

theorem rising_cons {α : Type} (a : Nat × α) (l : List (Nat × α)) :
    rising (a :: l) = true ↔ (∀ p ∈ l, a.1 < p.1) ∧ rising l = true := by
  induction l generalizing a with
  | nil => simp [rising]
  | cons b t ih =>
    simp only [rising, Bool.and_eq_true, decide_eq_true_eq, List.mem_cons, forall_eq_or_imp]
    constructor
    · rintro ⟨h, hr⟩
      exact ⟨⟨h, fun p hp => Nat.lt_trans h (((ih b).1 hr).1 p hp)⟩, hr⟩
    · rintro ⟨⟨h, _⟩, hr⟩
      exact ⟨h, hr⟩

theorem mem_tset {α : Type} {l : List (Nat × α)} {k : Nat} {v : α} {p : Nat × α} (h : p ∈ tset l k v) :
    p = (k, v) ∨ p ∈ l := by
  induction l with
  | nil => simp only [tset, List.mem_singleton] at h; exact .inl h
  | cons a t ih =>
    obtain ⟨k', v'⟩ := a
    simp only [tset] at h
    split at h
    · simpa using h
    · split at h
      · rcases List.mem_cons.1 h with h | h
        · exact .inl h
        · exact .inr (List.mem_cons_of_mem _ h)
      · rcases List.mem_cons.1 h with h | h
        · exact .inr (by simp [h])
        · exact (ih h).imp id (List.mem_cons_of_mem _)

theorem mem_tdel {α : Type} {l : List (Nat × α)} {k : Nat} {p : Nat × α} (h : p ∈ tdel l k) : p ∈ l := by
  induction l with
  | nil => simp [tdel] at h
  | cons a t ih =>
    obtain ⟨k', v'⟩ := a
    simp only [tdel] at h
    split at h
    · exact List.mem_cons_of_mem _ h
    · rcases List.mem_cons.1 h with h | h
      · simp [h]
      · exact List.mem_cons_of_mem _ (ih h)

theorem rising_tset {α : Type} {l : List (Nat × α)} (k : Nat) (v : α) (h : rising l = true) :
    rising (tset l k v) = true := by
  induction l with
  | nil => simp [tset, rising]
  | cons a t ih =>
    obtain ⟨k', v'⟩ := a
    obtain ⟨h1, h2⟩ := (rising_cons _ _).1 h
    simp only [tset]
    split
    · rename_i hk
      refine (rising_cons _ _).2 ⟨?_, h⟩
      intro p hp
      rcases List.mem_cons.1 hp with hp | hp
      · subst hp; exact hk
      · exact Nat.lt_trans hk (h1 p hp)
    · split
      · rename_i hk
        subst hk
        exact (rising_cons _ _).2 ⟨h1, h2⟩
      · rename_i hk hne
        refine (rising_cons _ _).2 ⟨?_, ih h2⟩
        intro p hp
        rcases mem_tset hp with hp | hp
        · subst hp; simp only; omega
        · exact h1 p hp

theorem rising_tdel {α : Type} {l : List (Nat × α)} (k : Nat) (h : rising l = true) : rising (tdel l k) = true := by
  induction l with
  | nil => simp [tdel, rising]
  | cons a t ih =>
    obtain ⟨k', v'⟩ := a
    obtain ⟨h1, h2⟩ := (rising_cons _ _).1 h
    simp only [tdel]
    split
    · exact h2
    · exact (rising_cons _ _).2 ⟨fun p hp => h1 p (mem_tdel hp), ih h2⟩

theorem rising_filter {α : Type} {l : List (Nat × α)} (q : Nat × α → Bool) (h : rising l = true) :
    rising (l.filter q) = true := by
  induction l with
  | nil => simp [rising]
  | cons a t ih =>
    obtain ⟨h1, h2⟩ := (rising_cons _ _).1 h
    rw [List.filter_cons]
    split
    · exact (rising_cons _ _).2 ⟨fun p hp => h1 p (List.mem_filter.1 hp).1, ih h2⟩
    · exact ih h2

theorem tfind_tset_self {α : Type} (l : List (Nat × α)) (k : Nat) (v : α) : tfind (tset l k v) k = some v := by
  induction l with
  | nil => simp [tset, tfind]
  | cons a t ih =>
    obtain ⟨k', v'⟩ := a
    simp only [tset]
    split
    · simp [tfind]
    · split
      · simp [tfind]
      · rename_i hne
        simp [tfind, Ne.symm hne, ih]

theorem tfind_tset_other {α : Type} (l : List (Nat × α)) (k j : Nat) (v : α) (h : j ≠ k) :
    tfind (tset l k v) j = tfind l j := by
  induction l with
  | nil => simp [tset, tfind, Ne.symm h]
  | cons a t ih =>
    obtain ⟨k', v'⟩ := a
    simp only [tset]
    split
    · simp [tfind, Ne.symm h]
    · split
      · rename_i hk; subst hk; simp [tfind, Ne.symm h]
      · simp [tfind, ih]

theorem tfind_none_of_lt {α : Type} {l : List (Nat × α)} {k : Nat} (h : ∀ p ∈ l, k < p.1) : tfind l k = none := by
  induction l with
  | nil => rfl
  | cons a t ih =>
    obtain ⟨k', v'⟩ := a
    have hk : k < k' := h (k', v') (by simp)
    simp [tfind, Nat.ne_of_gt hk, ih (fun p hp => h p (List.mem_cons_of_mem _ hp))]

theorem tfind_tdel_self {α : Type} {l : List (Nat × α)} (k : Nat) (h : rising l = true) : tfind (tdel l k) k = none := by
  induction l with
  | nil => rfl
  | cons a t ih =>
    obtain ⟨k', v'⟩ := a
    obtain ⟨h1, h2⟩ := (rising_cons _ _).1 h
    simp only [tdel]
    split
    · rename_i hk; subst hk; exact tfind_none_of_lt h1
    · rename_i hk; simp [tfind, hk, ih h2]

theorem tfind_tdel_other {α : Type} (l : List (Nat × α)) (k j : Nat) (h : j ≠ k) : tfind (tdel l k) j = tfind l j := by
  induction l with
  | nil => rfl
  | cons a t ih =>
    obtain ⟨k', v'⟩ := a
    simp only [tdel]
    split
    · rename_i hk; subst hk; simp [tfind, Ne.symm h]
    · simp [tfind, ih]

theorem tget_tset_self {α : Type} (d : α) (l : List (Nat × α)) (k : Nat) (v : α) : tget d (tset l k v) k = v := by
  induction l with
  | nil => simp [tset, tget]
  | cons a t ih =>
    obtain ⟨k', v'⟩ := a
    simp only [tset]
    split
    · simp [tget]
    · split
      · simp [tget]
      · rename_i hne; simp [tget, Ne.symm hne, ih]

theorem tget_tset_other {α : Type} (d : α) (l : List (Nat × α)) (k j : Nat) (v : α) (h : j ≠ k) :
    tget d (tset l k v) j = tget d l j := by
  induction l with
  | nil => simp [tset, tget, Ne.symm h]
  | cons a t ih =>
    obtain ⟨k', v'⟩ := a
    simp only [tset]
    split
    · simp [tget, Ne.symm h]
    · split
      · rename_i hk; subst hk; simp [tget, Ne.symm h]
      · simp [tget, ih]

theorem storeOk_iff {l : List (Nat × Val)} :
    storeOk l = true ↔ rising l = true ∧ ∀ p ∈ l, p.2 ≠ dfltAt p.1 := by
  simp [storeOk, List.all_eq_true]

theorem storeOk_nil : storeOk [] = true := rfl

/-- Writing a store keeps its canonical form. -/
theorem storeOk_putV {l : List (Nat × Val)} (k : Nat) (v : Val) (h : storeOk l = true) : storeOk (putV l k v) = true := by
  obtain ⟨hr, hd⟩ := storeOk_iff.1 h
  unfold putV
  split
  · exact storeOk_iff.2 ⟨rising_tdel k hr, fun p hp => hd p (mem_tdel hp)⟩
  · rename_i hv
    refine storeOk_iff.2 ⟨rising_tset k v hr, fun p hp => ?_⟩
    rcases mem_tset hp with hp | hp
    · subst hp; exact hv
    · exact hd p hp

theorem storeOk_filter {l : List (Nat × Val)} (q : Nat × Val → Bool) (h : storeOk l = true) :
    storeOk (l.filter q) = true := by
  obtain ⟨hr, hd⟩ := storeOk_iff.1 h
  exact storeOk_iff.2 ⟨rising_filter q hr, fun p hp => hd p (List.mem_filter.1 hp).1⟩

theorem storeOk_foldl {α : Type} (g : List (Nat × Val) → α → List (Nat × Val)) (ws : List α)
    (hg : ∀ l a, storeOk l = true → storeOk (g l a) = true) (l : List (Nat × Val)) (h : storeOk l = true) :
    storeOk (ws.foldl g l) = true := by
  induction ws generalizing l with
  | nil => exact h
  | cons a t ih => exact ih _ (hg l a h)

/-- A store reads back what was written. -/
theorem getV_putV_self {l : List (Nat × Val)} (k : Nat) (v : Val) (h : storeOk l = true) : getV (putV l k v) k = v := by
  obtain ⟨hr, _⟩ := storeOk_iff.1 h
  by_cases hv : v = dfltAt k
  · simp [putV, getV, hv, tfind_tdel_self k hr]
  · simp [putV, getV, hv, tfind_tset_self]

/-- A write leaves every other object alone. -/
theorem getV_putV_other (l : List (Nat × Val)) (k j : Nat) (v : Val) (h : j ≠ k) : getV (putV l k v) j = getV l j := by
  by_cases hv : v = dfltAt k
  · simp [putV, getV, hv, tfind_tdel_other l k j h]
  · simp [putV, getV, hv, tfind_tset_other l k j v h]

end Sys2Proof.Machine
end

