-- ==== Sys2Proof/Laws/Events.lean ====
section
/-! SUPPORT. What recording an event, raising a fault and lowering one do: each operation once, in the relations of
Safety.lean. -/
namespace Sys2Proof.Machine
namespace State

theorem sameObjects_refl (s : State) : s.sameObjects s := fun _ _ => rfl

theorem reserveSig_eq (s : State) : ∃ g, s.reserveSig = { s with gran := g } ∧ g.queue = s.gran.queue := by
  unfold reserveSig
  split
  · exact ⟨s.gran, rfl, rfl⟩
  · exact ⟨_, rfl, rfl⟩

theorem pushRec_eq (s : State) (code cls : Nat) (params : List Nat) :
    ∃ g r, s.pushRec code cls params = { s with gran := g } ∧ g.queue = s.gran.queue ++ [r] ∧ r.code = code ∧ r.cls = cls ∧
      r.params = recParams params ∧ r.time = s.clk.time ∧ r.sample = s.clk.sample := by
  unfold pushRec
  dsimp only
  split
  · obtain ⟨g, hg, hq⟩ := reserveSig_eq { s with gran := { s.gran with
      queue := s.gran.queue ++ [⟨code, cls, s.sourceByte, s.gran.next, s.clk.time, s.clk.sample, s.objU 0x2200 1,
        recParams params, [], 0, 0, 0⟩],
      next := (s.gran.next + 1) % 2 ^ 32, since := s.gran.since + 1 } }
    exact ⟨g, _, hg, hq, rfl, rfl, rfl, rfl, rfl⟩
  · exact ⟨_, _, rfl, rfl, rfl, rfl, rfl, rfl, rfl⟩

theorem reportLost_eq (s : State) : ∃ g, s.reportLost = { s with gran := g } := by
  unfold reportLost
  split
  · exact ⟨s.gran, rfl⟩
  · obtain ⟨g, _, hg, _⟩ := pushRec_eq s 0x1305 0 [s.gran.lost]
    exact ⟨_, by rw [hg]⟩

/-- Recording an event does that and nothing else. -/
theorem record_noted (s : State) (code cls : Nat) (params : List Nat) : s.Noted (s.record code cls params) code cls params := by
  unfold record
  split
  · rename_i h
    exact ⟨rfl, sameObjects_refl s, fun hr => absurd hr (by rcases h with h | h <;> simp [records, h])⟩
  · split
    · obtain ⟨g, hg⟩ := reportLost_eq s
      obtain ⟨g', r, hg', hq, h1, h2, h3, h4, h5⟩ := pushRec_eq s.reportLost code cls params
      rw [hg] at hg' h4 h5
      refine ⟨by rw [hg, hg'], by rw [hg, hg']; exact sameObjects_refl _, fun _ => ?_⟩
      rw [hg, hg']
      refine ⟨r, ?_, h1, h2, h3, h4, h5⟩
      show g'.queue.getLast? = some r
      rw [hq, List.getLast?_concat]
    · rename_i hr
      unfold discardRec incU addU putU putObj
      refine ⟨rfl, fun k hk => by rw [getV_putV_other _ _ _ _ hk], fun h => absurd h ?_⟩
      simp only [records, Bool.and_eq_true, not_and]
      intro _; exact hr

theorem note_noted (s : State) (code : Nat) (params : List Nat) : s.Noted (s.note code params) code 0 params :=
  record_noted s code 0 params

theorem canQueue_eq (s : State) (c : Nat) (m : CanMsg) : ∃ k, s.canQueue c m = { s with can := k } := by
  unfold canQueue
  dsimp only
  split
  · exact ⟨_, rfl⟩
  · exact ⟨s.can, rfl⟩

theorem canQueues_eq (m : CanMsg) (l : List Nat) (s : State) : ∃ k, foldS s l (fun s c => s.canQueue c m) = { s with can := k } := by
  unfold foldS
  induction l generalizing s with
  | nil => exact ⟨s.can, rfl⟩
  | cons c l ih =>
    obtain ⟨k, hk⟩ := canQueue_eq s c m
    obtain ⟨k', hk'⟩ := ih { s with can := k }
    exact ⟨k', by rw [List.foldl_cons, hk, hk']⟩

/-- An EMCY message touches the CAN controllers alone. -/
theorem emcy_eq (s : State) (code : Nat) : ∃ k, s.emcy code = { s with can := k } := by
  unfold emcy
  dsimp only
  split
  · exact ⟨s.can, rfl⟩
  · exact canQueues_eq _ _ _

theorem mem_dropFault (s : State) (code inst : Nat) (f : Flt) :
    f ∈ (s.dropFault code inst).faults ↔ f ∈ s.faults ∧ ¬(f.code = code ∧ f.inst = inst) := by
  simp only [dropFault, List.mem_filter, Bool.not_eq_true', Bool.and_eq_false_iff, beq_eq_false_iff_ne, ne_eq,
    Decidable.not_and_iff_not_or_not]

theorem raise_raised (s : State) (code inst cls : Nat) : s.Raised (s.raise code inst cls) code inst cls := by
  have key : ∀ k, s.Raised { s with faults := (s.dropFault code inst).faults ++ [⟨code, inst, cls⟩], can := k } code inst cls := by
    intro k
    refine ⟨rfl, by simp, fun f hf => ?_⟩
    simp only [List.mem_append, mem_dropFault, List.mem_singleton]
    constructor
    · rintro (h | h)
      · exact h.1
      · exact absurd ⟨by rw [h], by rw [h]⟩ hf
    · exact fun h => .inl ⟨h, hf⟩
  unfold raise
  dsimp only
  split
  · exact key s.can
  · obtain ⟨k, hk⟩ := emcy_eq { s with faults := (s.dropFault code inst).faults ++ [⟨code, inst, cls⟩] } code
    rw [hk]
    exact key k

/-- An alarm records its event and raises its fault. -/
theorem alarm_alarmed (s : State) (code inst cls : Nat) (params : List Nat) :
    s.Alarmed (s.alarm code inst cls params) code inst cls params :=
  ⟨_, record_noted s code cls params, raise_raised _ code inst cls⟩

theorem lower_cleared (s : State) (code inst : Nat) : s.Cleared (s.lower code inst) code inst := by
  unfold lower
  split
  · obtain ⟨k, hk⟩ := emcy_eq (s.dropFault code inst) code
    rw [hk]
    refine ⟨rfl, ?_, fun f hf => ?_⟩
    · rw [Bool.eq_false_iff]
      intro h
      simp only [faultIs, List.any_eq_true, Bool.and_eq_true, beq_iff_eq] at h
      obtain ⟨f, hf, hc⟩ := h
      exact ((mem_dropFault s code inst f).1 hf).2 hc
    · show f ∈ (s.dropFault code inst).faults ↔ _
      rw [mem_dropFault]
      exact ⟨fun h => h.1, fun h => ⟨h, hf⟩⟩
  · rename_i h
    exact ⟨rfl, by simpa using h, fun _ _ => Iff.rfl⟩

end State
end Sys2Proof.Machine
end

