-- ==== Sys2Proof/Laws/Keeps.lean ====
section
/-! SUPPORT. What every operation of the unit keeps: the queue is as before, and where the stores and the mode manager were
in order they still are. One relation between the state before and after, with the rules that build it up. -/
namespace Sys2Proof.Machine

/-- The full mirror that waits, if any, carries a mode manager the mode table allows. -/
def heldOk : Option (Nat × FullLead) → Bool
  | some p => p.2.mode.ok
  | none => true

/-- Each part whose bit in `m` is clear is unchanged; the bits number the fields of `State` in their order. -/
structure Same (m : Nat) (s t : State) : Prop where
  free : m.testBit 1 = false → t.free = s.free
  clk : m.testBit 2 = false → t.clk = s.clk
  obj : m.testBit 3 = false → t.obj = s.obj
  force : m.testBit 4 = false → t.force = s.force
  res : m.testBit 5 = false → t.res = s.res
  faults : m.testBit 6 = false → t.faults = s.faults
  acc : m.testBit 7 = false → t.acc = s.acc
  mode : m.testBit 8 = false → t.mode = s.mode
  gran : m.testBit 9 = false → t.gran = s.gran
  husk : m.testBit 10 = false → t.husk = s.husk
  therm : m.testBit 11 = false → t.therm = s.therm
  mons : m.testBit 12 = false → t.mons = s.mons
  st : m.testBit 13 = false → t.st = s.st
  hal : m.testBit 14 = false → t.hal = s.hal
  sheaf : m.testBit 15 = false → t.sheaf = s.sheaf
  win : m.testBit 16 = false → t.win = s.win
  obs : m.testBit 17 = false → t.obs = s.obs
  ctl : m.testBit 18 = false → t.ctl = s.ctl
  net : m.testBit 19 = false → t.net = s.net
  chaff : m.testBit 20 = false → t.chaff = s.chaff
  fb : m.testBit 21 = false → t.fb = s.fb
  io : m.testBit 22 = false → t.io = s.io
  gn : m.testBit 23 = false → t.gn = s.gn
  tb : m.testBit 24 = false → t.tb = s.tb
  pan : m.testBit 25 = false → t.pan = s.pan
  mir : m.testBit 26 = false → t.mir = s.mir
  can : m.testBit 27 = false → t.can = s.can

theorem Same.refl (m : Nat) (s : State) : Same m s s :=
  ⟨fun _ => rfl, fun _ => rfl, fun _ => rfl, fun _ => rfl, fun _ => rfl, fun _ => rfl, fun _ => rfl, 
    fun _ => rfl, fun _ => rfl, fun _ => rfl, fun _ => rfl, fun _ => rfl, fun _ => rfl, fun _ => rfl, 
    fun _ => rfl, fun _ => rfl, fun _ => rfl, fun _ => rfl, fun _ => rfl, fun _ => rfl, fun _ => rfl, 
    fun _ => rfl, fun _ => rfl, fun _ => rfl, fun _ => rfl, fun _ => rfl, fun _ => rfl⟩

theorem Same.trans {m : Nat} {s t u : State} (a : Same m s t) (b : Same m t u) : Same m s u :=
  ⟨fun h => (b.free h).trans (a.free h), fun h => (b.clk h).trans (a.clk h), 
    fun h => (b.obj h).trans (a.obj h), fun h => (b.force h).trans (a.force h), 
    fun h => (b.res h).trans (a.res h), fun h => (b.faults h).trans (a.faults h), 
    fun h => (b.acc h).trans (a.acc h), fun h => (b.mode h).trans (a.mode h), 
    fun h => (b.gran h).trans (a.gran h), fun h => (b.husk h).trans (a.husk h), 
    fun h => (b.therm h).trans (a.therm h), fun h => (b.mons h).trans (a.mons h), 
    fun h => (b.st h).trans (a.st h), fun h => (b.hal h).trans (a.hal h), 
    fun h => (b.sheaf h).trans (a.sheaf h), fun h => (b.win h).trans (a.win h), 
    fun h => (b.obs h).trans (a.obs h), fun h => (b.ctl h).trans (a.ctl h), fun h => (b.net h).trans (a.net h), 
    fun h => (b.chaff h).trans (a.chaff h), fun h => (b.fb h).trans (a.fb h), fun h => (b.io h).trans (a.io h), 
    fun h => (b.gn h).trans (a.gn h), fun h => (b.tb h).trans (a.tb h), fun h => (b.pan h).trans (a.pan h), 
    fun h => (b.mir h).trans (a.mir h), fun h => (b.can h).trans (a.can h)⟩

theorem testBit_le {a m i : Nat} (h : a ||| m = m) (k : m.testBit i = false) : a.testBit i = false := by
  rw [← h, Nat.testBit_or] at k
  cases h' : a.testBit i
  · rfl
  · rw [h'] at k; exact k

theorem Same.mono {a m : Nat} {s t : State} (h : a ||| m = m) (x : Same a s t) : Same m s t :=
  ⟨fun k => x.free (testBit_le h k), fun k => x.clk (testBit_le h k), fun k => x.obj (testBit_le h k), 
    fun k => x.force (testBit_le h k), fun k => x.res (testBit_le h k), fun k => x.faults (testBit_le h k), 
    fun k => x.acc (testBit_le h k), fun k => x.mode (testBit_le h k), fun k => x.gran (testBit_le h k), 
    fun k => x.husk (testBit_le h k), fun k => x.therm (testBit_le h k), fun k => x.mons (testBit_le h k), 
    fun k => x.st (testBit_le h k), fun k => x.hal (testBit_le h k), fun k => x.sheaf (testBit_le h k), 
    fun k => x.win (testBit_le h k), fun k => x.obs (testBit_le h k), fun k => x.ctl (testBit_le h k), 
    fun k => x.net (testBit_le h k), fun k => x.chaff (testBit_le h k), fun k => x.fb (testBit_le h k), 
    fun k => x.io (testBit_le h k), fun k => x.gn (testBit_le h k), fun k => x.tb (testBit_le h k), 
    fun k => x.pan (testBit_le h k), fun k => x.mir (testBit_le h k), fun k => x.can (testBit_le h k)⟩

theorem bit_in {m i : Nat} {p : Prop} (h : m.testBit i = true) : m.testBit i = false → p := fun k => by
  rw [h] at k; cases k
theorem bit_same {p : Prop} {α : Type} {x : α} : p → x = x := fun _ => rfl

/-- The changed parts of a record update all have their bits in `m`. -/
theorem Same.of_upd {m : Nat} {t : State} {free clk obj force res faults acc mode gran husk therm mons st hal sheaf
    win obs ctl net chaff fb io gn tb pan mir can} (h1 : m.testBit 1 = false → free = t.free) (h2 : m.testBit 2 =
    false → clk = t.clk) (h3 : m.testBit 3 = false → obj = t.obj) (h4 : m.testBit 4 = false → force = t.force) (h5
    : m.testBit 5 = false → res = t.res) (h6 : m.testBit 6 = false → faults = t.faults) (h7 : m.testBit 7 = false →
    acc = t.acc) (h8 : m.testBit 8 = false → mode = t.mode) (h9 : m.testBit 9 = false → gran = t.gran) (h10 :
    m.testBit 10 = false → husk = t.husk) (h11 : m.testBit 11 = false → therm = t.therm) (h12 : m.testBit 12 =
    false → mons = t.mons) (h13 : m.testBit 13 = false → st = t.st) (h14 : m.testBit 14 = false → hal = t.hal) (h15
    : m.testBit 15 = false → sheaf = t.sheaf) (h16 : m.testBit 16 = false → win = t.win) (h17 : m.testBit 17 =
    false → obs = t.obs) (h18 : m.testBit 18 = false → ctl = t.ctl) (h19 : m.testBit 19 = false → net = t.net) (h20
    : m.testBit 20 = false → chaff = t.chaff) (h21 : m.testBit 21 = false → fb = t.fb) (h22 : m.testBit 22 = false
    → io = t.io) (h23 : m.testBit 23 = false → gn = t.gn) (h24 : m.testBit 24 = false → tb = t.tb) (h25 : m.testBit
    25 = false → pan = t.pan) (h26 : m.testBit 26 = false → mir = t.mir) (h27 : m.testBit 27 = false → can = t.can) :
    Same m t (State.mk t.pending free clk obj force res faults acc mode gran husk therm mons st hal sheaf win obs
    ctl net chaff fb io gn tb pan mir can) :=
  ⟨h1, h2, h3, h4, h5, h6, h7, h8, h9, h10, h11, h12, h13, h14, h15, h16, h17, h18, h19, h20, h21, h22, h23, 
    h24, h25, h26, h27⟩

/-- From `s` to `t` the queue is unchanged, and each part of the invariant that held still holds. -/
structure Keeps (m : Nat) (s t : State) : Prop where
  queue : t.pending = s.pending
  obj : storeOk s.obj = true → storeOk s.force = true → storeOk t.obj = true
  force : storeOk s.obj = true → storeOk s.force = true → storeOk t.force = true
  mode : s.mode.ok = true → heldOk s.mir.fullIn = true → t.mode.ok = true
  held : s.mode.ok = true → heldOk s.mir.fullIn = true → heldOk t.mir.fullIn = true
  same : Same m s t

variable {m : Nat}

theorem Keeps.refl (s : State) : Keeps m s s :=
  ⟨rfl, fun h _ => h, fun _ h => h, fun h _ => h, fun _ h => h, Same.refl m s⟩

theorem Keeps.trans {s t u : State} (a : Keeps m s t) (b : Keeps m t u) : Keeps m s u :=
  ⟨b.queue.trans a.queue, fun h k => b.obj (a.obj h k) (a.force h k), fun h k => b.force (a.obj h k) (a.force h k),
   fun h k => b.mode (a.mode h k) (a.held h k), fun h k => b.held (a.mode h k) (a.held h k),
   a.same.trans b.same⟩

theorem Keeps.mono {a : Nat} {s t : State} (h : a ||| m = m) (x : Keeps a s t) : Keeps m s t :=
  ⟨x.queue, x.obj, x.force, x.mode, x.held, x.same.mono h⟩

/-- One more operation, whose parts are among `m`. -/
theorem Keeps.to {a : Nat} {s t u : State} (h : a ||| m = m) (x : Keeps m s t) (y : Keeps a t u) : Keeps m s u :=
  x.trans (y.mono h)

theorem Keeps.ofId (s : State) : Keeps m s (id s) := Keeps.refl s

theorem Keeps.ite {s t u : State} {c : Prop} {d : Decidable c} (a : Keeps m s t) (b : Keeps m s u) :
    Keeps m s (if c then t else u) := by split <;> assumption

theorem Keeps.foldS {α : Type} {s t : State} {l : List α} {g : State → α → State} (a : Keeps m s t)
    (h : ∀ u x, Keeps m u (g u x)) : Keeps m s (Machine.foldS t l g) := by
  unfold Machine.foldS
  induction l generalizing t with
  | nil => exact a
  | cons x l ih => exact ih (a.trans (h t x))

theorem Keeps.foldl {α : Type} {s t : State} {l : List α} {g : State → α → State} (a : Keeps m s t)
    (h : ∀ u x, Keeps m u (g u x)) : Keeps m s (l.foldl g t) := Keeps.foldS a h

/-- A record update: each part is as it was, or keeps its own condition. -/
theorem Keeps.upd {s t : State} {free clk obj force res faults acc mode gran husk therm mons st hal sheaf win obs ctl net
    chaff fb io gn tb pan mir can} (a : Keeps m s t)
    (ho : storeOk t.obj = true → storeOk t.force = true → storeOk obj = true)
    (hf : storeOk t.obj = true → storeOk t.force = true → storeOk force = true)
    (hm : t.mode.ok = true → heldOk t.mir.fullIn = true → mode.ok = true)
    (hh : t.mode.ok = true → heldOk t.mir.fullIn = true → heldOk mir.fullIn = true)
    (hs : Same m t (State.mk t.pending free clk obj force res faults acc mode gran husk therm mons st hal sheaf win obs ctl net
      chaff fb io gn tb pan mir can)) :
    Keeps m s (State.mk t.pending free clk obj force res faults acc mode gran husk therm mons st hal sheaf win obs ctl net
      chaff fb io gn tb pan mir can) :=
  a.trans ⟨rfl, ho, hf, hm, hh, hs⟩

/-- The verdict of an object's own rules leaves a kept state. -/
inductive Verdict.keeps (m : Nat) (s : State) : State.Verdict → Prop
  | store : Verdict.keeps m s .store
  | refuse {a : Nat} {t : State} (h : Keeps m s t) : Verdict.keeps m s (.refuse a t)
  | done {t : State} (h : Keeps m s t) : Verdict.keeps m s (.done t)

/-- The state that a verdict leaves is kept. -/
theorem Verdict.keeps.of_refuse {s t : State} {a : Nat} (h : Verdict.keeps m s (.refuse a t)) : Keeps m s t := by
  cases h; assumption
theorem Verdict.keeps.of_done {s t : State} (h : Verdict.keeps m s (.done t)) : Keeps m s t := by cases h; assumption
theorem verdict_ite {s : State} {c : Prop} {d : Decidable c} {a b : State.Verdict} (ha : Verdict.keeps m s a)
    (hb : Verdict.keeps m s b) : Verdict.keeps m s (if c then a else b) := by split <;> assumption
theorem verdict_trans {s t : State} {v : State.Verdict} (h : Keeps m s t) (hv : Verdict.keeps m t v) : Verdict.keeps m s v := by
  cases hv with
  | store => exact .store
  | refuse hv => exact .refuse (h.trans hv)
  | done hv => exact .done (h.trans hv)

/-- The outcome is a next state that keeps what `Keeps` says. -/
inductive outKeeps m (s : State) : Out → Prop
  | next {t : State} (h : Keeps m s t) : outKeeps m s (.next t)

theorem outKeeps_ite {s : State} {c : Prop} {d : Decidable c} {a b : Out} (ha : outKeeps m s a) (hb : outKeeps m s b) :
    outKeeps m s (if c then a else b) := by split <;> assumption
theorem outKeeps_trans {s t : State} {o : Out} (h : Keeps m s t) (ho : outKeeps m t o) : outKeeps m s o := by
  cases ho with
  | next ho => exact .next (h.trans ho)

theorem verdict_to {a : Nat} {s t : State} {v : State.Verdict} (le : a ||| m = m) (h : Keeps m s t)
    (hv : Verdict.keeps a t v) : Verdict.keeps m s v := by
  cases hv with
  | store => exact .store
  | refuse hv => exact .refuse (h.to le hv)
  | done hv => exact .done (h.to le hv)
theorem outKeeps_to {a : Nat} {s t : State} {o : Out} (le : a ||| m = m) (h : Keeps m s t) (ho : outKeeps a t o) :
    outKeeps m s o := by
  cases ho with
  | next ho => exact .next (h.to le ho)

theorem heldOk_none : heldOk none = true := rfl

/-- Only the mode, its auto-heading choice and its axes are judged. -/
theorem modeOk_upd {m : ModeMgr} {cmds lastWord lastIsMode ramp spN spE spH spV held cross along leg trackEnd lastTgt}
    (h : m.ok = true) :
    (ModeMgr.mk m.mode m.autoHead m.axes cmds lastWord lastIsMode ramp spN spE spH spV held cross along leg trackEnd
      lastTgt).ok = true := h

theorem modeOk_zero {cmds lastWord lastIsMode ramp spN spE spH spV held cross along leg trackEnd lastTgt} :
    (ModeMgr.mk 0 false 0 cmds lastWord lastIsMode ramp spN spE spH spV held cross along leg trackEnd lastTgt).ok = true :=
  rfl

theorem id1 {p q : Prop} : p → q → p := fun h _ => h
theorem id2 {p q : Prop} : p → q → q := fun _ h => h

end Sys2Proof.Machine
end

