-- ==== Sys2Proof/Laws/KeepOps.lean ====
section
/-! SUPPORT. What the operations of Machine/Ops.lean keep (Laws/Keeps.lean). -/
namespace Sys2Proof.Machine

theorem State.putObj_keeps (s : State) (idx sub : Nat) (v : Val) :
    Keeps 0x8 s (State.putObj s idx sub v) := by
  unfold State.putObj
  try dsimp only
  repeat' first
    | with_reducible first
        | apply Keeps.ite | apply Keeps.refl | assumption | apply storeOk_putV | apply storeOk_filter
        | apply modeOk_upd | apply modeOk_zero | apply Keeps.foldS | apply Keeps.foldl | (intro _)
    | split
    | with_reducible apply Keeps.upd
    | (with_reducible apply Same.of_upd) <;> with_reducible first | exact bit_same | exact bit_in (by decide)
    | decide

theorem State.putU_keeps (s : State) (idx sub n : Nat) :
    Keeps 0x8 s (State.putU s idx sub n) := by
  unfold State.putU
  try dsimp only
  repeat' first
    | with_reducible first
        | apply Keeps.ite | apply Keeps.refl | assumption | apply storeOk_putV | apply storeOk_filter
        | apply modeOk_upd | apply modeOk_zero | apply Keeps.to ?_ ?_ (State.putObj_keeps ..) | apply Keeps.foldS
        | apply Keeps.foldl | (intro _)
    | split
    | with_reducible apply Keeps.upd
    | (with_reducible apply Same.of_upd) <;> with_reducible first | exact bit_same | exact bit_in (by decide)
    | decide

theorem State.putI_keeps (s : State) (idx sub : Nat) (z : Int) :
    Keeps 0x8 s (State.putI s idx sub z) := by
  unfold State.putI
  try dsimp only
  repeat' first
    | with_reducible first
        | apply Keeps.ite | apply Keeps.refl | assumption | apply storeOk_putV | apply storeOk_filter
        | apply modeOk_upd | apply modeOk_zero | apply Keeps.to ?_ ?_ (State.putObj_keeps ..) | apply Keeps.foldS
        | apply Keeps.foldl | (intro _)
    | split
    | with_reducible apply Keeps.upd
    | (with_reducible apply Same.of_upd) <;> with_reducible first | exact bit_same | exact bit_in (by decide)
    | decide

theorem State.putR_keeps (s : State) (idx sub : Nat) (x : Rat) :
    Keeps 0x8 s (State.putR s idx sub x) := by
  unfold State.putR
  try dsimp only
  repeat' first
    | with_reducible first
        | apply Keeps.ite | apply Keeps.refl | assumption | apply storeOk_putV | apply storeOk_filter
        | apply modeOk_upd | apply modeOk_zero | apply Keeps.to ?_ ?_ (State.putObj_keeps ..) | apply Keeps.foldS
        | apply Keeps.foldl | (intro _)
    | split
    | with_reducible apply Keeps.upd
    | (with_reducible apply Same.of_upd) <;> with_reducible first | exact bit_same | exact bit_in (by decide)
    | decide

theorem State.putB_keeps (s : State) (idx sub : Nat) (b : Bool) :
    Keeps 0x8 s (State.putB s idx sub b) := by
  unfold State.putB
  try dsimp only
  repeat' first
    | with_reducible first
        | apply Keeps.ite | apply Keeps.refl | assumption | apply storeOk_putV | apply storeOk_filter
        | apply modeOk_upd | apply modeOk_zero | apply Keeps.to ?_ ?_ (State.putObj_keeps ..) | apply Keeps.foldS
        | apply Keeps.foldl | (intro _)
    | split
    | with_reducible apply Keeps.upd
    | (with_reducible apply Same.of_upd) <;> with_reducible first | exact bit_same | exact bit_in (by decide)
    | decide

theorem State.putBoth_keeps (s : State) (idx sub : Nat) (v : Val) :
    Keeps 0x18 s (State.putBoth s idx sub v) := by
  unfold State.putBoth
  try dsimp only
  repeat' first
    | with_reducible first
        | apply Keeps.ite | apply Keeps.refl | assumption | apply storeOk_putV | apply storeOk_filter
        | apply modeOk_upd | apply modeOk_zero | apply Keeps.foldS | apply Keeps.foldl | (intro _)
    | split
    | with_reducible apply Keeps.upd
    | (with_reducible apply Same.of_upd) <;> with_reducible first | exact bit_same | exact bit_in (by decide)
    | decide

theorem State.addU_keeps (s : State) (idx sub k : Nat) :
    Keeps 0x8 s (State.addU s idx sub k) := by
  unfold State.addU
  try dsimp only
  repeat' first
    | with_reducible first
        | apply Keeps.ite | apply Keeps.refl | assumption | apply storeOk_putV | apply storeOk_filter
        | apply modeOk_upd | apply modeOk_zero | apply Keeps.to ?_ ?_ (State.putU_keeps ..) | apply Keeps.foldS
        | apply Keeps.foldl | (intro _)
    | split
    | with_reducible apply Keeps.upd
    | (with_reducible apply Same.of_upd) <;> with_reducible first | exact bit_same | exact bit_in (by decide)
    | decide

theorem State.incU_keeps (s : State) (idx sub : Nat) :
    Keeps 0x8 s (State.incU s idx sub) := by
  unfold State.incU
  try dsimp only
  repeat' first
    | with_reducible first
        | apply Keeps.ite | apply Keeps.refl | assumption | apply storeOk_putV | apply storeOk_filter
        | apply modeOk_upd | apply modeOk_zero | apply Keeps.to ?_ ?_ (State.addU_keeps ..) | apply Keeps.foldS
        | apply Keeps.foldl | (intro _)
    | split
    | with_reducible apply Keeps.upd
    | (with_reducible apply Same.of_upd) <;> with_reducible first | exact bit_same | exact bit_in (by decide)
    | decide

theorem State.at'_keeps (s : State) (t : Nat) :
    Keeps 0x4 s (State.at' s t) := by
  unfold State.at'
  try dsimp only
  repeat' first
    | with_reducible first
        | apply Keeps.ite | apply Keeps.refl | assumption | apply storeOk_putV | apply storeOk_filter
        | apply modeOk_upd | apply modeOk_zero | apply Keeps.foldS | apply Keeps.foldl | (intro _)
    | split
    | with_reducible apply Keeps.upd
    | (with_reducible apply Same.of_upd) <;> with_reducible first | exact bit_same | exact bit_in (by decide)
    | decide

theorem State.freeN_keeps (s : State) :
    Keeps 0x2 s (State.freeN s).2 := by
  unfold State.freeN
  try dsimp only
  repeat' first
    | with_reducible first
        | apply Keeps.ite | apply Keeps.refl | assumption | apply storeOk_putV | apply storeOk_filter
        | apply modeOk_upd | apply modeOk_zero | apply Keeps.foldS | apply Keeps.foldl | (intro _)
    | split
    | with_reducible apply Keeps.upd
    | (with_reducible apply Same.of_upd) <;> with_reducible first | exact bit_same | exact bit_in (by decide)
    | decide
theorem State.freeN_keepsEq {s : State} {x t} (h : State.freeN s = (x, t))   : Keeps 0x2 s t := by
  have := State.freeN_keeps s
  rw [h] at this
  exact this

theorem State.freeR_keeps (s : State) :
    Keeps 0x2 s (State.freeR s).2 := by
  unfold State.freeR
  try dsimp only
  repeat' first
    | with_reducible first
        | apply Keeps.ite | apply Keeps.refl | assumption | apply storeOk_putV | apply storeOk_filter
        | apply modeOk_upd | apply modeOk_zero | apply Keeps.foldS | apply Keeps.foldl | (intro _)
    | split
    | with_reducible apply Keeps.upd
    | (with_reducible apply Same.of_upd) <;> with_reducible first | exact bit_same | exact bit_in (by decide)
    | decide
theorem State.freeR_keepsEq {s : State} {x t} (h : State.freeR s = (x, t))   : Keeps 0x2 s t := by
  have := State.freeR_keeps s
  rw [h] at this
  exact this

theorem State.publish_keeps (s : State) (idx : Nat) (vals : List Val) :
    Keeps 0x20 s (State.publish s idx vals) := by
  unfold State.publish
  try dsimp only
  repeat' first
    | with_reducible first
        | apply Keeps.ite | apply Keeps.refl | assumption | apply storeOk_putV | apply storeOk_filter
        | apply modeOk_upd | apply modeOk_zero | apply Keeps.foldS | apply Keeps.foldl | (intro _)
    | split
    | with_reducible apply Keeps.upd
    | (with_reducible apply Same.of_upd) <;> with_reducible first | exact bit_same | exact bit_in (by decide)
    | decide

theorem State.publishAt_keeps (s : State) (idx epoch : Nat) (vals : List Val) :
    Keeps 0x20 s (State.publishAt s idx epoch vals) := by
  unfold State.publishAt
  try dsimp only
  repeat' first
    | with_reducible first
        | apply Keeps.ite | apply Keeps.refl | assumption | apply storeOk_putV | apply storeOk_filter
        | apply modeOk_upd | apply modeOk_zero | apply Keeps.foldS | apply Keeps.foldl | (intro _)
    | split
    | with_reducible apply Keeps.upd
    | (with_reducible apply Same.of_upd) <;> with_reducible first | exact bit_same | exact bit_in (by decide)
    | decide

theorem State.publishEnd_keeps (s : State) (idx : Nat) (vals : List Val) :
    Keeps 0x20 s (State.publishEnd s idx vals) := by
  unfold State.publishEnd
  try dsimp only
  repeat' first
    | with_reducible first
        | apply Keeps.ite | apply Keeps.refl | assumption | apply storeOk_putV | apply storeOk_filter
        | apply modeOk_upd | apply modeOk_zero | apply Keeps.foldS | apply Keeps.foldl | (intro _)
    | split
    | with_reducible apply Keeps.upd
    | (with_reducible apply Same.of_upd) <;> with_reducible first | exact bit_same | exact bit_in (by decide)
    | decide

theorem State.exchange_keeps (s : State) :
    Keeps 0x20 s (State.exchange s) := by
  unfold State.exchange
  try dsimp only
  repeat' first
    | with_reducible first
        | apply Keeps.ite | apply Keeps.refl | assumption | apply storeOk_putV | apply storeOk_filter
        | apply modeOk_upd | apply modeOk_zero | apply heldOk_none | apply Keeps.foldS | apply Keeps.foldl
        | (intro _)
    | split
    | with_reducible apply Keeps.upd
    | (with_reducible apply Same.of_upd) <;> with_reducible first | exact bit_same | exact bit_in (by decide)
    | decide

theorem State.stale_keeps (s : State) (idx : Nat) :
    Keeps 0x20 s (State.stale s idx) := by
  unfold State.stale
  try dsimp only
  repeat' first
    | with_reducible first
        | apply Keeps.ite | apply Keeps.refl | assumption | apply storeOk_putV | apply storeOk_filter
        | apply modeOk_upd | apply modeOk_zero | apply Keeps.foldS | apply Keeps.foldl | (intro _)
    | split
    | with_reducible apply Keeps.upd
    | (with_reducible apply Same.of_upd) <;> with_reducible first | exact bit_same | exact bit_in (by decide)
    | decide

theorem State.patchRes_keeps (s : State) (idx i : Nat) (f : Val → Val) :
    Keeps 0x20 s (State.patchRes s idx i f) := by
  unfold State.patchRes
  try dsimp only
  repeat' first
    | with_reducible first
        | apply Keeps.ite | apply Keeps.refl | assumption | apply storeOk_putV | apply storeOk_filter
        | apply modeOk_upd | apply modeOk_zero | apply Keeps.foldS | apply Keeps.foldl | (intro _)
    | split
    | with_reducible apply Keeps.upd
    | (with_reducible apply Same.of_upd) <;> with_reducible first | exact bit_same | exact bit_in (by decide)
    | decide

theorem State.heldRes_keeps (s : State) (idx : Nat) :
    Keeps 0x20 s (State.heldRes s idx) := by
  unfold State.heldRes
  try dsimp only
  repeat' first
    | with_reducible first
        | apply Keeps.ite | apply Keeps.refl | assumption | apply storeOk_putV | apply storeOk_filter
        | apply modeOk_upd | apply modeOk_zero | apply Keeps.foldS | apply Keeps.foldl | (intro _)
    | split
    | with_reducible apply Keeps.upd
    | (with_reducible apply Same.of_upd) <;> with_reducible first | exact bit_same | exact bit_in (by decide)
    | decide

theorem State.setCanC_keeps (s : State) (c : Nat) (x : CanCtl) :
    Keeps 0x8000000 s (State.setCanC s c x) := by
  unfold State.setCanC
  try dsimp only
  repeat' first
    | with_reducible first
        | apply Keeps.ite | apply Keeps.refl | assumption | apply storeOk_putV | apply storeOk_filter
        | apply modeOk_upd | apply modeOk_zero | apply Keeps.foldS | apply Keeps.foldl | (intro _)
    | split
    | with_reducible apply Keeps.upd
    | (with_reducible apply Same.of_upd) <;> with_reducible first | exact bit_same | exact bit_in (by decide)
    | decide

theorem State.canQueue_keeps (s : State) (c : Nat) (m : CanMsg) :
    Keeps 0x8000000 s (State.canQueue s c m) := by
  unfold State.canQueue
  try dsimp only
  repeat' first
    | with_reducible first
        | apply Keeps.ite | apply Keeps.refl | assumption | apply storeOk_putV | apply storeOk_filter
        | apply modeOk_upd | apply modeOk_zero | apply Keeps.to ?_ ?_ (State.setCanC_keeps ..) | apply Keeps.foldS
        | apply Keeps.foldl | (intro _)
    | split
    | with_reducible apply Keeps.upd
    | (with_reducible apply Same.of_upd) <;> with_reducible first | exact bit_same | exact bit_in (by decide)
    | decide

theorem State.emcy_keeps (s : State) (code : Nat) :
    Keeps 0x8000000 s (State.emcy s code) := by
  unfold State.emcy
  try dsimp only
  repeat' first
    | with_reducible first
        | apply Keeps.ite | apply Keeps.refl | assumption | apply storeOk_putV | apply storeOk_filter
        | apply modeOk_upd | apply modeOk_zero | apply Keeps.to ?_ ?_ (State.canQueue_keeps ..) | apply Keeps.ofId
        | apply Keeps.foldS | apply Keeps.foldl | (intro _)
    | split
    | with_reducible apply Keeps.upd
    | (with_reducible apply Same.of_upd) <;> with_reducible first | exact bit_same | exact bit_in (by decide)
    | decide

theorem State.dropFault_keeps (s : State) (code inst : Nat) :
    Keeps 0x40 s (State.dropFault s code inst) := by
  unfold State.dropFault
  try dsimp only
  repeat' first
    | with_reducible first
        | apply Keeps.ite | apply Keeps.refl | assumption | apply storeOk_putV | apply storeOk_filter
        | apply modeOk_upd | apply modeOk_zero | apply Keeps.foldS | apply Keeps.foldl | (intro _)
    | split
    | with_reducible apply Keeps.upd
    | (with_reducible apply Same.of_upd) <;> with_reducible first | exact bit_same | exact bit_in (by decide)
    | decide

theorem State.lower_keeps (s : State) (code inst : Nat) :
    Keeps 0x8000040 s (State.lower s code inst) := by
  unfold State.lower
  try dsimp only
  repeat' first
    | with_reducible first
        | apply Keeps.ite | apply Keeps.refl | assumption | apply storeOk_putV | apply storeOk_filter
        | apply modeOk_upd | apply modeOk_zero | apply Keeps.to ?_ ?_ (State.emcy_keeps ..)
        | apply Keeps.to ?_ ?_ (State.dropFault_keeps ..) | apply Keeps.foldS | apply Keeps.foldl | (intro _)
    | split
    | with_reducible apply Keeps.upd
    | (with_reducible apply Same.of_upd) <;> with_reducible first | exact bit_same | exact bit_in (by decide)
    | decide

theorem State.raise_keeps (s : State) (code inst cls : Nat) :
    Keeps 0x8000040 s (State.raise s code inst cls) := by
  unfold State.raise
  try dsimp only
  repeat' first
    | with_reducible first
        | apply Keeps.ite | apply Keeps.refl | assumption | apply storeOk_putV | apply storeOk_filter
        | apply modeOk_upd | apply modeOk_zero | apply Keeps.to ?_ ?_ (State.emcy_keeps ..)
        | apply Keeps.to ?_ ?_ (State.dropFault_keeps ..) | apply Keeps.foldS | apply Keeps.foldl | (intro _)
    | split
    | with_reducible apply Keeps.upd
    | (with_reducible apply Same.of_upd) <;> with_reducible first | exact bit_same | exact bit_in (by decide)
    | decide

theorem State.reserveSig_keeps (s : State) :
    Keeps 0x200 s (State.reserveSig s) := by
  unfold State.reserveSig
  try dsimp only
  repeat' first
    | with_reducible first
        | apply Keeps.ite | apply Keeps.refl | assumption | apply storeOk_putV | apply storeOk_filter
        | apply modeOk_upd | apply modeOk_zero | apply Keeps.foldS | apply Keeps.foldl | (intro _)
    | split
    | with_reducible apply Keeps.upd
    | (with_reducible apply Same.of_upd) <;> with_reducible first | exact bit_same | exact bit_in (by decide)
    | decide

theorem State.pushRec_keeps (s : State) (code cls : Nat) (params : List Nat) :
    Keeps 0x200 s (State.pushRec s code cls params) := by
  unfold State.pushRec
  try dsimp only
  repeat' first
    | with_reducible first
        | apply Keeps.ite | apply Keeps.refl | assumption | apply storeOk_putV | apply storeOk_filter
        | apply modeOk_upd | apply modeOk_zero | apply Keeps.to ?_ ?_ (State.reserveSig_keeps ..)
        | apply Keeps.foldS | apply Keeps.foldl | (intro _)
    | split
    | with_reducible apply Keeps.upd
    | (with_reducible apply Same.of_upd) <;> with_reducible first | exact bit_same | exact bit_in (by decide)
    | decide

theorem State.discardRec_keeps (s : State) : Keeps 0x208 s s.discardRec :=
  Keeps.to (by decide) ((State.incU_keeps s 0x4601 4).mono (by decide)) (Keeps.upd (m := 0x208) (t := s.incU 0x4601 4) (Keeps.refl _) id1 id2 id1 id2
    (by apply Same.of_upd <;> first | exact bit_same | exact bit_in (by decide)))


theorem State.reportLost_keeps (s : State) :
    Keeps 0x200 s (State.reportLost s) := by
  unfold State.reportLost
  try dsimp only
  repeat' first
    | with_reducible first
        | apply Keeps.ite | apply Keeps.refl | assumption | apply storeOk_putV | apply storeOk_filter
        | apply modeOk_upd | apply modeOk_zero | apply Keeps.to ?_ ?_ (State.pushRec_keeps ..) | apply Keeps.foldS
        | apply Keeps.foldl | (intro _)
    | split
    | with_reducible apply Keeps.upd
    | (with_reducible apply Same.of_upd) <;> with_reducible first | exact bit_same | exact bit_in (by decide)
    | decide

theorem State.record_keeps (s : State) (code cls : Nat) (params : List Nat) :
    Keeps 0x208 s (State.record s code cls params) := by
  unfold State.record
  try dsimp only
  repeat' first
    | with_reducible first
        | apply Keeps.ite | apply Keeps.refl | assumption | apply storeOk_putV | apply storeOk_filter
        | apply modeOk_upd | apply modeOk_zero | apply Keeps.to ?_ ?_ (State.pushRec_keeps ..)
        | apply Keeps.to ?_ ?_ (State.discardRec_keeps ..) | apply Keeps.to ?_ ?_ (State.reportLost_keeps ..)
        | apply Keeps.foldS | apply Keeps.foldl | (intro _)
    | split
    | with_reducible apply Keeps.upd
    | (with_reducible apply Same.of_upd) <;> with_reducible first | exact bit_same | exact bit_in (by decide)
    | decide

theorem State.note_keeps (s : State) (code : Nat) (params : List Nat) :
    Keeps 0x208 s (State.note s code params) := by
  unfold State.note
  try dsimp only
  repeat' first
    | with_reducible first
        | apply Keeps.ite | apply Keeps.refl | assumption | apply storeOk_putV | apply storeOk_filter
        | apply modeOk_upd | apply modeOk_zero | apply Keeps.to ?_ ?_ (State.record_keeps ..) | apply Keeps.foldS
        | apply Keeps.foldl | (intro _)
    | split
    | with_reducible apply Keeps.upd
    | (with_reducible apply Same.of_upd) <;> with_reducible first | exact bit_same | exact bit_in (by decide)
    | decide

theorem State.alarm_keeps (s : State) (code inst cls : Nat) (params : List Nat) :
    Keeps 0x8000248 s (State.alarm s code inst cls params) := by
  unfold State.alarm
  try dsimp only
  repeat' first
    | with_reducible first
        | apply Keeps.ite | apply Keeps.refl | assumption | apply storeOk_putV | apply storeOk_filter
        | apply modeOk_upd | apply modeOk_zero | apply Keeps.to ?_ ?_ (State.raise_keeps ..)
        | apply Keeps.to ?_ ?_ (State.record_keeps ..) | apply Keeps.foldS | apply Keeps.foldl | (intro _)
    | split
    | with_reducible apply Keeps.upd
    | (with_reducible apply Same.of_upd) <;> with_reducible first | exact bit_same | exact bit_in (by decide)
    | decide

theorem State.unitStop_keeps (s : State) (code : Nat) (inst : Nat) :
    Keeps 0x8002248 s (State.unitStop s code inst) := by
  unfold State.unitStop
  try dsimp only
  repeat' first
    | with_reducible first
        | apply Keeps.ite | apply Keeps.refl | assumption | apply storeOk_putV | apply storeOk_filter
        | apply modeOk_upd | apply modeOk_zero | apply Keeps.to ?_ ?_ (State.raise_keeps ..)
        | apply Keeps.to ?_ ?_ (State.note_keeps ..) | apply heldOk_none | apply Keeps.foldS | apply Keeps.foldl
        | (intro _)
    | split
    | with_reducible apply Keeps.upd
    | (with_reducible apply Same.of_upd) <;> with_reducible first | exact bit_same | exact bit_in (by decide)
    | decide

end Sys2Proof.Machine
end

