-- ==== Sys2Proof/Laws/KeepAccess.lean ====
section
/-! SUPPORT. What the operations of Machine/Access.lean keep (Laws/Keeps.lean). -/
namespace Sys2Proof.Machine

theorem State.setSession_keeps (s : State) (p : Path) (x : Session) :
    Keeps 0x80 s (State.setSession s p x) := by
  unfold State.setSession
  try dsimp only
  repeat' first
    | with_reducible first
        | apply Keeps.ite | apply Keeps.refl | assumption | apply storeOk_putV | apply storeOk_filter
        | apply modeOk_upd | apply modeOk_zero | apply Keeps.foldS | apply Keeps.foldl | (intro _)
    | split
    | with_reducible apply Keeps.upd
    | (with_reducible apply Same.of_upd) <;> with_reducible first | exact bit_same | exact bit_in (by decide)
    | decide

theorem State.answer_keeps (s : State) (code : Nat) (value : List Byte) :
    Keeps 0x80 s (State.answer s code value) := by
  unfold State.answer
  try dsimp only
  repeat' first
    | with_reducible first
        | apply Keeps.ite | apply Keeps.refl | assumption | apply storeOk_putV | apply storeOk_filter
        | apply modeOk_upd | apply modeOk_zero | apply Keeps.foldS | apply Keeps.foldl | (intro _)
    | split
    | with_reducible apply Keeps.upd
    | (with_reducible apply Same.of_upd) <;> with_reducible first | exact bit_same | exact bit_in (by decide)
    | decide

theorem State.acceptVal_keeps (s : State) (r : Row) (idx sub : Nat) (v : Val) :
    Keeps 0x98 s (State.acceptVal s r idx sub v) := by
  unfold State.acceptVal
  try dsimp only
  repeat' first
    | with_reducible first
        | apply Keeps.ite | apply Keeps.refl | assumption | apply storeOk_putV | apply storeOk_filter
        | apply modeOk_upd | apply modeOk_zero | apply Keeps.to ?_ ?_ (State.putU_keeps ..) | apply Keeps.foldS
        | apply Keeps.foldl | (intro _)
    | split
    | with_reducible apply Keeps.upd
    | (with_reducible apply Same.of_upd) <;> with_reducible first | exact bit_same | exact bit_in (by decide)
    | decide

theorem State.acceptAction_keeps (s : State) (idx sub : Nat) (v : Val) :
    Keeps 0x80 s (State.acceptAction s idx sub v) := by
  unfold State.acceptAction
  try dsimp only
  repeat' first
    | with_reducible first
        | apply Keeps.ite | apply Keeps.refl | assumption | apply storeOk_putV | apply storeOk_filter
        | apply modeOk_upd | apply modeOk_zero | apply Keeps.foldS | apply Keeps.foldl | (intro _)
    | split
    | with_reducible apply Keeps.upd
    | (with_reducible apply Same.of_upd) <;> with_reducible first | exact bit_same | exact bit_in (by decide)
    | decide

theorem State.queueBulk_keeps (s : State) (p : Path) (idx sub : Nat) (b : List Byte) :
    Keeps 0x80 s (State.queueBulk s p idx sub b) := by
  unfold State.queueBulk
  try dsimp only
  repeat' first
    | with_reducible first
        | apply Keeps.ite | apply Keeps.refl | assumption | apply storeOk_putV | apply storeOk_filter
        | apply modeOk_upd | apply modeOk_zero | apply Keeps.to ?_ ?_ (State.answer_keeps ..) | apply heldOk_none
        | apply Keeps.foldS | apply Keeps.foldl | (intro _)
    | split
    | with_reducible apply Keeps.upd
    | (with_reducible apply Same.of_upd) <;> with_reducible first | exact bit_same | exact bit_in (by decide)
    | decide

/-- What a refusal of the tests leaves. -/
def errKeeps (m : Nat) (s : State) : Except (Nat × State) (Row × Val) → Prop
  | .error x => Keeps m s x.2
  | .ok _ => True

theorem errKeeps_ite {m : Nat} {s : State} {c : Prop} {d : Decidable c} {a b : Except (Nat × State) (Row × Val)}
    (ha : errKeeps m s a) (hb : errKeeps m s b) : errKeeps m s (if c then a else b) := by split <;> assumption
theorem errKeeps_error {m : Nat} {s t : State} {a : Nat} (h : Keeps m s t) : errKeeps m s (.error (a, t)) := h
theorem errKeeps_ok {m : Nat} {s : State} {x : Row × Val} : errKeeps m s (.ok x) := True.intro

theorem State.writeTests_keeps (s : State) (p : Path) (idx sub : Nat) (b : List Byte) :
    errKeeps 0x208 s (State.writeTests s p idx sub b) := by
  unfold State.writeTests
  dsimp only
  repeat' first
    | with_reducible first
        | apply errKeeps_ite | apply errKeeps_ok | apply errKeeps_error (Keeps.refl _)
        | apply errKeeps_error (State.note_keeps ..)
    | split

theorem State.writeTests_error {s t : State} {p : Path} {idx sub a : Nat} {b : List Byte}
    (h : State.writeTests s p idx sub b = .error (a, t)) : Keeps 0x208 s t := by
  have ht := State.writeTests_keeps s p idx sub b
  rw [h] at ht
  exact ht

theorem State.writeWith_keeps {m : Nat} (le : 0x298 ||| m = m) (own : State → Path → Nat → Nat → Val → Verdict)
    (hown : ∀ s p idx sub v, Verdict.keeps m s (own s p idx sub v)) (s : State) (p : Path) (idx sub : Nat)
    (b : List Byte) : Keeps m s (State.writeWith own s p idx sub b) := by
  have sub' : ∀ {a : Nat}, a ||| 0x298 = 0x298 → a ||| m = m := fun h => by rw [← le, ← Nat.or_assoc, h]
  unfold State.writeWith
  have ht := State.writeTests_keeps s p idx sub b
  split
  · rename_i h
    rw [h] at ht
    exact Keeps.to (sub' (by decide)) (Keeps.mono (sub' (by decide)) ht) (State.answer_keeps ..)
  · rename_i v h
    have hv := hown s p idx sub v
    split
    · rename_i h'
      rw [h'] at hv
      exact Keeps.to (sub' (by decide)) (by first | exact hv.of_refuse | exact hv.of_done) (State.answer_keeps ..)
    · rename_i h'
      rw [h'] at hv
      exact Keeps.to (sub' (by decide)) (by first | exact hv.of_refuse | exact hv.of_done) (State.answer_keeps ..)
    · exact Keeps.ite ((State.queueBulk_keeps ..).mono (sub' (by decide)))
        (Keeps.to (sub' (by decide)) ((State.acceptVal_keeps ..).mono (sub' (by decide))) (State.answer_keeps ..))


theorem State.noRule_keeps (s : State) (p : Path) (idx sub : Nat) (v : Val) : Verdict.keeps 0 s (State.noRule s p idx sub v) :=
  .store


theorem State.applyDue_keeps (s : State) : Keeps 0x90 s s.applyDue :=
  Keeps.upd (t := s) (Keeps.refl _) id1 (fun _ h => storeOk_foldl _ _ (fun _ _ h => storeOk_putV _ _ h) _ h) id1 id2
    (by apply Same.of_upd <;> first | exact bit_same | exact bit_in (by decide))


theorem State.readResult_keeps (s : State) (p : Path) (r : ResRow) (sub : Nat) :
    Keeps 0x80 s (State.readResult s p r sub) := by
  unfold State.readResult
  try dsimp only
  repeat' first
    | with_reducible first
        | apply Keeps.ite | apply Keeps.refl | assumption | apply storeOk_putV | apply storeOk_filter
        | apply modeOk_upd | apply modeOk_zero | apply Keeps.to ?_ ?_ (State.setSession_keeps ..)
        | apply Keeps.to ?_ ?_ (State.answer_keeps ..) | apply heldOk_none | apply Keeps.foldS | apply Keeps.foldl
        | (intro _)
    | split
    | with_reducible apply Keeps.upd
    | (with_reducible apply Same.of_upd) <;> with_reducible first | exact bit_same | exact bit_in (by decide)
    | decide

theorem State.readWith_keeps (live : State → Nat → Nat → Option Val) (s : State) (p : Path) (idx sub : Nat) :
    Keeps 0x80 s (State.readWith live s p idx sub) := by
  unfold State.readWith
  try dsimp only
  repeat' first
    | with_reducible first
        | apply Keeps.ite | apply Keeps.refl | assumption | apply storeOk_putV | apply storeOk_filter
        | apply modeOk_upd | apply modeOk_zero | apply Keeps.to ?_ ?_ (State.answer_keeps ..)
        | apply Keeps.to ?_ ?_ (State.readResult_keeps ..) | apply heldOk_none | apply Keeps.foldS
        | apply Keeps.foldl | (intro _)
    | split
    | with_reducible apply Keeps.upd
    | (with_reducible apply Same.of_upd) <;> with_reducible first | exact bit_same | exact bit_in (by decide)
    | decide

end Sys2Proof.Machine
end

