-- ==== Sys2Proof/Laws/KeepReply.lean ====
section
/-! SUPPORT. What the operations of Machine/Reply.lean keep (Laws/Keeps.lean). -/
namespace Sys2Proof.Machine

theorem State.sdoNext_keeps (s : State) (c : Nat) :
    Keeps 0x8000000 s (State.sdoNext s c) := by
  unfold State.sdoNext
  try dsimp only
  repeat' first
    | with_reducible first
        | apply Keeps.ite | apply Keeps.refl | assumption | apply storeOk_putV | apply storeOk_filter
        | apply modeOk_upd | apply modeOk_zero | apply Keeps.to ?_ ?_ (State.setCanC_keeps ..)
        | apply Keeps.to ?_ ?_ (State.canQueue_keeps ..) | apply Keeps.ofId | apply Keeps.foldS | apply Keeps.foldl
        | (intro _)
    | split
    | with_reducible apply Keeps.upd
    | (with_reducible apply Same.of_upd) <;> with_reducible first | exact bit_same | exact bit_in (by decide)
    | decide

theorem State.sdoSend_keeps (s : State) (c : Nat) (b : List Byte) :
    Keeps 0x8000000 s (State.sdoSend s c b) := by
  unfold State.sdoSend
  try dsimp only
  repeat' first
    | with_reducible first
        | apply Keeps.ite | apply Keeps.refl | assumption | apply storeOk_putV | apply storeOk_filter
        | apply modeOk_upd | apply modeOk_zero | apply Keeps.to ?_ ?_ (State.setCanC_keeps ..)
        | apply Keeps.to ?_ ?_ (State.sdoNext_keeps ..) | apply Keeps.foldS | apply Keeps.foldl | (intro _)
    | split
    | with_reducible apply Keeps.upd
    | (with_reducible apply Same.of_upd) <;> with_reducible first | exact bit_same | exact bit_in (by decide)
    | decide

theorem State.setSdo_keeps (s : State) (c : Nat) (x : Option Sdo) :
    Keeps 0x8000000 s (State.setSdo s c x) := by
  unfold State.setSdo
  try dsimp only
  repeat' first
    | with_reducible first
        | apply Keeps.ite | apply Keeps.refl | assumption | apply storeOk_putV | apply storeOk_filter
        | apply modeOk_upd | apply modeOk_zero | apply Keeps.to ?_ ?_ (State.setCanC_keeps ..) | apply Keeps.foldS
        | apply Keeps.foldl | (intro _)
    | split
    | with_reducible apply Keeps.upd
    | (with_reducible apply Same.of_upd) <;> with_reducible first | exact bit_same | exact bit_in (by decide)
    | decide

theorem State.sdoAbort_keeps (s : State) (c idx sub code : Nat) :
    Keeps 0x8000208 s (State.sdoAbort s c idx sub code) := by
  unfold State.sdoAbort
  try dsimp only
  repeat' first
    | with_reducible first
        | apply Keeps.ite | apply Keeps.refl | assumption | apply storeOk_putV | apply storeOk_filter
        | apply modeOk_upd | apply modeOk_zero | apply Keeps.to ?_ ?_ (State.note_keeps ..)
        | apply Keeps.to ?_ ?_ (State.sdoSend_keeps ..) | apply Keeps.to ?_ ?_ (State.setSdo_keeps ..)
        | apply heldOk_none | apply Keeps.foldS | apply Keeps.foldl | (intro _)
    | split
    | with_reducible apply Keeps.upd
    | (with_reducible apply Same.of_upd) <;> with_reducible first | exact bit_same | exact bit_in (by decide)
    | decide

theorem State.sdoFinish_keeps (s : State) (c : Nat) (x : Sdo) (req : List Byte) (code : Nat) :
    Keeps 0x8000208 s (State.sdoFinish s c x req code) := by
  unfold State.sdoFinish
  try dsimp only
  repeat' first
    | with_reducible first
        | apply Keeps.ite | apply Keeps.refl | assumption | apply storeOk_putV | apply storeOk_filter
        | apply modeOk_upd | apply modeOk_zero | apply Keeps.to ?_ ?_ (State.sdoSend_keeps ..)
        | apply Keeps.to ?_ ?_ (State.setSdo_keeps ..) | apply Keeps.to ?_ ?_ (State.sdoAbort_keeps ..)
        | apply Keeps.foldS | apply Keeps.foldl | (intro _)
    | split
    | with_reducible apply Keeps.upd
    | (with_reducible apply Same.of_upd) <;> with_reducible first | exact bit_same | exact bit_in (by decide)
    | decide

theorem State.respond_keeps (s : State) (p : Path) (code : Nat) :
    Keeps 0x8000288 s (State.respond s p code) := by
  unfold State.respond
  try dsimp only
  repeat' first
    | with_reducible first
        | apply Keeps.ite | apply Keeps.refl | assumption | apply storeOk_putV | apply storeOk_filter
        | apply modeOk_upd | apply modeOk_zero | apply Keeps.to ?_ ?_ (State.setSession_keeps ..)
        | apply Keeps.to ?_ ?_ (State.answer_keeps ..) | apply Keeps.to ?_ ?_ (State.sdoFinish_keeps ..)
        | apply heldOk_none | apply Keeps.foldS | apply Keeps.foldl | (intro _)
    | split
    | with_reducible apply Keeps.upd
    | (with_reducible apply Same.of_upd) <;> with_reducible first | exact bit_same | exact bit_in (by decide)
    | decide

end Sys2Proof.Machine
end

