-- ==== Sys2Proof/Laws/KeepMonitor.lean ====
section
/-! SUPPORT. What the operations of Machine/Monitor.lean keep (Laws/Keeps.lean). -/
namespace Sys2Proof.Machine

theorem State.setMonitor_keeps (s : State) (m : Nat) (x : Monitor) :
    Keeps 0x1000 s (State.setMonitor s m x) := by
  unfold State.setMonitor
  try dsimp only
  repeat' first
    | with_reducible first
        | apply Keeps.ite | apply Keeps.refl | assumption | apply storeOk_putV | apply storeOk_filter
        | apply modeOk_upd | apply modeOk_zero | apply Keeps.foldS | apply Keeps.foldl | (intro _)
    | split
    | with_reducible apply Keeps.upd
    | (with_reducible apply Same.of_upd) <;> with_reducible first | exact bit_same | exact bit_in (by decide)
    | decide

theorem State.takeValue_keeps (s : State) (m : Nat) (v : Rat) :
    Keeps 0x8001248 s (State.takeValue s m v) := by
  unfold State.takeValue
  try dsimp only
  repeat' first
    | with_reducible first
        | apply Keeps.ite | apply Keeps.refl | assumption | apply storeOk_putV | apply storeOk_filter
        | apply modeOk_upd | apply modeOk_zero | apply Keeps.to ?_ ?_ (State.note_keeps ..)
        | apply Keeps.to ?_ ?_ (State.alarm_keeps ..) | apply Keeps.to ?_ ?_ (State.setMonitor_keeps ..)
        | apply Keeps.foldS | apply Keeps.foldl | (intro _)
    | split
    | with_reducible apply Keeps.upd
    | (with_reducible apply Same.of_upd) <;> with_reducible first | exact bit_same | exact bit_in (by decide)
    | decide

theorem State.probe_keeps (s : State) (code arg : Nat) (v : Rat) :
    Keeps 0x8001248 s (State.probe s code arg v) := by
  unfold State.probe
  try dsimp only
  repeat' first
    | with_reducible first
        | apply Keeps.ite | apply Keeps.refl | assumption | apply storeOk_putV | apply storeOk_filter
        | apply modeOk_upd | apply modeOk_zero | apply Keeps.to ?_ ?_ (State.takeValue_keeps ..) | apply Keeps.foldS
        | apply Keeps.foldl | (intro _)
    | split
    | with_reducible apply Keeps.upd
    | (with_reducible apply Same.of_upd) <;> with_reducible first | exact bit_same | exact bit_in (by decide)
    | decide

theorem State.probeFree_keeps (s : State) (code : Nat) :
    Keeps 0x800124a s (State.probeFree s code) := by
  unfold State.probeFree
  try dsimp only
  repeat' first
    | with_reducible first
        | apply Keeps.ite | apply Keeps.refl | assumption | apply storeOk_putV | apply storeOk_filter
        | apply modeOk_upd | apply modeOk_zero | apply Keeps.to ?_ ?_ (State.freeR_keeps ..)
        | apply Keeps.to ?_ ?_ (State.freeR_keepsEq (by assumption)) | apply Keeps.to ?_ ?_ (State.probe_keeps ..)
        | apply Keeps.foldS | apply Keeps.foldl | (intro _)
    | split
    | with_reducible apply Keeps.upd
    | (with_reducible apply Same.of_upd) <;> with_reducible first | exact bit_same | exact bit_in (by decide)
    | decide

end Sys2Proof.Machine
end

