-- ==== Sys2Proof/Laws/KeepSheaf.lean ====
section
/-! SUPPORT. What the operations of Machine/Sheaf.lean keep (Laws/Keeps.lean). -/
namespace Sys2Proof.Machine

theorem State.ruleStream_keeps (s : State) (x1 : Path) (idx sub : Nat) (v : Val) :
    Verdict.keeps 0x208 s (State.ruleStream s x1 idx sub v) := by
  unfold State.ruleStream
  try dsimp only
  repeat' first
    | with_reducible first
        | apply verdict_ite | apply Verdict.keeps.store | apply Verdict.keeps.refuse | apply Verdict.keeps.done
        | apply Keeps.ite | apply Keeps.refl | assumption | apply storeOk_putV | apply storeOk_filter
        | apply modeOk_upd | apply modeOk_zero | apply Keeps.to ?_ ?_ (State.note_keeps ..) | apply Keeps.foldS
        | apply Keeps.foldl | (intro _)
    | split
    | with_reducible apply Keeps.upd
    | (with_reducible apply Same.of_upd) <;> with_reducible first | exact bit_same | exact bit_in (by decide)
    | decide

theorem State.setStream_keeps (s : State) (k : Nat) (x : Stream) :
    Keeps 0x8000 s (State.setStream s k x) := by
  unfold State.setStream
  try dsimp only
  repeat' first
    | with_reducible first
        | apply Keeps.ite | apply Keeps.refl | assumption | apply storeOk_putV | apply storeOk_filter
        | apply modeOk_upd | apply modeOk_zero | apply Keeps.foldS | apply Keeps.foldl | (intro _)
    | split
    | with_reducible apply Keeps.upd
    | (with_reducible apply Same.of_upd) <;> with_reducible first | exact bit_same | exact bit_in (by decide)
    | decide

theorem State.setSlot_keeps (s : State) (k : Nat) (x : Slot) :
    Keeps 0x8000 s (State.setSlot s k x) := by
  unfold State.setSlot
  try dsimp only
  repeat' first
    | with_reducible first
        | apply Keeps.ite | apply Keeps.refl | assumption | apply storeOk_putV | apply storeOk_filter
        | apply modeOk_upd | apply modeOk_zero | apply Keeps.foldS | apply Keeps.foldl | (intro _)
    | split
    | with_reducible apply Keeps.upd
    | (with_reducible apply Same.of_upd) <;> with_reducible first | exact bit_same | exact bit_in (by decide)
    | decide

theorem State.sheafInvalid_keeps (s : State) (k : Nat) :
    Keeps 0x8008 s (State.sheafInvalid s k) := by
  unfold State.sheafInvalid
  try dsimp only
  repeat' first
    | with_reducible first
        | apply Keeps.ite | apply Keeps.refl | assumption | apply storeOk_putV | apply storeOk_filter
        | apply modeOk_upd | apply modeOk_zero | apply Keeps.to ?_ ?_ (State.incU_keeps ..)
        | apply Keeps.to ?_ ?_ (State.setStream_keeps ..) | apply Keeps.foldS | apply Keeps.foldl | (intro _)
    | split
    | with_reducible apply Keeps.upd
    | (with_reducible apply Same.of_upd) <;> with_reducible first | exact bit_same | exact bit_in (by decide)
    | decide

theorem State.sheafAccept_keeps (s : State) (k : Nat) (x : Smp) (valid : Bool) :
    Keeps 0x8208 s (State.sheafAccept s k x valid) := by
  unfold State.sheafAccept
  try dsimp only
  repeat' first
    | with_reducible first
        | apply Keeps.ite | apply Keeps.refl | assumption | apply storeOk_putV | apply storeOk_filter
        | apply modeOk_upd | apply modeOk_zero | apply Keeps.to ?_ ?_ (State.incU_keeps ..)
        | apply Keeps.to ?_ ?_ (State.stale_keeps ..) | apply Keeps.to ?_ ?_ (State.note_keeps ..)
        | apply Keeps.to ?_ ?_ (State.setStream_keeps ..) | apply Keeps.to ?_ ?_ (State.setSlot_keeps ..)
        | apply Keeps.to ?_ ?_ (State.sheafInvalid_keeps ..) | apply heldOk_none | apply Keeps.foldS
        | apply Keeps.foldl | (intro _)
    | split
    | with_reducible apply Keeps.upd
    | (with_reducible apply Same.of_upd) <;> with_reducible first | exact bit_same | exact bit_in (by decide)
    | decide

theorem State.putSlot_keeps (s : State) (k : Nat) (m : Slot) :
    Keeps 0x8008 s (State.putSlot s k m) := by
  unfold State.putSlot
  try dsimp only
  repeat' first
    | with_reducible first
        | apply Keeps.ite | apply Keeps.refl | assumption | apply storeOk_putV | apply storeOk_filter
        | apply modeOk_upd | apply modeOk_zero | apply Keeps.to ?_ ?_ (State.putU_keeps ..)
        | apply Keeps.to ?_ ?_ (State.putI_keeps ..) | apply Keeps.to ?_ ?_ (State.putR_keeps ..)
        | apply Keeps.to ?_ ?_ (State.setSlot_keeps ..) | apply Keeps.foldS | apply Keeps.foldl | (intro _)
    | split
    | with_reducible apply Keeps.upd
    | (with_reducible apply Same.of_upd) <;> with_reducible first | exact bit_same | exact bit_in (by decide)
    | decide

theorem State.slotUpdate_keeps (s : State) (k : Nat) :
    Keeps 0x8218 s (State.slotUpdate s k) := by
  unfold State.slotUpdate
  try dsimp only
  repeat' first
    | with_reducible first
        | apply Keeps.ite | apply Keeps.refl | assumption | apply storeOk_putV | apply storeOk_filter
        | apply modeOk_upd | apply modeOk_zero | apply Keeps.to ?_ ?_ (State.putI_keeps ..)
        | apply Keeps.to ?_ ?_ (State.putBoth_keeps ..) | apply Keeps.to ?_ ?_ (State.incU_keeps ..)
        | apply Keeps.to ?_ ?_ (State.note_keeps ..) | apply Keeps.to ?_ ?_ (State.putSlot_keeps ..)
        | apply heldOk_none | apply storeOk_foldl | apply Keeps.foldS | apply Keeps.foldl | (intro _)
    | split
    | with_reducible apply Keeps.upd
    | (with_reducible apply Same.of_upd) <;> with_reducible first | exact bit_same | exact bit_in (by decide)
    | decide

theorem State.alignStream_keeps (s : State) (k : Nat) :
    Keeps 0x8208 s (State.alignStream s k) := by
  unfold State.alignStream
  try dsimp only
  repeat' first
    | with_reducible first
        | apply Keeps.ite | apply Keeps.refl | assumption | apply storeOk_putV | apply storeOk_filter
        | apply modeOk_upd | apply modeOk_zero | apply Keeps.to ?_ ?_ (State.note_keeps ..)
        | apply Keeps.to ?_ ?_ (State.setStream_keeps ..) | apply heldOk_none | apply Keeps.foldS
        | apply Keeps.foldl | (intro _)
    | split
    | with_reducible apply Keeps.upd
    | (with_reducible apply Same.of_upd) <;> with_reducible first | exact bit_same | exact bit_in (by decide)
    | decide

theorem State.markRestart_keeps (s : State) (k : Nat) :
    Keeps 0x8000 s (State.markRestart s k) := by
  unfold State.markRestart
  try dsimp only
  repeat' first
    | with_reducible first
        | apply Keeps.ite | apply Keeps.refl | assumption | apply storeOk_putV | apply storeOk_filter
        | apply modeOk_upd | apply modeOk_zero | apply Keeps.to ?_ ?_ (State.setStream_keeps ..) | apply heldOk_none
        | apply Keeps.foldS | apply Keeps.foldl | (intro _)
    | split
    | with_reducible apply Keeps.upd
    | (with_reducible apply Same.of_upd) <;> with_reducible first | exact bit_same | exact bit_in (by decide)
    | decide

theorem State.publishSheaf_keeps (s : State) :
    Keeps 0x20 s (State.publishSheaf s) := by
  unfold State.publishSheaf
  try dsimp only
  repeat' first
    | with_reducible first
        | apply Keeps.ite | apply Keeps.refl | assumption | apply storeOk_putV | apply storeOk_filter
        | apply modeOk_upd | apply modeOk_zero | apply Keeps.to ?_ ?_ (State.publishEnd_keeps ..)
        | apply heldOk_none | apply Keeps.foldS | apply Keeps.foldl | (intro _)
    | split
    | with_reducible apply Keeps.upd
    | (with_reducible apply Same.of_upd) <;> with_reducible first | exact bit_same | exact bit_in (by decide)
    | decide

theorem State.refreshStreams_keeps (s : State) :
    Keeps 0x18000 s (State.refreshStreams s) := by
  unfold State.refreshStreams
  try dsimp only
  repeat' first
    | with_reducible first
        | apply Keeps.ite | apply Keeps.refl | assumption | apply storeOk_putV | apply storeOk_filter
        | apply modeOk_upd | apply modeOk_zero | apply Keeps.to ?_ ?_ (State.setStream_keeps ..)
        | apply Keeps.to ?_ ?_ (State.setSlot_keeps ..) | apply heldOk_none | apply Keeps.foldS | apply Keeps.foldl
        | (intro _)
    | split
    | with_reducible apply Keeps.upd
    | (with_reducible apply Same.of_upd) <;> with_reducible first | exact bit_same | exact bit_in (by decide)
    | decide

theorem State.sheafRun_keeps (s : State) :
    Keeps 0x8009278 s (State.sheafRun s) := by
  unfold State.sheafRun
  repeat' first
    | (extract_lets +onlyGivenNames v
       first
         | (have hv : Keeps 0x8009278 s v := by
              dsimp only [v]
              repeat' first
                | with_reducible first
                    | apply Keeps.ite | apply Keeps.refl | assumption | apply storeOk_putV | apply storeOk_filter
                    | apply modeOk_upd | apply modeOk_zero | apply Keeps.to ?_ ?_ (State.lower_keeps ..)
                    | apply Keeps.to ?_ ?_ (State.probe_keeps ..) | apply Keeps.to ?_ ?_ (State.slotUpdate_keeps ..)
                    | apply Keeps.to ?_ ?_ (State.alignStream_keeps ..)
                        | apply Keeps.to ?_ ?_ (State.markRestart_keeps ..)
                    | apply Keeps.to ?_ ?_ (State.publishSheaf_keeps ..) | apply Keeps.foldS | apply Keeps.foldl
                        | (intro _)
                | split
                | with_reducible apply Keeps.upd
                | (with_reducible apply Same.of_upd) <;> with_reducible first | exact bit_same | exact bit_in (by decide)
                | decide
            clear_value v)
         | clear_value v)
    | first
      | with_reducible first
          | apply Keeps.ite | apply Keeps.refl | assumption | apply storeOk_putV | apply storeOk_filter
          | apply modeOk_upd | apply modeOk_zero | apply Keeps.to ?_ ?_ (State.lower_keeps ..)
          | apply Keeps.to ?_ ?_ (State.probe_keeps ..) | apply Keeps.to ?_ ?_ (State.slotUpdate_keeps ..)
          | apply Keeps.to ?_ ?_ (State.alignStream_keeps ..) | apply Keeps.to ?_ ?_ (State.markRestart_keeps ..)
          | apply Keeps.to ?_ ?_ (State.publishSheaf_keeps ..) | apply Keeps.foldS | apply Keeps.foldl | (intro _)
      | split
      | with_reducible apply Keeps.upd
      | (with_reducible apply Same.of_upd) <;> with_reducible first | exact bit_same | exact bit_in (by decide)
      | decide

theorem execSheafAlignment_keeps (s : State) :
    outKeeps 0x8009278 s (execSheafAlignment s) := by
  unfold execSheafAlignment
  try dsimp only
  repeat' first
    | with_reducible first
        | apply outKeeps_ite | apply outKeeps.next | apply Keeps.ite | apply Keeps.refl | assumption
        | apply storeOk_putV | apply storeOk_filter | apply modeOk_upd | apply modeOk_zero
        | apply Keeps.to ?_ ?_ (State.sheafRun_keeps ..) | apply Keeps.foldS | apply Keeps.foldl | (intro _)
    | split
    | with_reducible apply Keeps.upd
    | (with_reducible apply Same.of_upd) <;> with_reducible first | exact bit_same | exact bit_in (by decide)
    | decide

theorem execSheafOverrun_keeps (s : State) :
    outKeeps 0x800a268 s (execSheafOverrun s) := by
  unfold execSheafOverrun
  try dsimp only
  repeat' first
    | with_reducible first
        | apply outKeeps_ite | apply outKeeps.next | apply Keeps.ite | apply Keeps.refl | assumption
        | apply storeOk_putV | apply storeOk_filter | apply modeOk_upd | apply modeOk_zero
        | apply Keeps.to ?_ ?_ (State.incU_keeps ..) | apply Keeps.to ?_ ?_ (State.stale_keeps ..)
        | apply Keeps.to ?_ ?_ (State.alarm_keeps ..) | apply Keeps.to ?_ ?_ (State.unitStop_keeps ..)
        | apply heldOk_none | apply storeOk_foldl | apply Keeps.foldS | apply Keeps.foldl | (intro _)
    | split
    | with_reducible apply Keeps.upd
    | (with_reducible apply Same.of_upd) <;> with_reducible first | exact bit_same | exact bit_in (by decide)
    | decide

theorem execStreamSilent_keeps (k : Nat) (s : State) :
    outKeeps 0x8208 s (execStreamSilent k s) := by
  unfold execStreamSilent
  try dsimp only
  repeat' first
    | with_reducible first
        | apply outKeeps_ite | apply outKeeps.next | apply Keeps.ite | apply Keeps.refl | assumption
        | apply storeOk_putV | apply storeOk_filter | apply modeOk_upd | apply modeOk_zero
        | apply Keeps.to ?_ ?_ (State.note_keeps ..) | apply Keeps.to ?_ ?_ (State.setStream_keeps ..)
        | apply Keeps.foldS | apply Keeps.foldl | (intro _)
    | split
    | with_reducible apply Keeps.upd
    | (with_reducible apply Same.of_upd) <;> with_reducible first | exact bit_same | exact bit_in (by decide)
    | decide

theorem execClockSlotReset_keeps (p : Path) (k : Nat) (b : List Byte) (s : State) :
    outKeeps 0x298 s (execClockSlotReset p k b s) := by
  unfold execClockSlotReset
  try dsimp only
  repeat' first
    | with_reducible first
        | apply outKeeps_ite | apply outKeeps.next | apply Keeps.ite | apply Keeps.refl | assumption
        | apply storeOk_putV | apply storeOk_filter | apply modeOk_upd | apply modeOk_zero
        | apply Keeps.trans ?_ (State.writeWith_keeps ?_ _ ?_ ..) | apply verdict_to ?_ ?_ (State.noRule_keeps ..)
        | apply Keeps.foldS | apply Keeps.foldl | (intro _)
    | split
    | with_reducible apply Keeps.upd
    | (with_reducible apply Same.of_upd) <;> with_reducible first | exact bit_same | exact bit_in (by decide)
    | decide

end Sys2Proof.Machine
end

