-- ==== Sys2Proof/Laws/KeepWinnow.lean ====
section
/-! SUPPORT. What the operations of Machine/Winnow.lean keep (Laws/Keeps.lean). -/
namespace Sys2Proof.Machine

theorem State.setWin_keeps (s : State) (k : Nat) (w : Win) :
    Keeps 0x10000 s (State.setWin s k w) := by
  unfold State.setWin
  try dsimp only
  repeat' first
    | with_reducible first
        | apply Keeps.ite | apply Keeps.refl | assumption | apply storeOk_putV | apply storeOk_filter
        | apply modeOk_upd | apply modeOk_zero | apply Keeps.foldS | apply Keeps.foldl | (intro _)
    | split
    | with_reducible apply Keeps.upd
    | (with_reducible apply Same.of_upd) <;> with_reducible first | exact bit_same | exact bit_in (by decide)
    | decide

theorem State.setWinG_keeps (s : State) (g : Nat) (w : WGroup) :
    Keeps 0x10000 s (State.setWinG s g w) := by
  unfold State.setWinG
  try dsimp only
  repeat' first
    | with_reducible first
        | apply Keeps.ite | apply Keeps.refl | assumption | apply storeOk_putV | apply storeOk_filter
        | apply modeOk_upd | apply modeOk_zero | apply Keeps.foldS | apply Keeps.foldl | (intro _)
    | split
    | with_reducible apply Keeps.upd
    | (with_reducible apply Same.of_upd) <;> with_reducible first | exact bit_same | exact bit_in (by decide)
    | decide

theorem State.ruleGroup_keeps (s : State) (x1 : Path) (idx sub : Nat) (v : Val) :
    Verdict.keeps 0x208 s (State.ruleGroup s x1 idx sub v) := by
  unfold State.ruleGroup
  try dsimp only
  repeat' first
    | with_reducible first
        | apply verdict_ite | apply Verdict.keeps.store | apply Verdict.keeps.refuse | apply Verdict.keeps.done
        | apply Keeps.ite | apply Keeps.refl | assumption | apply storeOk_putV | apply storeOk_filter
        | apply modeOk_upd | apply modeOk_zero | apply Keeps.to ?_ ?_ (State.note_keeps ..) | apply Keeps.foldS
        | apply Keeps.foldl | (intro _)
    | split
    | with_reducible apply Keeps.upd
    | (with_reducible apply Same.of_upd) <;> with_reducible first | exact bit_same | exact bit_in (by decide)
    | decide

theorem State.ruleDescriptor_keeps (s : State) (p : Path) (idx sub : Nat) (v : Val) :
    Verdict.keeps 0x208 s (State.ruleDescriptor s p idx sub v) := by
  unfold State.ruleDescriptor
  try dsimp only
  repeat' first
    | with_reducible first
        | apply verdict_ite | apply Verdict.keeps.store | apply Verdict.keeps.refuse | apply Verdict.keeps.done
        | apply Keeps.ite | apply Keeps.refl | assumption | apply storeOk_putV | apply storeOk_filter
        | apply modeOk_upd | apply modeOk_zero | apply Keeps.to ?_ ?_ (State.note_keeps ..)
        | apply verdict_to ?_ ?_ (State.ruleStream_keeps ..) | apply Keeps.foldS | apply Keeps.foldl | (intro _)
    | split
    | with_reducible apply Keeps.upd
    | (with_reducible apply Same.of_upd) <;> with_reducible first | exact bit_same | exact bit_in (by decide)
    | decide

theorem State.ruleSelection_keeps (s : State) (p : Path) (idx sub : Nat) (v : Val) :
    Verdict.keeps 0x298 s (State.ruleSelection s p idx sub v) := by
  unfold State.ruleSelection
  try dsimp only
  repeat' first
    | with_reducible first
        | apply verdict_ite | apply Verdict.keeps.store | apply Verdict.keeps.refuse | apply Verdict.keeps.done
        | apply Keeps.ite | apply Keeps.refl | assumption | apply storeOk_putV | apply storeOk_filter
        | apply modeOk_upd | apply modeOk_zero | apply Keeps.to ?_ ?_ (State.note_keeps ..)
        | apply Keeps.to ?_ ?_ (State.acceptVal_keeps ..) | apply heldOk_none | apply Keeps.foldS
        | apply Keeps.foldl | (intro _)
    | split
    | with_reducible apply Keeps.upd
    | (with_reducible apply Same.of_upd) <;> with_reducible first | exact bit_same | exact bit_in (by decide)
    | decide

theorem State.winTests_keeps (s : State) (k : Nat) :
    Keeps 0x18000 s (State.winTests s k) := by
  unfold State.winTests
  try dsimp only
  repeat' first
    | with_reducible first
        | apply Keeps.ite | apply Keeps.refl | assumption | apply storeOk_putV | apply storeOk_filter
        | apply modeOk_upd | apply modeOk_zero | apply Keeps.to ?_ ?_ (State.setStream_keeps ..)
        | apply Keeps.to ?_ ?_ (State.setWin_keeps ..) | apply heldOk_none | apply Keeps.ofId | apply Keeps.foldS
        | apply Keeps.foldl | (intro _)
    | split
    | with_reducible apply Keeps.upd
    | (with_reducible apply Same.of_upd) <;> with_reducible first | exact bit_same | exact bit_in (by decide)
    | decide

theorem State.driftGroup_keeps (s : State) (g : Nat) :
    Keeps 0x10000 s (State.driftGroup s g) := by
  unfold State.driftGroup
  try dsimp only
  repeat' first
    | with_reducible first
        | apply Keeps.ite | apply Keeps.refl | assumption | apply storeOk_putV | apply storeOk_filter
        | apply modeOk_upd | apply modeOk_zero | apply Keeps.to ?_ ?_ (State.setWin_keeps ..)
        | apply Keeps.to ?_ ?_ (State.setWinG_keeps ..) | apply heldOk_none | apply Keeps.foldS | apply Keeps.foldl
        | (intro _)
    | split
    | with_reducible apply Keeps.upd
    | (with_reducible apply Same.of_upd) <;> with_reducible first | exact bit_same | exact bit_in (by decide)
    | decide

theorem State.setMask_keeps (s : State) (k b : Nat) (on : Bool) :
    Keeps 0x10000 s (State.setMask s k b on) := by
  unfold State.setMask
  try dsimp only
  repeat' first
    | with_reducible first
        | apply Keeps.ite | apply Keeps.refl | assumption | apply storeOk_putV | apply storeOk_filter
        | apply modeOk_upd | apply modeOk_zero | apply Keeps.to ?_ ?_ (State.setWin_keeps ..) | apply Keeps.foldS
        | apply Keeps.foldl | (intro _)
    | split
    | with_reducible apply Keeps.upd
    | (with_reducible apply Same.of_upd) <;> with_reducible first | exact bit_same | exact bit_in (by decide)
    | decide

theorem State.clearMasks_keeps (s : State) (l : List Nat) (b : Nat) :
    Keeps 0x10000 s (State.clearMasks s l b) := by
  unfold State.clearMasks
  try dsimp only
  repeat' first
    | with_reducible first
        | apply Keeps.ite | apply Keeps.refl | assumption | apply storeOk_putV | apply storeOk_filter
        | apply modeOk_upd | apply modeOk_zero | apply Keeps.to ?_ ?_ (State.setMask_keeps ..) | apply Keeps.foldS
        | apply Keeps.foldl | (intro _)
    | split
    | with_reducible apply Keeps.upd
    | (with_reducible apply Same.of_upd) <;> with_reducible first | exact bit_same | exact bit_in (by decide)
    | decide

theorem State.endUnresolved_keeps (s : State) (g : Nat) (cleared : List Nat) :
    Keeps 0x8010248 s (State.endUnresolved s g cleared) := by
  unfold State.endUnresolved
  try dsimp only
  repeat' first
    | with_reducible first
        | apply Keeps.ite | apply Keeps.refl | assumption | apply storeOk_putV | apply storeOk_filter
        | apply modeOk_upd | apply modeOk_zero | apply Keeps.to ?_ ?_ (State.lower_keeps ..)
        | apply Keeps.to ?_ ?_ (State.note_keeps ..) | apply Keeps.to ?_ ?_ (State.setWinG_keeps ..)
        | apply Keeps.foldS | apply Keeps.foldl | (intro _)
    | split
    | with_reducible apply Keeps.upd
    | (with_reducible apply Same.of_upd) <;> with_reducible first | exact bit_same | exact bit_in (by decide)
    | decide

theorem State.voteGroup_keeps (s : State) (g : Nat) :
    Keeps 0x8010248 s (State.voteGroup s g) := by
  unfold State.voteGroup
  try dsimp only
  repeat' first
    | with_reducible first
        | apply Keeps.ite | apply Keeps.refl | assumption | apply storeOk_putV | apply storeOk_filter
        | apply modeOk_upd | apply modeOk_zero | apply Keeps.to ?_ ?_ (State.alarm_keeps ..)
        | apply Keeps.to ?_ ?_ (State.setWin_keeps ..) | apply Keeps.to ?_ ?_ (State.setWinG_keeps ..)
        | apply Keeps.to ?_ ?_ (State.setMask_keeps ..) | apply Keeps.to ?_ ?_ (State.clearMasks_keeps ..)
        | apply Keeps.to ?_ ?_ (State.endUnresolved_keeps ..) | apply heldOk_none | apply Keeps.foldS
        | apply Keeps.foldl | (intro _)
    | split
    | with_reducible apply Keeps.upd
    | (with_reducible apply Same.of_upd) <;> with_reducible first | exact bit_same | exact bit_in (by decide)
    | decide

theorem State.winFinish_keeps (s : State) (k : Nat) :
    Keeps 0x10208 s (State.winFinish s k) := by
  unfold State.winFinish
  try dsimp only
  repeat' first
    | with_reducible first
        | apply Keeps.ite | apply Keeps.refl | assumption | apply storeOk_putV | apply storeOk_filter
        | apply modeOk_upd | apply modeOk_zero | apply Keeps.to ?_ ?_ (State.note_keeps ..)
        | apply Keeps.to ?_ ?_ (State.setWin_keeps ..) | apply heldOk_none | apply Keeps.foldS | apply Keeps.foldl
        | (intro _)
    | split
    | with_reducible apply Keeps.upd
    | (with_reducible apply Same.of_upd) <;> with_reducible first | exact bit_same | exact bit_in (by decide)
    | decide

theorem State.publishWinnow_keeps (s : State) :
    Keeps 0x20 s (State.publishWinnow s) := by
  unfold State.publishWinnow
  try dsimp only
  repeat' first
    | with_reducible first
        | apply Keeps.ite | apply Keeps.refl | assumption | apply storeOk_putV | apply storeOk_filter
        | apply modeOk_upd | apply modeOk_zero | apply Keeps.to ?_ ?_ (State.publishEnd_keeps ..)
        | apply Keeps.foldS | apply Keeps.foldl | (intro _)
    | split
    | with_reducible apply Keeps.upd
    | (with_reducible apply Same.of_upd) <;> with_reducible first | exact bit_same | exact bit_in (by decide)
    | decide

theorem State.winnowRun_keeps (s : State) :
    Keeps 0x8018268 s (State.winnowRun s) := by
  unfold State.winnowRun
  repeat' first
    | (extract_lets +onlyGivenNames v
       first
         | (have hv : Keeps 0x8018268 s v := by
              dsimp only [v]
              repeat' first
                | with_reducible first
                    | apply Keeps.ite | apply Keeps.refl | assumption | apply storeOk_putV | apply storeOk_filter
                    | apply modeOk_upd | apply modeOk_zero | apply Keeps.to ?_ ?_ (State.lower_keeps ..)
                    | apply Keeps.to ?_ ?_ (State.setWinG_keeps ..) | apply Keeps.to ?_ ?_ (State.winTests_keeps ..)
                    | apply Keeps.to ?_ ?_ (State.driftGroup_keeps ..)
                        | apply Keeps.to ?_ ?_ (State.voteGroup_keeps ..)
                    | apply Keeps.to ?_ ?_ (State.winFinish_keeps ..)
                        | apply Keeps.to ?_ ?_ (State.publishWinnow_keeps ..)
                    | apply Keeps.foldS | apply Keeps.foldl | (intro _)
                | split
                | with_reducible apply Keeps.upd
                | (with_reducible apply Same.of_upd) <;> with_reducible first | exact bit_same | exact bit_in (by decide)
                | decide
            clear_value v)
         | clear_value v)
    | first
      | with_reducible first
          | apply Keeps.ite | apply Keeps.refl | assumption | apply storeOk_putV | apply storeOk_filter
          | apply modeOk_upd | apply modeOk_zero | apply Keeps.to ?_ ?_ (State.lower_keeps ..)
          | apply Keeps.to ?_ ?_ (State.setWinG_keeps ..) | apply Keeps.to ?_ ?_ (State.winTests_keeps ..)
          | apply Keeps.to ?_ ?_ (State.driftGroup_keeps ..) | apply Keeps.to ?_ ?_ (State.voteGroup_keeps ..)
          | apply Keeps.to ?_ ?_ (State.winFinish_keeps ..) | apply Keeps.to ?_ ?_ (State.publishWinnow_keeps ..)
          | apply Keeps.foldS | apply Keeps.foldl | (intro _)
      | split
      | with_reducible apply Keeps.upd
      | (with_reducible apply Same.of_upd) <;> with_reducible first | exact bit_same | exact bit_in (by decide)
      | decide

theorem execWinnowRun_keeps (s : State) :
    outKeeps 0x8018268 s (execWinnowRun s) := by
  unfold execWinnowRun
  try dsimp only
  repeat' first
    | with_reducible first
        | apply outKeeps_ite | apply outKeeps.next | apply Keeps.ite | apply Keeps.refl | assumption
        | apply storeOk_putV | apply storeOk_filter | apply modeOk_upd | apply modeOk_zero
        | apply Keeps.to ?_ ?_ (State.winnowRun_keeps ..) | apply Keeps.foldS | apply Keeps.foldl | (intro _)
    | split
    | with_reducible apply Keeps.upd
    | (with_reducible apply Same.of_upd) <;> with_reducible first | exact bit_same | exact bit_in (by decide)
    | decide

theorem execWinnowOverrun_keeps (s : State) :
    outKeeps 0x8012268 s (execWinnowOverrun s) := by
  unfold execWinnowOverrun
  try dsimp only
  repeat' first
    | with_reducible first
        | apply outKeeps_ite | apply outKeeps.next | apply Keeps.ite | apply Keeps.refl | assumption
        | apply storeOk_putV | apply storeOk_filter | apply modeOk_upd | apply modeOk_zero
        | apply Keeps.to ?_ ?_ (State.incU_keeps ..) | apply Keeps.to ?_ ?_ (State.stale_keeps ..)
        | apply Keeps.to ?_ ?_ (State.alarm_keeps ..) | apply Keeps.to ?_ ?_ (State.unitStop_keeps ..)
        | apply storeOk_foldl | apply Keeps.foldS | apply Keeps.foldl | (intro _)
    | split
    | with_reducible apply Keeps.upd
    | (with_reducible apply Same.of_upd) <;> with_reducible first | exact bit_same | exact bit_in (by decide)
    | decide

theorem execStreamDescriptorWrite_keeps (p : Path) (k sub : Nat) (b : List Byte) (s : State) :
    outKeeps 0x298 s (execStreamDescriptorWrite p k sub b s) := by
  unfold execStreamDescriptorWrite
  try dsimp only
  repeat' first
    | with_reducible first
        | apply outKeeps_ite | apply outKeeps.next | apply Keeps.ite | apply Keeps.refl | assumption
        | apply storeOk_putV | apply storeOk_filter | apply modeOk_upd | apply modeOk_zero
        | apply Keeps.trans ?_ (State.writeWith_keeps ?_ _ ?_ ..)
        | apply verdict_to ?_ ?_ (State.ruleDescriptor_keeps ..) | apply Keeps.foldS | apply Keeps.foldl | (intro _)
    | split
    | with_reducible apply Keeps.upd
    | (with_reducible apply Same.of_upd) <;> with_reducible first | exact bit_same | exact bit_in (by decide)
    | decide

theorem execGroupMembershipWrite_keeps (p : Path) (k : Nat) (b : List Byte) (s : State) :
    outKeeps 0x298 s (execGroupMembershipWrite p k b s) := by
  unfold execGroupMembershipWrite
  try dsimp only
  repeat' first
    | with_reducible first
        | apply outKeeps_ite | apply outKeeps.next | apply Keeps.ite | apply Keeps.refl | assumption
        | apply storeOk_putV | apply storeOk_filter | apply modeOk_upd | apply modeOk_zero
        | apply Keeps.trans ?_ (State.writeWith_keeps ?_ _ ?_ ..)
        | apply verdict_to ?_ ?_ (State.ruleGroup_keeps ..) | apply Keeps.foldS | apply Keeps.foldl | (intro _)
    | split
    | with_reducible apply Keeps.upd
    | (with_reducible apply Same.of_upd) <;> with_reducible first | exact bit_same | exact bit_in (by decide)
    | decide

theorem execReferenceSelection_keeps (p : Path) (sub : Nat) (b : List Byte) (s : State) :
    outKeeps 0x298 s (execReferenceSelection p sub b s) := by
  unfold execReferenceSelection
  try dsimp only
  repeat' first
    | with_reducible first
        | apply outKeeps_ite | apply outKeeps.next | apply Keeps.ite | apply Keeps.refl | assumption
        | apply storeOk_putV | apply storeOk_filter | apply modeOk_upd | apply modeOk_zero
        | apply Keeps.trans ?_ (State.writeWith_keeps ?_ _ ?_ ..)
        | apply verdict_to ?_ ?_ (State.ruleSelection_keeps ..) | apply Keeps.foldS | apply Keeps.foldl | (intro _)
    | split
    | with_reducible apply Keeps.upd
    | (with_reducible apply Same.of_upd) <;> with_reducible first | exact bit_same | exact bit_in (by decide)
    | decide

end Sys2Proof.Machine
end

