-- ==== Sys2Proof/Laws/KeepThrust.lean ====
section
/-! SUPPORT. What the operations of Machine/Thrust.lean keep (Laws/Keeps.lean). -/
namespace Sys2Proof.Machine

theorem State.setInner_keeps (s : State) (j : Nat) (x : Inner) :
    Keeps 0x40000 s (State.setInner s j x) := by
  unfold State.setInner
  try dsimp only
  repeat' first
    | with_reducible first
        | apply Keeps.ite | apply Keeps.refl | assumption | apply storeOk_putV | apply storeOk_filter
        | apply modeOk_upd | apply modeOk_zero | apply Keeps.foldS | apply Keeps.foldl | (intro _)
    | split
    | with_reducible apply Keeps.upd
    | (with_reducible apply Same.of_upd) <;> with_reducible first | exact bit_same | exact bit_in (by decide)
    | decide

theorem State.detect_keeps (s : State) (kind num source : Nat) :
    Keeps 0x40208 s (State.detect s kind num source) := by
  unfold State.detect
  try dsimp only
  repeat' first
    | with_reducible first
        | apply Keeps.ite | apply Keeps.refl | assumption | apply storeOk_putV | apply storeOk_filter
        | apply modeOk_upd | apply modeOk_zero | apply Keeps.to ?_ ?_ (State.incU_keeps ..)
        | apply Keeps.to ?_ ?_ (State.note_keeps ..) | apply Keeps.foldS | apply Keeps.foldl | (intro _)
    | split
    | with_reducible apply Keeps.upd
    | (with_reducible apply Same.of_upd) <;> with_reducible first | exact bit_same | exact bit_in (by decide)
    | decide

end Sys2Proof.Machine
end

