-- ==== Sys2Proof/Laws/KeepObserver.lean ====
section
/-! SUPPORT. What the operations of Machine/Observer.lean keep (Laws/Keeps.lean). -/
namespace Sys2Proof.Machine

theorem State.adaptWave_keeps (s : State) :
    Keeps 0x20000 s (State.adaptWave s) := by
  unfold State.adaptWave
  try dsimp only
  repeat' first
    | with_reducible first
        | apply Keeps.ite | apply Keeps.refl | assumption | apply storeOk_putV | apply storeOk_filter
        | apply modeOk_upd | apply modeOk_zero | apply Keeps.foldS | apply Keeps.foldl | (intro _)
    | split
    | with_reducible apply Keeps.upd
    | (with_reducible apply Same.of_upd) <;> with_reducible first | exact bit_same | exact bit_in (by decide)
    | decide

theorem State.clearWave_keeps (s : State) :
    Keeps 0x20000 s (State.clearWave s) := by
  unfold State.clearWave
  try dsimp only
  repeat' first
    | with_reducible first
        | apply Keeps.ite | apply Keeps.refl | assumption | apply storeOk_putV | apply storeOk_filter
        | apply modeOk_upd | apply modeOk_zero | apply Keeps.foldS | apply Keeps.foldl | (intro _)
    | split
    | with_reducible apply Keeps.upd
    | (with_reducible apply Same.of_upd) <;> with_reducible first | exact bit_same | exact bit_in (by decide)
    | decide

theorem State.obsUninit_keeps (s : State) :
    Keeps 0x8020040 s (State.obsUninit s) := by
  unfold State.obsUninit
  try dsimp only
  repeat' first
    | with_reducible first
        | apply Keeps.ite | apply Keeps.refl | assumption | apply storeOk_putV | apply storeOk_filter
        | apply modeOk_upd | apply modeOk_zero | apply Keeps.to ?_ ?_ (State.lower_keeps ..)
        | apply Keeps.to ?_ ?_ (State.clearWave_keeps ..) | apply heldOk_none | apply Keeps.foldS
        | apply Keeps.foldl | (intro _)
    | split
    | with_reducible apply Keeps.upd
    | (with_reducible apply Same.of_upd) <;> with_reducible first | exact bit_same | exact bit_in (by decide)
    | decide

theorem State.windInput_keeps (s : State) :
    Keeps 0x20208 s (State.windInput s) := by
  unfold State.windInput
  try dsimp only
  repeat' first
    | with_reducible first
        | apply Keeps.ite | apply Keeps.refl | assumption | apply storeOk_putV | apply storeOk_filter
        | apply modeOk_upd | apply modeOk_zero | apply Keeps.to ?_ ?_ (State.note_keeps ..) | apply heldOk_none
        | apply Keeps.foldS | apply Keeps.foldl | (intro _)
    | split
    | with_reducible apply Keeps.upd
    | (with_reducible apply Same.of_upd) <;> with_reducible first | exact bit_same | exact bit_in (by decide)
    | decide

theorem State.thrustInput_keeps (s : State) :
    Keeps 0x20000 s (State.thrustInput s) := by
  unfold State.thrustInput
  try dsimp only
  repeat' first
    | with_reducible first
        | apply Keeps.ite | apply Keeps.refl | assumption | apply storeOk_putV | apply storeOk_filter
        | apply modeOk_upd | apply modeOk_zero | apply Keeps.foldS | apply Keeps.foldl | (intro _)
    | split
    | with_reducible apply Keeps.upd
    | (with_reducible apply Same.of_upd) <;> with_reducible first | exact bit_same | exact bit_in (by decide)
    | decide

theorem State.mismatch_keeps (s : State) :
    Keeps 0x60208 s (State.mismatch s) := by
  unfold State.mismatch
  try dsimp only
  repeat' first
    | with_reducible first
        | apply Keeps.ite | apply Keeps.refl | assumption | apply storeOk_putV | apply storeOk_filter
        | apply modeOk_upd | apply modeOk_zero | apply Keeps.to ?_ ?_ (State.note_keeps ..)
        | apply Keeps.to ?_ ?_ (State.detect_keeps ..) | apply heldOk_none | apply Keeps.foldS | apply Keeps.foldl
        | (intro _)
    | split
    | with_reducible apply Keeps.upd
    | (with_reducible apply Same.of_upd) <;> with_reducible first | exact bit_same | exact bit_in (by decide)
    | decide

theorem State.publishEst_keeps (s : State) :
    Keeps 0x20020 s (State.publishEst s) := by
  unfold State.publishEst
  try dsimp only
  repeat' first
    | with_reducible first
        | apply Keeps.ite | apply Keeps.refl | assumption | apply storeOk_putV | apply storeOk_filter
        | apply modeOk_upd | apply modeOk_zero | apply Keeps.to ?_ ?_ (State.publishEnd_keeps ..)
        | apply Keeps.foldS | apply Keeps.foldl | (intro _)
    | split
    | with_reducible apply Keeps.upd
    | (with_reducible apply Same.of_upd) <;> with_reducible first | exact bit_same | exact bit_in (by decide)
    | decide

theorem State.publishPred_keeps (s : State) (e1 : Nat) :
    Keeps 0x20020 s (State.publishPred s e1) := by
  unfold State.publishPred
  try dsimp only
  repeat' first
    | with_reducible first
        | apply Keeps.ite | apply Keeps.refl | assumption | apply storeOk_putV | apply storeOk_filter
        | apply modeOk_upd | apply modeOk_zero | apply Keeps.to ?_ ?_ (State.publishEnd_keeps ..)
        | apply heldOk_none | apply Keeps.foldS | apply Keeps.foldl | (intro _)
    | split
    | with_reducible apply Keeps.upd
    | (with_reducible apply Same.of_upd) <;> with_reducible first | exact bit_same | exact bit_in (by decide)
    | decide

theorem State.setCore_keeps (s : State) (c : ObsCore) :
    Keeps 0x20000 s (State.setCore s c) := by
  unfold State.setCore
  try dsimp only
  repeat' first
    | with_reducible first
        | apply Keeps.ite | apply Keeps.refl | assumption | apply storeOk_putV | apply storeOk_filter
        | apply modeOk_upd | apply modeOk_zero | apply Keeps.foldS | apply Keeps.foldl | (intro _)
    | split
    | with_reducible apply Keeps.upd
    | (with_reducible apply Same.of_upd) <;> with_reducible first | exact bit_same | exact bit_in (by decide)
    | decide

theorem State.holdTest_keeps (s : State) :
    Keeps 0x20000 s (State.holdTest s) := by
  unfold State.holdTest
  try dsimp only
  repeat' first
    | with_reducible first
        | apply Keeps.ite | apply Keeps.refl | assumption | apply storeOk_putV | apply storeOk_filter
        | apply modeOk_upd | apply modeOk_zero | apply Keeps.foldS | apply Keeps.foldl | (intro _)
    | split
    | with_reducible apply Keeps.upd
    | (with_reducible apply Same.of_upd) <;> with_reducible first | exact bit_same | exact bit_in (by decide)
    | decide

theorem State.fuseHeading_keeps (s : State) (ok : Bool) :
    Keeps 0x20208 s (State.fuseHeading s ok) := by
  unfold State.fuseHeading
  try dsimp only
  repeat' first
    | with_reducible first
        | apply Keeps.ite | apply Keeps.refl | assumption | apply storeOk_putV | apply storeOk_filter
        | apply modeOk_upd | apply modeOk_zero | apply Keeps.to ?_ ?_ (State.note_keeps ..)
        | apply Keeps.to ?_ ?_ (State.clearWave_keeps ..) | apply Keeps.to ?_ ?_ (State.setCore_keeps ..)
        | apply Keeps.to ?_ ?_ (State.holdTest_keeps ..) | apply heldOk_none | apply Keeps.foldS | apply Keeps.foldl
        | (intro _)
    | split
    | with_reducible apply Keeps.upd
    | (with_reducible apply Same.of_upd) <;> with_reducible first | exact bit_same | exact bit_in (by decide)
    | decide

theorem State.markPos_keeps (s : State) :
    Keeps 0x20000 s (State.markPos s) := by
  unfold State.markPos
  try dsimp only
  repeat' first
    | with_reducible first
        | apply Keeps.ite | apply Keeps.refl | assumption | apply storeOk_putV | apply storeOk_filter
        | apply modeOk_upd | apply modeOk_zero | apply Keeps.to ?_ ?_ (State.setCore_keeps ..) | apply heldOk_none
        | apply storeOk_foldl | apply Keeps.foldS | apply Keeps.foldl | (intro _)
    | split
    | with_reducible apply Keeps.upd
    | (with_reducible apply Same.of_upd) <;> with_reducible first | exact bit_same | exact bit_in (by decide)
    | decide

theorem State.fusePosition_keeps (s : State) (head : Bool) :
    Keeps 0x8020248 s (State.fusePosition s head) := by
  unfold State.fusePosition
  try dsimp only
  repeat' first
    | with_reducible first
        | apply Keeps.ite | apply Keeps.refl | assumption | apply storeOk_putV | apply storeOk_filter
        | apply modeOk_upd | apply modeOk_zero | apply Keeps.to ?_ ?_ (State.lower_keeps ..)
        | apply Keeps.to ?_ ?_ (State.note_keeps ..) | apply Keeps.to ?_ ?_ (State.alarm_keeps ..)
        | apply Keeps.to ?_ ?_ (State.clearWave_keeps ..) | apply Keeps.to ?_ ?_ (State.setCore_keeps ..)
        | apply Keeps.to ?_ ?_ (State.holdTest_keeps ..) | apply heldOk_none | apply Keeps.foldS | apply Keeps.foldl
        | (intro _)
    | split
    | with_reducible apply Keeps.upd
    | (with_reducible apply Same.of_upd) <;> with_reducible first | exact bit_same | exact bit_in (by decide)
    | decide

theorem State.fuseOther_keeps (s : State) (cls : Nat) :
    Keeps 0x20000 s (State.fuseOther s cls) := by
  unfold State.fuseOther
  try dsimp only
  repeat' first
    | with_reducible first
        | apply Keeps.ite | apply Keeps.refl | assumption | apply storeOk_putV | apply storeOk_filter
        | apply modeOk_upd | apply modeOk_zero | apply Keeps.to ?_ ?_ (State.setCore_keeps ..) | apply heldOk_none
        | apply Keeps.foldS | apply Keeps.foldl | (intro _)
    | split
    | with_reducible apply Keeps.upd
    | (with_reducible apply Same.of_upd) <;> with_reducible first | exact bit_same | exact bit_in (by decide)
    | decide

theorem State.observerOrders_keeps (s : State) (ok : Bool) :
    Keeps 0x8020248 s (State.observerOrders s ok) := by
  unfold State.observerOrders
  try dsimp only
  repeat' first
    | with_reducible first
        | apply Keeps.ite | apply Keeps.refl | assumption | apply storeOk_putV | apply storeOk_filter
        | apply modeOk_upd | apply modeOk_zero | apply Keeps.to ?_ ?_ (State.note_keeps ..)
        | apply Keeps.to ?_ ?_ (State.obsUninit_keeps ..) | apply Keeps.foldS | apply Keeps.foldl | (intro _)
    | split
    | with_reducible apply Keeps.upd
    | (with_reducible apply Same.of_upd) <;> with_reducible first | exact bit_same | exact bit_in (by decide)
    | decide

theorem State.fuseAll_keeps (s : State) (ok : Bool) :
    Keeps 0x8020248 s (State.fuseAll s ok) := by
  unfold State.fuseAll
  try dsimp only
  repeat' first
    | with_reducible first
        | apply Keeps.ite | apply Keeps.refl | assumption | apply storeOk_putV | apply storeOk_filter
        | apply modeOk_upd | apply modeOk_zero | apply Keeps.to ?_ ?_ (State.fuseHeading_keeps ..)
        | apply Keeps.to ?_ ?_ (State.markPos_keeps ..) | apply Keeps.to ?_ ?_ (State.fusePosition_keeps ..)
        | apply Keeps.to ?_ ?_ (State.fuseOther_keeps ..) | apply Keeps.foldS | apply Keeps.foldl | (intro _)
    | split
    | with_reducible apply Keeps.upd
    | (with_reducible apply Same.of_upd) <;> with_reducible first | exact bit_same | exact bit_in (by decide)
    | decide

theorem State.radiusTest_keeps (s : State) :
    Keeps 0x8020248 s (State.radiusTest s) := by
  unfold State.radiusTest
  try dsimp only
  repeat' first
    | with_reducible first
        | apply Keeps.ite | apply Keeps.refl | assumption | apply storeOk_putV | apply storeOk_filter
        | apply modeOk_upd | apply modeOk_zero | apply Keeps.to ?_ ?_ (State.alarm_keeps ..)
        | apply Keeps.to ?_ ?_ (State.setCore_keeps ..) | apply Keeps.foldS | apply Keeps.foldl | (intro _)
    | split
    | with_reducible apply Keeps.upd
    | (with_reducible apply Same.of_upd) <;> with_reducible first | exact bit_same | exact bit_in (by decide)
    | decide

theorem State.quietStep_keeps (s : State) :
    Keeps 0x20000 s (State.quietStep s) := by
  unfold State.quietStep
  try dsimp only
  repeat' first
    | with_reducible first
        | apply Keeps.ite | apply Keeps.refl | assumption | apply storeOk_putV | apply storeOk_filter
        | apply modeOk_upd | apply modeOk_zero | apply Keeps.foldS | apply Keeps.foldl | (intro _)
    | split
    | with_reducible apply Keeps.upd
    | (with_reducible apply Same.of_upd) <;> with_reducible first | exact bit_same | exact bit_in (by decide)
    | decide

theorem State.observerRun_keeps (s : State) :
    Keeps 0x8062268 s (State.observerRun s) := by
  unfold State.observerRun
  repeat' first
    | (extract_lets +onlyGivenNames v
       first
         | (have hv : Keeps 0x8062268 s v := by
              dsimp only [v]
              repeat' first
                | with_reducible first
                    | apply Keeps.ite | apply Keeps.refl | assumption | apply storeOk_putV | apply storeOk_filter
                    | apply modeOk_upd | apply modeOk_zero | apply Keeps.to ?_ ?_ (State.lower_keeps ..)
                    | apply Keeps.to ?_ ?_ (State.record_keeps ..) | apply Keeps.to ?_ ?_ (State.unitStop_keeps ..)
                    | apply Keeps.to ?_ ?_ (State.adaptWave_keeps ..)
                        | apply Keeps.to ?_ ?_ (State.windInput_keeps ..)
                    | apply Keeps.to ?_ ?_ (State.thrustInput_keeps ..)
                        | apply Keeps.to ?_ ?_ (State.mismatch_keeps ..)
                    | apply Keeps.to ?_ ?_ (State.publishEst_keeps ..)
                        | apply Keeps.to ?_ ?_ (State.publishPred_keeps ..)
                    | apply Keeps.to ?_ ?_ (State.setCore_keeps ..)
                        | apply Keeps.to ?_ ?_ (State.observerOrders_keeps ..)
                    | apply Keeps.to ?_ ?_ (State.fuseAll_keeps ..) | apply Keeps.to ?_ ?_ (State.radiusTest_keeps ..)
                    | apply Keeps.to ?_ ?_ (State.quietStep_keeps ..) | apply heldOk_none | apply Keeps.foldS
                    | apply Keeps.foldl | (intro _)
                | split
                | with_reducible apply Keeps.upd
                | (with_reducible apply Same.of_upd) <;> with_reducible first | exact bit_same | exact bit_in (by decide)
                | decide
            clear_value v)
         | clear_value v)
    | first
      | with_reducible first
          | apply Keeps.ite | apply Keeps.refl | assumption | apply storeOk_putV | apply storeOk_filter
          | apply modeOk_upd | apply modeOk_zero | apply Keeps.to ?_ ?_ (State.lower_keeps ..)
          | apply Keeps.to ?_ ?_ (State.record_keeps ..) | apply Keeps.to ?_ ?_ (State.unitStop_keeps ..)
          | apply Keeps.to ?_ ?_ (State.adaptWave_keeps ..) | apply Keeps.to ?_ ?_ (State.windInput_keeps ..)
          | apply Keeps.to ?_ ?_ (State.thrustInput_keeps ..) | apply Keeps.to ?_ ?_ (State.mismatch_keeps ..)
          | apply Keeps.to ?_ ?_ (State.publishEst_keeps ..) | apply Keeps.to ?_ ?_ (State.publishPred_keeps ..)
          | apply Keeps.to ?_ ?_ (State.setCore_keeps ..) | apply Keeps.to ?_ ?_ (State.observerOrders_keeps ..)
          | apply Keeps.to ?_ ?_ (State.fuseAll_keeps ..) | apply Keeps.to ?_ ?_ (State.radiusTest_keeps ..)
          | apply Keeps.to ?_ ?_ (State.quietStep_keeps ..) | apply heldOk_none | apply Keeps.foldS
          | apply Keeps.foldl | (intro _)
      | split
      | with_reducible apply Keeps.upd
      | (with_reducible apply Same.of_upd) <;> with_reducible first | exact bit_same | exact bit_in (by decide)
      | decide

theorem State.observerMiss_keeps (s : State) :
    Keeps 0x20020 s (State.observerMiss s) := by
  unfold State.observerMiss
  try dsimp only
  repeat' first
    | with_reducible first
        | apply Keeps.ite | apply Keeps.refl | assumption | apply storeOk_putV | apply storeOk_filter
        | apply modeOk_upd | apply modeOk_zero | apply Keeps.to ?_ ?_ (State.stale_keeps ..)
        | apply Keeps.to ?_ ?_ (State.patchRes_keeps ..) | apply Keeps.to ?_ ?_ (State.heldRes_keeps ..)
        | apply Keeps.to ?_ ?_ (State.setCore_keeps ..) | apply Keeps.to ?_ ?_ (State.quietStep_keeps ..)
        | apply heldOk_none | apply storeOk_foldl | apply Keeps.foldS | apply Keeps.foldl | (intro _)
    | split
    | with_reducible apply Keeps.upd
    | (with_reducible apply Same.of_upd) <;> with_reducible first | exact bit_same | exact bit_in (by decide)
    | decide

theorem State.adoptObserver_keeps (s : State) (lead : Nat) (c : ObsCore) (held : Bool) :
    Keeps 0x8020268 s (State.adoptObserver s lead c held) := by
  unfold State.adoptObserver
  try dsimp only
  repeat' first
    | with_reducible first
        | apply Keeps.ite | apply Keeps.refl | assumption | apply storeOk_putV | apply storeOk_filter
        | apply modeOk_upd | apply modeOk_zero | apply Keeps.to ?_ ?_ (State.publishEnd_keeps ..)
        | apply Keeps.to ?_ ?_ (State.lower_keeps ..) | apply Keeps.to ?_ ?_ (State.alarm_keeps ..)
        | apply Keeps.to ?_ ?_ (State.publishPred_keeps ..) | apply Keeps.foldS | apply Keeps.foldl | (intro _)
    | split
    | with_reducible apply Keeps.upd
    | (with_reducible apply Same.of_upd) <;> with_reducible first | exact bit_same | exact bit_in (by decide)
    | decide

theorem State.ruleObsReset_keeps (s : State) (x1 : Path) (idx sub : Nat) (v : Val) :
    Verdict.keeps 0x20000 s (State.ruleObsReset s x1 idx sub v) := by
  unfold State.ruleObsReset
  try dsimp only
  repeat' first
    | with_reducible first
        | apply verdict_ite | apply Verdict.keeps.store | apply Verdict.keeps.refuse | apply Verdict.keeps.done
        | apply Keeps.ite | apply Keeps.refl | assumption | apply storeOk_putV | apply storeOk_filter
        | apply modeOk_upd | apply modeOk_zero | apply Keeps.foldS | apply Keeps.foldl | (intro _)
    | split
    | with_reducible apply Keeps.upd
    | (with_reducible apply Same.of_upd) <;> with_reducible first | exact bit_same | exact bit_in (by decide)
    | decide

theorem execObserverReset_keeps (p : Path) (b : List Byte) (s : State) :
    outKeeps 0x20298 s (execObserverReset p b s) := by
  unfold execObserverReset
  try dsimp only
  repeat' first
    | with_reducible first
        | apply outKeeps_ite | apply outKeeps.next | apply Keeps.ite | apply Keeps.refl | assumption
        | apply storeOk_putV | apply storeOk_filter | apply modeOk_upd | apply modeOk_zero
        | apply Keeps.trans ?_ (State.writeWith_keeps ?_ _ ?_ ..)
        | apply verdict_to ?_ ?_ (State.ruleObsReset_keeps ..) | apply Keeps.foldS | apply Keeps.foldl | (intro _)
    | split
    | with_reducible apply Keeps.upd
    | (with_reducible apply Same.of_upd) <;> with_reducible first | exact bit_same | exact bit_in (by decide)
    | decide

end Sys2Proof.Machine
end

