-- ==== Sys2Proof/Laws/KeepSets.lean ====
section
/-! SUPPORT. What the operations of Machine/Sets.lean keep (Laws/Keeps.lean). -/
namespace Sys2Proof.Machine

theorem State.certOk_keeps (s : State) (role : Nat) (kid : List Byte) :
    Keeps 0x208 s (State.certOk s role kid).2 := by
  unfold State.certOk
  try dsimp only
  repeat' first
    | with_reducible first
        | apply Keeps.ite | apply Keeps.refl | assumption | apply storeOk_putV | apply storeOk_filter
        | apply modeOk_upd | apply modeOk_zero | apply Keeps.to ?_ ?_ (State.note_keeps ..) | apply Keeps.foldS
        | apply Keeps.foldl | (intro _)
    | split
    | with_reducible apply Keeps.upd
    | (with_reducible apply Same.of_upd) <;> with_reducible first | exact bit_same | exact bit_in (by decide)
    | decide
theorem State.certOk_keepsEq {s : State} {role : Nat} {kid : List Byte} {x t} (h : State.certOk s role kid = (x, t))   : Keeps 0x208 s t := by
  have := State.certOk_keeps s role kid
  rw [h] at this
  exact this

theorem State.setSigned_keeps (s : State) (p : SetParts) :
    Keeps 0x208 s (State.setSigned s p).2 := by
  unfold State.setSigned
  try dsimp only
  repeat' first
    | with_reducible first
        | apply Keeps.ite | apply Keeps.refl | assumption | apply storeOk_putV | apply storeOk_filter
        | apply modeOk_upd | apply modeOk_zero | apply Keeps.to ?_ ?_ (State.certOk_keeps ..)
        | apply Keeps.to ?_ ?_ (State.certOk_keepsEq (by assumption)) | apply Keeps.foldS | apply Keeps.foldl
        | (intro _)
    | split
    | with_reducible apply Keeps.upd
    | (with_reducible apply Same.of_upd) <;> with_reducible first | exact bit_same | exact bit_in (by decide)
    | decide
theorem State.setSigned_keepsEq {s : State} {p : SetParts} {x t} (h : State.setSigned s p = (x, t))   : Keeps 0x208 s t := by
  have := State.setSigned_keeps s p
  rw [h] at this
  exact this

theorem State.writeCopy_keeps (s : State) (vals : List (Nat × Val)) (version : Nat) :
    Keeps 0x80 s (State.writeCopy s vals version) := by
  unfold State.writeCopy
  try dsimp only
  repeat' first
    | with_reducible first
        | apply Keeps.ite | apply Keeps.refl | assumption | apply storeOk_putV | apply storeOk_filter
        | apply modeOk_upd | apply modeOk_zero | apply heldOk_none | apply Keeps.foldS | apply Keeps.foldl
        | (intro _)
    | split
    | with_reducible apply Keeps.upd
    | (with_reducible apply Same.of_upd) <;> with_reducible first | exact bit_same | exact bit_in (by decide)
    | decide

theorem State.storeKeys_keeps (s : State) (keys : List Nat) :
    Keeps 0x80 s (State.storeKeys s keys) := by
  unfold State.storeKeys
  try dsimp only
  repeat' first
    | with_reducible first
        | apply Keeps.ite | apply Keeps.refl | assumption | apply storeOk_putV | apply storeOk_filter
        | apply modeOk_upd | apply modeOk_zero | apply Keeps.to ?_ ?_ (State.writeCopy_keeps ..) | apply heldOk_none
        | apply storeOk_foldl | apply Keeps.foldS | apply Keeps.foldl | (intro _)
    | split
    | with_reducible apply Keeps.upd
    | (with_reducible apply Same.of_upd) <;> with_reducible first | exact bit_same | exact bit_in (by decide)
    | decide

end Sys2Proof.Machine
end

