-- ==== Sys2Proof/Laws/KeepCulm.lean ====
section
/-! SUPPORT. What the operations of Machine/Culm.lean keep (Laws/Keeps.lean). -/
namespace Sys2Proof.Machine

theorem State.stick_keeps (s : State) (idx sub bits : Nat) (tell : Bool) :
    Keeps 0x208 s (State.stick s idx sub bits tell) := by
  unfold State.stick
  try dsimp only
  repeat' first
    | with_reducible first
        | apply Keeps.ite | apply Keeps.refl | assumption | apply storeOk_putV | apply storeOk_filter
        | apply modeOk_upd | apply modeOk_zero | apply Keeps.to ?_ ?_ (State.putU_keeps ..)
        | apply Keeps.to ?_ ?_ (State.note_keeps ..) | apply Keeps.foldS | apply Keeps.foldl | (intro _)
    | split
    | with_reducible apply Keeps.upd
    | (with_reducible apply Same.of_upd) <;> with_reducible first | exact bit_same | exact bit_in (by decide)
    | decide

theorem State.readSticky_keeps (s : State) (p : Path) (idx sub : Nat) :
    Keeps 0x88 s (State.readSticky s p idx sub) := by
  unfold State.readSticky
  try dsimp only
  repeat' first
    | with_reducible first
        | apply Keeps.ite | apply Keeps.refl | assumption | apply storeOk_putV | apply storeOk_filter
        | apply modeOk_upd | apply modeOk_zero | apply Keeps.to ?_ ?_ (State.putU_keeps ..)
        | apply Keeps.to ?_ ?_ (State.answer_keeps ..) | apply Keeps.to ?_ ?_ (State.readWith_keeps ..)
        | apply heldOk_none | apply Keeps.foldS | apply Keeps.foldl | (intro _)
    | split
    | with_reducible apply Keeps.upd
    | (with_reducible apply Same.of_upd) <;> with_reducible first | exact bit_same | exact bit_in (by decide)
    | decide

theorem State.axesBoundary_keeps (s : State) (before : Nat) :
    Keeps 0x40000 s (State.axesBoundary s before) := by
  unfold State.axesBoundary
  try dsimp only
  repeat' first
    | with_reducible first
        | apply Keeps.ite | apply Keeps.refl | assumption | apply storeOk_putV | apply storeOk_filter
        | apply modeOk_upd | apply modeOk_zero | apply Keeps.foldS | apply Keeps.foldl | (intro _)
    | split
    | with_reducible apply Keeps.upd
    | (with_reducible apply Same.of_upd) <;> with_reducible first | exact bit_same | exact bit_in (by decide)
    | decide

theorem State.stage_keeps (s : State) (n : Nat) (L : Rat) (v c : List Rat) :
    Keeps 0x208 s (State.stage s n L v c).1 := by
  unfold State.stage
  try dsimp only
  repeat' first
    | with_reducible first
        | apply Keeps.ite | apply Keeps.refl | assumption | apply storeOk_putV | apply storeOk_filter
        | apply modeOk_upd | apply modeOk_zero | apply Keeps.to ?_ ?_ (State.stick_keeps ..) | apply Keeps.foldS
        | apply Keeps.foldl | (intro _)
    | split
    | with_reducible apply Keeps.upd
    | (with_reducible apply Same.of_upd) <;> with_reducible first | exact bit_same | exact bit_in (by decide)
    | decide
theorem State.stage_keepsEq {s : State} {n : Nat} {L : Rat} {v c : List Rat} {x t} (h : State.stage s n L v c = (t, x))   : Keeps 0x208 s t := by
  have := State.stage_keeps s n L v c
  rw [h] at this
  exact this

theorem State.lawTerms_keeps (s : State) (g : List Rat) (law op : Nat) (e ev asp wind bias : List Rat) (tell : Bool) :
    Keeps 0x208 s (State.lawTerms s g law op e ev asp wind bias tell).1 := by
  unfold State.lawTerms
  try dsimp only
  repeat' first
    | with_reducible first
        | apply Keeps.ite | apply Keeps.refl | assumption | apply storeOk_putV | apply storeOk_filter
        | apply modeOk_upd | apply modeOk_zero | apply Keeps.to ?_ ?_ (State.stage_keeps ..)
        | apply Keeps.to ?_ ?_ (State.stage_keepsEq (by assumption)) | apply Keeps.foldS | apply Keeps.foldl
        | (intro _)
    | split
    | with_reducible apply Keeps.upd
    | (with_reducible apply Same.of_upd) <;> with_reducible first | exact bit_same | exact bit_in (by decide)
    | decide
theorem State.lawTerms_keepsEq {s : State} {g : List Rat} {law op : Nat} {e ev asp wind bias : List Rat} {tell : Bool} {x t} (h : State.lawTerms s g law op e ev asp wind bias tell = (t, x))   : Keeps 0x208 s t := by
  have := State.lawTerms_keeps s g law op e ev asp wind bias tell
  rw [h] at this
  exact this

theorem State.culmRun_keeps (s : State) :
    Keeps 0x8040268 s (State.culmRun s) := by
  unfold State.culmRun
  try dsimp only
  repeat' first
    | with_reducible first
        | apply Keeps.ite | apply Keeps.refl | assumption | apply storeOk_putV | apply storeOk_filter
        | apply modeOk_upd | apply modeOk_zero | apply Keeps.to ?_ ?_ (State.putU_keeps ..)
        | apply Keeps.to ?_ ?_ (State.publishEnd_keeps ..) | apply Keeps.to ?_ ?_ (State.lower_keeps ..)
        | apply Keeps.to ?_ ?_ (State.note_keeps ..) | apply Keeps.to ?_ ?_ (State.alarm_keeps ..)
        | apply Keeps.to ?_ ?_ (State.stick_keeps ..) | apply Keeps.to ?_ ?_ (State.stage_keeps ..)
        | apply Keeps.to ?_ ?_ (State.stage_keepsEq (by assumption))
        | apply Keeps.to ?_ ?_ (State.lawTerms_keeps ..)
        | apply Keeps.to ?_ ?_ (State.lawTerms_keepsEq (by assumption)) | apply heldOk_none | apply Keeps.foldS
        | apply Keeps.foldl | (intro _)
    | split
    | with_reducible apply Keeps.upd
    | (with_reducible apply Same.of_upd) <;> with_reducible first | exact bit_same | exact bit_in (by decide)
    | decide

theorem State.ruleCulmSet_keeps (s : State) (x1 : Path) (x2 x3 : Nat) (v : Val) :
    Verdict.keeps 0x208 s (State.ruleCulmSet s x1 x2 x3 v) := by
  unfold State.ruleCulmSet
  try dsimp only
  repeat' first
    | with_reducible first
        | apply verdict_ite | apply Verdict.keeps.store | apply Verdict.keeps.refuse | apply Verdict.keeps.done
        | apply Keeps.ite | apply Keeps.refl | assumption | apply storeOk_putV | apply storeOk_filter
        | apply modeOk_upd | apply modeOk_zero | apply Keeps.to ?_ ?_ (State.putU_keeps ..)
        | apply Keeps.to ?_ ?_ (State.note_keeps ..) | apply Keeps.to ?_ ?_ (State.setSigned_keeps ..)
        | apply Keeps.to ?_ ?_ (State.setSigned_keepsEq (by assumption)) | apply heldOk_none | apply Keeps.foldS
        | apply Keeps.foldl | (intro _)
    | split
    | with_reducible apply Keeps.upd
    | (with_reducible apply Same.of_upd) <;> with_reducible first | exact bit_same | exact bit_in (by decide)
    | decide

theorem State.putLoaded_keeps (s : State) (idx sub w : Nat) :
    Keeps 0x18 s (State.putLoaded s idx sub w) := by
  unfold State.putLoaded
  try dsimp only
  repeat' first
    | with_reducible first
        | apply Keeps.ite | apply Keeps.refl | assumption | apply storeOk_putV | apply storeOk_filter
        | apply modeOk_upd | apply modeOk_zero | apply Keeps.to ?_ ?_ (State.putBoth_keeps ..) | apply Keeps.foldS
        | apply Keeps.foldl | (intro _)
    | split
    | with_reducible apply Keeps.upd
    | (with_reducible apply Same.of_upd) <;> with_reducible first | exact bit_same | exact bit_in (by decide)
    | decide

theorem State.applyCulmSet_keeps (s : State) :
    Keeps 0x298 s (State.applyCulmSet s) := by
  unfold State.applyCulmSet
  try dsimp only
  repeat' first
    | with_reducible first
        | apply Keeps.ite | apply Keeps.refl | assumption | apply storeOk_putV | apply storeOk_filter
        | apply modeOk_upd | apply modeOk_zero | apply Keeps.to ?_ ?_ (State.putBoth_keeps ..)
        | apply Keeps.to ?_ ?_ (State.note_keeps ..) | apply Keeps.to ?_ ?_ (State.storeKeys_keeps ..)
        | apply Keeps.to ?_ ?_ (State.putLoaded_keeps ..) | apply heldOk_none | apply Keeps.foldS
        | apply Keeps.foldl | (intro _)
    | split
    | with_reducible apply Keeps.upd
    | (with_reducible apply Same.of_upd) <;> with_reducible first | exact bit_same | exact bit_in (by decide)
    | decide

theorem execCulmLaw_keeps (s : State) :
    outKeeps 0x804126a s (execCulmLaw s) := by
  unfold execCulmLaw
  try dsimp only
  repeat' first
    | with_reducible first
        | apply outKeeps_ite | apply outKeeps.next | apply Keeps.ite | apply Keeps.refl | assumption
        | apply storeOk_putV | apply storeOk_filter | apply modeOk_upd | apply modeOk_zero
        | apply Keeps.to ?_ ?_ (State.probeFree_keeps ..) | apply Keeps.to ?_ ?_ (State.culmRun_keeps ..)
        | apply Keeps.foldS | apply Keeps.foldl | (intro _)
    | split
    | with_reducible apply Keeps.upd
    | (with_reducible apply Same.of_upd) <;> with_reducible first | exact bit_same | exact bit_in (by decide)
    | decide

theorem execGainSetSelection_keeps (p : Path) (b : List Byte) (s : State) :
    outKeeps 0x298 s (execGainSetSelection p b s) := by
  unfold execGainSetSelection
  try dsimp only
  repeat' first
    | with_reducible first
        | apply outKeeps_ite | apply outKeeps.next | apply Keeps.ite | apply Keeps.refl | assumption
        | apply storeOk_putV | apply storeOk_filter | apply modeOk_upd | apply modeOk_zero
        | apply Keeps.trans ?_ (State.writeWith_keeps ?_ _ ?_ ..) | apply verdict_to ?_ ?_ (State.noRule_keeps ..)
        | apply Keeps.foldS | apply Keeps.foldl | (intro _)
    | split
    | with_reducible apply Keeps.upd
    | (with_reducible apply Same.of_upd) <;> with_reducible first | exact bit_same | exact bit_in (by decide)
    | decide

theorem execCulmCoefficientSet_keeps (p : Path) (b : List Byte) (s : State) :
    outKeeps 0x298 s (execCulmCoefficientSet p b s) := by
  unfold execCulmCoefficientSet
  try dsimp only
  repeat' first
    | with_reducible first
        | apply outKeeps_ite | apply outKeeps.next | apply Keeps.ite | apply Keeps.refl | assumption
        | apply storeOk_putV | apply storeOk_filter | apply modeOk_upd | apply modeOk_zero
        | apply Keeps.trans ?_ (State.writeWith_keeps ?_ _ ?_ ..)
        | apply verdict_to ?_ ?_ (State.ruleCulmSet_keeps ..) | apply Keeps.foldS | apply Keeps.foldl | (intro _)
    | split
    | with_reducible apply Keeps.upd
    | (with_reducible apply Same.of_upd) <;> with_reducible first | exact bit_same | exact bit_in (by decide)
    | decide

theorem execCulmStickyRead_keeps (p : Path) (sub : Nat) (s : State) :
    outKeeps 0x88 s (execCulmStickyRead p sub s) := by
  unfold execCulmStickyRead
  try dsimp only
  repeat' first
    | with_reducible first
        | apply outKeeps_ite | apply outKeeps.next | apply Keeps.ite | apply Keeps.refl | assumption
        | apply storeOk_putV | apply storeOk_filter | apply modeOk_upd | apply modeOk_zero
        | apply Keeps.to ?_ ?_ (State.readSticky_keeps ..) | apply Keeps.foldS | apply Keeps.foldl | (intro _)
    | split
    | with_reducible apply Keeps.upd
    | (with_reducible apply Same.of_upd) <;> with_reducible first | exact bit_same | exact bit_in (by decide)
    | decide

end Sys2Proof.Machine
end

