-- ==== Sys2Proof/Laws/KeepPlant.lean ====
section
/-! SUPPORT. What the operations of Machine/Plant.lean keep (Laws/Keeps.lean). -/
namespace Sys2Proof.Machine

theorem State.setContact_keeps (s : State) (k : Nat) (c : Contact) :
    Keeps 0x40000 s (State.setContact s k c) := by
  unfold State.setContact
  try dsimp only
  repeat' first
    | with_reducible first
        | apply Keeps.ite | apply Keeps.refl | assumption | apply storeOk_putV | apply storeOk_filter
        | apply modeOk_upd | apply modeOk_zero | apply Keeps.foldS | apply Keeps.foldl | (intro _)
    | split
    | with_reducible apply Keeps.upd
    | (with_reducible apply Same.of_upd) <;> with_reducible first | exact bit_same | exact bit_in (by decide)
    | decide

theorem State.setPlant_keeps (s : State) (p : Plant) :
    Keeps 0x40000 s (State.setPlant s p) := by
  unfold State.setPlant
  try dsimp only
  repeat' first
    | with_reducible first
        | apply Keeps.ite | apply Keeps.refl | assumption | apply storeOk_putV | apply storeOk_filter
        | apply modeOk_upd | apply modeOk_zero | apply Keeps.foldS | apply Keeps.foldl | (intro _)
    | split
    | with_reducible apply Keeps.upd
    | (with_reducible apply Same.of_upd) <;> with_reducible first | exact bit_same | exact bit_in (by decide)
    | decide

theorem State.sampleAll_keeps (s : State) :
    Keeps 0x8040040 s (State.sampleAll s) := by
  unfold State.sampleAll
  try dsimp only
  repeat' first
    | with_reducible first
        | apply Keeps.ite | apply Keeps.refl | assumption | apply storeOk_putV | apply storeOk_filter
        | apply modeOk_upd | apply modeOk_zero | apply Keeps.to ?_ ?_ (State.lower_keeps ..)
        | apply Keeps.to ?_ ?_ (State.setContact_keeps ..) | apply Keeps.foldS | apply Keeps.foldl | (intro _)
    | split
    | with_reducible apply Keeps.upd
    | (with_reducible apply Same.of_upd) <;> with_reducible first | exact bit_same | exact bit_in (by decide)
    | decide

theorem State.publishPlant_keeps (s : State) :
    Keeps 0x20 s (State.publishPlant s) := by
  unfold State.publishPlant
  try dsimp only
  repeat' first
    | with_reducible first
        | apply Keeps.ite | apply Keeps.refl | assumption | apply storeOk_putV | apply storeOk_filter
        | apply modeOk_upd | apply modeOk_zero | apply Keeps.to ?_ ?_ (State.publishEnd_keeps ..)
        | apply heldOk_none | apply Keeps.foldS | apply Keeps.foldl | (intro _)
    | split
    | with_reducible apply Keeps.upd
    | (with_reducible apply Same.of_upd) <;> with_reducible first | exact bit_same | exact bit_in (by decide)
    | decide

theorem State.plantPower_keeps (s : State) :
    Keeps 0x40000 s (State.plantPower s) := by
  unfold State.plantPower
  try dsimp only
  repeat' first
    | with_reducible first
        | apply Keeps.ite | apply Keeps.refl | assumption | apply storeOk_putV | apply storeOk_filter
        | apply modeOk_upd | apply modeOk_zero | apply Keeps.to ?_ ?_ (State.setPlant_keeps ..) | apply Keeps.foldS
        | apply Keeps.foldl | (intro _)
    | split
    | with_reducible apply Keeps.upd
    | (with_reducible apply Same.of_upd) <;> with_reducible first | exact bit_same | exact bit_in (by decide)
    | decide

theorem State.assertLr_keeps (s : State) (changed : Nat) :
    Keeps 0x40208 s (State.assertLr s changed) := by
  unfold State.assertLr
  try dsimp only
  repeat' first
    | with_reducible first
        | apply Keeps.ite | apply Keeps.refl | assumption | apply storeOk_putV | apply storeOk_filter
        | apply modeOk_upd | apply modeOk_zero | apply Keeps.to ?_ ?_ (State.note_keeps ..)
        | apply Keeps.to ?_ ?_ (State.setPlant_keeps ..) | apply heldOk_none | apply Keeps.foldS | apply Keeps.foldl
        | (intro _)
    | split
    | with_reducible apply Keeps.upd
    | (with_reducible apply Same.of_upd) <;> with_reducible first | exact bit_same | exact bit_in (by decide)
    | decide

theorem State.calmLr_keeps (s : State) :
    Keeps 0x40000 s (State.calmLr s) := by
  unfold State.calmLr
  try dsimp only
  repeat' first
    | with_reducible first
        | apply Keeps.ite | apply Keeps.refl | assumption | apply storeOk_putV | apply storeOk_filter
        | apply modeOk_upd | apply modeOk_zero | apply Keeps.to ?_ ?_ (State.setPlant_keeps ..) | apply Keeps.foldS
        | apply Keeps.foldl | (intro _)
    | split
    | with_reducible apply Keeps.upd
    | (with_reducible apply Same.of_upd) <;> with_reducible first | exact bit_same | exact bit_in (by decide)
    | decide

theorem State.endScaling_keeps (s : State) :
    Keeps 0x40208 s (State.endScaling s) := by
  unfold State.endScaling
  try dsimp only
  repeat' first
    | with_reducible first
        | apply Keeps.ite | apply Keeps.refl | assumption | apply storeOk_putV | apply storeOk_filter
        | apply modeOk_upd | apply modeOk_zero | apply Keeps.to ?_ ?_ (State.note_keeps ..)
        | apply Keeps.to ?_ ?_ (State.setPlant_keeps ..) | apply heldOk_none | apply Keeps.foldS | apply Keeps.foldl
        | (intro _)
    | split
    | with_reducible apply Keeps.upd
    | (with_reducible apply Same.of_upd) <;> with_reducible first | exact bit_same | exact bit_in (by decide)
    | decide

theorem State.tellScaling_keeps (s : State) :
    Keeps 0x40208 s (State.tellScaling s) := by
  unfold State.tellScaling
  try dsimp only
  repeat' first
    | with_reducible first
        | apply Keeps.ite | apply Keeps.refl | assumption | apply storeOk_putV | apply storeOk_filter
        | apply modeOk_upd | apply modeOk_zero | apply Keeps.to ?_ ?_ (State.note_keeps ..)
        | apply Keeps.to ?_ ?_ (State.setPlant_keeps ..) | apply Keeps.foldS | apply Keeps.foldl | (intro _)
    | split
    | with_reducible apply Keeps.upd
    | (with_reducible apply Same.of_upd) <;> with_reducible first | exact bit_same | exact bit_in (by decide)
    | decide

theorem State.plantFrame_keeps (s : State) :
    Keeps 0x40208 s (State.plantFrame s) := by
  unfold State.plantFrame
  try dsimp only
  repeat' first
    | with_reducible first
        | apply Keeps.ite | apply Keeps.refl | assumption | apply storeOk_putV | apply storeOk_filter
        | apply modeOk_upd | apply modeOk_zero | apply Keeps.to ?_ ?_ (State.setPlant_keeps ..)
        | apply Keeps.to ?_ ?_ (State.assertLr_keeps ..) | apply Keeps.to ?_ ?_ (State.tellScaling_keeps ..)
        | apply Keeps.foldS | apply Keeps.foldl | (intro _)
    | split
    | with_reducible apply Keeps.upd
    | (with_reducible apply Same.of_upd) <;> with_reducible first | exact bit_same | exact bit_in (by decide)
    | decide

theorem State.plantTail_keeps (s : State) :
    Keeps 0x40020 s (State.plantTail s) := by
  unfold State.plantTail
  try dsimp only
  repeat' first
    | with_reducible first
        | apply Keeps.ite | apply Keeps.refl | assumption | apply storeOk_putV | apply storeOk_filter
        | apply modeOk_upd | apply modeOk_zero | apply Keeps.to ?_ ?_ (State.publishPlant_keeps ..)
        | apply Keeps.to ?_ ?_ (State.plantPower_keeps ..) | apply Keeps.to ?_ ?_ (State.calmLr_keeps ..)
        | apply Keeps.foldS | apply Keeps.foldl | (intro _)
    | split
    | with_reducible apply Keeps.upd
    | (with_reducible apply Same.of_upd) <;> with_reducible first | exact bit_same | exact bit_in (by decide)
    | decide

theorem State.setResult_keeps (s : State) (res : PlantRes) :
    Keeps 0x40000 s (State.setResult s res) := by
  unfold State.setResult
  try dsimp only
  repeat' first
    | with_reducible first
        | apply Keeps.ite | apply Keeps.refl | assumption | apply storeOk_putV | apply storeOk_filter
        | apply modeOk_upd | apply modeOk_zero | apply Keeps.to ?_ ?_ (State.setPlant_keeps ..) | apply Keeps.foldS
        | apply Keeps.foldl | (intro _)
    | split
    | with_reducible apply Keeps.upd
    | (with_reducible apply Same.of_upd) <;> with_reducible first | exact bit_same | exact bit_in (by decide)
    | decide

theorem State.plantRestored_keeps (s : State) :
    Keeps 0x40000 s (State.plantRestored s) := by
  unfold State.plantRestored
  try dsimp only
  repeat' first
    | with_reducible first
        | apply Keeps.ite | apply Keeps.refl | assumption | apply storeOk_putV | apply storeOk_filter
        | apply modeOk_upd | apply modeOk_zero | apply heldOk_none | apply Keeps.foldS | apply Keeps.foldl
        | (intro _)
    | split
    | with_reducible apply Keeps.upd
    | (with_reducible apply Same.of_upd) <;> with_reducible first | exact bit_same | exact bit_in (by decide)
    | decide

theorem State.plantRun_keeps (s : State) :
    Keeps 0x8040060 s (State.plantRun s) := by
  unfold State.plantRun
  try dsimp only
  repeat' first
    | with_reducible first
        | apply Keeps.ite | apply Keeps.refl | assumption | apply storeOk_putV | apply storeOk_filter
        | apply modeOk_upd | apply modeOk_zero | apply Keeps.to ?_ ?_ (State.lower_keeps ..)
        | apply Keeps.to ?_ ?_ (State.sampleAll_keeps ..) | apply Keeps.to ?_ ?_ (State.plantTail_keeps ..)
        | apply Keeps.to ?_ ?_ (State.setResult_keeps ..) | apply Keeps.to ?_ ?_ (State.plantRestored_keeps ..)
        | apply Keeps.foldS | apply Keeps.foldl | (intro _)
    | split
    | with_reducible apply Keeps.upd
    | (with_reducible apply Same.of_upd) <;> with_reducible first | exact bit_same | exact bit_in (by decide)
    | decide

theorem State.startScaling_keeps (s : State) (g : Nat) :
    Keeps 0x40000 s (State.startScaling s g) := by
  unfold State.startScaling
  try dsimp only
  repeat' first
    | with_reducible first
        | apply Keeps.ite | apply Keeps.refl | assumption | apply storeOk_putV | apply storeOk_filter
        | apply modeOk_upd | apply modeOk_zero | apply Keeps.to ?_ ?_ (State.setPlant_keeps ..) | apply heldOk_none
        | apply Keeps.foldS | apply Keeps.foldl | (intro _)
    | split
    | with_reducible apply Keeps.upd
    | (with_reducible apply Same.of_upd) <;> with_reducible first | exact bit_same | exact bit_in (by decide)
    | decide

theorem State.deadSections_keeps (s : State) (before : PlantRes) :
    Keeps 0x8040248 s (State.deadSections s before) := by
  unfold State.deadSections
  try dsimp only
  repeat' first
    | with_reducible first
        | apply Keeps.ite | apply Keeps.refl | assumption | apply storeOk_putV | apply storeOk_filter
        | apply modeOk_upd | apply modeOk_zero | apply Keeps.to ?_ ?_ (State.alarm_keeps ..)
        | apply Keeps.to ?_ ?_ (State.detect_keeps ..) | apply Keeps.foldS | apply Keeps.foldl | (intro _)
    | split
    | with_reducible apply Keeps.upd
    | (with_reducible apply Same.of_upd) <;> with_reducible first | exact bit_same | exact bit_in (by decide)
    | decide

theorem State.tieChanged_keeps (s : State) (before : PlantRes) (t : Nat) (closed : Bool) :
    Keeps 0x8040248 s (State.tieChanged s before t closed) := by
  unfold State.tieChanged
  try dsimp only
  repeat' first
    | with_reducible first
        | apply Keeps.ite | apply Keeps.refl | assumption | apply storeOk_putV | apply storeOk_filter
        | apply modeOk_upd | apply modeOk_zero | apply Keeps.to ?_ ?_ (State.incU_keeps ..)
        | apply Keeps.to ?_ ?_ (State.lower_keeps ..) | apply Keeps.to ?_ ?_ (State.note_keeps ..)
        | apply Keeps.to ?_ ?_ (State.alarm_keeps ..) | apply Keeps.to ?_ ?_ (State.detect_keeps ..)
        | apply Keeps.to ?_ ?_ (State.setPlant_keeps ..) | apply Keeps.to ?_ ?_ (State.startScaling_keeps ..)
        | apply Keeps.foldS | apply Keeps.foldl | (intro _)
    | split
    | with_reducible apply Keeps.upd
    | (with_reducible apply Same.of_upd) <;> with_reducible first | exact bit_same | exact bit_in (by decide)
    | decide

theorem State.generatorChanged_keeps (s : State) (before : PlantRes) (g : Nat) :
    Keeps 0x8040248 s (State.generatorChanged s before g) := by
  unfold State.generatorChanged
  try dsimp only
  repeat' first
    | with_reducible first
        | apply Keeps.ite | apply Keeps.refl | assumption | apply storeOk_putV | apply storeOk_filter
        | apply modeOk_upd | apply modeOk_zero | apply Keeps.to ?_ ?_ (State.incU_keeps ..)
        | apply Keeps.to ?_ ?_ (State.lower_keeps ..) | apply Keeps.to ?_ ?_ (State.note_keeps ..)
        | apply Keeps.to ?_ ?_ (State.alarm_keeps ..) | apply Keeps.to ?_ ?_ (State.detect_keeps ..)
        | apply Keeps.to ?_ ?_ (State.startScaling_keeps ..) | apply Keeps.foldS | apply Keeps.foldl | (intro _)
    | split
    | with_reducible apply Keeps.upd
    | (with_reducible apply Same.of_upd) <;> with_reducible first | exact bit_same | exact bit_in (by decide)
    | decide

theorem State.confirm_keeps (s : State) (k : Nat) :
    Keeps 0x8040268 s (State.confirm s k) := by
  unfold State.confirm
  try dsimp only
  repeat' first
    | with_reducible first
        | apply Keeps.ite | apply Keeps.refl | assumption | apply storeOk_putV | apply storeOk_filter
        | apply modeOk_upd | apply modeOk_zero | apply Keeps.to ?_ ?_ (State.setContact_keeps ..)
        | apply Keeps.to ?_ ?_ (State.tellScaling_keeps ..) | apply Keeps.to ?_ ?_ (State.plantTail_keeps ..)
        | apply Keeps.to ?_ ?_ (State.setResult_keeps ..) | apply Keeps.to ?_ ?_ (State.deadSections_keeps ..)
        | apply Keeps.to ?_ ?_ (State.tieChanged_keeps ..) | apply Keeps.to ?_ ?_ (State.generatorChanged_keeps ..)
        | apply heldOk_none | apply Keeps.foldS | apply Keeps.foldl | (intro _)
    | split
    | with_reducible apply Keeps.upd
    | (with_reducible apply Same.of_upd) <;> with_reducible first | exact bit_same | exact bit_in (by decide)
    | decide

theorem State.rulePlant_keeps (s : State) (x1 : Path) (idx sub : Nat) (v : Val) :
    Verdict.keeps 0x208 s (State.rulePlant s x1 idx sub v) := by
  unfold State.rulePlant
  try dsimp only
  repeat' first
    | with_reducible first
        | apply verdict_ite | apply Verdict.keeps.store | apply Verdict.keeps.refuse | apply Verdict.keeps.done
        | apply Keeps.ite | apply Keeps.refl | assumption | apply storeOk_putV | apply storeOk_filter
        | apply modeOk_upd | apply modeOk_zero | apply Keeps.to ?_ ?_ (State.note_keeps ..) | apply Keeps.foldS
        | apply Keeps.foldl | (intro _)
    | split
    | with_reducible apply Keeps.upd
    | (with_reducible apply Same.of_upd) <;> with_reducible first | exact bit_same | exact bit_in (by decide)
    | decide

theorem execPowerPlantModelRun_keeps (s : State) :
    outKeeps 0x8040060 s (execPowerPlantModelRun s) := by
  unfold execPowerPlantModelRun
  try dsimp only
  repeat' first
    | with_reducible first
        | apply outKeeps_ite | apply outKeeps.next | apply Keeps.ite | apply Keeps.refl | assumption
        | apply storeOk_putV | apply storeOk_filter | apply modeOk_upd | apply modeOk_zero
        | apply Keeps.to ?_ ?_ (State.plantRun_keeps ..) | apply Keeps.foldS | apply Keeps.foldl | (intro _)
    | split
    | with_reducible apply Keeps.upd
    | (with_reducible apply Same.of_upd) <;> with_reducible first | exact bit_same | exact bit_in (by decide)
    | decide

theorem execBreakerStateConfirmed_keeps (k : Nat) (s : State) :
    outKeeps 0x8040268 s (execBreakerStateConfirmed k s) := by
  unfold execBreakerStateConfirmed
  try dsimp only
  repeat' first
    | with_reducible first
        | apply outKeeps_ite | apply outKeeps.next | apply Keeps.ite | apply Keeps.refl | assumption
        | apply storeOk_putV | apply storeOk_filter | apply modeOk_upd | apply modeOk_zero
        | apply Keeps.to ?_ ?_ (State.confirm_keeps ..) | apply Keeps.foldS | apply Keeps.foldl | (intro _)
    | split
    | with_reducible apply Keeps.upd
    | (with_reducible apply Same.of_upd) <;> with_reducible first | exact bit_same | exact bit_in (by decide)
    | decide

theorem execLrRelease_keeps (k : Nat) (s : State) :
    outKeeps 0x40208 s (execLrRelease k s) := by
  unfold execLrRelease
  try dsimp only
  repeat' first
    | with_reducible first
        | apply outKeeps_ite | apply outKeeps.next | apply Keeps.ite | apply Keeps.refl | assumption
        | apply storeOk_putV | apply storeOk_filter | apply modeOk_upd | apply modeOk_zero
        | apply Keeps.to ?_ ?_ (State.note_keeps ..) | apply Keeps.to ?_ ?_ (State.setPlant_keeps ..)
        | apply Keeps.foldS | apply Keeps.foldl | (intro _)
    | split
    | with_reducible apply Keeps.upd
    | (with_reducible apply Same.of_upd) <;> with_reducible first | exact bit_same | exact bit_in (by decide)
    | decide

theorem execBreakerDiscrepancy_keeps (k : Nat) (s : State) :
    outKeeps 0x8040268 s (execBreakerDiscrepancy k s) := by
  unfold execBreakerDiscrepancy
  try dsimp only
  repeat' first
    | with_reducible first
        | apply outKeeps_ite | apply outKeeps.next | apply Keeps.ite | apply Keeps.refl | assumption
        | apply storeOk_putV | apply storeOk_filter | apply modeOk_upd | apply modeOk_zero
        | apply Keeps.to ?_ ?_ (State.alarm_keeps ..) | apply Keeps.to ?_ ?_ (State.setContact_keeps ..)
        | apply Keeps.to ?_ ?_ (State.publishPlant_keeps ..) | apply Keeps.foldS | apply Keeps.foldl | (intro _)
    | split
    | with_reducible apply Keeps.upd
    | (with_reducible apply Same.of_upd) <;> with_reducible first | exact bit_same | exact bit_in (by decide)
    | decide

theorem execPowerPlantModelOverrun_keeps (s : State) :
    outKeeps 0x8042268 s (execPowerPlantModelOverrun s) := by
  unfold execPowerPlantModelOverrun
  try dsimp only
  repeat' first
    | with_reducible first
        | apply outKeeps_ite | apply outKeeps.next | apply Keeps.ite | apply Keeps.refl | assumption
        | apply storeOk_putV | apply storeOk_filter | apply modeOk_upd | apply modeOk_zero
        | apply Keeps.to ?_ ?_ (State.incU_keeps ..) | apply Keeps.to ?_ ?_ (State.alarm_keeps ..)
        | apply Keeps.to ?_ ?_ (State.unitStop_keeps ..) | apply Keeps.to ?_ ?_ (State.setPlant_keeps ..)
        | apply Keeps.to ?_ ?_ (State.publishPlant_keeps ..) | apply Keeps.to ?_ ?_ (State.setResult_keeps ..)
        | apply Keeps.foldS | apply Keeps.foldl | (intro _)
    | split
    | with_reducible apply Keeps.upd
    | (with_reducible apply Same.of_upd) <;> with_reducible first | exact bit_same | exact bit_in (by decide)
    | decide

theorem execPlantDescriptorWrite_keeps (p : Path) (idx sub : Nat) (b : List Byte) (s : State) :
    outKeeps 0x298 s (execPlantDescriptorWrite p idx sub b s) := by
  unfold execPlantDescriptorWrite
  try dsimp only
  repeat' first
    | with_reducible first
        | apply outKeeps_ite | apply outKeeps.next | apply Keeps.ite | apply Keeps.refl | assumption
        | apply storeOk_putV | apply storeOk_filter | apply modeOk_upd | apply modeOk_zero
        | apply Keeps.trans ?_ (State.writeWith_keeps ?_ _ ?_ ..)
        | apply verdict_to ?_ ?_ (State.rulePlant_keeps ..) | apply Keeps.foldS | apply Keeps.foldl | (intro _)
    | split
    | with_reducible apply Keeps.upd
    | (with_reducible apply Same.of_upd) <;> with_reducible first | exact bit_same | exact bit_in (by decide)
    | decide

end Sys2Proof.Machine
end

