-- ==== Sys2Proof/Laws/KeepTiller.lean ====
section
/-! SUPPORT. What the operations of Machine/Tiller.lean keep (Laws/Keeps.lean). -/
namespace Sys2Proof.Machine

theorem State.setTill_keeps (s : State) (t : Tiller) :
    Keeps 0x40000 s (State.setTill s t) := by
  unfold State.setTill
  try dsimp only
  repeat' first
    | with_reducible first
        | apply Keeps.ite | apply Keeps.refl | assumption | apply storeOk_putV | apply storeOk_filter
        | apply modeOk_upd | apply modeOk_zero | apply Keeps.foldS | apply Keeps.foldl | (intro _)
    | split
    | with_reducible apply Keeps.upd
    | (with_reducible apply Same.of_upd) <;> with_reducible first | exact bit_same | exact bit_in (by decide)
    | decide

theorem State.sideChanges_keeps (s : State) :
    Keeps 0x40208 s (State.sideChanges s) := by
  unfold State.sideChanges
  try dsimp only
  repeat' first
    | with_reducible first
        | apply Keeps.ite | apply Keeps.refl | assumption | apply storeOk_putV | apply storeOk_filter
        | apply modeOk_upd | apply modeOk_zero | apply Keeps.to ?_ ?_ (State.note_keeps ..)
        | apply Keeps.to ?_ ?_ (State.setTill_keeps ..) | apply heldOk_none | apply Keeps.foldS | apply Keeps.foldl
        | (intro _)
    | split
    | with_reducible apply Keeps.upd
    | (with_reducible apply Same.of_upd) <;> with_reducible first | exact bit_same | exact bit_in (by decide)
    | decide

theorem State.countDwell_keeps (s : State) (pts : List (Nat × Point)) :
    Keeps 0x40000 s (State.countDwell s pts) := by
  unfold State.countDwell
  try dsimp only
  repeat' first
    | with_reducible first
        | apply Keeps.ite | apply Keeps.refl | assumption | apply storeOk_putV | apply storeOk_filter
        | apply modeOk_upd | apply modeOk_zero | apply Keeps.to ?_ ?_ (State.at'_keeps ..)
        | apply Keeps.to ?_ ?_ (State.setTill_keeps ..) | apply heldOk_none | apply Keeps.foldS | apply Keeps.foldl
        | (intro _)
    | split
    | with_reducible apply Keeps.upd
    | (with_reducible apply Same.of_upd) <;> with_reducible first | exact bit_same | exact bit_in (by decide)
    | decide

theorem State.noteAvail_keeps (s : State) (now : Nat) :
    Keeps 0x208 s (State.noteAvail s now) := by
  unfold State.noteAvail
  try dsimp only
  repeat' first
    | with_reducible first
        | apply Keeps.ite | apply Keeps.refl | assumption | apply storeOk_putV | apply storeOk_filter
        | apply modeOk_upd | apply modeOk_zero | apply Keeps.to ?_ ?_ (State.note_keeps ..) | apply Keeps.foldS
        | apply Keeps.foldl | (intro _)
    | split
    | with_reducible apply Keeps.upd
    | (with_reducible apply Same.of_upd) <;> with_reducible first | exact bit_same | exact bit_in (by decide)
    | decide

theorem State.tillerFault_keeps (s : State) (kind lane : Nat) :
    Keeps 0x8040248 s (State.tillerFault s kind lane) := by
  unfold State.tillerFault
  try dsimp only
  repeat' first
    | with_reducible first
        | apply Keeps.ite | apply Keeps.refl | assumption | apply storeOk_putV | apply storeOk_filter
        | apply modeOk_upd | apply modeOk_zero | apply Keeps.to ?_ ?_ (State.incU_keeps ..)
        | apply Keeps.to ?_ ?_ (State.alarm_keeps ..) | apply Keeps.to ?_ ?_ (State.setTill_keeps ..)
        | apply heldOk_none | apply Keeps.foldS | apply Keeps.foldl | (intro _)
    | split
    | with_reducible apply Keeps.upd
    | (with_reducible apply Same.of_upd) <;> with_reducible first | exact bit_same | exact bit_in (by decide)
    | decide

theorem State.tillerSolve_keeps (s : State) (forced : Option (Nat × Nat)) :
    Keeps 0x8040248 s (State.tillerSolve s forced) := by
  unfold State.tillerSolve
  try dsimp only
  repeat' first
    | with_reducible first
        | apply Keeps.ite | apply Keeps.refl | assumption | apply storeOk_putV | apply storeOk_filter
        | apply modeOk_upd | apply modeOk_zero | apply Keeps.to ?_ ?_ (State.note_keeps ..)
        | apply Keeps.to ?_ ?_ (State.setTill_keeps ..) | apply Keeps.to ?_ ?_ (State.sideChanges_keeps ..)
        | apply Keeps.to ?_ ?_ (State.noteAvail_keeps ..) | apply Keeps.to ?_ ?_ (State.tillerFault_keeps ..)
        | apply heldOk_none | apply Keeps.foldS | apply Keeps.foldl | (intro _)
    | split
    | with_reducible apply Keeps.upd
    | (with_reducible apply Same.of_upd) <;> with_reducible first | exact bit_same | exact bit_in (by decide)
    | decide

theorem State.publishTiller_keeps (s : State) (sol : Solve) (pts : List (Nat × Point)) (lam : List (Nat × Rat)) (del
    short : List Rat) (sat : Nat) :
    Keeps 0x8001268 s (State.publishTiller s sol pts lam del short sat) := by
  unfold State.publishTiller
  try dsimp only
  repeat' first
    | with_reducible first
        | apply Keeps.ite | apply Keeps.refl | assumption | apply storeOk_putV | apply storeOk_filter
        | apply modeOk_upd | apply modeOk_zero | apply Keeps.to ?_ ?_ (State.publishEnd_keeps ..)
        | apply Keeps.to ?_ ?_ (State.probe_keeps ..) | apply storeOk_foldl | apply Keeps.foldS | apply Keeps.foldl
        | (intro _)
    | split
    | with_reducible apply Keeps.upd
    | (with_reducible apply Same.of_upd) <;> with_reducible first | exact bit_same | exact bit_in (by decide)
    | decide

theorem State.tillerPublish_keeps (s : State) :
    Keeps 0x8041268 s (State.tillerPublish s) := by
  unfold State.tillerPublish
  try dsimp only
  repeat' first
    | with_reducible first
        | apply Keeps.ite | apply Keeps.refl | assumption | apply storeOk_putV | apply storeOk_filter
        | apply modeOk_upd | apply modeOk_zero | apply Keeps.to ?_ ?_ (State.putU_keeps ..)
        | apply Keeps.to ?_ ?_ (State.incU_keeps ..) | apply Keeps.to ?_ ?_ (State.lower_keeps ..)
        | apply Keeps.to ?_ ?_ (State.note_keeps ..) | apply Keeps.to ?_ ?_ (State.alarm_keeps ..)
        | apply Keeps.to ?_ ?_ (State.setTill_keeps ..) | apply Keeps.to ?_ ?_ (State.countDwell_keeps ..)
        | apply Keeps.to ?_ ?_ (State.publishTiller_keeps ..) | apply heldOk_none | apply Keeps.foldS
        | apply Keeps.foldl | (intro _)
    | split
    | with_reducible apply Keeps.upd
    | (with_reducible apply Same.of_upd) <;> with_reducible first | exact bit_same | exact bit_in (by decide)
    | decide

theorem State.ruleThruster_keeps (s : State) (x1 : Path) (idx sub : Nat) (v : Val) :
    Verdict.keeps 0x208 s (State.ruleThruster s x1 idx sub v) := by
  unfold State.ruleThruster
  try dsimp only
  repeat' first
    | with_reducible first
        | apply verdict_ite | apply Verdict.keeps.store | apply Verdict.keeps.refuse | apply Verdict.keeps.done
        | apply Keeps.ite | apply Keeps.refl | assumption | apply storeOk_putV | apply storeOk_filter
        | apply modeOk_upd | apply modeOk_zero | apply Keeps.to ?_ ?_ (State.note_keeps ..) | apply Keeps.foldS
        | apply Keeps.foldl | (intro _)
    | split
    | with_reducible apply Keeps.upd
    | (with_reducible apply Same.of_upd) <;> with_reducible first | exact bit_same | exact bit_in (by decide)
    | decide

theorem execTillerPublish_keeps (s : State) :
    outKeeps 0x8041268 s (execTillerPublish s) := by
  unfold execTillerPublish
  try dsimp only
  repeat' first
    | with_reducible first
        | apply outKeeps_ite | apply outKeeps.next | apply Keeps.ite | apply Keeps.refl | assumption
        | apply storeOk_putV | apply storeOk_filter | apply modeOk_upd | apply modeOk_zero
        | apply Keeps.to ?_ ?_ (State.tillerPublish_keeps ..) | apply Keeps.foldS | apply Keeps.foldl | (intro _)
    | split
    | with_reducible apply Keeps.upd
    | (with_reducible apply Same.of_upd) <;> with_reducible first | exact bit_same | exact bit_in (by decide)
    | decide

theorem execThrusterDescriptorWrite_keeps (p : Path) (idx sub : Nat) (b : List Byte) (s : State) :
    outKeeps 0x298 s (execThrusterDescriptorWrite p idx sub b s) := by
  unfold execThrusterDescriptorWrite
  try dsimp only
  repeat' first
    | with_reducible first
        | apply outKeeps_ite | apply outKeeps.next | apply Keeps.ite | apply Keeps.refl | assumption
        | apply storeOk_putV | apply storeOk_filter | apply modeOk_upd | apply modeOk_zero
        | apply Keeps.trans ?_ (State.writeWith_keeps ?_ _ ?_ ..)
        | apply verdict_to ?_ ?_ (State.ruleThruster_keeps ..) | apply Keeps.foldS | apply Keeps.foldl | (intro _)
    | split
    | with_reducible apply Keeps.upd
    | (with_reducible apply Same.of_upd) <;> with_reducible first | exact bit_same | exact bit_in (by decide)
    | decide

end Sys2Proof.Machine
end

