-- ==== Sys2Proof/Laws/KeepInner.lean ====
section
/-! SUPPORT. What the operations of Machine/Inner.lean keep (Laws/Keeps.lean). -/
namespace Sys2Proof.Machine

theorem State.putInner_keeps (s : State) (j : Nat) :
    Keeps 0x8 s (State.putInner s j) := by
  unfold State.putInner
  try dsimp only
  repeat' first
    | with_reducible first
        | apply Keeps.ite | apply Keeps.refl | assumption | apply storeOk_putV | apply storeOk_filter
        | apply modeOk_upd | apply modeOk_zero | apply Keeps.to ?_ ?_ (State.putR_keeps ..) | apply Keeps.foldS
        | apply Keeps.foldl | (intro _)
    | split
    | with_reducible apply Keeps.upd
    | (with_reducible apply Same.of_upd) <;> with_reducible first | exact bit_same | exact bit_in (by decide)
    | decide

theorem State.lanes_keeps (s : State) (due : List Nat) :
    Keeps 0x208 s (State.lanes s due).1 := by
  unfold State.lanes
  try dsimp only
  repeat' first
    | with_reducible first
        | apply Keeps.ite | apply Keeps.refl | assumption | apply storeOk_putV | apply storeOk_filter
        | apply modeOk_upd | apply modeOk_zero | apply Keeps.to ?_ ?_ (State.stick_keeps ..) | apply Keeps.foldS
        | apply Keeps.foldl | (intro _)
    | split
    | with_reducible apply Keeps.upd
    | (with_reducible apply Same.of_upd) <;> with_reducible first | exact bit_same | exact bit_in (by decide)
    | decide
theorem State.lanes_keepsEq {s : State} {due : List Nat} {x t} (h : State.lanes s due = (t, x))   : Keeps 0x208 s t := by
  have := State.lanes_keeps s due
  rw [h] at this
  exact this

theorem State.roundCore_keeps (s : State) (l : List Lane) (get : InnerCore → Rat) (put : InnerCore → Rat →
    InnerCore) :
    Keeps 0x40000 s (State.roundCore s l get put) := by
  unfold State.roundCore
  try dsimp only
  repeat' first
    | with_reducible first
        | apply Keeps.ite | apply Keeps.refl | assumption | apply storeOk_putV | apply storeOk_filter
        | apply modeOk_upd | apply modeOk_zero | apply Keeps.to ?_ ?_ (State.setInner_keeps ..) | apply Keeps.foldS
        | apply Keeps.foldl | (intro _)
    | split
    | with_reducible apply Keeps.upd
    | (with_reducible apply Same.of_upd) <;> with_reducible first | exact bit_same | exact bit_in (by decide)
    | decide

theorem State.feedbackTest_keeps (s : State) (l : Lane) :
    Keeps 0x8040248 s (State.feedbackTest s l) := by
  unfold State.feedbackTest
  try dsimp only
  repeat' first
    | with_reducible first
        | apply Keeps.ite | apply Keeps.refl | assumption | apply storeOk_putV | apply storeOk_filter
        | apply modeOk_upd | apply modeOk_zero | apply Keeps.to ?_ ?_ (State.lower_keeps ..)
        | apply Keeps.to ?_ ?_ (State.alarm_keeps ..) | apply Keeps.to ?_ ?_ (State.setInner_keeps ..)
        | apply Keeps.to ?_ ?_ (State.stick_keeps ..) | apply Keeps.foldS | apply Keeps.foldl | (intro _)
    | split
    | with_reducible apply Keeps.upd
    | (with_reducible apply Same.of_upd) <;> with_reducible first | exact bit_same | exact bit_in (by decide)
    | decide

theorem State.innerTrack_keeps (s : State) (l : Lane) :
    Keeps 0x40000 s (State.innerTrack s l) := by
  unfold State.innerTrack
  try dsimp only
  repeat' first
    | with_reducible first
        | apply Keeps.ite | apply Keeps.refl | assumption | apply storeOk_putV | apply storeOk_filter
        | apply modeOk_upd | apply modeOk_zero | apply Keeps.to ?_ ?_ (State.setInner_keeps ..) | apply Keeps.foldS
        | apply Keeps.foldl | (intro _)
    | split
    | with_reducible apply Keeps.upd
    | (with_reducible apply Same.of_upd) <;> with_reducible first | exact bit_same | exact bit_in (by decide)
    | decide

theorem State.azLoop_keeps (s : State) (l : Lane) :
    Keeps 0x40208 s (State.azLoop s l) := by
  unfold State.azLoop
  try dsimp only
  repeat' first
    | with_reducible first
        | apply Keeps.ite | apply Keeps.refl | assumption | apply storeOk_putV | apply storeOk_filter
        | apply modeOk_upd | apply modeOk_zero | apply Keeps.to ?_ ?_ (State.setInner_keeps ..)
        | apply Keeps.to ?_ ?_ (State.stick_keeps ..) | apply Keeps.foldS | apply Keeps.foldl | (intro _)
    | split
    | with_reducible apply Keeps.upd
    | (with_reducible apply Same.of_upd) <;> with_reducible first | exact bit_same | exact bit_in (by decide)
    | decide

theorem State.rampLoop_keeps (s : State) (l : Lane) :
    Keeps 0x40208 s (State.rampLoop s l) := by
  unfold State.rampLoop
  try dsimp only
  repeat' first
    | with_reducible first
        | apply Keeps.ite | apply Keeps.refl | assumption | apply storeOk_putV | apply storeOk_filter
        | apply modeOk_upd | apply modeOk_zero | apply Keeps.to ?_ ?_ (State.setInner_keeps ..)
        | apply Keeps.to ?_ ?_ (State.stick_keeps ..) | apply Keeps.foldS | apply Keeps.foldl | (intro _)
    | split
    | with_reducible apply Keeps.upd
    | (with_reducible apply Same.of_upd) <;> with_reducible first | exact bit_same | exact bit_in (by decide)
    | decide

theorem State.speedLoop_keeps (s : State) (l : Lane) :
    Keeps 0x40208 s (State.speedLoop s l) := by
  unfold State.speedLoop
  try dsimp only
  repeat' first
    | with_reducible first
        | apply Keeps.ite | apply Keeps.refl | assumption | apply storeOk_putV | apply storeOk_filter
        | apply modeOk_upd | apply modeOk_zero | apply Keeps.to ?_ ?_ (State.setInner_keeps ..)
        | apply Keeps.to ?_ ?_ (State.stick_keeps ..) | apply Keeps.foldS | apply Keeps.foldl | (intro _)
    | split
    | with_reducible apply Keeps.upd
    | (with_reducible apply Same.of_upd) <;> with_reducible first | exact bit_same | exact bit_in (by decide)
    | decide

theorem State.innerControl_keeps (s : State) (l : List Lane) :
    Keeps 0x40208 s (State.innerControl s l) := by
  unfold State.innerControl
  try dsimp only
  repeat' first
    | with_reducible first
        | apply Keeps.ite | apply Keeps.refl | assumption | apply storeOk_putV | apply storeOk_filter
        | apply modeOk_upd | apply modeOk_zero | apply Keeps.to ?_ ?_ (State.roundCore_keeps ..)
        | apply Keeps.to ?_ ?_ (State.azLoop_keeps ..) | apply Keeps.to ?_ ?_ (State.rampLoop_keeps ..)
        | apply Keeps.to ?_ ?_ (State.speedLoop_keeps ..) | apply Keeps.foldS | apply Keeps.foldl | (intro _)
    | split
    | with_reducible apply Keeps.upd
    | (with_reducible apply Same.of_upd) <;> with_reducible first | exact bit_same | exact bit_in (by decide)
    | decide

theorem State.innerRun_keeps (s : State) (due : List Nat) :
    Keeps 0x8040248 s (State.innerRun s due) := by
  unfold State.innerRun
  try dsimp only
  repeat' first
    | with_reducible first
        | apply Keeps.ite | apply Keeps.refl | assumption | apply storeOk_putV | apply storeOk_filter
        | apply modeOk_upd | apply modeOk_zero | apply Keeps.to ?_ ?_ (State.putInner_keeps ..)
        | apply Keeps.to ?_ ?_ (State.lanes_keeps ..) | apply Keeps.to ?_ ?_ (State.lanes_keepsEq (by assumption))
        | apply Keeps.to ?_ ?_ (State.feedbackTest_keeps ..) | apply Keeps.to ?_ ?_ (State.innerTrack_keeps ..)
        | apply Keeps.to ?_ ?_ (State.innerControl_keeps ..) | apply Keeps.foldS | apply Keeps.foldl | (intro _)
    | split
    | with_reducible apply Keeps.upd
    | (with_reducible apply Same.of_upd) <;> with_reducible first | exact bit_same | exact bit_in (by decide)
    | decide

theorem State.emitAll_keeps (s : State) :
    Keeps 0x40208 s (State.emitAll s) := by
  unfold State.emitAll
  try dsimp only
  repeat' first
    | with_reducible first
        | apply Keeps.ite | apply Keeps.refl | assumption | apply storeOk_putV | apply storeOk_filter
        | apply modeOk_upd | apply modeOk_zero | apply Keeps.to ?_ ?_ (State.setInner_keeps ..)
        | apply Keeps.to ?_ ?_ (State.setPlant_keeps ..) | apply Keeps.to ?_ ?_ (State.endScaling_keeps ..)
        | apply heldOk_none | apply Keeps.foldS | apply Keeps.foldl | (intro _)
    | split
    | with_reducible apply Keeps.upd
    | (with_reducible apply Same.of_upd) <;> with_reducible first | exact bit_same | exact bit_in (by decide)
    | decide

theorem State.emitRecords_keeps (s : State) :
    Keeps 0xc0228 s (State.emitRecords s) := by
  unfold State.emitRecords
  try dsimp only
  repeat' first
    | with_reducible first
        | apply Keeps.ite | apply Keeps.refl | assumption | apply storeOk_putV | apply storeOk_filter
        | apply modeOk_upd | apply modeOk_zero | apply Keeps.to ?_ ?_ (State.plantTail_keeps ..)
        | apply Keeps.to ?_ ?_ (State.emitAll_keeps ..) | apply Keeps.foldS | apply Keeps.foldl | (intro _)
    | split
    | with_reducible apply Keeps.upd
    | (with_reducible apply Same.of_upd) <;> with_reducible first | exact bit_same | exact bit_in (by decide)
    | decide

theorem State.innerSlot_keeps (s : State) :
    Keeps 0x80c0268 s (State.innerSlot s) := by
  unfold State.innerSlot
  try dsimp only
  repeat' first
    | with_reducible first
        | apply Keeps.ite | apply Keeps.refl | assumption | apply storeOk_putV | apply storeOk_filter
        | apply modeOk_upd | apply modeOk_zero | apply Keeps.to ?_ ?_ (State.lower_keeps ..)
        | apply Keeps.to ?_ ?_ (State.innerRun_keeps ..) | apply Keeps.to ?_ ?_ (State.emitRecords_keeps ..)
        | apply Keeps.foldS | apply Keeps.foldl | (intro _)
    | split
    | with_reducible apply Keeps.upd
    | (with_reducible apply Same.of_upd) <;> with_reducible first | exact bit_same | exact bit_in (by decide)
    | decide

theorem State.innerOver_keeps (s : State) (lane : Option (Nat × Nat)) :
    Keeps 0x80c2268 s (State.innerOver s lane) := by
  unfold State.innerOver
  try dsimp only
  repeat' first
    | with_reducible first
        | apply Keeps.ite | apply Keeps.refl | assumption | apply storeOk_putV | apply storeOk_filter
        | apply modeOk_upd | apply modeOk_zero | apply Keeps.to ?_ ?_ (State.incU_keeps ..)
        | apply Keeps.to ?_ ?_ (State.alarm_keeps ..) | apply Keeps.to ?_ ?_ (State.unitStop_keeps ..)
        | apply Keeps.to ?_ ?_ (State.residueFault_keeps ..) | apply Keeps.to ?_ ?_ (State.emitRecords_keeps ..)
        | apply Keeps.foldS | apply Keeps.foldl | (intro _)
    | split
    | with_reducible apply Keeps.upd
    | (with_reducible apply Same.of_upd) <;> with_reducible first | exact bit_same | exact bit_in (by decide)
    | decide

theorem State.reclampInner_keeps (s : State) (old : List (Nat × List Rat)) :
    Keeps 0x40208 s (State.reclampInner s old) := by
  unfold State.reclampInner
  try dsimp only
  repeat' first
    | with_reducible first
        | apply Keeps.ite | apply Keeps.refl | assumption | apply storeOk_putV | apply storeOk_filter
        | apply modeOk_upd | apply modeOk_zero | apply Keeps.to ?_ ?_ (State.setInner_keeps ..)
        | apply Keeps.to ?_ ?_ (State.stick_keeps ..) | apply Keeps.foldS | apply Keeps.foldl | (intro _)
    | split
    | with_reducible apply Keeps.upd
    | (with_reducible apply Same.of_upd) <;> with_reducible first | exact bit_same | exact bit_in (by decide)
    | decide

theorem execInnerLoopRun_keeps (s : State) :
    outKeeps 0x80c0268 s (execInnerLoopRun s) := by
  unfold execInnerLoopRun
  try dsimp only
  repeat' first
    | with_reducible first
        | apply outKeeps_ite | apply outKeeps.next | apply Keeps.ite | apply Keeps.refl | assumption
        | apply storeOk_putV | apply storeOk_filter | apply modeOk_upd | apply modeOk_zero
        | apply Keeps.to ?_ ?_ (State.innerSlot_keeps ..) | apply Keeps.foldS | apply Keeps.foldl | (intro _)
    | split
    | with_reducible apply Keeps.upd
    | (with_reducible apply Same.of_upd) <;> with_reducible first | exact bit_same | exact bit_in (by decide)
    | decide

theorem execInnerLoopSlotOverrun_keeps (lane : Option (Nat × Nat)) (s : State) :
    outKeeps 0x80c2268 s (execInnerLoopSlotOverrun lane s) := by
  unfold execInnerLoopSlotOverrun
  try dsimp only
  repeat' first
    | with_reducible first
        | apply outKeeps_ite | apply outKeeps.next | apply Keeps.ite | apply Keeps.refl | assumption
        | apply storeOk_putV | apply storeOk_filter | apply modeOk_upd | apply modeOk_zero
        | apply Keeps.to ?_ ?_ (State.innerOver_keeps ..) | apply Keeps.foldS | apply Keeps.foldl | (intro _)
    | split
    | with_reducible apply Keeps.upd
    | (with_reducible apply Same.of_upd) <;> with_reducible first | exact bit_same | exact bit_in (by decide)
    | decide

end Sys2Proof.Machine
end

