-- ==== Sys2Proof/Laws/KeepGnssRun.lean ====
section
/-! SUPPORT. What the operations of Machine/GnssRun.lean keep (Laws/Keeps.lean). -/
namespace Sys2Proof.Machine

theorem State.feedGnss_keeps (s : State) (t addr kind : Nat) (raw : List Rat) (sd : Rat) (valid : Bool) :
    Keeps 0x8208 s (State.feedGnss s t addr kind raw sd valid) := by
  unfold State.feedGnss
  try dsimp only
  repeat' first
    | with_reducible first
        | apply Keeps.ite | apply Keeps.refl | assumption | apply storeOk_putV | apply storeOk_filter
        | apply modeOk_upd | apply modeOk_zero | apply Keeps.to ?_ ?_ (State.sheafAccept_keeps ..)
        | apply Keeps.foldS | apply Keeps.foldl | (intro _)
    | split
    | with_reducible apply Keeps.upd
    | (with_reducible apply Same.of_upd) <;> with_reducible first | exact bit_same | exact bit_in (by decide)
    | decide

theorem State.decideField_keeps (s : State) (t f : Nat) :
    Keeps 0x800000 s (State.decideField s t f) := by
  unfold State.decideField
  try dsimp only
  repeat' first
    | with_reducible first
        | apply Keeps.ite | apply Keeps.refl | assumption | apply storeOk_putV | apply storeOk_filter
        | apply modeOk_upd | apply modeOk_zero | apply Keeps.to ?_ ?_ (State.setGn_keeps ..) | apply heldOk_none
        | apply Keeps.foldS | apply Keeps.foldl | (intro _)
    | split
    | with_reducible apply Keeps.upd
    | (with_reducible apply Same.of_upd) <;> with_reducible first | exact bit_same | exact bit_in (by decide)
    | decide

theorem State.solutionState_keeps (s : State) (t : Nat) (ok few : Bool) :
    Keeps 0x800208 s (State.solutionState s t ok few) := by
  unfold State.solutionState
  try dsimp only
  repeat' first
    | with_reducible first
        | apply Keeps.ite | apply Keeps.refl | assumption | apply storeOk_putV | apply storeOk_filter
        | apply modeOk_upd | apply modeOk_zero | apply Keeps.to ?_ ?_ (State.note_keeps ..)
        | apply Keeps.to ?_ ?_ (State.setGn_keeps ..) | apply Keeps.to ?_ ?_ (State.capture_keeps ..)
        | apply heldOk_none | apply Keeps.foldS | apply Keeps.foldl | (intro _)
    | split
    | with_reducible apply Keeps.upd
    | (with_reducible apply Same.of_upd) <;> with_reducible first | exact bit_same | exact bit_in (by decide)
    | decide

theorem State.holdState_keeps (s : State) (t : Nat) (excluded : Bool) :
    Keeps 0x800000 s (State.holdState s t excluded) := by
  unfold State.holdState
  try dsimp only
  repeat' first
    | with_reducible first
        | apply Keeps.ite | apply Keeps.refl | assumption | apply storeOk_putV | apply storeOk_filter
        | apply modeOk_upd | apply modeOk_zero | apply Keeps.to ?_ ?_ (State.setGn_keeps ..) | apply Keeps.foldS
        | apply Keeps.foldl | (intro _)
    | split
    | with_reducible apply Keeps.upd
    | (with_reducible apply Same.of_upd) <;> with_reducible first | exact bit_same | exact bit_in (by decide)
    | decide

theorem State.spoofing_keeps (s : State) (t : Nat) (set : List Nat) :
    Keeps 0x8800248 s (State.spoofing s t set) := by
  unfold State.spoofing
  try dsimp only
  repeat' first
    | with_reducible first
        | apply Keeps.ite | apply Keeps.refl | assumption | apply storeOk_putV | apply storeOk_filter
        | apply modeOk_upd | apply modeOk_zero | apply Keeps.to ?_ ?_ (State.lower_keeps ..)
        | apply Keeps.to ?_ ?_ (State.note_keeps ..) | apply Keeps.to ?_ ?_ (State.alarm_keeps ..)
        | apply Keeps.to ?_ ?_ (State.setGn_keeps ..) | apply Keeps.to ?_ ?_ (State.capture_keeps ..)
        | apply heldOk_none | apply Keeps.foldS | apply Keeps.foldl | (intro _)
    | split
    | with_reducible apply Keeps.upd
    | (with_reducible apply Same.of_upd) <;> with_reducible first | exact bit_same | exact bit_in (by decide)
    | decide

theorem State.publishIntegrity_keeps (s : State) (t : Nat) :
    Keeps 0x20 s (State.publishIntegrity s t) := by
  unfold State.publishIntegrity
  try dsimp only
  repeat' first
    | with_reducible first
        | apply Keeps.ite | apply Keeps.refl | assumption | apply storeOk_putV | apply storeOk_filter
        | apply modeOk_upd | apply modeOk_zero | apply Keeps.to ?_ ?_ (State.publishAt_keeps ..) | apply heldOk_none
        | apply Keeps.foldS | apply Keeps.foldl | (intro _)
    | split
    | with_reducible apply Keeps.upd
    | (with_reducible apply Same.of_upd) <;> with_reducible first | exact bit_same | exact bit_in (by decide)
    | decide

theorem State.integrityTests_keeps (s : State) (m : GEpoch) (sol : Option GSol) (head : Option Rat) (tilt : Option
    (Rat × Rat)) :
    Keeps 0x8800248 s (State.integrityTests s m sol head tilt) := by
  unfold State.integrityTests
  try dsimp only
  repeat' first
    | with_reducible first
        | apply Keeps.ite | apply Keeps.refl | assumption | apply storeOk_putV | apply storeOk_filter
        | apply modeOk_upd | apply modeOk_zero | apply Keeps.to ?_ ?_ (State.motionTest_keeps ..)
        | apply Keeps.to ?_ ?_ (State.spoofing_keeps ..) | apply heldOk_none | apply Keeps.ofId | apply Keeps.foldS
        | apply Keeps.foldl | (intro _)
    | split
    | with_reducible apply Keeps.upd
    | (with_reducible apply Same.of_upd) <;> with_reducible first | exact bit_same | exact bit_in (by decide)
    | decide

theorem State.measurementEpoch_keeps (s : State) (m : GEpoch) :
    Keeps 0x8808268 s (State.measurementEpoch s m) := by
  unfold State.measurementEpoch
  try dsimp only
  repeat' first
    | with_reducible first
        | apply Keeps.ite | apply Keeps.refl | assumption | apply storeOk_putV | apply storeOk_filter
        | apply modeOk_upd | apply modeOk_zero | apply Keeps.to ?_ ?_ (State.incU_keeps ..)
        | apply Keeps.to ?_ ?_ (State.publishAt_keeps ..) | apply Keeps.to ?_ ?_ (State.note_keeps ..)
        | apply Keeps.to ?_ ?_ (State.setGn_keeps ..) | apply Keeps.to ?_ ?_ (State.chanMeas_keeps ..)
        | apply Keeps.to ?_ ?_ (State.baselines_keeps ..) | apply Keeps.to ?_ ?_ (State.learnCn0_keeps ..)
        | apply Keeps.to ?_ ?_ (State.indicators_keeps ..) | apply Keeps.to ?_ ?_ (State.excludePorts_keeps ..)
        | apply Keeps.to ?_ ?_ (State.feedGnss_keeps ..) | apply Keeps.to ?_ ?_ (State.decideField_keeps ..)
        | apply Keeps.to ?_ ?_ (State.solutionState_keeps ..) | apply Keeps.to ?_ ?_ (State.holdState_keeps ..)
        | apply Keeps.to ?_ ?_ (State.publishIntegrity_keeps ..)
        | apply Keeps.to ?_ ?_ (State.integrityTests_keeps ..) | apply heldOk_none | apply storeOk_foldl
        | apply Keeps.foldS | apply Keeps.foldl | (intro _)
    | split
    | with_reducible apply Keeps.upd
    | (with_reducible apply Same.of_upd) <;> with_reducible first | exact bit_same | exact bit_in (by decide)
    | decide

theorem State.jamming_keeps (s : State) (g : Nat) :
    Keeps 0x8800248 s (State.jamming s g) := by
  unfold State.jamming
  try dsimp only
  repeat' first
    | with_reducible first
        | apply Keeps.ite | apply Keeps.refl | assumption | apply storeOk_putV | apply storeOk_filter
        | apply modeOk_upd | apply modeOk_zero | apply Keeps.to ?_ ?_ (State.alarm_keeps ..)
        | apply Keeps.to ?_ ?_ (State.setGn_keeps ..) | apply Keeps.to ?_ ?_ (State.excludePorts_keeps ..)
        | apply Keeps.to ?_ ?_ (State.capture_keeps ..) | apply Keeps.to ?_ ?_ (State.decideField_keeps ..)
        | apply Keeps.foldS | apply Keeps.foldl | (intro _)
    | split
    | with_reducible apply Keeps.upd
    | (with_reducible apply Same.of_upd) <;> with_reducible first | exact bit_same | exact bit_in (by decide)
    | decide

theorem State.jamCalm_keeps (s : State) (g : Nat) :
    Keeps 0x800000 s (State.jamCalm s g) := by
  unfold State.jamCalm
  try dsimp only
  repeat' first
    | with_reducible first
        | apply Keeps.ite | apply Keeps.refl | assumption | apply storeOk_putV | apply storeOk_filter
        | apply modeOk_upd | apply modeOk_zero | apply Keeps.to ?_ ?_ (State.setGn_keeps ..) | apply Keeps.foldS
        | apply Keeps.foldl | (intro _)
    | split
    | with_reducible apply Keeps.upd
    | (with_reducible apply Same.of_upd) <;> with_reducible first | exact bit_same | exact bit_in (by decide)
    | decide

theorem State.jammingEnds_keeps (s : State) (g : Nat) :
    Keeps 0x8800248 s (State.jammingEnds s g) := by
  unfold State.jammingEnds
  try dsimp only
  repeat' first
    | with_reducible first
        | apply Keeps.ite | apply Keeps.refl | assumption | apply storeOk_putV | apply storeOk_filter
        | apply modeOk_upd | apply modeOk_zero | apply Keeps.to ?_ ?_ (State.lower_keeps ..)
        | apply Keeps.to ?_ ?_ (State.note_keeps ..) | apply Keeps.to ?_ ?_ (State.setGn_keeps ..)
        | apply Keeps.to ?_ ?_ (State.decideField_keeps ..) | apply Keeps.foldS | apply Keeps.foldl | (intro _)
    | split
    | with_reducible apply Keeps.upd
    | (with_reducible apply Same.of_upd) <;> with_reducible first | exact bit_same | exact bit_in (by decide)
    | decide

theorem State.makeRoom_keeps (k need : Nat) (s : State) : Keeps 0x800208 s (State.makeRoom k need s) := by
  induction k generalizing s with
  | zero => exact Keeps.refl _
  | succ k ih =>
    unfold State.makeRoom
    apply Keeps.ite (Keeps.refl _)
    dsimp only
    split
    · exact Keeps.refl _
    · exact (Keeps.to (by decide) ((State.setGn_keeps ..).mono (by decide)) (State.note_keeps ..)).trans (ih _)

theorem State.archiveSlot_keeps (s : State) (k : Nat) (x : Snap) :
    Keeps 0x800208 s (State.archiveSlot s k x) := by
  unfold State.archiveSlot
  try dsimp only
  repeat' first
    | with_reducible first
        | apply Keeps.ite | apply Keeps.refl | assumption | apply storeOk_putV | apply storeOk_filter
        | apply modeOk_upd | apply modeOk_zero | apply Keeps.to ?_ ?_ (State.note_keeps ..)
        | apply Keeps.to ?_ ?_ (State.setGn_keeps ..) | apply Keeps.to ?_ ?_ (State.makeRoom_keeps ..)
        | apply Keeps.foldS | apply Keeps.foldl | (intro _)
    | split
    | with_reducible apply Keeps.upd
    | (with_reducible apply Same.of_upd) <;> with_reducible first | exact bit_same | exact bit_in (by decide)
    | decide

theorem State.ruleGnss_keeps (s : State) (x1 : Path) (idx sub : Nat) (v : Val) :
    Verdict.keeps 0x800208 s (State.ruleGnss s x1 idx sub v) := by
  unfold State.ruleGnss
  try dsimp only
  repeat' first
    | with_reducible first
        | apply verdict_ite | apply Verdict.keeps.store | apply Verdict.keeps.refuse | apply Verdict.keeps.done
        | apply Keeps.ite | apply Keeps.refl | assumption | apply storeOk_putV | apply storeOk_filter
        | apply modeOk_upd | apply modeOk_zero | apply Keeps.to ?_ ?_ (State.setGn_keeps ..)
        | apply Keeps.to ?_ ?_ (State.capture_keeps ..) | apply heldOk_none | apply Keeps.foldS | apply Keeps.foldl
        | (intro _)
    | split
    | with_reducible apply Keeps.upd
    | (with_reducible apply Same.of_upd) <;> with_reducible first | exact bit_same | exact bit_in (by decide)
    | decide

theorem State.navMessage_keeps (s : State) (r : NavRec) (utc : Option (Int × Option (Nat × Int))) :
    Keeps 0x1800000 s (State.navMessage s r utc) := by
  unfold State.navMessage
  try dsimp only
  repeat' first
    | with_reducible first
        | apply Keeps.ite | apply Keeps.refl | assumption | apply storeOk_putV | apply storeOk_filter
        | apply modeOk_upd | apply modeOk_zero | apply Keeps.to ?_ ?_ (State.setGn_keeps ..) | apply heldOk_none
        | apply Keeps.foldS | apply Keeps.foldl | (intro _)
    | split
    | with_reducible apply Keeps.upd
    | (with_reducible apply Same.of_upd) <;> with_reducible first | exact bit_same | exact bit_in (by decide)
    | decide

theorem State.navRead_keeps (s : State) (p : Path) :
    Keeps 0x88 s (State.navRead s p) := by
  unfold State.navRead
  try dsimp only
  repeat' first
    | with_reducible first
        | apply Keeps.ite | apply Keeps.refl | assumption | apply storeOk_putV | apply storeOk_filter
        | apply modeOk_upd | apply modeOk_zero | apply Keeps.to ?_ ?_ (State.addU_keeps ..)
        | apply Keeps.to ?_ ?_ (State.setSession_keeps ..) | apply Keeps.to ?_ ?_ (State.answer_keeps ..)
        | apply heldOk_none | apply Keeps.foldS | apply Keeps.foldl | (intro _)
    | split
    | with_reducible apply Keeps.upd
    | (with_reducible apply Same.of_upd) <;> with_reducible first | exact bit_same | exact bit_in (by decide)
    | decide

theorem State.gnssFrame_keeps (s : State) (gck : List (Nat × Rat)) :
    Keeps 0x1800228 s (State.gnssFrame s gck) := by
  unfold State.gnssFrame
  try dsimp only
  repeat' first
    | with_reducible first
        | apply Keeps.ite | apply Keeps.refl | assumption | apply storeOk_putV | apply storeOk_filter
        | apply modeOk_upd | apply modeOk_zero | apply Keeps.to ?_ ?_ (State.publish_keeps ..)
        | apply Keeps.to ?_ ?_ (State.note_keeps ..) | apply Keeps.to ?_ ?_ (State.setGn_keeps ..)
        | apply Keeps.to ?_ ?_ (State.clockCapture_keeps ..) | apply Keeps.to ?_ ?_ (State.jamCalm_keeps ..)
        | apply heldOk_none | apply Keeps.foldS | apply Keeps.foldl | (intro _)
    | split
    | with_reducible apply Keeps.upd
    | (with_reducible apply Same.of_upd) <;> with_reducible first | exact bit_same | exact bit_in (by decide)
    | decide

theorem execGnssPortFault_keeps (p t : Nat) (clock : Bool) (hz duty : Rat) (s : State) :
    outKeeps 0x880024c s (execGnssPortFault p t clock hz duty s) := by
  unfold execGnssPortFault
  try dsimp only
  repeat' first
    | with_reducible first
        | apply outKeeps_ite | apply outKeeps.next | apply Keeps.ite | apply Keeps.refl | assumption
        | apply storeOk_putV | apply storeOk_filter | apply modeOk_upd | apply modeOk_zero
        | apply Keeps.to ?_ ?_ (State.at'_keeps ..) | apply Keeps.to ?_ ?_ (State.portReading_keeps ..)
        | apply Keeps.foldS | apply Keeps.foldl | (intro _)
    | split
    | with_reducible apply Keeps.upd
    | (with_reducible apply Same.of_upd) <;> with_reducible first | exact bit_same | exact bit_in (by decide)
    | decide

theorem execGnssPortFaultClear_keeps (p t : Nat) (s : State) :
    outKeeps 0x8800044 s (execGnssPortFaultClear p t s) := by
  unfold execGnssPortFaultClear
  try dsimp only
  repeat' first
    | with_reducible first
        | apply outKeeps_ite | apply outKeeps.next | apply Keeps.ite | apply Keeps.refl | assumption
        | apply storeOk_putV | apply storeOk_filter | apply modeOk_upd | apply modeOk_zero
        | apply Keeps.to ?_ ?_ (State.at'_keeps ..) | apply Keeps.to ?_ ?_ (State.portClear_keeps ..)
        | apply heldOk_none | apply Keeps.foldS | apply Keeps.foldl | (intro _)
    | split
    | with_reducible apply Keeps.upd
    | (with_reducible apply Same.of_upd) <;> with_reducible first | exact bit_same | exact bit_in (by decide)
    | decide

theorem execFrontEndEnable_keeps (g : Nat) (s : State) :
    outKeeps 0x800000 s (execFrontEndEnable g s) := by
  unfold execFrontEndEnable
  try dsimp only
  repeat' first
    | with_reducible first
        | apply outKeeps_ite | apply outKeeps.next | apply Keeps.ite | apply Keeps.refl | assumption
        | apply storeOk_putV | apply storeOk_filter | apply modeOk_upd | apply modeOk_zero
        | apply Keeps.to ?_ ?_ (State.feEnable_keeps ..) | apply Keeps.foldS | apply Keeps.foldl | (intro _)
    | split
    | with_reducible apply Keeps.upd
    | (with_reducible apply Same.of_upd) <;> with_reducible first | exact bit_same | exact bit_in (by decide)
    | decide

theorem execFrontEndScriptRun_keeps (t : Nat) (reads : List Nat) (s : State) :
    outKeeps 0x880024c s (execFrontEndScriptRun t reads s) := by
  unfold execFrontEndScriptRun
  try dsimp only
  repeat' first
    | with_reducible first
        | apply outKeeps_ite | apply outKeeps.next | apply Keeps.ite | apply Keeps.refl | assumption
        | apply storeOk_putV | apply storeOk_filter | apply modeOk_upd | apply modeOk_zero
        | apply Keeps.to ?_ ?_ (State.at'_keeps ..) | apply Keeps.to ?_ ?_ (State.scriptRun_keeps ..)
        | apply heldOk_none | apply Keeps.foldS | apply Keeps.foldl | (intro _)
    | split
    | with_reducible apply Keeps.upd
    | (with_reducible apply Same.of_upd) <;> with_reducible first | exact bit_same | exact bit_in (by decide)
    | decide

theorem execFrontEndAttention_keeps (t : Nat) (reads : List Nat) (s : State) :
    outKeeps 0x880024c s (execFrontEndAttention t reads s) := by
  unfold execFrontEndAttention
  try dsimp only
  repeat' first
    | with_reducible first
        | apply outKeeps_ite | apply outKeeps.next | apply Keeps.ite | apply Keeps.refl | assumption
        | apply storeOk_putV | apply storeOk_filter | apply modeOk_upd | apply modeOk_zero
        | apply Keeps.to ?_ ?_ (State.at'_keeps ..) | apply Keeps.to ?_ ?_ (State.scriptRun_keeps ..)
        | apply Keeps.foldS | apply Keeps.foldl | (intro _)
    | split
    | with_reducible apply Keeps.upd
    | (with_reducible apply Same.of_upd) <;> with_reducible first | exact bit_same | exact bit_in (by decide)
    | decide

theorem execFrontEndScriptRetry_keeps (t : Nat) (reads : List Nat) (s : State) :
    outKeeps 0x880024c s (execFrontEndScriptRetry t reads s) := by
  unfold execFrontEndScriptRetry
  try dsimp only
  repeat' first
    | with_reducible first
        | apply outKeeps_ite | apply outKeeps.next | apply Keeps.ite | apply Keeps.refl | assumption
        | apply storeOk_putV | apply storeOk_filter | apply modeOk_upd | apply modeOk_zero
        | apply Keeps.to ?_ ?_ (State.at'_keeps ..) | apply Keeps.to ?_ ?_ (State.scriptRun_keeps ..)
        | apply heldOk_none | apply Keeps.foldS | apply Keeps.foldl | (intro _)
    | split
    | with_reducible apply Keeps.upd
    | (with_reducible apply Same.of_upd) <;> with_reducible first | exact bit_same | exact bit_in (by decide)
    | decide

theorem execFrontEndScriptWrite_keeps (p : Path) (b : List Byte) (s : State) :
    outKeeps 0x800298 s (execFrontEndScriptWrite p b s) := by
  unfold execFrontEndScriptWrite
  try dsimp only
  repeat' first
    | with_reducible first
        | apply outKeeps_ite | apply outKeeps.next | apply Keeps.ite | apply Keeps.refl | assumption
        | apply storeOk_putV | apply storeOk_filter | apply modeOk_upd | apply modeOk_zero
        | apply Keeps.trans ?_ (State.writeWith_keeps ?_ _ ?_ ..) | apply Keeps.to ?_ ?_ (State.answer_keeps ..)
        | apply verdict_to ?_ ?_ (State.noRule_keeps ..) | apply Keeps.to ?_ ?_ (State.setGn_keeps ..)
        | apply Keeps.foldS | apply Keeps.foldl | (intro _)
    | split
    | with_reducible apply Keeps.upd
    | (with_reducible apply Same.of_upd) <;> with_reducible first | exact bit_same | exact bit_in (by decide)
    | decide

theorem execAcquisitionSearch_keeps (p sys sat sig kind t : Nat) (peak noise : Rat) (s : State) :
    outKeeps 0x800004 s (execAcquisitionSearch p sys sat sig kind t peak noise s) := by
  unfold execAcquisitionSearch
  try dsimp only
  repeat' first
    | with_reducible first
        | apply outKeeps_ite | apply outKeeps.next | apply Keeps.ite | apply Keeps.refl | assumption
        | apply storeOk_putV | apply storeOk_filter | apply modeOk_upd | apply modeOk_zero
        | apply Keeps.to ?_ ?_ (State.at'_keeps ..) | apply Keeps.to ?_ ?_ (State.detection_keeps ..)
        | apply Keeps.foldS | apply Keeps.foldl | (intro _)
    | split
    | with_reducible apply Keeps.upd
    | (with_reducible apply Same.of_upd) <;> with_reducible first | exact bit_same | exact bit_in (by decide)
    | decide

theorem execAcquisitionLockTimeout_keeps (p sys sat sig t : Nat) (s : State) :
    outKeeps 0x800004 s (execAcquisitionLockTimeout p sys sat sig t s) := by
  unfold execAcquisitionLockTimeout
  try dsimp only
  repeat' first
    | with_reducible first
        | apply outKeeps_ite | apply outKeeps.next | apply Keeps.ite | apply Keeps.refl | assumption
        | apply storeOk_putV | apply storeOk_filter | apply modeOk_upd | apply modeOk_zero
        | apply Keeps.to ?_ ?_ (State.at'_keeps ..) | apply Keeps.to ?_ ?_ (State.setGn_keeps ..)
        | apply Keeps.foldS | apply Keeps.foldl | (intro _)
    | split
    | with_reducible apply Keeps.upd
    | (with_reducible apply Same.of_upd) <;> with_reducible first | exact bit_same | exact bit_in (by decide)
    | decide

theorem execChannelFade_keeps (c t cn0 : Nat) (s : State) :
    outKeeps 0x800004 s (execChannelFade c t cn0 s) := by
  unfold execChannelFade
  try dsimp only
  repeat' first
    | with_reducible first
        | apply outKeeps_ite | apply outKeeps.next | apply Keeps.ite | apply Keeps.refl | assumption
        | apply storeOk_putV | apply storeOk_filter | apply modeOk_upd | apply modeOk_zero
        | apply Keeps.to ?_ ?_ (State.at'_keeps ..) | apply Keeps.to ?_ ?_ (State.setGchan_keeps ..)
        | apply heldOk_none | apply Keeps.foldS | apply Keeps.foldl | (intro _)
    | split
    | with_reducible apply Keeps.upd
    | (with_reducible apply Same.of_upd) <;> with_reducible first | exact bit_same | exact bit_in (by decide)
    | decide

theorem execCoastExpiry_keeps (c t : Nat) (s : State) :
    outKeeps 0x80000c s (execCoastExpiry c t s) := by
  unfold execCoastExpiry
  try dsimp only
  repeat' first
    | with_reducible first
        | apply outKeeps_ite | apply outKeeps.next | apply Keeps.ite | apply Keeps.refl | assumption
        | apply storeOk_putV | apply storeOk_filter | apply modeOk_upd | apply modeOk_zero
        | apply Keeps.to ?_ ?_ (State.incU_keeps ..) | apply Keeps.to ?_ ?_ (State.at'_keeps ..)
        | apply Keeps.to ?_ ?_ (State.setGn_keeps ..) | apply heldOk_none | apply Keeps.foldS | apply Keeps.foldl
        | (intro _)
    | split
    | with_reducible apply Keeps.upd
    | (with_reducible apply Same.of_upd) <;> with_reducible first | exact bit_same | exact bit_in (by decide)
    | decide

theorem execSidePeakCheck_keeps (c : Nat) (ve pr vl : Rat) (s : State) :
    outKeeps 0x800000 s (execSidePeakCheck c ve pr vl s) := by
  unfold execSidePeakCheck
  try dsimp only
  repeat' first
    | with_reducible first
        | apply outKeeps_ite | apply outKeeps.next | apply Keeps.ite | apply Keeps.refl | assumption
        | apply storeOk_putV | apply storeOk_filter | apply modeOk_upd | apply modeOk_zero
        | apply Keeps.to ?_ ?_ (State.sidePeak_keeps ..) | apply heldOk_none | apply Keeps.foldS | apply Keeps.foldl
        | (intro _)
    | split
    | with_reducible apply Keeps.upd
    | (with_reducible apply Same.of_upd) <;> with_reducible first | exact bit_same | exact bit_in (by decide)
    | decide

theorem execMeasurementEpoch_keeps (m : GEpoch) (s : State) :
    outKeeps 0x880826c s (execMeasurementEpoch m s) := by
  unfold execMeasurementEpoch
  try dsimp only
  repeat' first
    | with_reducible first
        | apply outKeeps_ite | apply outKeeps.next | apply Keeps.ite | apply Keeps.refl | assumption
        | apply storeOk_putV | apply storeOk_filter | apply modeOk_upd | apply modeOk_zero
        | apply Keeps.to ?_ ?_ (State.at'_keeps ..) | apply Keeps.to ?_ ?_ (State.measurementEpoch_keeps ..)
        | apply Keeps.foldS | apply Keeps.foldl | (intro _)
    | split
    | with_reducible apply Keeps.upd
    | (with_reducible apply Same.of_upd) <;> with_reducible first | exact bit_same | exact bit_in (by decide)
    | decide

theorem execJamming_keeps (g t : Nat) (s : State) :
    outKeeps 0x880024c s (execJamming g t s) := by
  unfold execJamming
  try dsimp only
  repeat' first
    | with_reducible first
        | apply outKeeps_ite | apply outKeeps.next | apply Keeps.ite | apply Keeps.refl | assumption
        | apply storeOk_putV | apply storeOk_filter | apply modeOk_upd | apply modeOk_zero
        | apply Keeps.to ?_ ?_ (State.at'_keeps ..) | apply Keeps.to ?_ ?_ (State.jamming_keeps ..)
        | apply Keeps.foldS | apply Keeps.foldl | (intro _)
    | split
    | with_reducible apply Keeps.upd
    | (with_reducible apply Same.of_upd) <;> with_reducible first | exact bit_same | exact bit_in (by decide)
    | decide

theorem execJammingEnded_keeps (g t : Nat) (s : State) :
    outKeeps 0x880024c s (execJammingEnded g t s) := by
  unfold execJammingEnded
  try dsimp only
  repeat' first
    | with_reducible first
        | apply outKeeps_ite | apply outKeeps.next | apply Keeps.ite | apply Keeps.refl | assumption
        | apply storeOk_putV | apply storeOk_filter | apply modeOk_upd | apply modeOk_zero
        | apply Keeps.to ?_ ?_ (State.at'_keeps ..) | apply Keeps.to ?_ ?_ (State.jammingEnds_keeps ..)
        | apply heldOk_none | apply Keeps.foldS | apply Keeps.foldl | (intro _)
    | split
    | with_reducible apply Keeps.upd
    | (with_reducible apply Same.of_upd) <;> with_reducible first | exact bit_same | exact bit_in (by decide)
    | decide

theorem execSnapshotArchive_keeps (k : Nat) (s : State) :
    outKeeps 0x800208 s (execSnapshotArchive k s) := by
  unfold execSnapshotArchive
  try dsimp only
  repeat' first
    | with_reducible first
        | apply outKeeps_ite | apply outKeeps.next | apply Keeps.ite | apply Keeps.refl | assumption
        | apply storeOk_putV | apply storeOk_filter | apply modeOk_upd | apply modeOk_zero
        | apply Keeps.to ?_ ?_ (State.archiveSlot_keeps ..) | apply heldOk_none | apply Keeps.foldS
        | apply Keeps.foldl | (intro _)
    | split
    | with_reducible apply Keeps.upd
    | (with_reducible apply Same.of_upd) <;> with_reducible first | exact bit_same | exact bit_in (by decide)
    | decide

theorem execTimeOffer_keeps (t : Nat) (s : State) :
    outKeeps 0x800004 s (execTimeOffer t s) := by
  unfold execTimeOffer
  try dsimp only
  repeat' first
    | with_reducible first
        | apply outKeeps_ite | apply outKeeps.next | apply Keeps.ite | apply Keeps.refl | assumption
        | apply storeOk_putV | apply storeOk_filter | apply modeOk_upd | apply modeOk_zero
        | apply Keeps.to ?_ ?_ (State.at'_keeps ..) | apply Keeps.to ?_ ?_ (State.setGn_keeps ..)
        | apply heldOk_none | apply Keeps.foldS | apply Keeps.foldl | (intro _)
    | split
    | with_reducible apply Keeps.upd
    | (with_reducible apply Same.of_upd) <;> with_reducible first | exact bit_same | exact bit_in (by decide)
    | decide

theorem execNavigationMessage_keeps (r : NavRec) (utc : Option (Int × Option (Nat × Int))) (s : State) :
    outKeeps 0x1800000 s (execNavigationMessage r utc s) := by
  unfold execNavigationMessage
  try dsimp only
  repeat' first
    | with_reducible first
        | apply outKeeps_ite | apply outKeeps.next | apply Keeps.ite | apply Keeps.refl | assumption
        | apply storeOk_putV | apply storeOk_filter | apply modeOk_upd | apply modeOk_zero
        | apply Keeps.to ?_ ?_ (State.navMessage_keeps ..) | apply Keeps.foldS | apply Keeps.foldl | (intro _)
    | split
    | with_reducible apply Keeps.upd
    | (with_reducible apply Same.of_upd) <;> with_reducible first | exact bit_same | exact bit_in (by decide)
    | decide

theorem execLossAidedSearch_keeps (t : Nat) (s : State) :
    outKeeps 0x800004 s (execLossAidedSearch t s) := by
  unfold execLossAidedSearch
  try dsimp only
  repeat' first
    | with_reducible first
        | apply outKeeps_ite | apply outKeeps.next | apply Keeps.ite | apply Keeps.refl | assumption
        | apply storeOk_putV | apply storeOk_filter | apply modeOk_upd | apply modeOk_zero
        | apply Keeps.to ?_ ?_ (State.at'_keeps ..) | apply Keeps.to ?_ ?_ (State.setGn_keeps ..)
        | apply heldOk_none | apply Keeps.foldS | apply Keeps.foldl | (intro _)
    | split
    | with_reducible apply Keeps.upd
    | (with_reducible apply Same.of_upd) <;> with_reducible first | exact bit_same | exact bit_in (by decide)
    | decide

theorem execDormancyGnssCheck_keeps (t : Nat) (pos : Option (Int × Int × Rat)) (s : State) :
    outKeeps 0x80020c s (execDormancyGnssCheck t pos s) := by
  unfold execDormancyGnssCheck
  try dsimp only
  repeat' first
    | with_reducible first
        | apply outKeeps_ite | apply outKeeps.next | apply Keeps.ite | apply Keeps.refl | assumption
        | apply storeOk_putV | apply storeOk_filter | apply modeOk_upd | apply modeOk_zero
        | apply Keeps.to ?_ ?_ (State.at'_keeps ..) | apply Keeps.to ?_ ?_ (State.note_keeps ..)
        | apply Keeps.to ?_ ?_ (State.setGn_keeps ..) | apply Keeps.to ?_ ?_ (State.capture_keeps ..)
        | apply Keeps.foldS | apply Keeps.foldl | (intro _)
    | split
    | with_reducible apply Keeps.upd
    | (with_reducible apply Same.of_upd) <;> with_reducible first | exact bit_same | exact bit_in (by decide)
    | decide

theorem execSpoofingClear_keeps (p : Path) (b : List Byte) (s : State) :
    outKeeps 0x800298 s (execSpoofingClear p b s) := by
  unfold execSpoofingClear
  try dsimp only
  repeat' first
    | with_reducible first
        | apply outKeeps_ite | apply outKeeps.next | apply Keeps.ite | apply Keeps.refl | assumption
        | apply storeOk_putV | apply storeOk_filter | apply modeOk_upd | apply modeOk_zero
        | apply Keeps.trans ?_ (State.writeWith_keeps ?_ _ ?_ ..) | apply verdict_to ?_ ?_ (State.ruleGnss_keeps ..)
        | apply Keeps.foldS | apply Keeps.foldl | (intro _)
    | split
    | with_reducible apply Keeps.upd
    | (with_reducible apply Same.of_upd) <;> with_reducible first | exact bit_same | exact bit_in (by decide)
    | decide

theorem execSnapshotCaptureCommand_keeps (p : Path) (b : List Byte) (s : State) :
    outKeeps 0x800298 s (execSnapshotCaptureCommand p b s) := by
  unfold execSnapshotCaptureCommand
  try dsimp only
  repeat' first
    | with_reducible first
        | apply outKeeps_ite | apply outKeeps.next | apply Keeps.ite | apply Keeps.refl | assumption
        | apply storeOk_putV | apply storeOk_filter | apply modeOk_upd | apply modeOk_zero
        | apply Keeps.trans ?_ (State.writeWith_keeps ?_ _ ?_ ..) | apply verdict_to ?_ ?_ (State.ruleGnss_keeps ..)
        | apply Keeps.foldS | apply Keeps.foldl | (intro _)
    | split
    | with_reducible apply Keeps.upd
    | (with_reducible apply Same.of_upd) <;> with_reducible first | exact bit_same | exact bit_in (by decide)
    | decide

theorem execArchiveSelected_keeps (p : Path) (b : List Byte) (s : State) :
    outKeeps 0x800298 s (execArchiveSelected p b s) := by
  unfold execArchiveSelected
  try dsimp only
  repeat' first
    | with_reducible first
        | apply outKeeps_ite | apply outKeeps.next | apply Keeps.ite | apply Keeps.refl | assumption
        | apply storeOk_putV | apply storeOk_filter | apply modeOk_upd | apply modeOk_zero
        | apply Keeps.trans ?_ (State.writeWith_keeps ?_ _ ?_ ..) | apply verdict_to ?_ ?_ (State.ruleGnss_keeps ..)
        | apply Keeps.foldS | apply Keeps.foldl | (intro _)
    | split
    | with_reducible apply Keeps.upd
    | (with_reducible apply Same.of_upd) <;> with_reducible first | exact bit_same | exact bit_in (by decide)
    | decide

theorem execKeepSelected_keeps (p : Path) (b : List Byte) (s : State) :
    outKeeps 0x800298 s (execKeepSelected p b s) := by
  unfold execKeepSelected
  try dsimp only
  repeat' first
    | with_reducible first
        | apply outKeeps_ite | apply outKeeps.next | apply Keeps.ite | apply Keeps.refl | assumption
        | apply storeOk_putV | apply storeOk_filter | apply modeOk_upd | apply modeOk_zero
        | apply Keeps.trans ?_ (State.writeWith_keeps ?_ _ ?_ ..) | apply verdict_to ?_ ?_ (State.ruleGnss_keeps ..)
        | apply Keeps.foldS | apply Keeps.foldl | (intro _)
    | split
    | with_reducible apply Keeps.upd
    | (with_reducible apply Same.of_upd) <;> with_reducible first | exact bit_same | exact bit_in (by decide)
    | decide

theorem execNavigationRecordsRead_keeps (p : Path) (s : State) :
    outKeeps 0x88 s (execNavigationRecordsRead p s) := by
  unfold execNavigationRecordsRead
  try dsimp only
  repeat' first
    | with_reducible first
        | apply outKeeps_ite | apply outKeeps.next | apply Keeps.ite | apply Keeps.refl | assumption
        | apply storeOk_putV | apply storeOk_filter | apply modeOk_upd | apply modeOk_zero
        | apply Keeps.to ?_ ?_ (State.navRead_keeps ..) | apply Keeps.foldS | apply Keeps.foldl | (intro _)
    | split
    | with_reducible apply Keeps.upd
    | (with_reducible apply Same.of_upd) <;> with_reducible first | exact bit_same | exact bit_in (by decide)
    | decide

end Sys2Proof.Machine
end

