-- ==== Sys2Proof/Laws/KeepPanicle.lean ====
section
/-! SUPPORT. What the operations of Machine/Panicle.lean keep (Laws/Keeps.lean). -/
namespace Sys2Proof.Machine

theorem State.setPan_keeps (s : State) (p : Panicle) :
    Keeps 0x2000000 s (State.setPan s p) := by
  unfold State.setPan
  try dsimp only
  repeat' first
    | with_reducible first
        | apply Keeps.ite | apply Keeps.refl | assumption | apply storeOk_putV | apply storeOk_filter
        | apply modeOk_upd | apply modeOk_zero | apply Keeps.foldS | apply Keeps.foldl | (intro _)
    | split
    | with_reducible apply Keeps.upd
    | (with_reducible apply Same.of_upd) <;> with_reducible first | exact bit_same | exact bit_in (by decide)
    | decide

theorem State.dropForces_keeps (s : State) (keep : Force → Bool) :
    Keeps 0x2000218 s (State.dropForces s keep) := by
  unfold State.dropForces
  try dsimp only
  repeat' first
    | with_reducible first
        | apply Keeps.ite | apply Keeps.refl | assumption | apply storeOk_putV | apply storeOk_filter
        | apply modeOk_upd | apply modeOk_zero | apply Keeps.to ?_ ?_ (State.putBoth_keeps ..)
        | apply Keeps.to ?_ ?_ (State.incU_keeps ..) | apply Keeps.to ?_ ?_ (State.note_keeps ..)
        | apply Keeps.to ?_ ?_ (State.setPan_keeps ..) | apply Keeps.ofId | apply Keeps.foldS | apply Keeps.foldl
        | (intro _)
    | split
    | with_reducible apply Keeps.upd
    | (with_reducible apply Same.of_upd) <;> with_reducible first | exact bit_same | exact bit_in (by decide)
    | decide

theorem State.applyForces_keeps (s : State) :
    Keeps 0x2000218 s (State.applyForces s) := by
  unfold State.applyForces
  try dsimp only
  repeat' first
    | with_reducible first
        | apply Keeps.ite | apply Keeps.refl | assumption | apply storeOk_putV | apply storeOk_filter
        | apply modeOk_upd | apply modeOk_zero | apply Keeps.to ?_ ?_ (State.note_keeps ..)
        | apply Keeps.to ?_ ?_ (State.setPan_keeps ..) | apply Keeps.to ?_ ?_ (State.dropForces_keeps ..)
        | apply Keeps.ofId | apply Keeps.foldS | apply Keeps.foldl | (intro _)
    | split
    | with_reducible apply Keeps.upd
    | (with_reducible apply Same.of_upd) <;> with_reducible first | exact bit_same | exact bit_in (by decide)
    | decide

theorem State.ruleForces_keeps (s : State) (x1 : Path) (x2 x3 : Nat) (v : Val) :
    Verdict.keeps 0x0 s (State.ruleForces s x1 x2 x3 v) := by
  unfold State.ruleForces
  try dsimp only
  repeat' first
    | with_reducible first
        | apply verdict_ite | apply Verdict.keeps.store | apply Verdict.keeps.refuse | apply Verdict.keeps.done
        | apply Keeps.ite | apply Keeps.refl | assumption | apply storeOk_putV | apply storeOk_filter
        | apply modeOk_upd | apply modeOk_zero | apply Keeps.foldS | apply Keeps.foldl | (intro _)
    | split
    | with_reducible apply Keeps.upd
    | (with_reducible apply Same.of_upd) <;> with_reducible first | exact bit_same | exact bit_in (by decide)
    | decide

theorem State.ruleImage_keeps (s : State) (x1 : Path) (x2 x3 : Nat) (v : Val) :
    Verdict.keeps 0x208 s (State.ruleImage s x1 x2 x3 v) := by
  unfold State.ruleImage
  try dsimp only
  repeat' first
    | with_reducible first
        | apply verdict_ite | apply Verdict.keeps.store | apply Verdict.keeps.refuse | apply Verdict.keeps.done
        | apply Keeps.ite | apply Keeps.refl | assumption | apply storeOk_putV | apply storeOk_filter
        | apply modeOk_upd | apply modeOk_zero | apply Keeps.to ?_ ?_ (State.putU_keeps ..)
        | apply Keeps.to ?_ ?_ (State.note_keeps ..) | apply Keeps.to ?_ ?_ (State.setSigned_keeps ..)
        | apply Keeps.to ?_ ?_ (State.setSigned_keepsEq (by assumption)) | apply heldOk_none | apply Keeps.foldS
        | apply Keeps.foldl | (intro _)
    | split
    | with_reducible apply Keeps.upd
    | (with_reducible apply Same.of_upd) <;> with_reducible first | exact bit_same | exact bit_in (by decide)
    | decide

theorem State.exchangeProg_keeps (s : State) :
    Keeps 0x2400298 s (State.exchangeProg s) := by
  unfold State.exchangeProg
  try dsimp only
  repeat' first
    | with_reducible first
        | apply Keeps.ite | apply Keeps.refl | assumption | apply storeOk_putV | apply storeOk_filter
        | apply modeOk_upd | apply modeOk_zero | apply Keeps.to ?_ ?_ (State.putBoth_keeps ..)
        | apply Keeps.to ?_ ?_ (State.exchange_keeps ..) | apply Keeps.to ?_ ?_ (State.note_keeps ..)
        | apply Keeps.to ?_ ?_ (State.storeKeys_keeps ..) | apply Keeps.to ?_ ?_ (State.driveDio_keeps ..)
        | apply Keeps.to ?_ ?_ (State.setPan_keeps ..) | apply Keeps.to ?_ ?_ (State.dropForces_keeps ..)
        | apply heldOk_none | apply Keeps.ofId | apply Keeps.foldS | apply Keeps.foldl | (intro _)
    | split
    | with_reducible apply Keeps.upd
    | (with_reducible apply Same.of_upd) <;> with_reducible first | exact bit_same | exact bit_in (by decide)
    | decide

theorem State.matchNow_keeps (s : State) :
    Keeps 0x2000000 s (State.matchNow s) := by
  unfold State.matchNow
  try dsimp only
  repeat' first
    | with_reducible first
        | apply Keeps.ite | apply Keeps.refl | assumption | apply storeOk_putV | apply storeOk_filter
        | apply modeOk_upd | apply modeOk_zero | apply Keeps.to ?_ ?_ (State.setPan_keeps ..) | apply heldOk_none
        | apply Keeps.foldS | apply Keeps.foldl | (intro _)
    | split
    | with_reducible apply Keeps.upd
    | (with_reducible apply Same.of_upd) <;> with_reducible first | exact bit_same | exact bit_in (by decide)
    | decide

theorem State.restartPan_keeps (s : State) (kind cause : Nat) :
    Keeps 0xa000248 s (State.restartPan s kind cause) := by
  unfold State.restartPan
  try dsimp only
  repeat' first
    | with_reducible first
        | apply Keeps.ite | apply Keeps.refl | assumption | apply storeOk_putV | apply storeOk_filter
        | apply modeOk_upd | apply modeOk_zero | apply Keeps.to ?_ ?_ (State.note_keeps ..)
        | apply Keeps.to ?_ ?_ (State.alarm_keeps ..) | apply Keeps.to ?_ ?_ (State.setPan_keeps ..)
        | apply heldOk_none | apply Keeps.ofId | apply Keeps.foldS | apply Keeps.foldl | (intro _)
    | split
    | with_reducible apply Keeps.upd
    | (with_reducible apply Same.of_upd) <;> with_reducible first | exact bit_same | exact bit_in (by decide)
    | decide

theorem State.writeRetain_keeps (s : State) :
    Keeps 0xa000040 s (State.writeRetain s) := by
  unfold State.writeRetain
  try dsimp only
  repeat' first
    | with_reducible first
        | apply Keeps.ite | apply Keeps.refl | assumption | apply storeOk_putV | apply storeOk_filter
        | apply modeOk_upd | apply modeOk_zero | apply Keeps.to ?_ ?_ (State.lower_keeps ..)
        | apply Keeps.to ?_ ?_ (State.setPan_keeps ..) | apply Keeps.to ?_ ?_ (State.matchNow_keeps ..)
        | apply heldOk_none | apply Keeps.ofId | apply Keeps.foldS | apply Keeps.foldl | (intro _)
    | split
    | with_reducible apply Keeps.upd
    | (with_reducible apply Same.of_upd) <;> with_reducible first | exact bit_same | exact bit_in (by decide)
    | decide

theorem State.inputPhase_keeps (live : State → Nat → Nat → Option Val) (s : State) :
    Keeps 0xa000248 s (State.inputPhase live s) := by
  unfold State.inputPhase
  try dsimp only
  repeat' first
    | with_reducible first
        | apply Keeps.ite | apply Keeps.refl | assumption | apply storeOk_putV | apply storeOk_filter
        | apply modeOk_upd | apply modeOk_zero | apply Keeps.to ?_ ?_ (State.setPan_keeps ..)
        | apply Keeps.to ?_ ?_ (State.restartPan_keeps ..) | apply heldOk_none | apply Keeps.foldS
        | apply Keeps.foldl | (intro _)
    | split
    | with_reducible apply Keeps.upd
    | (with_reducible apply Same.of_upd) <;> with_reducible first | exact bit_same | exact bit_in (by decide)
    | decide

theorem State.adoptPan_keeps (s : State) :
    Keeps 0x2004208 s (State.adoptPan s) := by
  unfold State.adoptPan
  try dsimp only
  repeat' first
    | with_reducible first
        | apply Keeps.ite | apply Keeps.refl | assumption | apply storeOk_putV | apply storeOk_filter
        | apply modeOk_upd | apply modeOk_zero | apply Keeps.to ?_ ?_ (State.incU_keeps ..)
        | apply Keeps.to ?_ ?_ (State.note_keeps ..) | apply Keeps.to ?_ ?_ (State.setPan_keeps ..)
        | apply heldOk_none | apply Keeps.foldS | apply Keeps.foldl | (intro _)
    | split
    | with_reducible apply Keeps.upd
    | (with_reducible apply Same.of_upd) <;> with_reducible first | exact bit_same | exact bit_in (by decide)
    | decide

theorem State.executePhase_keeps (s : State) (us : Rat) :
    Keeps 0x2004208 s (State.executePhase s us) := by
  unfold State.executePhase
  try dsimp only
  repeat' first
    | with_reducible first
        | apply Keeps.ite | apply Keeps.refl | assumption | apply storeOk_putV | apply storeOk_filter
        | apply modeOk_upd | apply modeOk_zero | apply Keeps.to ?_ ?_ (State.putU_keeps ..)
        | apply Keeps.to ?_ ?_ (State.setPan_keeps ..) | apply Keeps.to ?_ ?_ (State.matchNow_keeps ..)
        | apply Keeps.to ?_ ?_ (State.adoptPan_keeps ..) | apply heldOk_none | apply Keeps.foldS | apply Keeps.foldl
        | (intro _)
    | split
    | with_reducible apply Keeps.upd
    | (with_reducible apply Same.of_upd) <;> with_reducible first | exact bit_same | exact bit_in (by decide)
    | decide

theorem State.publishPan_keeps (s : State) :
    Keeps 0x2000028 s (State.publishPan s) := by
  unfold State.publishPan
  try dsimp only
  repeat' first
    | with_reducible first
        | apply Keeps.ite | apply Keeps.refl | assumption | apply storeOk_putV | apply storeOk_filter
        | apply modeOk_upd | apply modeOk_zero | apply Keeps.to ?_ ?_ (State.incU_keeps ..)
        | apply Keeps.to ?_ ?_ (State.publish_keeps ..) | apply Keeps.to ?_ ?_ (State.setPan_keeps ..)
        | apply Keeps.foldS | apply Keeps.foldl | (intro _)
    | split
    | with_reducible apply Keeps.upd
    | (with_reducible apply Same.of_upd) <;> with_reducible first | exact bit_same | exact bit_in (by decide)
    | decide

theorem State.panBoundary_keeps (s : State) (run image list : Bool) :
    Keeps 0x2400298 s (State.panBoundary s run image list) := by
  unfold State.panBoundary
  repeat' first
    | (extract_lets +onlyGivenNames v
       first
         | (have hv : Keeps 0x2400298 s v := by
              dsimp only [v]
              repeat' first
                | with_reducible first
                    | apply Keeps.ite | apply Keeps.refl | assumption | apply storeOk_putV | apply storeOk_filter
                    | apply modeOk_upd | apply modeOk_zero | apply Keeps.to ?_ ?_ (State.exchange_keeps ..)
                    | apply Keeps.to ?_ ?_ (State.setPan_keeps ..) | apply Keeps.to ?_ ?_ (State.applyForces_keeps ..)
                    | apply Keeps.to ?_ ?_ (State.exchangeProg_keeps ..) | apply Keeps.foldS | apply Keeps.foldl
                        | (intro _)
                | split
                | with_reducible apply Keeps.upd
                | (with_reducible apply Same.of_upd) <;> with_reducible first | exact bit_same | exact bit_in (by decide)
                | decide
            clear_value v)
         | clear_value v)
    | first
      | with_reducible first
          | apply Keeps.ite | apply Keeps.refl | assumption | apply storeOk_putV | apply storeOk_filter
          | apply modeOk_upd | apply modeOk_zero | apply Keeps.to ?_ ?_ (State.exchange_keeps ..)
          | apply Keeps.to ?_ ?_ (State.setPan_keeps ..) | apply Keeps.to ?_ ?_ (State.applyForces_keeps ..)
          | apply Keeps.to ?_ ?_ (State.exchangeProg_keeps ..) | apply Keeps.foldS | apply Keeps.foldl | (intro _)
      | split
      | with_reducible apply Keeps.upd
      | (with_reducible apply Same.of_upd) <;> with_reducible first | exact bit_same | exact bit_in (by decide)
      | decide

theorem execPanicleExecutePhase_keeps (us : Rat) (s : State) :
    outKeeps 0xa005248 s (execPanicleExecutePhase us s) := by
  unfold execPanicleExecutePhase
  try dsimp only
  repeat' first
    | with_reducible first
        | apply outKeeps_ite | apply outKeeps.next | apply Keeps.ite | apply Keeps.refl | assumption
        | apply storeOk_putV | apply storeOk_filter | apply modeOk_upd | apply modeOk_zero
        | apply Keeps.to ?_ ?_ (State.probe_keeps ..) | apply Keeps.to ?_ ?_ (State.executePhase_keeps ..)
        | apply Keeps.foldS | apply Keeps.foldl | (intro _)
    | split
    | with_reducible apply Keeps.upd
    | (with_reducible apply Same.of_upd) <;> with_reducible first | exact bit_same | exact bit_in (by decide)
    | decide

theorem execPanicleScanOverrun_keeps (s : State) :
    outKeeps 0xa002248 s (execPanicleScanOverrun s) := by
  unfold execPanicleScanOverrun
  try dsimp only
  repeat' first
    | with_reducible first
        | apply outKeeps_ite | apply outKeeps.next | apply Keeps.ite | apply Keeps.refl | assumption
        | apply storeOk_putV | apply storeOk_filter | apply modeOk_upd | apply modeOk_zero
        | apply Keeps.to ?_ ?_ (State.record_keeps ..) | apply Keeps.to ?_ ?_ (State.unitStop_keeps ..)
        | apply Keeps.to ?_ ?_ (State.setPan_keeps ..) | apply Keeps.foldS | apply Keeps.foldl | (intro _)
    | split
    | with_reducible apply Keeps.upd
    | (with_reducible apply Same.of_upd) <;> with_reducible first | exact bit_same | exact bit_in (by decide)
    | decide

theorem execPanicleRetainWrite_keeps (t : Nat) (s : State) :
    outKeeps 0xa000044 s (execPanicleRetainWrite t s) := by
  unfold execPanicleRetainWrite
  try dsimp only
  repeat' first
    | with_reducible first
        | apply outKeeps_ite | apply outKeeps.next | apply Keeps.ite | apply Keeps.refl | assumption
        | apply storeOk_putV | apply storeOk_filter | apply modeOk_upd | apply modeOk_zero
        | apply Keeps.to ?_ ?_ (State.at'_keeps ..) | apply Keeps.to ?_ ?_ (State.writeRetain_keeps ..)
        | apply Keeps.foldS | apply Keeps.foldl | (intro _)
    | split
    | with_reducible apply Keeps.upd
    | (with_reducible apply Same.of_upd) <;> with_reducible first | exact bit_same | exact bit_in (by decide)
    | decide

theorem execProgramImageLoad_keeps (p : Path) (b : List Byte) (s : State) :
    outKeeps 0x298 s (execProgramImageLoad p b s) := by
  unfold execProgramImageLoad
  try dsimp only
  repeat' first
    | with_reducible first
        | apply outKeeps_ite | apply outKeeps.next | apply Keeps.ite | apply Keeps.refl | assumption
        | apply storeOk_putV | apply storeOk_filter | apply modeOk_upd | apply modeOk_zero
        | apply Keeps.trans ?_ (State.writeWith_keeps ?_ _ ?_ ..) | apply Keeps.to ?_ ?_ (State.note_keeps ..)
        | apply Keeps.to ?_ ?_ (State.answer_keeps ..) | apply verdict_to ?_ ?_ (State.ruleImage_keeps ..)
        | apply Keeps.foldS | apply Keeps.foldl | (intro _)
    | split
    | with_reducible apply Keeps.upd
    | (with_reducible apply Same.of_upd) <;> with_reducible first | exact bit_same | exact bit_in (by decide)
    | decide

theorem State.ruleRestart_keeps (s : State) (x1 : Path) (idx sub : Nat) (v : Val) :
    Verdict.keeps 0x80 s (State.ruleRestart s x1 idx sub v) := by
  unfold State.ruleRestart
  try dsimp only
  repeat' first
    | with_reducible first
        | apply verdict_ite | apply Verdict.keeps.store | apply Verdict.keeps.refuse | apply Verdict.keeps.done
        | apply Keeps.ite | apply Keeps.refl | assumption | apply storeOk_putV | apply storeOk_filter
        | apply modeOk_upd | apply modeOk_zero | apply Keeps.to ?_ ?_ (State.acceptAction_keeps ..)
        | apply Keeps.foldS | apply Keeps.foldl | (intro _)
    | split
    | with_reducible apply Keeps.upd
    | (with_reducible apply Same.of_upd) <;> with_reducible first | exact bit_same | exact bit_in (by decide)
    | decide

theorem execPanicleRestartWarm_keeps (p : Path) (s : State) :
    outKeeps 0x298 s (execPanicleRestartWarm p s) := by
  unfold execPanicleRestartWarm
  try dsimp only
  repeat' first
    | with_reducible first
        | apply outKeeps_ite | apply outKeeps.next | apply Keeps.ite | apply Keeps.refl | assumption
        | apply storeOk_putV | apply storeOk_filter | apply modeOk_upd | apply modeOk_zero
        | apply Keeps.trans ?_ (State.writeWith_keeps ?_ _ ?_ ..)
        | apply verdict_to ?_ ?_ (State.ruleRestart_keeps ..) | apply Keeps.foldS | apply Keeps.foldl | (intro _)
    | split
    | with_reducible apply Keeps.upd
    | (with_reducible apply Same.of_upd) <;> with_reducible first | exact bit_same | exact bit_in (by decide)
    | decide

theorem execPanicleRestartCold_keeps (p : Path) (s : State) :
    outKeeps 0x298 s (execPanicleRestartCold p s) := by
  unfold execPanicleRestartCold
  try dsimp only
  repeat' first
    | with_reducible first
        | apply outKeeps_ite | apply outKeeps.next | apply Keeps.ite | apply Keeps.refl | assumption
        | apply storeOk_putV | apply storeOk_filter | apply modeOk_upd | apply modeOk_zero
        | apply Keeps.trans ?_ (State.writeWith_keeps ?_ _ ?_ ..)
        | apply verdict_to ?_ ?_ (State.ruleRestart_keeps ..) | apply Keeps.foldS | apply Keeps.foldl | (intro _)
    | split
    | with_reducible apply Keeps.upd
    | (with_reducible apply Same.of_upd) <;> with_reducible first | exact bit_same | exact bit_in (by decide)
    | decide

theorem execPanicleRunWrite_keeps (p : Path) (b : List Byte) (s : State) :
    outKeeps 0x298 s (execPanicleRunWrite p b s) := by
  unfold execPanicleRunWrite
  try dsimp only
  repeat' first
    | with_reducible first
        | apply outKeeps_ite | apply outKeeps.next | apply Keeps.ite | apply Keeps.refl | assumption
        | apply storeOk_putV | apply storeOk_filter | apply modeOk_upd | apply modeOk_zero
        | apply Keeps.trans ?_ (State.writeWith_keeps ?_ _ ?_ ..) | apply verdict_to ?_ ?_ (State.noRule_keeps ..)
        | apply Keeps.foldS | apply Keeps.foldl | (intro _)
    | split
    | with_reducible apply Keeps.upd
    | (with_reducible apply Same.of_upd) <;> with_reducible first | exact bit_same | exact bit_in (by decide)
    | decide

theorem execScanLengthWrite_keeps (p : Path) (b : List Byte) (s : State) :
    outKeeps 0x298 s (execScanLengthWrite p b s) := by
  unfold execScanLengthWrite
  try dsimp only
  repeat' first
    | with_reducible first
        | apply outKeeps_ite | apply outKeeps.next | apply Keeps.ite | apply Keeps.refl | assumption
        | apply storeOk_putV | apply storeOk_filter | apply modeOk_upd | apply modeOk_zero
        | apply Keeps.trans ?_ (State.writeWith_keeps ?_ _ ?_ ..) | apply verdict_to ?_ ?_ (State.noRule_keeps ..)
        | apply Keeps.foldS | apply Keeps.foldl | (intro _)
    | split
    | with_reducible apply Keeps.upd
    | (with_reducible apply Same.of_upd) <;> with_reducible first | exact bit_same | exact bit_in (by decide)
    | decide

theorem execForceListWrite_keeps (p : Path) (b : List Byte) (s : State) :
    outKeeps 0x2000298 s (execForceListWrite p b s) := by
  unfold execForceListWrite
  try dsimp only
  repeat' first
    | with_reducible first
        | apply outKeeps_ite | apply outKeeps.next | apply Keeps.ite | apply Keeps.refl | assumption
        | apply storeOk_putV | apply storeOk_filter | apply modeOk_upd | apply modeOk_zero
        | apply Keeps.trans ?_ (State.writeWith_keeps ?_ _ ?_ ..) | apply Keeps.to ?_ ?_ (State.answer_keeps ..)
        | apply Keeps.to ?_ ?_ (State.setPan_keeps ..) | apply verdict_to ?_ ?_ (State.ruleForces_keeps ..)
        | apply Keeps.foldS | apply Keeps.foldl | (intro _)
    | split
    | with_reducible apply Keeps.upd
    | (with_reducible apply Same.of_upd) <;> with_reducible first | exact bit_same | exact bit_in (by decide)
    | decide

theorem execArithmeticStickyRead_keeps (p : Path) (s : State) :
    outKeeps 0x88 s (execArithmeticStickyRead p s) := by
  unfold execArithmeticStickyRead
  try dsimp only
  repeat' first
    | with_reducible first
        | apply outKeeps_ite | apply outKeeps.next | apply Keeps.ite | apply Keeps.refl | assumption
        | apply storeOk_putV | apply storeOk_filter | apply modeOk_upd | apply modeOk_zero
        | apply Keeps.to ?_ ?_ (State.putU_keeps ..) | apply Keeps.to ?_ ?_ (State.answer_keeps ..)
        | apply Keeps.to ?_ ?_ (State.readWith_keeps ..) | apply heldOk_none | apply Keeps.foldS | apply Keeps.foldl
        | (intro _)
    | split
    | with_reducible apply Keeps.upd
    | (with_reducible apply Same.of_upd) <;> with_reducible first | exact bit_same | exact bit_in (by decide)
    | decide

end Sys2Proof.Machine
end

