-- ==== Sys2Proof/Laws/KeepHalur.lean ====
section
/-! SUPPORT. What the operations of Machine/Halur.lean keep (Laws/Keeps.lean). -/
namespace Sys2Proof.Machine

theorem State.setUnit_keeps (s : State) (u : Nat) (p : Partner) :
    Keeps 0x4000 s (State.setUnit s u p) := by
  unfold State.setUnit
  try dsimp only
  repeat' first
    | with_reducible first
        | apply Keeps.ite | apply Keeps.refl | assumption | apply storeOk_putV | apply storeOk_filter
        | apply modeOk_upd | apply modeOk_zero | apply Keeps.foldS | apply Keeps.foldl | (intro _)
    | split
    | with_reducible apply Keeps.upd
    | (with_reducible apply Same.of_upd) <;> with_reducible first | exact bit_same | exact bit_in (by decide)
    | decide

theorem State.setHal_keeps (s : State) (h : Halur) :
    Keeps 0x4000 s (State.setHal s h) := by
  unfold State.setHal
  try dsimp only
  repeat' first
    | with_reducible first
        | apply Keeps.ite | apply Keeps.refl | assumption | apply storeOk_putV | apply storeOk_filter
        | apply modeOk_upd | apply modeOk_zero | apply Keeps.foldS | apply Keeps.foldl | (intro _)
    | split
    | with_reducible apply Keeps.upd
    | (with_reducible apply Same.of_upd) <;> with_reducible first | exact bit_same | exact bit_in (by decide)
    | decide

theorem State.setMir_keeps {s : State} {m : Mirror}
    (h : s.mode.ok = true → heldOk s.mir.fullIn = true → heldOk m.fullIn = true) : Keeps 0x4000000 s (s.setMir m) :=
  Keeps.upd (t := s) (Keeps.refl _) id1 id2 id1 h (by apply Same.of_upd <;> first | exact bit_same | exact bit_in (by decide))


theorem State.setMode_keeps {s : State} {m : ModeMgr}
    (h : s.mode.ok = true → heldOk s.mir.fullIn = true → m.ok = true) : Keeps 0x100 s (s.setMode m) :=
  Keeps.upd (t := s) (Keeps.refl _) id1 id2 h id2 (by apply Same.of_upd <;> first | exact bit_same | exact bit_in (by decide))


theorem State.setRole_keeps (s : State) (r : Nat) :
    Keeps 0x2208 s (State.setRole s r) := by
  unfold State.setRole
  try dsimp only
  repeat' first
    | with_reducible first
        | apply Keeps.ite | apply Keeps.refl | assumption | apply storeOk_putV | apply storeOk_filter
        | apply modeOk_upd | apply modeOk_zero | apply Keeps.to ?_ ?_ (State.note_keeps ..) | apply Keeps.foldS
        | apply Keeps.foldl | (intro _)
    | split
    | with_reducible apply Keeps.upd
    | (with_reducible apply Same.of_upd) <;> with_reducible first | exact bit_same | exact bit_in (by decide)
    | decide

theorem State.setEpoch_keeps (s : State) (e : Nat) :
    Keeps 0x98 s (State.setEpoch s e) := by
  unfold State.setEpoch
  try dsimp only
  repeat' first
    | with_reducible first
        | apply Keeps.ite | apply Keeps.refl | assumption | apply storeOk_putV | apply storeOk_filter
        | apply modeOk_upd | apply modeOk_zero | apply Keeps.to ?_ ?_ (State.putBoth_keeps ..)
        | apply Keeps.to ?_ ?_ (State.storeKeys_keeps ..) | apply Keeps.foldS | apply Keeps.foldl | (intro _)
    | split
    | with_reducible apply Keeps.upd
    | (with_reducible apply Same.of_upd) <;> with_reducible first | exact bit_same | exact bit_in (by decide)
    | decide

theorem State.leaveRole_keeps (s : State) :
    Keeps 0x6208 s (State.leaveRole s) := by
  unfold State.leaveRole
  try dsimp only
  repeat' first
    | with_reducible first
        | apply Keeps.ite | apply Keeps.refl | assumption | apply storeOk_putV | apply storeOk_filter
        | apply modeOk_upd | apply modeOk_zero | apply Keeps.to ?_ ?_ (State.setHal_keeps ..)
        | apply Keeps.to ?_ ?_ (State.setRole_keeps ..) | apply Keeps.foldS | apply Keeps.foldl | (intro _)
    | split
    | with_reducible apply Keeps.upd
    | (with_reducible apply Same.of_upd) <;> with_reducible first | exact bit_same | exact bit_in (by decide)
    | decide

theorem State.toStandby_keeps (s : State) :
    Keeps 0x8040348 s (State.toStandby s) := by
  unfold State.toStandby
  try dsimp only
  repeat' first
    | with_reducible first
        | apply Keeps.ite | apply Keeps.refl | assumption | apply storeOk_putV | apply storeOk_filter
        | apply modeOk_upd | apply modeOk_zero | apply Keeps.to ?_ ?_ (State.putU_keeps ..)
        | apply Keeps.to ?_ ?_ (State.endBlend_keeps ..) | apply Keeps.foldS | apply Keeps.foldl | (intro _)
    | split
    | with_reducible apply Keeps.upd
    | (with_reducible apply Same.of_upd) <;> with_reducible first | exact bit_same | exact bit_in (by decide)
    | decide

theorem State.takeLead_keeps (s : State) (e last : Nat) :
    Keeps 0xd4463d8 s (State.takeLead s e last) := by
  unfold State.takeLead
  try dsimp only
  repeat' first
    | with_reducible first
        | apply Keeps.ite | apply Keeps.refl | assumption | apply storeOk_putV | apply storeOk_filter
        | apply modeOk_upd | apply modeOk_zero | apply Keeps.to ?_ ?_ (State.incU_keeps ..)
        | apply Keeps.to ?_ ?_ (State.note_keeps ..) | apply Keeps.to ?_ ?_ (State.driveDio_keeps ..)
        | apply Keeps.to ?_ ?_ (State.safeUpdate_keeps ..) | apply Keeps.to ?_ ?_ (State.reselect_keeps ..)
        | apply Keeps.to ?_ ?_ (State.setHal_keeps ..) | apply Keeps.to ?_ ?_ (State.setRole_keeps ..)
        | apply Keeps.to ?_ ?_ (State.setEpoch_keeps ..) | apply Keeps.to ?_ ?_ (State.toStandby_keeps ..)
        | apply Keeps.to ?_ ?_ (State.setMir_keeps ?_) | apply heldOk_none | apply Keeps.foldS | apply Keeps.foldl
        | (intro _)
    | split
    | with_reducible apply Keeps.upd
    | (with_reducible apply Same.of_upd) <;> with_reducible first | exact bit_same | exact bit_in (by decide)
    | decide

theorem State.withdraw_keeps (s : State) (u : Nat) :
    Keeps 0x4208 s (State.withdraw s u) := by
  unfold State.withdraw
  try dsimp only
  repeat' first
    | with_reducible first
        | apply Keeps.ite | apply Keeps.refl | assumption | apply storeOk_putV | apply storeOk_filter
        | apply modeOk_upd | apply modeOk_zero | apply Keeps.to ?_ ?_ (State.incU_keeps ..)
        | apply Keeps.to ?_ ?_ (State.note_keeps ..) | apply Keeps.to ?_ ?_ (State.setHal_keeps ..)
        | apply heldOk_none | apply Keeps.foldS | apply Keeps.foldl | (intro _)
    | split
    | with_reducible apply Keeps.upd
    | (with_reducible apply Same.of_upd) <;> with_reducible first | exact bit_same | exact bit_in (by decide)
    | decide

theorem State.twoLeads_keeps (s : State) (u e : Nat) :
    Keeps 0xc004248 s (State.twoLeads s u e) := by
  unfold State.twoLeads
  try dsimp only
  repeat' first
    | with_reducible first
        | apply Keeps.ite | apply Keeps.refl | assumption | apply storeOk_putV | apply storeOk_filter
        | apply modeOk_upd | apply modeOk_zero | apply Keeps.to ?_ ?_ (State.alarm_keeps ..)
        | apply Keeps.to ?_ ?_ (State.setHal_keeps ..) | apply Keeps.to ?_ ?_ (State.setMir_keeps ?_)
        | apply Keeps.foldS | apply Keeps.foldl | (intro _)
    | split
    | with_reducible apply Keeps.upd
    | (with_reducible apply Same.of_upd) <;> with_reducible first | exact bit_same | exact bit_in (by decide)
    | decide

theorem State.linkRestored_keeps (s : State) (h : HHead) (digest : Option Nat) :
    Keeps 0x8006248 s (State.linkRestored s h digest) := by
  unfold State.linkRestored
  try dsimp only
  repeat' first
    | with_reducible first
        | apply Keeps.ite | apply Keeps.refl | assumption | apply storeOk_putV | apply storeOk_filter
        | apply modeOk_upd | apply modeOk_zero | apply Keeps.to ?_ ?_ (State.lower_keeps ..)
        | apply Keeps.to ?_ ?_ (State.note_keeps ..) | apply Keeps.to ?_ ?_ (State.setHal_keeps ..)
        | apply Keeps.to ?_ ?_ (State.leaveRole_keeps ..) | apply heldOk_none | apply Keeps.foldS
        | apply Keeps.foldl | (intro _)
    | split
    | with_reducible apply Keeps.upd
    | (with_reducible apply Same.of_upd) <;> with_reducible first | exact bit_same | exact bit_in (by decide)
    | decide

theorem State.hear_keeps (s : State) (h : HHead) (digest : Option Nat) :
    Keeps 0xc0062d8 s (State.hear s h digest) := by
  unfold State.hear
  try dsimp only
  repeat' first
    | with_reducible first
        | apply Keeps.ite | apply Keeps.refl | assumption | apply storeOk_putV | apply storeOk_filter
        | apply modeOk_upd | apply modeOk_zero | apply Keeps.to ?_ ?_ (State.lower_keeps ..)
        | apply Keeps.to ?_ ?_ (State.direct_keeps ..) | apply Keeps.to ?_ ?_ (State.setUnit_keeps ..)
        | apply Keeps.to ?_ ?_ (State.setEpoch_keeps ..) | apply Keeps.to ?_ ?_ (State.withdraw_keeps ..)
        | apply Keeps.to ?_ ?_ (State.twoLeads_keeps ..) | apply Keeps.to ?_ ?_ (State.linkRestored_keeps ..)
        | apply heldOk_none | apply Keeps.foldS | apply Keeps.foldl | (intro _)
    | split
    | with_reducible apply Keeps.upd
    | (with_reducible apply Same.of_upd) <;> with_reducible first | exact bit_same | exact bit_in (by decide)
    | decide

theorem State.keepCopy_keeps (s : State) (h : HHead) (type : Nat) :
    Keeps 0x4000000 s (State.keepCopy s h type) := by
  unfold State.keepCopy
  try dsimp only
  repeat' first
    | with_reducible first
        | apply Keeps.ite | apply Keeps.refl | assumption | apply storeOk_putV | apply storeOk_filter
        | apply modeOk_upd | apply modeOk_zero | apply Keeps.to ?_ ?_ (State.setMir_keeps ?_) | apply Keeps.foldS
        | apply Keeps.foldl | (intro _)
    | split
    | with_reducible apply Keeps.upd
    | (with_reducible apply Same.of_upd) <;> with_reducible first | exact bit_same | exact bit_in (by decide)
    | decide

theorem State.relay_keeps (s : State) (h : HHead) (type : Nat) :
    Keeps 0x4000000 s (State.relay s h type) := by
  unfold State.relay
  try dsimp only
  repeat' first
    | with_reducible first
        | apply Keeps.ite | apply Keeps.refl | assumption | apply storeOk_putV | apply storeOk_filter
        | apply modeOk_upd | apply modeOk_zero | apply Keeps.to ?_ ?_ (State.setMir_keeps ?_) | apply Keeps.foldS
        | apply Keeps.foldl | (intro _)
    | split
    | with_reducible apply Keeps.upd
    | (with_reducible apply Same.of_upd) <;> with_reducible first | exact bit_same | exact bit_in (by decide)
    | decide

theorem State.halurIn_keeps {m : Nat} (le : 0xc0062d8 ||| m = m) {bad use : State → State} (hb : ∀ u, Keeps m u (bad u))
    (hu : ∀ u, Keeps m u (use u)) (s : State) (h : HHead) (type : Nat) (digest : Option Nat) :
    Keeps m s (State.halurIn s h type digest bad use) := by
  have sub' : ∀ {a : Nat}, a ||| 0xc0062d8 = 0xc0062d8 → a ||| m = m := fun h => by rw [← le, ← Nat.or_assoc, h]
  unfold State.halurIn
  apply Keeps.ite (Keeps.refl _)
  apply Keeps.ite (((State.incU_keeps ..).mono (sub' (by decide))).trans (hb _))
  apply Keeps.ite
  · exact Keeps.ite (Keeps.refl _)
      (Keeps.to (sub' (by decide)) (Keeps.to (sub' (by decide)) ((State.setHal_keeps ..).mono (sub' (by decide)))
        (State.alarm_keeps ..)) (State.leaveRole_keeps ..))
  · exact Keeps.ite ((State.relay_keeps ..).mono (sub' (by decide))) ((Keeps.to (sub' (by decide)) (Keeps.to (sub' (by decide))
      ((State.relay_keeps ..).mono (sub' (by decide))) (State.keepCopy_keeps ..)) (State.hear_keeps ..)).trans (hu _))


theorem State.discard_keeps (s : State) (type cond : Nat) :
    Keeps 0x4208 s (State.discard s type cond) := by
  unfold State.discard
  try dsimp only
  repeat' first
    | with_reducible first
        | apply Keeps.ite | apply Keeps.refl | assumption | apply storeOk_putV | apply storeOk_filter
        | apply modeOk_upd | apply modeOk_zero | apply Keeps.to ?_ ?_ (State.incU_keeps ..)
        | apply Keeps.to ?_ ?_ (State.note_keeps ..) | apply Keeps.to ?_ ?_ (State.setHal_keeps ..)
        | apply Keeps.foldS | apply Keeps.foldl | (intro _)
    | split
    | with_reducible apply Keeps.upd
    | (with_reducible apply Same.of_upd) <;> with_reducible first | exact bit_same | exact bit_in (by decide)
    | decide

theorem State.lastCommand_keeps (s : State) (isMode : Bool) (word : Nat) :
    Keeps 0x18 s (State.lastCommand s isMode word) := by
  unfold State.lastCommand
  try dsimp only
  repeat' first
    | with_reducible first
        | apply Keeps.ite | apply Keeps.refl | assumption | apply storeOk_putV | apply storeOk_filter
        | apply modeOk_upd | apply modeOk_zero | apply Keeps.to ?_ ?_ (State.putBoth_keeps ..) | apply Keeps.foldS
        | apply Keeps.foldl | (intro _)
    | split
    | with_reducible apply Keeps.upd
    | (with_reducible apply Same.of_upd) <;> with_reducible first | exact bit_same | exact bit_in (by decide)
    | decide

theorem State.takeFast_keeps (s : State) (f : FastLead) :
    Keeps 0x7044118 s (State.takeFast s f) := by
  unfold State.takeFast
  try dsimp only
  repeat' first
    | with_reducible first
        | apply Keeps.ite | apply Keeps.refl | assumption | apply storeOk_putV | apply storeOk_filter
        | apply modeOk_upd | apply modeOk_zero | apply Keeps.to ?_ ?_ (State.putU_keeps ..)
        | apply Keeps.to ?_ ?_ (State.setPan_keeps ..) | apply Keeps.to ?_ ?_ (State.setHal_keeps ..)
        | apply Keeps.to ?_ ?_ (State.lastCommand_keeps ..) | apply Keeps.to ?_ ?_ (State.setMir_keeps ?_)
        | apply heldOk_none | apply Keeps.foldS | apply Keeps.foldl | (intro _)
    | split
    | with_reducible apply Keeps.upd
    | (with_reducible apply Same.of_upd) <;> with_reducible first | exact bit_same | exact bit_in (by decide)
    | decide

theorem State.adoptFast_keeps (s : State) :
    Keeps 0x40000 s (State.adoptFast s) := by
  unfold State.adoptFast
  try dsimp only
  repeat' first
    | with_reducible first
        | apply Keeps.ite | apply Keeps.refl | assumption | apply storeOk_putV | apply storeOk_filter
        | apply modeOk_upd | apply modeOk_zero | apply Keeps.to ?_ ?_ (State.setInner_keeps ..)
        | apply Keeps.to ?_ ?_ (State.setPlant_keeps ..) | apply heldOk_none | apply Keeps.foldS | apply Keeps.foldl
        | (intro _)
    | split
    | with_reducible apply Keeps.upd
    | (with_reducible apply Same.of_upd) <;> with_reducible first | exact bit_same | exact bit_in (by decide)
    | decide

theorem State.formWait_keeps (s : State) (lead : Nat) :
    Keeps 0x4000000 s (State.formWait s lead) := by
  unfold State.formWait
  try dsimp only
  repeat' first
    | with_reducible first
        | apply Keeps.ite | apply Keeps.refl | assumption | apply storeOk_putV | apply storeOk_filter
        | apply modeOk_upd | apply modeOk_zero | apply Keeps.to ?_ ?_ (State.setMir_keeps ?_) | apply Keeps.foldS
        | apply Keeps.foldl | (intro _)
    | split
    | with_reducible apply Keeps.upd
    | (with_reducible apply Same.of_upd) <;> with_reducible first | exact bit_same | exact bit_in (by decide)
    | decide

theorem State.timeBlock_keeps (s : State) (h : HHead) (b : Beat) :
    Keeps 0x4004000 s (State.timeBlock s h b) := by
  unfold State.timeBlock
  try dsimp only
  repeat' first
    | with_reducible first
        | apply Keeps.ite | apply Keeps.refl | assumption | apply storeOk_putV | apply storeOk_filter
        | apply modeOk_upd | apply modeOk_zero | apply Keeps.to ?_ ?_ (State.setHal_keeps ..)
        | apply Keeps.to ?_ ?_ (State.formWait_keeps ..) | apply Keeps.to ?_ ?_ (State.setMir_keeps ?_)
        | apply heldOk_none | apply Keeps.foldS | apply Keeps.foldl | (intro _)
    | split
    | with_reducible apply Keeps.upd
    | (with_reducible apply Same.of_upd) <;> with_reducible first | exact bit_same | exact bit_in (by decide)
    | decide

theorem State.joinHears_keeps (s : State) (h : HHead) (b : Beat) :
    Keeps 0x63c6b9c s (State.joinHears s h b) := by
  unfold State.joinHears
  try dsimp only
  repeat' first
    | with_reducible first
        | apply Keeps.ite | apply Keeps.refl | assumption | apply storeOk_putV | apply storeOk_filter
        | apply modeOk_upd | apply modeOk_zero | apply Keeps.to ?_ ?_ (State.putBoth_keeps ..)
        | apply Keeps.to ?_ ?_ (State.note_keeps ..) | apply Keeps.to ?_ ?_ (State.storeKeys_keeps ..)
        | apply Keeps.to ?_ ?_ (State.shiftFrames_keeps ..) | apply Keeps.to ?_ ?_ (State.setHal_keeps ..)
        | apply Keeps.foldS | apply Keeps.foldl | (intro _)
    | split
    | with_reducible apply Keeps.upd
    | (with_reducible apply Same.of_upd) <;> with_reducible first | exact bit_same | exact bit_in (by decide)
    | decide

theorem State.takeBeat_keeps (s : State) (h : HHead) (b : Beat) :
    Keeps 0x63c6b9c s (State.takeBeat s h b) := by
  unfold State.takeBeat
  try dsimp only
  repeat' first
    | with_reducible first
        | apply Keeps.ite | apply Keeps.refl | assumption | apply storeOk_putV | apply storeOk_filter
        | apply modeOk_upd | apply modeOk_zero | apply Keeps.to ?_ ?_ (State.setUnit_keeps ..)
        | apply Keeps.to ?_ ?_ (State.timeBlock_keeps ..) | apply Keeps.to ?_ ?_ (State.joinHears_keeps ..)
        | apply Keeps.foldS | apply Keeps.foldl | (intro _)
    | split
    | with_reducible apply Keeps.upd
    | (with_reducible apply Same.of_upd) <;> with_reducible first | exact bit_same | exact bit_in (by decide)
    | decide

theorem State.fastFrame_keeps (s : State) (h : HHead) (b : Beat) (m : Option FastLead) :
    Keeps 0xf3c7bdc s (State.fastFrame s h b m) := by
  unfold State.fastFrame
  try dsimp only
  repeat' first
    | with_reducible first
        | apply Keeps.ite | apply Keeps.refl | assumption | apply storeOk_putV | apply storeOk_filter
        | apply modeOk_upd | apply modeOk_zero | apply Keeps.to ?_ ?_ (State.probe_keeps ..)
        | apply Keeps.to ?_ ?_ (State.discard_keeps ..) | apply Keeps.to ?_ ?_ (State.takeFast_keeps ..)
        | apply Keeps.to ?_ ?_ (State.takeBeat_keeps ..) | apply heldOk_none
        | apply Keeps.trans ?_ (State.halurIn_keeps ?_ ?_ ?_ ..) | apply Keeps.foldS | apply Keeps.foldl | (intro _)
    | split
    | with_reducible apply Keeps.upd
    | (with_reducible apply Same.of_upd) <;> with_reducible first | exact bit_same | exact bit_in (by decide)
    | decide

theorem State.holdReport_keeps (s : State) (h : HHead) (r : Report) :
    Keeps 0x4000 s (State.holdReport s h r) := by
  unfold State.holdReport
  try dsimp only
  repeat' first
    | with_reducible first
        | apply Keeps.ite | apply Keeps.refl | assumption | apply storeOk_putV | apply storeOk_filter
        | apply modeOk_upd | apply modeOk_zero | apply Keeps.to ?_ ?_ (State.setUnit_keeps ..) | apply Keeps.foldS
        | apply Keeps.foldl | (intro _)
    | split
    | with_reducible apply Keeps.upd
    | (with_reducible apply Same.of_upd) <;> with_reducible first | exact bit_same | exact bit_in (by decide)
    | decide

theorem State.mirrorHeld_keeps (s : State) :
    Keeps 0x8004040 s (State.mirrorHeld s) := by
  unfold State.mirrorHeld
  try dsimp only
  repeat' first
    | with_reducible first
        | apply Keeps.ite | apply Keeps.refl | assumption | apply storeOk_putV | apply storeOk_filter
        | apply modeOk_upd | apply modeOk_zero | apply Keeps.to ?_ ?_ (State.lower_keeps ..)
        | apply Keeps.to ?_ ?_ (State.setHal_keeps ..) | apply Keeps.foldS | apply Keeps.foldl | (intro _)
    | split
    | with_reducible apply Keeps.upd
    | (with_reducible apply Same.of_upd) <;> with_reducible first | exact bit_same | exact bit_in (by decide)
    | decide

theorem State.fullFrame_keeps (s : State) (h : HHead) (m : Option FullLead) (r : Report) (hm : fullOk m = true) :
    Keeps 0xc0062dc s (State.fullFrame s h m r) := by
  unfold State.fullFrame
  refine State.halurIn_keeps (by decide) (fun u => Keeps.ite ((State.discard_keeps ..).mono (by decide)) (Keeps.refl _))
    (fun u => ?_) ..
  have hr : Keeps 0xc0062dc u (u.holdReport h r) := (State.holdReport_keeps ..).mono (by decide)
  cases m with
  | none => exact Keeps.ite hr (Keeps.refl _)
  | some f =>
    have hf : f.mode.ok = true := hm
    refine Keeps.ite hr (Keeps.ite ?_ (Keeps.ite ?_ (Keeps.refl _)))
    · exact Keeps.ite ((State.discard_keeps ..).mono (by decide))
        ((hr.to (by decide) (State.mirrorHeld_keeps ..)).to (by decide) (State.setMir_keeps fun _ _ => hf))
    · have hc : Keeps 0xc0062dc u { u.holdReport h r with clk :=
          { u.clk with sample := h.sample, f0 := h.frame + 1 - u.clk.n } } :=
        Keeps.upd hr id1 id2 id1 id2 (by apply Same.of_upd <;> first | exact bit_same | exact bit_in (by decide))
      dsimp only
      generalize State.mk .. = w at hc ⊢
      split
      · exact ((hc.to (by decide) (State.mirrorHeld_keeps ..)).to (by decide) (State.setHal_keeps ..)).to (by decide)
          (State.setMir_keeps fun _ _ => hf)
      · exact hc


theorem State.commitBulk_keeps (s : State) (keys : List Nat) :
    Keeps 0x88 s (State.commitBulk s keys) := by
  unfold State.commitBulk
  try dsimp only
  repeat' first
    | with_reducible first
        | apply Keeps.ite | apply Keeps.refl | assumption | apply storeOk_putV | apply storeOk_filter
        | apply modeOk_upd | apply modeOk_zero | apply heldOk_none | apply Keeps.foldS | apply Keeps.foldl
        | (intro _)
    | split
    | with_reducible apply Keeps.upd
    | (with_reducible apply Same.of_upd) <;> with_reducible first | exact bit_same | exact bit_in (by decide)
    | decide

theorem State.adoptBlocks_keeps (s : State) (m : FullLead) :
    Keeps 0xe0602f8 s (State.adoptBlocks s m) := by
  unfold State.adoptBlocks
  try dsimp only
  repeat' first
    | with_reducible first
        | apply Keeps.ite | apply Keeps.refl | assumption | apply storeOk_putV | apply storeOk_filter
        | apply modeOk_upd | apply modeOk_zero | apply Keeps.to ?_ ?_ (State.putU_keeps ..)
        | apply Keeps.to ?_ ?_ (State.putBoth_keeps ..) | apply Keeps.to ?_ ?_ (State.adoptObserver_keeps ..)
        | apply Keeps.to ?_ ?_ (State.adoptControl_keeps ..) | apply Keeps.to ?_ ?_ (State.setPan_keeps ..)
        | apply Keeps.to ?_ ?_ (State.lastCommand_keeps ..) | apply Keeps.to ?_ ?_ (State.commitBulk_keeps ..)
        | apply Keeps.to ?_ ?_ (State.setMir_keeps ?_) | apply heldOk_none | apply storeOk_foldl | apply Keeps.foldS
        | apply Keeps.foldl | (intro _)
    | split
    | with_reducible apply Keeps.upd
    | (with_reducible apply Same.of_upd) <;> with_reducible first | exact bit_same | exact bit_in (by decide)
    | decide

theorem State.adoptFull_keeps (s : State) : Keeps 0xe0643f8 s s.adoptFull := by
  unfold State.adoptFull
  split
  · rename_i f m h
    have hm := (State.setMode_keeps (s := s) (m := { m.mode with cmds := m.mode.cmds.map fun (c : Cmd) => { c with sent := true } })
      (fun _ k => by rw [h] at k; exact k)).mono (m := 0xe0643f8) (by decide)
    generalize s.setMode _ = u at hm
    exact Keeps.ite ((State.setMir_keeps fun _ _ => rfl).mono (by decide)) (hm.to (by decide) (State.adoptBlocks_keeps ..))
  · exact Keeps.ite ((State.setHal_keeps ..).mono (by decide)) (Keeps.refl _)


theorem State.joinApply_keeps (s : State) :
    Keeps 0x4018 s (State.joinApply s) := by
  unfold State.joinApply
  try dsimp only
  repeat' first
    | with_reducible first
        | apply Keeps.ite | apply Keeps.refl | assumption | apply storeOk_putV | apply storeOk_filter
        | apply modeOk_upd | apply modeOk_zero | apply Keeps.to ?_ ?_ (State.putBoth_keeps ..)
        | apply Keeps.to ?_ ?_ (State.setHal_keeps ..) | apply Keeps.foldS | apply Keeps.foldl | (intro _)
    | split
    | with_reducible apply Keeps.upd
    | (with_reducible apply Same.of_upd) <;> with_reducible first | exact bit_same | exact bit_in (by decide)
    | decide

theorem State.numberBoundary_keeps (s : State) :
    Keeps 0x8406248 s (State.numberBoundary s) := by
  unfold State.numberBoundary
  try dsimp only
  repeat' first
    | with_reducible first
        | apply Keeps.ite | apply Keeps.refl | assumption | apply storeOk_putV | apply storeOk_filter
        | apply modeOk_upd | apply modeOk_zero | apply Keeps.to ?_ ?_ (State.lower_keeps ..)
        | apply Keeps.to ?_ ?_ (State.alarm_keeps ..) | apply Keeps.to ?_ ?_ (State.driveDio_keeps ..)
        | apply Keeps.to ?_ ?_ (State.safeUpdate_keeps ..) | apply Keeps.to ?_ ?_ (State.leaveRole_keeps ..)
        | apply Keeps.foldS | apply Keeps.foldl | (intro _)
    | split
    | with_reducible apply Keeps.upd
    | (with_reducible apply Same.of_upd) <;> with_reducible first | exact bit_same | exact bit_in (by decide)
    | decide

theorem State.roleBoundary_keeps (s : State) :
    Keeps 0xd4463d8 s (State.roleBoundary s) := by
  unfold State.roleBoundary
  try dsimp only
  repeat' first
    | with_reducible first
        | apply Keeps.ite | apply Keeps.refl | assumption | apply storeOk_putV | apply storeOk_filter
        | apply modeOk_upd | apply modeOk_zero | apply Keeps.to ?_ ?_ (State.note_keeps ..)
        | apply Keeps.to ?_ ?_ (State.driveDio_keeps ..) | apply Keeps.to ?_ ?_ (State.safeUpdate_keeps ..)
        | apply Keeps.to ?_ ?_ (State.setUnit_keeps ..) | apply Keeps.to ?_ ?_ (State.setHal_keeps ..)
        | apply Keeps.to ?_ ?_ (State.setRole_keeps ..) | apply Keeps.to ?_ ?_ (State.takeLead_keeps ..)
        | apply heldOk_none | apply Keeps.foldS | apply Keeps.foldl | (intro _)
    | split
    | with_reducible apply Keeps.upd
    | (with_reducible apply Same.of_upd) <;> with_reducible first | exact bit_same | exact bit_in (by decide)
    | decide

theorem State.countDigests_keeps (s : State) :
    Keeps 0x80000c0 s (State.countDigests s) := by
  unfold State.countDigests
  try dsimp only
  repeat' first
    | with_reducible first
        | apply Keeps.ite | apply Keeps.refl | assumption | apply storeOk_putV | apply storeOk_filter
        | apply modeOk_upd | apply modeOk_zero | apply Keeps.to ?_ ?_ (State.lower_keeps ..)
        | apply Keeps.to ?_ ?_ (State.mismatch_keeps ..) | apply Keeps.foldS | apply Keeps.foldl | (intro _)
    | split
    | with_reducible apply Keeps.upd
    | (with_reducible apply Same.of_upd) <;> with_reducible first | exact bit_same | exact bit_in (by decide)
    | decide

theorem State.bulkDone_keeps (s : State) (b : Bulk) :
    Keeps 0xc000298 s (State.bulkDone s b) := by
  unfold State.bulkDone
  try dsimp only
  repeat' first
    | with_reducible first
        | apply Keeps.ite | apply Keeps.refl | assumption | apply storeOk_putV | apply storeOk_filter
        | apply modeOk_upd | apply modeOk_zero | apply Keeps.to ?_ ?_ (State.note_keeps ..)
        | apply Keeps.to ?_ ?_ (State.acceptVal_keeps ..) | apply Keeps.to ?_ ?_ (State.respond_keeps ..)
        | apply Keeps.to ?_ ?_ (State.setMir_keeps ?_) | apply heldOk_none | apply Keeps.foldS | apply Keeps.foldl
        | (intro _)
    | split
    | with_reducible apply Keeps.upd
    | (with_reducible apply Same.of_upd) <;> with_reducible first | exact bit_same | exact bit_in (by decide)
    | decide

theorem State.sendBulk_keeps (s : State) :
    Keeps 0x4000088 s (State.sendBulk s) := by
  unfold State.sendBulk
  try dsimp only
  repeat' first
    | with_reducible first
        | apply Keeps.ite | apply Keeps.refl | assumption | apply storeOk_putV | apply storeOk_filter
        | apply modeOk_upd | apply modeOk_zero | apply Keeps.to ?_ ?_ (State.addU_keeps ..)
        | apply Keeps.to ?_ ?_ (State.setMir_keeps ?_) | apply storeOk_foldl | apply Keeps.foldS | apply Keeps.foldl
        | (intro _)
    | split
    | with_reducible apply Keeps.upd
    | (with_reducible apply Same.of_upd) <;> with_reducible first | exact bit_same | exact bit_in (by decide)
    | decide

theorem State.prune_keeps (s : State) :
    Keeps 0xc000298 s (State.prune s) := by
  unfold State.prune
  try dsimp only
  repeat' first
    | with_reducible first
        | apply Keeps.ite | apply Keeps.refl | assumption | apply storeOk_putV | apply storeOk_filter
        | apply modeOk_upd | apply modeOk_zero | apply Keeps.to ?_ ?_ (State.bulkDone_keeps ..) | apply Keeps.foldS
        | apply Keeps.foldl | (intro _)
    | split
    | with_reducible apply Keeps.upd
    | (with_reducible apply Same.of_upd) <;> with_reducible first | exact bit_same | exact bit_in (by decide)
    | decide

theorem State.publishLink_keeps (s : State) (f : Nat) :
    Keeps 0x20 s (State.publishLink s f) := by
  unfold State.publishLink
  try dsimp only
  repeat' first
    | with_reducible first
        | apply Keeps.ite | apply Keeps.refl | assumption | apply storeOk_putV | apply storeOk_filter
        | apply modeOk_upd | apply modeOk_zero | apply Keeps.to ?_ ?_ (State.publish_keeps ..) | apply heldOk_none
        | apply Keeps.foldS | apply Keeps.foldl | (intro _)
    | split
    | with_reducible apply Keeps.upd
    | (with_reducible apply Same.of_upd) <;> with_reducible first | exact bit_same | exact bit_in (by decide)
    | decide

theorem State.countSilence_keeps (s : State) (f : Nat) :
    Keeps 0x4000 s (State.countSilence s f) := by
  unfold State.countSilence
  try dsimp only
  repeat' first
    | with_reducible first
        | apply Keeps.ite | apply Keeps.refl | assumption | apply storeOk_putV | apply storeOk_filter
        | apply modeOk_upd | apply modeOk_zero | apply Keeps.to ?_ ?_ (State.setUnit_keeps ..) | apply Keeps.foldS
        | apply Keeps.foldl | (intro _)
    | split
    | with_reducible apply Keeps.upd
    | (with_reducible apply Same.of_upd) <;> with_reducible first | exact bit_same | exact bit_in (by decide)
    | decide

theorem State.partnerLosses_keeps (s : State) :
    Keeps 0x8004248 s (State.partnerLosses s) := by
  unfold State.partnerLosses
  try dsimp only
  repeat' first
    | with_reducible first
        | apply Keeps.ite | apply Keeps.refl | assumption | apply storeOk_putV | apply storeOk_filter
        | apply modeOk_upd | apply modeOk_zero | apply Keeps.to ?_ ?_ (State.alarm_keeps ..)
        | apply Keeps.to ?_ ?_ (State.setUnit_keeps ..) | apply Keeps.foldS | apply Keeps.foldl | (intro _)
    | split
    | with_reducible apply Keeps.upd
    | (with_reducible apply Same.of_upd) <;> with_reducible first | exact bit_same | exact bit_in (by decide)
    | decide

theorem State.fieldWatch_keeps (s : State) :
    Keeps 0x8004248 s (State.fieldWatch s) := by
  unfold State.fieldWatch
  try dsimp only
  repeat' first
    | with_reducible first
        | apply Keeps.ite | apply Keeps.refl | assumption | apply storeOk_putV | apply storeOk_filter
        | apply modeOk_upd | apply modeOk_zero | apply Keeps.to ?_ ?_ (State.lower_keeps ..)
        | apply Keeps.to ?_ ?_ (State.alarm_keeps ..) | apply Keeps.to ?_ ?_ (State.setHal_keeps ..)
        | apply heldOk_none | apply Keeps.foldS | apply Keeps.foldl | (intro _)
    | split
    | with_reducible apply Keeps.upd
    | (with_reducible apply Same.of_upd) <;> with_reducible first | exact bit_same | exact bit_in (by decide)
    | decide

theorem State.yieldNow_keeps (s : State) :
    Keeps 0x4006308 s (State.yieldNow s) := by
  unfold State.yieldNow
  try dsimp only
  repeat' first
    | with_reducible first
        | apply Keeps.ite | apply Keeps.refl | assumption | apply storeOk_putV | apply storeOk_filter
        | apply modeOk_upd | apply modeOk_zero | apply Keeps.to ?_ ?_ (State.note_keeps ..)
        | apply Keeps.to ?_ ?_ (State.setHal_keeps ..) | apply Keeps.to ?_ ?_ (State.leaveRole_keeps ..)
        | apply Keeps.to ?_ ?_ (State.setMir_keeps ?_) | apply Keeps.foldS | apply Keeps.foldl | (intro _)
    | split
    | with_reducible apply Keeps.upd
    | (with_reducible apply Same.of_upd) <;> with_reducible first | exact bit_same | exact bit_in (by decide)
    | decide

theorem State.queueOut_keeps (s : State) :
    Keeps 0x4004000 s (State.queueOut s) := by
  unfold State.queueOut
  try dsimp only
  repeat' first
    | with_reducible first
        | apply Keeps.ite | apply Keeps.refl | assumption | apply storeOk_putV | apply storeOk_filter
        | apply modeOk_upd | apply modeOk_zero | apply Keeps.to ?_ ?_ (State.setHal_keeps ..)
        | apply Keeps.to ?_ ?_ (State.setMir_keeps ?_) | apply heldOk_none | apply Keeps.foldS | apply Keeps.foldl
        | (intro _)
    | split
    | with_reducible apply Keeps.upd
    | (with_reducible apply Same.of_upd) <;> with_reducible first | exact bit_same | exact bit_in (by decide)
    | decide

theorem State.halurFrame_keeps (s : State) (f : Nat) :
    Keeps 0xc0463f8 s (State.halurFrame s f) := by
  unfold State.halurFrame
  try dsimp only
  repeat' first
    | with_reducible first
        | apply Keeps.ite | apply Keeps.refl | assumption | apply storeOk_putV | apply storeOk_filter
        | apply modeOk_upd | apply modeOk_zero | apply Keeps.to ?_ ?_ (State.lower_keeps ..)
        | apply Keeps.to ?_ ?_ (State.setHal_keeps ..) | apply Keeps.to ?_ ?_ (State.setEpoch_keeps ..)
        | apply Keeps.to ?_ ?_ (State.twoLeads_keeps ..) | apply Keeps.to ?_ ?_ (State.adoptFast_keeps ..)
        | apply Keeps.to ?_ ?_ (State.prune_keeps ..) | apply Keeps.to ?_ ?_ (State.publishLink_keeps ..)
        | apply Keeps.to ?_ ?_ (State.countSilence_keeps ..) | apply Keeps.to ?_ ?_ (State.partnerLosses_keeps ..)
        | apply Keeps.to ?_ ?_ (State.fieldWatch_keeps ..) | apply Keeps.to ?_ ?_ (State.yieldNow_keeps ..)
        | apply Keeps.to ?_ ?_ (State.queueOut_keeps ..) | apply Keeps.to ?_ ?_ (State.setMir_keeps ?_)
        | apply heldOk_none | apply Keeps.foldS | apply Keeps.foldl | (intro _)
    | split
    | with_reducible apply Keeps.upd
    | (with_reducible apply Same.of_upd) <;> with_reducible first | exact bit_same | exact bit_in (by decide)
    | decide

theorem State.sendFast_keeps (s : State) (t : Int) :
    Keeps 0x4004088 s (State.sendFast s t) := by
  unfold State.sendFast
  try dsimp only
  repeat' first
    | with_reducible first
        | apply Keeps.ite | apply Keeps.refl | assumption | apply storeOk_putV | apply storeOk_filter
        | apply modeOk_upd | apply modeOk_zero | apply Keeps.to ?_ ?_ (State.setHal_keeps ..)
        | apply Keeps.to ?_ ?_ (State.formWait_keeps ..) | apply Keeps.to ?_ ?_ (State.sendBulk_keeps ..)
        | apply Keeps.to ?_ ?_ (State.setMir_keeps ?_) | apply heldOk_none | apply Keeps.foldS | apply Keeps.foldl
        | (intro _)
    | split
    | with_reducible apply Keeps.upd
    | (with_reducible apply Same.of_upd) <;> with_reducible first | exact bit_same | exact bit_in (by decide)
    | decide

theorem State.sendFull_keeps (s : State) :
    Keeps 0x6004100 s (State.sendFull s) := by
  unfold State.sendFull
  try dsimp only
  repeat' first
    | with_reducible first
        | apply Keeps.ite | apply Keeps.refl | assumption | apply storeOk_putV | apply storeOk_filter
        | apply modeOk_upd | apply modeOk_zero | apply Keeps.to ?_ ?_ (State.setPan_keeps ..)
        | apply Keeps.to ?_ ?_ (State.setHal_keeps ..) | apply Keeps.to ?_ ?_ (State.setMir_keeps ?_)
        | apply heldOk_none | apply Keeps.foldS | apply Keeps.foldl | (intro _)
    | split
    | with_reducible apply Keeps.upd
    | (with_reducible apply Same.of_upd) <;> with_reducible first | exact bit_same | exact bit_in (by decide)
    | decide

theorem State.bulkAck_keeps (s : State) (u key : Nat) (frags : List Nat) :
    Keeps 0xc000298 s (State.bulkAck s u key frags) := by
  unfold State.bulkAck
  try dsimp only
  repeat' first
    | with_reducible first
        | apply Keeps.ite | apply Keeps.refl | assumption | apply storeOk_putV | apply storeOk_filter
        | apply modeOk_upd | apply modeOk_zero | apply Keeps.to ?_ ?_ (State.bulkDone_keeps ..) | apply Keeps.foldS
        | apply Keeps.foldl | (intro _)
    | split
    | with_reducible apply Keeps.upd
    | (with_reducible apply Same.of_upd) <;> with_reducible first | exact bit_same | exact bit_in (by decide)
    | decide

theorem State.bulkFrag_keeps (s : State) (key length k : Nat) (data : List Byte) :
    Keeps 0x4004080 s (State.bulkFrag s key length k data) := by
  unfold State.bulkFrag
  try dsimp only
  repeat' first
    | with_reducible first
        | apply Keeps.ite | apply Keeps.refl | assumption | apply storeOk_putV | apply storeOk_filter
        | apply modeOk_upd | apply modeOk_zero | apply Keeps.to ?_ ?_ (State.setHal_keeps ..)
        | apply Keeps.to ?_ ?_ (State.setMir_keeps ?_) | apply heldOk_none | apply Keeps.foldS | apply Keeps.foldl
        | (intro _)
    | split
    | with_reducible apply Keeps.upd
    | (with_reducible apply Same.of_upd) <;> with_reducible first | exact bit_same | exact bit_in (by decide)
    | decide

theorem State.joinRequest_keeps (s : State) (u : Nat) :
    Keeps 0x80 s (State.joinRequest s u) := by
  unfold State.joinRequest
  try dsimp only
  repeat' first
    | with_reducible first
        | apply Keeps.ite | apply Keeps.refl | assumption | apply storeOk_putV | apply storeOk_filter
        | apply modeOk_upd | apply modeOk_zero | apply heldOk_none | apply Keeps.foldS | apply Keeps.foldl
        | (intro _)
    | split
    | with_reducible apply Keeps.upd
    | (with_reducible apply Same.of_upd) <;> with_reducible first | exact bit_same | exact bit_in (by decide)
    | decide

theorem execFastMirrorSend_keeps (t : Int) (s : State) :
    outKeeps 0x4004088 s (execFastMirrorSend t s) := by
  unfold execFastMirrorSend
  try dsimp only
  repeat' first
    | with_reducible first
        | apply outKeeps_ite | apply outKeeps.next | apply Keeps.ite | apply Keeps.refl | assumption
        | apply storeOk_putV | apply storeOk_filter | apply modeOk_upd | apply modeOk_zero
        | apply Keeps.to ?_ ?_ (State.sendFast_keeps ..) | apply Keeps.foldS | apply Keeps.foldl | (intro _)
    | split
    | with_reducible apply Keeps.upd
    | (with_reducible apply Same.of_upd) <;> with_reducible first | exact bit_same | exact bit_in (by decide)
    | decide

theorem execFullMirrorSend_keeps (s : State) :
    outKeeps 0x6004100 s (execFullMirrorSend s) := by
  unfold execFullMirrorSend
  try dsimp only
  repeat' first
    | with_reducible first
        | apply outKeeps_ite | apply outKeeps.next | apply Keeps.ite | apply Keeps.refl | assumption
        | apply storeOk_putV | apply storeOk_filter | apply modeOk_upd | apply modeOk_zero
        | apply Keeps.to ?_ ?_ (State.sendFull_keeps ..) | apply Keeps.foldS | apply Keeps.foldl | (intro _)
    | split
    | with_reducible apply Keeps.upd
    | (with_reducible apply Same.of_upd) <;> with_reducible first | exact bit_same | exact bit_in (by decide)
    | decide

theorem execSharedValueDigestMismatch_keeps (u : Nat) (s : State) :
    outKeeps 0x8000248 s (execSharedValueDigestMismatch u s) := by
  unfold execSharedValueDigestMismatch
  try dsimp only
  repeat' first
    | with_reducible first
        | apply outKeeps_ite | apply outKeeps.next | apply Keeps.ite | apply Keeps.refl | assumption
        | apply storeOk_putV | apply storeOk_filter | apply modeOk_upd | apply modeOk_zero
        | apply Keeps.to ?_ ?_ (State.alarm_keeps ..) | apply Keeps.to ?_ ?_ (State.mismatch_keeps ..)
        | apply Keeps.foldS | apply Keeps.foldl | (intro _)
    | split
    | with_reducible apply Keeps.upd
    | (with_reducible apply Same.of_upd) <;> with_reducible first | exact bit_same | exact bit_in (by decide)
    | decide

theorem execHalurFastFrame_keeps (h : HHead) (b : Beat) (m : Option FastLead) (s : State) :
    outKeeps 0xf3c7bdc s (execHalurFastFrame h b m s) := by
  unfold execHalurFastFrame
  try dsimp only
  repeat' first
    | with_reducible first
        | apply outKeeps_ite | apply outKeeps.next | apply Keeps.ite | apply Keeps.refl | assumption
        | apply storeOk_putV | apply storeOk_filter | apply modeOk_upd | apply modeOk_zero
        | apply Keeps.to ?_ ?_ (State.fastFrame_keeps ..) | apply Keeps.foldS | apply Keeps.foldl | (intro _)
    | split
    | with_reducible apply Keeps.upd
    | (with_reducible apply Same.of_upd) <;> with_reducible first | exact bit_same | exact bit_in (by decide)
    | decide

theorem execHalurFullFrame_keeps (h : HHead) (m : Option FullLead) (r : Report) (s : State) (hm : fullOk m = true) :
    outKeeps 0xc0062dc s (execHalurFullFrame h m r s) :=
  .next (Keeps.ite (State.fullFrame_keeps s h m r hm) (Keeps.refl _))


theorem execLeadLossDeclaration_keeps (s : State) :
    outKeeps 0x8004248 s (execLeadLossDeclaration s) := by
  unfold execLeadLossDeclaration
  try dsimp only
  repeat' first
    | with_reducible first
        | apply outKeeps_ite | apply outKeeps.next | apply Keeps.ite | apply Keeps.refl | assumption
        | apply storeOk_putV | apply storeOk_filter | apply modeOk_upd | apply modeOk_zero
        | apply Keeps.to ?_ ?_ (State.note_keeps ..) | apply Keeps.to ?_ ?_ (State.alarm_keeps ..)
        | apply Keeps.to ?_ ?_ (State.setHal_keeps ..) | apply heldOk_none | apply Keeps.foldS | apply Keeps.foldl
        | (intro _)
    | split
    | with_reducible apply Keeps.upd
    | (with_reducible apply Same.of_upd) <;> with_reducible first | exact bit_same | exact bit_in (by decide)
    | decide

theorem execClaim_keeps (h : HHead) (_epoch prio : Nat) (s : State) :
    outKeeps 0xc0062d8 s (execClaim h _epoch prio s) := by
  unfold execClaim
  try dsimp only
  repeat' first
    | with_reducible first
        | apply outKeeps_ite | apply outKeeps.next | apply Keeps.ite | apply Keeps.refl | assumption
        | apply storeOk_putV | apply storeOk_filter | apply modeOk_upd | apply modeOk_zero
        | apply Keeps.to ?_ ?_ (State.setUnit_keeps ..) | apply Keeps.to ?_ ?_ (State.withdraw_keeps ..)
        | apply heldOk_none | apply Keeps.trans ?_ (State.halurIn_keeps ?_ ?_ ?_ ..) | apply Keeps.ofId
        | apply Keeps.foldS | apply Keeps.foldl | (intro _)
    | split
    | with_reducible apply Keeps.upd
    | (with_reducible apply Same.of_upd) <;> with_reducible first | exact bit_same | exact bit_in (by decide)
    | decide

theorem execTakeLead_keeps (s : State) :
    outKeeps 0xd4463d8 s (execTakeLead s) := by
  unfold execTakeLead
  try dsimp only
  repeat' first
    | with_reducible first
        | apply outKeeps_ite | apply outKeeps.next | apply Keeps.ite | apply Keeps.refl | assumption
        | apply storeOk_putV | apply storeOk_filter | apply modeOk_upd | apply modeOk_zero
        | apply Keeps.to ?_ ?_ (State.takeLead_keeps ..) | apply heldOk_none | apply Keeps.foldS | apply Keeps.foldl
        | (intro _)
    | split
    | with_reducible apply Keeps.upd
    | (with_reducible apply Same.of_upd) <;> with_reducible first | exact bit_same | exact bit_in (by decide)
    | decide

theorem execYield_keeps (h : HHead) (target : Nat) (s : State) :
    outKeeps 0xc0062d8 s (execYield h target s) := by
  unfold execYield
  try dsimp only
  repeat' first
    | with_reducible first
        | apply outKeeps_ite | apply outKeeps.next | apply Keeps.ite | apply Keeps.refl | assumption
        | apply storeOk_putV | apply storeOk_filter | apply modeOk_upd | apply modeOk_zero
        | apply Keeps.to ?_ ?_ (State.setUnit_keeps ..) | apply Keeps.to ?_ ?_ (State.setHal_keeps ..)
        | apply heldOk_none | apply Keeps.trans ?_ (State.halurIn_keeps ?_ ?_ ?_ ..) | apply Keeps.ofId
        | apply Keeps.foldS | apply Keeps.foldl | (intro _)
    | split
    | with_reducible apply Keeps.upd
    | (with_reducible apply Same.of_upd) <;> with_reducible first | exact bit_same | exact bit_in (by decide)
    | decide

theorem execStopNotice_keeps (h : HHead) (_code : Nat) (s : State) :
    outKeeps 0xc0062d8 s (execStopNotice h _code s) := by
  unfold execStopNotice
  try dsimp only
  repeat' first
    | with_reducible first
        | apply outKeeps_ite | apply outKeeps.next | apply Keeps.ite | apply Keeps.refl | assumption
        | apply storeOk_putV | apply storeOk_filter | apply modeOk_upd | apply modeOk_zero
        | apply Keeps.to ?_ ?_ (State.setUnit_keeps ..) | apply heldOk_none
        | apply Keeps.trans ?_ (State.halurIn_keeps ?_ ?_ ?_ ..) | apply Keeps.ofId | apply Keeps.foldS
        | apply Keeps.foldl | (intro _)
    | split
    | with_reducible apply Keeps.upd
    | (with_reducible apply Same.of_upd) <;> with_reducible first | exact bit_same | exact bit_in (by decide)
    | decide

theorem execJoinRequest_keeps (h : HHead) (prio nvEpoch : Nat) (s : State) :
    outKeeps 0xc0062d8 s (execJoinRequest h prio nvEpoch s) := by
  unfold execJoinRequest
  try dsimp only
  repeat' first
    | with_reducible first
        | apply outKeeps_ite | apply outKeeps.next | apply Keeps.ite | apply Keeps.refl | assumption
        | apply storeOk_putV | apply storeOk_filter | apply modeOk_upd | apply modeOk_zero
        | apply Keeps.to ?_ ?_ (State.setUnit_keeps ..) | apply Keeps.to ?_ ?_ (State.joinRequest_keeps ..)
        | apply heldOk_none | apply Keeps.trans ?_ (State.halurIn_keeps ?_ ?_ ?_ ..) | apply Keeps.ofId
        | apply Keeps.foldS | apply Keeps.foldl | (intro _)
    | split
    | with_reducible apply Keeps.upd
    | (with_reducible apply Same.of_upd) <;> with_reducible first | exact bit_same | exact bit_in (by decide)
    | decide

theorem execElection_keeps (s : State) :
    outKeeps 0xd4463d8 s (execElection s) := by
  unfold execElection
  try dsimp only
  repeat' first
    | with_reducible first
        | apply outKeeps_ite | apply outKeeps.next | apply Keeps.ite | apply Keeps.refl | assumption
        | apply storeOk_putV | apply storeOk_filter | apply modeOk_upd | apply modeOk_zero
        | apply Keeps.to ?_ ?_ (State.note_keeps ..) | apply Keeps.to ?_ ?_ (State.setHal_keeps ..)
        | apply Keeps.to ?_ ?_ (State.takeLead_keeps ..) | apply Keeps.foldS | apply Keeps.foldl | (intro _)
    | split
    | with_reducible apply Keeps.upd
    | (with_reducible apply Same.of_upd) <;> with_reducible first | exact bit_same | exact bit_in (by decide)
    | decide

theorem execBulkFrame_keeps (h : HHead) (key length k : Nat) (data : List Byte) (s : State) :
    outKeeps 0xc0062d8 s (execBulkFrame h key length k data s) := by
  unfold execBulkFrame
  try dsimp only
  repeat' first
    | with_reducible first
        | apply outKeeps_ite | apply outKeeps.next | apply Keeps.ite | apply Keeps.refl | assumption
        | apply storeOk_putV | apply storeOk_filter | apply modeOk_upd | apply modeOk_zero
        | apply Keeps.to ?_ ?_ (State.bulkFrag_keeps ..) | apply heldOk_none
        | apply Keeps.trans ?_ (State.halurIn_keeps ?_ ?_ ?_ ..) | apply Keeps.ofId | apply Keeps.foldS
        | apply Keeps.foldl | (intro _)
    | split
    | with_reducible apply Keeps.upd
    | (with_reducible apply Same.of_upd) <;> with_reducible first | exact bit_same | exact bit_in (by decide)
    | decide

theorem execBulkAcknowledgement_keeps (h : HHead) (key : Nat) (frags : List Nat) (s : State) :
    outKeeps 0xc0062d8 s (execBulkAcknowledgement h key frags s) := by
  unfold execBulkAcknowledgement
  try dsimp only
  repeat' first
    | with_reducible first
        | apply outKeeps_ite | apply outKeeps.next | apply Keeps.ite | apply Keeps.refl | assumption
        | apply storeOk_putV | apply storeOk_filter | apply modeOk_upd | apply modeOk_zero
        | apply Keeps.to ?_ ?_ (State.bulkAck_keeps ..) | apply heldOk_none
        | apply Keeps.trans ?_ (State.halurIn_keeps ?_ ?_ ?_ ..) | apply Keeps.ofId | apply Keeps.foldS
        | apply Keeps.foldl | (intro _)
    | split
    | with_reducible apply Keeps.upd
    | (with_reducible apply Same.of_upd) <;> with_reducible first | exact bit_same | exact bit_in (by decide)
    | decide

theorem execBulkTransferTimeout_keeps (s : State) :
    outKeeps 0x8000288 s (execBulkTransferTimeout s) := by
  unfold execBulkTransferTimeout
  try dsimp only
  repeat' first
    | with_reducible first
        | apply outKeeps_ite | apply outKeeps.next | apply Keeps.ite | apply Keeps.refl | assumption
        | apply storeOk_putV | apply storeOk_filter | apply modeOk_upd | apply modeOk_zero
        | apply Keeps.to ?_ ?_ (State.respond_keeps ..) | apply heldOk_none | apply Keeps.foldS | apply Keeps.foldl
        | (intro _)
    | split
    | with_reducible apply Keeps.upd
    | (with_reducible apply Same.of_upd) <;> with_reducible first | exact bit_same | exact bit_in (by decide)
    | decide

theorem execPanicleRequest_keeps (h : HHead) (s : State) :
    outKeeps 0xe0062d8 s (execPanicleRequest h s) := by
  unfold execPanicleRequest
  try dsimp only
  repeat' first
    | with_reducible first
        | apply outKeeps_ite | apply outKeeps.next | apply Keeps.ite | apply Keeps.refl | assumption
        | apply storeOk_putV | apply storeOk_filter | apply modeOk_upd | apply modeOk_zero
        | apply Keeps.to ?_ ?_ (State.setPan_keeps ..) | apply heldOk_none
        | apply Keeps.trans ?_ (State.halurIn_keeps ?_ ?_ ?_ ..) | apply Keeps.ofId | apply Keeps.foldS
        | apply Keeps.foldl | (intro _)
    | split
    | with_reducible apply Keeps.upd
    | (with_reducible apply Same.of_upd) <;> with_reducible first | exact bit_same | exact bit_in (by decide)
    | decide

theorem execHalurPortChange_keeps (port : Nat) (isUp : Bool) (s : State) :
    outKeeps 0x4208 s (execHalurPortChange port isUp s) := by
  unfold execHalurPortChange
  try dsimp only
  repeat' first
    | with_reducible first
        | apply outKeeps_ite | apply outKeeps.next | apply Keeps.ite | apply Keeps.refl | assumption
        | apply storeOk_putV | apply storeOk_filter | apply modeOk_upd | apply modeOk_zero
        | apply Keeps.to ?_ ?_ (State.note_keeps ..) | apply Keeps.to ?_ ?_ (State.setHal_keeps ..)
        | apply Keeps.foldS | apply Keeps.foldl | (intro _)
    | split
    | with_reducible apply Keeps.upd
    | (with_reducible apply Same.of_upd) <;> with_reducible first | exact bit_same | exact bit_in (by decide)
    | decide

theorem execMirrorDegraded_keeps (s : State) :
    outKeeps 0x8004248 s (execMirrorDegraded s) := by
  unfold execMirrorDegraded
  try dsimp only
  repeat' first
    | with_reducible first
        | apply outKeeps_ite | apply outKeeps.next | apply Keeps.ite | apply Keeps.refl | assumption
        | apply storeOk_putV | apply storeOk_filter | apply modeOk_upd | apply modeOk_zero
        | apply Keeps.to ?_ ?_ (State.alarm_keeps ..) | apply Keeps.to ?_ ?_ (State.setHal_keeps ..)
        | apply Keeps.foldS | apply Keeps.foldl | (intro _)
    | split
    | with_reducible apply Keeps.upd
    | (with_reducible apply Same.of_upd) <;> with_reducible first | exact bit_same | exact bit_in (by decide)
    | decide

theorem execHalurDegraded_keeps (s : State) :
    outKeeps 0x9004248 s (execHalurDegraded s) := by
  unfold execHalurDegraded
  try dsimp only
  repeat' first
    | with_reducible first
        | apply outKeeps_ite | apply outKeeps.next | apply Keeps.ite | apply Keeps.refl | assumption
        | apply storeOk_putV | apply storeOk_filter | apply modeOk_upd | apply modeOk_zero
        | apply Keeps.to ?_ ?_ (State.alarm_keeps ..) | apply Keeps.to ?_ ?_ (State.reselect_keeps ..)
        | apply Keeps.to ?_ ?_ (State.setHal_keeps ..) | apply heldOk_none | apply Keeps.foldS | apply Keeps.foldl
        | (intro _)
    | split
    | with_reducible apply Keeps.upd
    | (with_reducible apply Same.of_upd) <;> with_reducible first | exact bit_same | exact bit_in (by decide)
    | decide

theorem State.ruleHand_keeps (s : State) (x1 : Path) (x2 x3 : Nat) (v : Val) :
    Verdict.keeps 0x4000 s (State.ruleHand s x1 x2 x3 v) := by
  unfold State.ruleHand
  try dsimp only
  repeat' first
    | with_reducible first
        | apply verdict_ite | apply Verdict.keeps.store | apply Verdict.keeps.refuse | apply Verdict.keeps.done
        | apply Keeps.ite | apply Keeps.refl | assumption | apply storeOk_putV | apply storeOk_filter
        | apply modeOk_upd | apply modeOk_zero | apply Keeps.to ?_ ?_ (State.setHal_keeps ..) | apply Keeps.foldS
        | apply Keeps.foldl | (intro _)
    | split
    | with_reducible apply Keeps.upd
    | (with_reducible apply Same.of_upd) <;> with_reducible first | exact bit_same | exact bit_in (by decide)
    | decide

theorem execHandLeadToUnit_keeps (p : Path) (b : List Byte) (s : State) :
    outKeeps 0x4298 s (execHandLeadToUnit p b s) := by
  unfold execHandLeadToUnit
  try dsimp only
  repeat' first
    | with_reducible first
        | apply outKeeps_ite | apply outKeeps.next | apply Keeps.ite | apply Keeps.refl | assumption
        | apply storeOk_putV | apply storeOk_filter | apply modeOk_upd | apply modeOk_zero
        | apply Keeps.trans ?_ (State.writeWith_keeps ?_ _ ?_ ..) | apply verdict_to ?_ ?_ (State.ruleHand_keeps ..)
        | apply Keeps.foldS | apply Keeps.foldl | (intro _)
    | split
    | with_reducible apply Keeps.upd
    | (with_reducible apply Same.of_upd) <;> with_reducible first | exact bit_same | exact bit_in (by decide)
    | decide

end Sys2Proof.Machine
end

