-- ==== Sys2Proof/Laws/KeepPins.lean ====
section
/-! SUPPORT. What the operations of Machine/Pins.lean keep (Laws/Keeps.lean). -/
namespace Sys2Proof.Machine

theorem State.tapStep_keeps (s : State) (e : TapEdge) :
    Keeps 0x400000 s (State.tapStep s e) := by
  unfold State.tapStep
  try dsimp only
  repeat' first
    | with_reducible first
        | apply Keeps.ite | apply Keeps.refl | assumption | apply storeOk_putV | apply storeOk_filter
        | apply modeOk_upd | apply modeOk_zero | apply heldOk_none | apply Keeps.foldS | apply Keeps.foldl
        | (intro _)
    | split
    | with_reducible apply Keeps.upd
    | (with_reducible apply Same.of_upd) <;> with_reducible first | exact bit_same | exact bit_in (by decide)
    | decide

theorem State.jtag_keeps (s : State) (l : List TapEdge) :
    Keeps 0x400000 s (State.jtag s l) := by
  unfold State.jtag
  try dsimp only
  repeat' first
    | with_reducible first
        | apply Keeps.ite | apply Keeps.refl | assumption | apply storeOk_putV | apply storeOk_filter
        | apply modeOk_upd | apply modeOk_zero | apply Keeps.to ?_ ?_ (State.tapStep_keeps ..) | apply Keeps.foldS
        | apply Keeps.foldl | (intro _)
    | split
    | with_reducible apply Keeps.upd
    | (with_reducible apply Same.of_upd) <;> with_reducible first | exact bit_same | exact bit_in (by decide)
    | decide

end Sys2Proof.Machine
end

