-- ==== Sys2Proof/Laws/KeepNet.lean ====
section
/-! SUPPORT. What the operations of Machine/Net.lean keep (Laws/Keeps.lean). -/
namespace Sys2Proof.Machine

theorem State.setNet_keeps (s : State) (n : Net) :
    Keeps 0x80000 s (State.setNet s n) := by
  unfold State.setNet
  try dsimp only
  repeat' first
    | with_reducible first
        | apply Keeps.ite | apply Keeps.refl | assumption | apply storeOk_putV | apply storeOk_filter
        | apply modeOk_upd | apply modeOk_zero | apply Keeps.foldS | apply Keeps.foldl | (intro _)
    | split
    | with_reducible apply Keeps.upd
    | (with_reducible apply Same.of_upd) <;> with_reducible first | exact bit_same | exact bit_in (by decide)
    | decide

theorem State.setNodeSt_keeps (s : State) (id : Nat) (n : NodeSt) :
    Keeps 0x80000 s (State.setNodeSt s id n) := by
  unfold State.setNodeSt
  try dsimp only
  repeat' first
    | with_reducible first
        | apply Keeps.ite | apply Keeps.refl | assumption | apply storeOk_putV | apply storeOk_filter
        | apply modeOk_upd | apply modeOk_zero | apply Keeps.to ?_ ?_ (State.setNet_keeps ..) | apply Keeps.ofId
        | apply Keeps.foldS | apply Keeps.foldl | (intro _)
    | split
    | with_reducible apply Keeps.upd
    | (with_reducible apply Same.of_upd) <;> with_reducible first | exact bit_same | exact bit_in (by decide)
    | decide

theorem State.refuseList_keeps (s : State) (idx entry : Nat) :
    Verdict.keeps 0x208 s (State.refuseList s idx entry) := by
  unfold State.refuseList
  try dsimp only
  repeat' first
    | with_reducible first
        | apply verdict_ite | apply Verdict.keeps.store | apply Verdict.keeps.refuse | apply Verdict.keeps.done
        | apply Keeps.ite | apply Keeps.refl | assumption | apply storeOk_putV | apply storeOk_filter
        | apply modeOk_upd | apply modeOk_zero | apply Keeps.to ?_ ?_ (State.note_keeps ..) | apply Keeps.foldS
        | apply Keeps.foldl | (intro _)
    | split
    | with_reducible apply Keeps.upd
    | (with_reducible apply Same.of_upd) <;> with_reducible first | exact bit_same | exact bit_in (by decide)
    | decide

theorem State.ruleGate_keeps (s : State) (x1 : Path) (idx x2 : Nat) (v : Val) :
    Verdict.keeps 0x208 s (State.ruleGate s x1 idx x2 v) := by
  unfold State.ruleGate
  try dsimp only
  repeat' first
    | with_reducible first
        | apply verdict_ite | apply Verdict.keeps.store | apply Verdict.keeps.refuse | apply Verdict.keeps.done
        | apply Keeps.ite | apply Keeps.refl | assumption | apply storeOk_putV | apply storeOk_filter
        | apply modeOk_upd | apply modeOk_zero | apply verdict_to ?_ ?_ (State.refuseList_keeps ..)
        | apply heldOk_none | apply Keeps.foldS | apply Keeps.foldl | (intro _)
    | split
    | with_reducible apply Keeps.upd
    | (with_reducible apply Same.of_upd) <;> with_reducible first | exact bit_same | exact bit_in (by decide)
    | decide

theorem State.ruleNodes_keeps (s : State) (x1 : Path) (idx x2 : Nat) (v : Val) :
    Verdict.keeps 0x208 s (State.ruleNodes s x1 idx x2 v) := by
  unfold State.ruleNodes
  try dsimp only
  repeat' first
    | with_reducible first
        | apply verdict_ite | apply Verdict.keeps.store | apply Verdict.keeps.refuse | apply Verdict.keeps.done
        | apply Keeps.ite | apply Keeps.refl | assumption | apply storeOk_putV | apply storeOk_filter
        | apply modeOk_upd | apply modeOk_zero | apply verdict_to ?_ ?_ (State.refuseList_keeps ..)
        | apply heldOk_none | apply Keeps.foldS | apply Keeps.foldl | (intro _)
    | split
    | with_reducible apply Keeps.upd
    | (with_reducible apply Same.of_upd) <;> with_reducible first | exact bit_same | exact bit_in (by decide)
    | decide

theorem State.ruleMap_keeps (s : State) (x1 : Path) (idx x2 : Nat) (v : Val) :
    Verdict.keeps 0x208 s (State.ruleMap s x1 idx x2 v) := by
  unfold State.ruleMap
  try dsimp only
  repeat' first
    | with_reducible first
        | apply verdict_ite | apply Verdict.keeps.store | apply Verdict.keeps.refuse | apply Verdict.keeps.done
        | apply Keeps.ite | apply Keeps.refl | assumption | apply storeOk_putV | apply storeOk_filter
        | apply modeOk_upd | apply modeOk_zero | apply verdict_to ?_ ?_ (State.refuseList_keeps ..)
        | apply heldOk_none | apply Keeps.foldS | apply Keeps.foldl | (intro _)
    | split
    | with_reducible apply Keeps.upd
    | (with_reducible apply Same.of_upd) <;> with_reducible first | exact bit_same | exact bit_in (by decide)
    | decide

theorem State.noteDiscard_keeps (s : State) (id reason : Nat) :
    Keeps 0x80208 s (State.noteDiscard s id reason) := by
  unfold State.noteDiscard
  try dsimp only
  repeat' first
    | with_reducible first
        | apply Keeps.ite | apply Keeps.refl | assumption | apply storeOk_putV | apply storeOk_filter
        | apply modeOk_upd | apply modeOk_zero | apply Keeps.to ?_ ?_ (State.note_keeps ..)
        | apply Keeps.to ?_ ?_ (State.setNodeSt_keeps ..) | apply heldOk_none | apply Keeps.ofId | apply Keeps.foldS
        | apply Keeps.foldl | (intro _)
    | split
    | with_reducible apply Keeps.upd
    | (with_reducible apply Same.of_upd) <;> with_reducible first | exact bit_same | exact bit_in (by decide)
    | decide

theorem State.kppDiscard_keeps (s : State) (id reason : Nat) :
    Keeps 0x80208 s (State.kppDiscard s id reason) := by
  unfold State.kppDiscard
  try dsimp only
  repeat' first
    | with_reducible first
        | apply Keeps.ite | apply Keeps.refl | assumption | apply storeOk_putV | apply storeOk_filter
        | apply modeOk_upd | apply modeOk_zero | apply Keeps.to ?_ ?_ (State.incU_keeps ..)
        | apply Keeps.to ?_ ?_ (State.noteDiscard_keeps ..) | apply Keeps.ofId | apply Keeps.foldS
        | apply Keeps.foldl | (intro _)
    | split
    | with_reducible apply Keeps.upd
    | (with_reducible apply Same.of_upd) <;> with_reducible first | exact bit_same | exact bit_in (by decide)
    | decide

theorem State.feedNode_keeps (s : State) (id tov arrival : Nat) (feedback : Bool) (words : List Nat) :
    Keeps 0x8208 s (State.feedNode s id tov arrival feedback words) := by
  unfold State.feedNode
  try dsimp only
  repeat' first
    | with_reducible first
        | apply Keeps.ite | apply Keeps.refl | assumption | apply storeOk_putV | apply storeOk_filter
        | apply modeOk_upd | apply modeOk_zero | apply Keeps.to ?_ ?_ (State.sheafAccept_keeps ..)
        | apply heldOk_none | apply Keeps.ofId | apply Keeps.foldS | apply Keeps.foldl | (intro _)
    | split
    | with_reducible apply Keeps.upd
    | (with_reducible apply Same.of_upd) <;> with_reducible first | exact bit_same | exact bit_in (by decide)
    | decide

theorem State.takeFeedback_keeps (s : State) (j id tov arrival : Nat) (words : List Nat) :
    Keeps 0xc8208 s (State.takeFeedback s j id tov arrival words) := by
  unfold State.takeFeedback
  try dsimp only
  repeat' first
    | with_reducible first
        | apply Keeps.ite | apply Keeps.refl | assumption | apply storeOk_putV | apply storeOk_filter
        | apply modeOk_upd | apply modeOk_zero | apply Keeps.to ?_ ?_ (State.driveRecord_keeps ..)
        | apply Keeps.to ?_ ?_ (State.setNet_keeps ..) | apply Keeps.to ?_ ?_ (State.feedNode_keeps ..)
        | apply Keeps.ofId | apply Keeps.foldS | apply Keeps.foldl | (intro _)
    | split
    | with_reducible apply Keeps.upd
    | (with_reducible apply Same.of_upd) <;> with_reducible first | exact bit_same | exact bit_in (by decide)
    | decide

theorem State.kppRecord_keeps (s : State) (source arrival : Nat) (r : KppRec) :
    Keeps 0xc8208 s (State.kppRecord s source arrival r) := by
  unfold State.kppRecord
  try dsimp only
  repeat' first
    | with_reducible first
        | apply Keeps.ite | apply Keeps.refl | assumption | apply storeOk_putV | apply storeOk_filter
        | apply modeOk_upd | apply modeOk_zero | apply Keeps.to ?_ ?_ (State.setNet_keeps ..)
        | apply Keeps.to ?_ ?_ (State.setNodeSt_keeps ..) | apply Keeps.to ?_ ?_ (State.feedNode_keeps ..)
        | apply Keeps.to ?_ ?_ (State.takeFeedback_keeps ..) | apply heldOk_none | apply Keeps.foldS
        | apply Keeps.foldl | (intro _)
    | split
    | with_reducible apply Keeps.upd
    | (with_reducible apply Same.of_upd) <;> with_reducible first | exact bit_same | exact bit_in (by decide)
    | decide

theorem State.nodeReturns_keeps (s : State) (id : Nat) :
    Keeps 0x8080248 s (State.nodeReturns s id) := by
  unfold State.nodeReturns
  try dsimp only
  repeat' first
    | with_reducible first
        | apply Keeps.ite | apply Keeps.refl | assumption | apply storeOk_putV | apply storeOk_filter
        | apply modeOk_upd | apply modeOk_zero | apply Keeps.to ?_ ?_ (State.lower_keeps ..)
        | apply Keeps.to ?_ ?_ (State.note_keeps ..) | apply Keeps.to ?_ ?_ (State.setNodeSt_keeps ..)
        | apply Keeps.ofId | apply Keeps.foldS | apply Keeps.foldl | (intro _)
    | split
    | with_reducible apply Keeps.upd
    | (with_reducible apply Same.of_upd) <;> with_reducible first | exact bit_same | exact bit_in (by decide)
    | decide

theorem State.kppHeard_keeps (s : State) (net source arrival : Nat) :
    Keeps 0x8084248 s (State.kppHeard s net source arrival) := by
  unfold State.kppHeard
  try dsimp only
  repeat' first
    | with_reducible first
        | apply Keeps.ite | apply Keeps.refl | assumption | apply storeOk_putV | apply storeOk_filter
        | apply modeOk_upd | apply modeOk_zero | apply Keeps.to ?_ ?_ (State.at'_keeps ..)
        | apply Keeps.to ?_ ?_ (State.setUnit_keeps ..) | apply Keeps.to ?_ ?_ (State.setNet_keeps ..)
        | apply Keeps.to ?_ ?_ (State.setNodeSt_keeps ..) | apply Keeps.to ?_ ?_ (State.nodeReturns_keeps ..)
        | apply heldOk_none | apply Keeps.foldS | apply Keeps.foldl | (intro _)
    | split
    | with_reducible apply Keeps.upd
    | (with_reducible apply Same.of_upd) <;> with_reducible first | exact bit_same | exact bit_in (by decide)
    | decide

theorem State.eliminate_keeps (s : State) (mac : Nat) (tag : Option Nat) (arrival : Nat) :
    Keeps 0x80000 s (State.eliminate s mac tag arrival).2 := by
  unfold State.eliminate
  try dsimp only
  repeat' first
    | with_reducible first
        | apply Keeps.ite | apply Keeps.refl | assumption | apply storeOk_putV | apply storeOk_filter
        | apply modeOk_upd | apply modeOk_zero | apply Keeps.to ?_ ?_ (State.setNet_keeps ..) | apply heldOk_none
        | apply Keeps.foldS | apply Keeps.foldl | (intro _)
    | split
    | with_reducible apply Keeps.upd
    | (with_reducible apply Same.of_upd) <;> with_reducible first | exact bit_same | exact bit_in (by decide)
    | decide
theorem State.eliminate_keepsEq {s : State} {mac : Nat} {tag : Option Nat} {arrival : Nat} {x t} (h : State.eliminate s mac tag arrival = (x, t))   : Keeps 0x80000 s t := by
  have := State.eliminate_keeps s mac tag arrival
  rw [h] at this
  exact this

theorem State.kppFrame_keeps (s : State) (net mac : Nat) (tag : Option Nat) (arrival : Nat) (b : List Byte) :
    Keeps 0x80cd248 s (State.kppFrame s net mac tag arrival b) := by
  unfold State.kppFrame
  try dsimp only
  repeat' first
    | with_reducible first
        | apply Keeps.ite | apply Keeps.refl | assumption | apply storeOk_putV | apply storeOk_filter
        | apply modeOk_upd | apply modeOk_zero | apply Keeps.to ?_ ?_ (State.incU_keeps ..)
        | apply Keeps.to ?_ ?_ (State.probe_keeps ..) | apply Keeps.to ?_ ?_ (State.setNodeSt_keeps ..)
        | apply Keeps.to ?_ ?_ (State.kppDiscard_keeps ..) | apply Keeps.to ?_ ?_ (State.kppRecord_keeps ..)
        | apply Keeps.to ?_ ?_ (State.kppHeard_keeps ..) | apply Keeps.to ?_ ?_ (State.eliminate_keeps ..)
        | apply Keeps.to ?_ ?_ (State.eliminate_keepsEq (by assumption)) | apply heldOk_none | apply Keeps.foldS
        | apply Keeps.foldl | (intro _)
    | split
    | with_reducible apply Keeps.upd
    | (with_reducible apply Same.of_upd) <;> with_reducible first | exact bit_same | exact bit_in (by decide)
    | decide

theorem State.countNet_keeps (s : State) (x : Nat) :
    Keeps 0x80000 s (State.countNet s x) := by
  unfold State.countNet
  try dsimp only
  repeat' first
    | with_reducible first
        | apply Keeps.ite | apply Keeps.refl | assumption | apply storeOk_putV | apply storeOk_filter
        | apply modeOk_upd | apply modeOk_zero | apply Keeps.to ?_ ?_ (State.setNet_keeps ..) | apply Keeps.foldS
        | apply Keeps.foldl | (intro _)
    | split
    | with_reducible apply Keeps.upd
    | (with_reducible apply Same.of_upd) <;> with_reducible first | exact bit_same | exact bit_in (by decide)
    | decide

theorem State.countOff_keeps (s : State) (f : Nat) :
    Keeps 0x8084040 s (State.countOff s f) := by
  unfold State.countOff
  try dsimp only
  repeat' first
    | with_reducible first
        | apply Keeps.ite | apply Keeps.refl | assumption | apply storeOk_putV | apply storeOk_filter
        | apply modeOk_upd | apply modeOk_zero | apply Keeps.to ?_ ?_ (State.lower_keeps ..)
        | apply Keeps.to ?_ ?_ (State.setHal_keeps ..) | apply Keeps.to ?_ ?_ (State.setNet_keeps ..)
        | apply heldOk_none | apply Keeps.foldS | apply Keeps.foldl | (intro _)
    | split
    | with_reducible apply Keeps.upd
    | (with_reducible apply Same.of_upd) <;> with_reducible first | exact bit_same | exact bit_in (by decide)
    | decide

theorem State.publishNet_keeps (s : State) (f : Nat) :
    Keeps 0x20 s (State.publishNet s f) := by
  unfold State.publishNet
  try dsimp only
  repeat' first
    | with_reducible first
        | apply Keeps.ite | apply Keeps.refl | assumption | apply storeOk_putV | apply storeOk_filter
        | apply modeOk_upd | apply modeOk_zero | apply Keeps.to ?_ ?_ (State.at'_keeps ..)
        | apply Keeps.to ?_ ?_ (State.publish_keeps ..) | apply heldOk_none | apply Keeps.ofId | apply Keeps.foldS
        | apply Keeps.foldl | (intro _)
    | split
    | with_reducible apply Keeps.upd
    | (with_reducible apply Same.of_upd) <;> with_reducible first | exact bit_same | exact bit_in (by decide)
    | decide

theorem State.netFrame_keeps (s : State) (f : Nat) :
    Keeps 0x8084060 s (State.netFrame s f) := by
  unfold State.netFrame
  try dsimp only
  repeat' first
    | with_reducible first
        | apply Keeps.ite | apply Keeps.refl | assumption | apply storeOk_putV | apply storeOk_filter
        | apply modeOk_upd | apply modeOk_zero | apply Keeps.to ?_ ?_ (State.lower_keeps ..)
        | apply Keeps.to ?_ ?_ (State.setNet_keeps ..) | apply Keeps.to ?_ ?_ (State.countNet_keeps ..)
        | apply Keeps.to ?_ ?_ (State.countOff_keeps ..) | apply Keeps.to ?_ ?_ (State.publishNet_keeps ..)
        | apply Keeps.foldS | apply Keeps.foldl | (intro _)
    | split
    | with_reducible apply Keeps.upd
    | (with_reducible apply Same.of_upd) <;> with_reducible first | exact bit_same | exact bit_in (by decide)
    | decide

theorem State.queueKpp_keeps (s : State) (l : List KppRec) :
    Keeps 0x80000 s (State.queueKpp s l) := by
  unfold State.queueKpp
  try dsimp only
  repeat' first
    | with_reducible first
        | apply Keeps.ite | apply Keeps.refl | assumption | apply storeOk_putV | apply storeOk_filter
        | apply modeOk_upd | apply modeOk_zero | apply Keeps.to ?_ ?_ (State.setNet_keeps ..) | apply Keeps.foldS
        | apply Keeps.foldl | (intro _)
    | split
    | with_reducible apply Keeps.upd
    | (with_reducible apply Same.of_upd) <;> with_reducible first | exact bit_same | exact bit_in (by decide)
    | decide

theorem execPhyLinkChange_keeps (n : Nat) (link : Bool) (speed : Nat) (full : Bool) (s : State) :
    outKeeps 0x80208 s (execPhyLinkChange n link speed full s) := by
  unfold execPhyLinkChange
  try dsimp only
  repeat' first
    | with_reducible first
        | apply outKeeps_ite | apply outKeeps.next | apply Keeps.ite | apply Keeps.refl | assumption
        | apply storeOk_putV | apply storeOk_filter | apply modeOk_upd | apply modeOk_zero
        | apply Keeps.to ?_ ?_ (State.note_keeps ..) | apply Keeps.to ?_ ?_ (State.setNet_keeps ..)
        | apply Keeps.foldS | apply Keeps.foldl | (intro _)
    | split
    | with_reducible apply Keeps.upd
    | (with_reducible apply Same.of_upd) <;> with_reducible first | exact bit_same | exact bit_in (by decide)
    | decide

theorem execKppFrame_keeps (port mac : Nat) (tag : Option Nat) (arrival : Nat) (b : List Byte) (s : State) :
    outKeeps 0x80cd248 s (execKppFrame port mac tag arrival b s) := by
  unfold execKppFrame
  try dsimp only
  repeat' first
    | with_reducible first
        | apply outKeeps_ite | apply outKeeps.next | apply Keeps.ite | apply Keeps.refl | assumption
        | apply storeOk_putV | apply storeOk_filter | apply modeOk_upd | apply modeOk_zero
        | apply Keeps.to ?_ ?_ (State.kppFrame_keeps ..) | apply Keeps.foldS | apply Keeps.foldl | (intro _)
    | split
    | with_reducible apply Keeps.upd
    | (with_reducible apply Same.of_upd) <;> with_reducible first | exact bit_same | exact bit_in (by decide)
    | decide

theorem execKppQueue_keeps (s : State) :
    outKeeps 0x80000 s (execKppQueue s) := by
  unfold execKppQueue
  try dsimp only
  repeat' first
    | with_reducible first
        | apply outKeeps_ite | apply outKeeps.next | apply Keeps.ite | apply Keeps.refl | assumption
        | apply storeOk_putV | apply storeOk_filter | apply modeOk_upd | apply modeOk_zero
        | apply Keeps.to ?_ ?_ (State.setNet_keeps ..) | apply Keeps.to ?_ ?_ (State.queueKpp_keeps ..)
        | apply Keeps.foldS | apply Keeps.foldl | (intro _)
    | split
    | with_reducible apply Keeps.upd
    | (with_reducible apply Same.of_upd) <;> with_reducible first | exact bit_same | exact bit_in (by decide)
    | decide

theorem execKppWindowClose_keeps (k : Nat) (s : State) :
    outKeeps 0x8080248 s (execKppWindowClose k s) := by
  unfold execKppWindowClose
  try dsimp only
  repeat' first
    | with_reducible first
        | apply outKeeps_ite | apply outKeeps.next | apply Keeps.ite | apply Keeps.refl | assumption
        | apply storeOk_putV | apply storeOk_filter | apply modeOk_upd | apply modeOk_zero
        | apply Keeps.to ?_ ?_ (State.addU_keeps ..) | apply Keeps.to ?_ ?_ (State.alarm_keeps ..)
        | apply Keeps.to ?_ ?_ (State.setNet_keeps ..) | apply Keeps.foldS | apply Keeps.foldl | (intro _)
    | split
    | with_reducible apply Keeps.upd
    | (with_reducible apply Same.of_upd) <;> with_reducible first | exact bit_same | exact bit_in (by decide)
    | decide

theorem execNetworkLost_keeps (x : Nat) (s : State) :
    outKeeps 0x8080248 s (execNetworkLost x s) := by
  unfold execNetworkLost
  try dsimp only
  repeat' first
    | with_reducible first
        | apply outKeeps_ite | apply outKeeps.next | apply Keeps.ite | apply Keeps.refl | assumption
        | apply storeOk_putV | apply storeOk_filter | apply modeOk_upd | apply modeOk_zero
        | apply Keeps.to ?_ ?_ (State.alarm_keeps ..) | apply Keeps.to ?_ ?_ (State.setNet_keeps ..)
        | apply Keeps.foldS | apply Keeps.foldl | (intro _)
    | split
    | with_reducible apply Keeps.upd
    | (with_reducible apply Same.of_upd) <;> with_reducible first | exact bit_same | exact bit_in (by decide)
    | decide

theorem execNetworkRestored_keeps (x : Nat) (s : State) :
    outKeeps 0x8080248 s (execNetworkRestored x s) := by
  unfold execNetworkRestored
  try dsimp only
  repeat' first
    | with_reducible first
        | apply outKeeps_ite | apply outKeeps.next | apply Keeps.ite | apply Keeps.refl | assumption
        | apply storeOk_putV | apply storeOk_filter | apply modeOk_upd | apply modeOk_zero
        | apply Keeps.to ?_ ?_ (State.lower_keeps ..) | apply Keeps.to ?_ ?_ (State.note_keeps ..)
        | apply Keeps.to ?_ ?_ (State.setNet_keeps ..) | apply Keeps.foldS | apply Keeps.foldl | (intro _)
    | split
    | with_reducible apply Keeps.upd
    | (with_reducible apply Same.of_upd) <;> with_reducible first | exact bit_same | exact bit_in (by decide)
    | decide

theorem execNodeLost_keeps (id : Nat) (s : State) :
    outKeeps 0x8080248 s (execNodeLost id s) := by
  unfold execNodeLost
  try dsimp only
  repeat' first
    | with_reducible first
        | apply outKeeps_ite | apply outKeeps.next | apply Keeps.ite | apply Keeps.refl | assumption
        | apply storeOk_putV | apply storeOk_filter | apply modeOk_upd | apply modeOk_zero
        | apply Keeps.to ?_ ?_ (State.note_keeps ..) | apply Keeps.to ?_ ?_ (State.alarm_keeps ..)
        | apply Keeps.to ?_ ?_ (State.setNodeSt_keeps ..) | apply heldOk_none | apply Keeps.ofId | apply Keeps.foldS
        | apply Keeps.foldl | (intro _)
    | split
    | with_reducible apply Keeps.upd
    | (with_reducible apply Same.of_upd) <;> with_reducible first | exact bit_same | exact bit_in (by decide)
    | decide

theorem execLeadOffFieldPath_keeps (s : State) : outKeeps 0x8084248 s (execLeadOffFieldPath s) := by
  unfold execLeadOffFieldPath
  apply outKeeps_ite (.next (Keeps.refl _))
  have h1 : Keeps 0x8084248 s ((s.alarm 0x1008 0 1 []).setNet { s.net with offPath := true }) :=
    ((State.alarm_keeps ..).mono (by decide)).to (by decide) (State.setNet_keeps ..)
  dsimp only
  generalize (s.alarm 0x1008 0 1 []).setNet { s.net with offPath := true } = t at h1 ⊢
  split
  · exact .next h1
  · rename_i u _
    have hv := State.ruleHand_keeps t .recvMap 0x3E20 0 (.u u)
    split
    · rename_i t' h'
      rw [h'] at hv
      exact .next (h1.to (by decide) hv.of_done)
    · exact .next h1


theorem execGateControlListWrite_keeps (p : Path) (b : List Byte) (s : State) :
    outKeeps 0x298 s (execGateControlListWrite p b s) := by
  unfold execGateControlListWrite
  try dsimp only
  repeat' first
    | with_reducible first
        | apply outKeeps_ite | apply outKeeps.next | apply Keeps.ite | apply Keeps.refl | assumption
        | apply storeOk_putV | apply storeOk_filter | apply modeOk_upd | apply modeOk_zero
        | apply Keeps.trans ?_ (State.writeWith_keeps ?_ _ ?_ ..) | apply verdict_to ?_ ?_ (State.ruleGate_keeps ..)
        | apply Keeps.foldS | apply Keeps.foldl | (intro _)
    | split
    | with_reducible apply Keeps.upd
    | (with_reducible apply Same.of_upd) <;> with_reducible first | exact bit_same | exact bit_in (by decide)
    | decide

theorem execNodeTableWrite_keeps (p : Path) (b : List Byte) (s : State) :
    outKeeps 0x298 s (execNodeTableWrite p b s) := by
  unfold execNodeTableWrite
  try dsimp only
  repeat' first
    | with_reducible first
        | apply outKeeps_ite | apply outKeeps.next | apply Keeps.ite | apply Keeps.refl | assumption
        | apply storeOk_putV | apply storeOk_filter | apply modeOk_upd | apply modeOk_zero
        | apply Keeps.trans ?_ (State.writeWith_keeps ?_ _ ?_ ..)
        | apply verdict_to ?_ ?_ (State.ruleNodes_keeps ..) | apply Keeps.foldS | apply Keeps.foldl | (intro _)
    | split
    | with_reducible apply Keeps.upd
    | (with_reducible apply Same.of_upd) <;> with_reducible first | exact bit_same | exact bit_in (by decide)
    | decide

theorem execProcessMapWrite_keeps (p : Path) (receive : Bool) (b : List Byte) (s : State) :
    outKeeps 0x298 s (execProcessMapWrite p receive b s) := by
  unfold execProcessMapWrite
  try dsimp only
  repeat' first
    | with_reducible first
        | apply outKeeps_ite | apply outKeeps.next | apply Keeps.ite | apply Keeps.refl | assumption
        | apply storeOk_putV | apply storeOk_filter | apply modeOk_upd | apply modeOk_zero
        | apply Keeps.trans ?_ (State.writeWith_keeps ?_ _ ?_ ..) | apply verdict_to ?_ ?_ (State.ruleMap_keeps ..)
        | apply Keeps.foldS | apply Keeps.foldl | (intro _)
    | split
    | with_reducible apply Keeps.upd
    | (with_reducible apply Same.of_upd) <;> with_reducible first | exact bit_same | exact bit_in (by decide)
    | decide

end Sys2Proof.Machine
end

