-- ==== Sys2Proof/Laws/KeepStartUp.lean ====
section
/-! SUPPORT. What the operations of Machine/StartUp.lean keep (Laws/Keeps.lean). -/
namespace Sys2Proof.Machine

theorem State.setSt_keeps (s : State) (x : Start) :
    Keeps 0x2000 s (State.setSt s x) := by
  unfold State.setSt
  try dsimp only
  repeat' first
    | with_reducible first
        | apply Keeps.ite | apply Keeps.refl | assumption | apply storeOk_putV | apply storeOk_filter
        | apply modeOk_upd | apply modeOk_zero | apply Keeps.foldS | apply Keeps.foldl | (intro _)
    | split
    | with_reducible apply Keeps.upd
    | (with_reducible apply Same.of_upd) <;> with_reducible first | exact bit_same | exact bit_in (by decide)
    | decide

theorem State.applyMarks_keeps (s : State) :
    Keeps 0x88 s (State.applyMarks s) := by
  unfold State.applyMarks
  try dsimp only
  repeat' first
    | with_reducible first
        | apply Keeps.ite | apply Keeps.refl | assumption | apply storeOk_putV | apply storeOk_filter
        | apply modeOk_upd | apply modeOk_zero | apply Keeps.to ?_ ?_ (State.writeCopy_keeps ..) | apply heldOk_none
        | apply Keeps.foldS | apply Keeps.foldl | (intro _)
    | split
    | with_reducible apply Keeps.upd
    | (with_reducible apply Same.of_upd) <;> with_reducible first | exact bit_same | exact bit_in (by decide)
    | decide

theorem State.noteOlder_keeps (s : State) :
    Keeps 0x208 s (State.noteOlder s) := by
  unfold State.noteOlder
  try dsimp only
  repeat' first
    | with_reducible first
        | apply Keeps.ite | apply Keeps.refl | assumption | apply storeOk_putV | apply storeOk_filter
        | apply modeOk_upd | apply modeOk_zero | apply Keeps.to ?_ ?_ (State.note_keeps ..) | apply heldOk_none
        | apply Keeps.foldS | apply Keeps.foldl | (intro _)
    | split
    | with_reducible apply Keeps.upd
    | (with_reducible apply Same.of_upd) <;> with_reducible first | exact bit_same | exact bit_in (by decide)
    | decide

theorem State.loadParams_keeps (s : State) :
    Keeps 0x80002d8 s (State.loadParams s) := by
  unfold State.loadParams
  try dsimp only
  repeat' first
    | with_reducible first
        | apply Keeps.ite | apply Keeps.refl | assumption | apply storeOk_putV | apply storeOk_filter
        | apply modeOk_upd | apply modeOk_zero | apply Keeps.to ?_ ?_ (State.putBoth_keeps ..)
        | apply Keeps.to ?_ ?_ (State.alarm_keeps ..) | apply Keeps.to ?_ ?_ (State.applyMarks_keeps ..)
        | apply Keeps.to ?_ ?_ (State.noteOlder_keeps ..) | apply heldOk_none | apply storeOk_foldl
        | apply Keeps.foldS | apply Keeps.foldl | (intro _)
    | split
    | with_reducible apply Keeps.upd
    | (with_reducible apply Same.of_upd) <;> with_reducible first | exact bit_same | exact bit_in (by decide)
    | decide

theorem State.loadSelection_keeps (s : State) :
    Keeps 0x18 s (State.loadSelection s) := by
  unfold State.loadSelection
  try dsimp only
  repeat' first
    | with_reducible first
        | apply Keeps.ite | apply Keeps.refl | assumption | apply storeOk_putV | apply storeOk_filter
        | apply modeOk_upd | apply modeOk_zero | apply Keeps.to ?_ ?_ (State.putBoth_keeps ..) | apply Keeps.foldS
        | apply Keeps.foldl | (intro _)
    | split
    | with_reducible apply Keeps.upd
    | (with_reducible apply Same.of_upd) <;> with_reducible first | exact bit_same | exact bit_in (by decide)
    | decide

theorem State.checkArtefact_keeps {m : Nat} (le : 0x18 ||| m = m) {rule : State → Path → Nat → Nat → Val → Verdict}
    (hr : ∀ s p idx sub v, Verdict.keeps m s (rule s p idx sub v)) (s : State) (idx : Nat) :
    Keeps m s (State.checkArtefact s idx rule) := by
  unfold State.checkArtefact
  apply Keeps.ite (Keeps.refl _)
  have hv := hr s .panicle idx 0 (s.objV idx 0)
  split
  · rename_i h
    rw [h] at hv
    exact hv.of_refuse.to (by rw [← le, ← Nat.or_assoc]; rfl) (State.putBoth_keeps ..)
  · exact Keeps.refl _


theorem State.loadChaff_keeps (s : State) :
    Keeps 0x100000 s (State.loadChaff s) := by
  unfold State.loadChaff
  try dsimp only
  repeat' first
    | with_reducible first
        | apply Keeps.ite | apply Keeps.refl | assumption | apply storeOk_putV | apply storeOk_filter
        | apply modeOk_upd | apply modeOk_zero | apply Keeps.to ?_ ?_ (State.at'_keeps ..)
        | apply Keeps.to ?_ ?_ (State.record_keeps ..) | apply Keeps.to ?_ ?_ (State.setChan_keeps ..)
        | apply heldOk_none | apply Keeps.foldS | apply Keeps.foldl | (intro _)
    | split
    | with_reducible apply Keeps.upd
    | (with_reducible apply Same.of_upd) <;> with_reducible first | exact bit_same | exact bit_in (by decide)
    | decide

theorem State.configStage_keeps (s : State) :
    Keeps 0x80002d8 s (State.configStage s) := by
  unfold State.configStage
  try dsimp only
  repeat' first
    | with_reducible first
        | apply Keeps.ite | apply Keeps.refl | assumption | apply storeOk_putV | apply storeOk_filter
        | apply modeOk_upd | apply modeOk_zero | apply verdict_to ?_ ?_ (State.ruleCulmSet_keeps ..)
        | apply verdict_to ?_ ?_ (State.ruleStubSet_keeps ..) | apply verdict_to ?_ ?_ (State.ruleChaffSet_keeps ..)
        | apply verdict_to ?_ ?_ (State.ruleImage_keeps ..) | apply Keeps.to ?_ ?_ (State.loadParams_keeps ..)
        | apply Keeps.to ?_ ?_ (State.loadSelection_keeps ..)
        | apply Keeps.trans ?_ (State.checkArtefact_keeps ?_ ?_ ..) | apply Keeps.foldS | apply Keeps.foldl
        | (intro _)
    | split
    | with_reducible apply Keeps.upd
    | (with_reducible apply Same.of_upd) <;> with_reducible first | exact bit_same | exact bit_in (by decide)
    | decide

theorem State.beginStart_keeps (s : State) (kind cause : Nat) :
    Keeps 0xffffffc s (State.beginStart s kind cause) := by
  unfold State.beginStart
  try dsimp only
  repeat' first
    | with_reducible first
        | apply Keeps.ite | apply Keeps.refl | assumption | apply storeOk_putV | apply storeOk_filter
        | apply modeOk_upd | apply modeOk_zero | apply heldOk_none | apply Keeps.foldS | apply Keeps.foldl
        | (intro _)
    | split
    | with_reducible apply Keeps.upd
    | (with_reducible apply Same.of_upd) <;> with_reducible first | exact bit_same | exact bit_in (by decide)
    | decide

theorem State.flushNotes_keeps (s : State) :
    Keeps 0x8002248 s (State.flushNotes s) := by
  unfold State.flushNotes
  try dsimp only
  repeat' first
    | with_reducible first
        | apply Keeps.ite | apply Keeps.refl | assumption | apply storeOk_putV | apply storeOk_filter
        | apply modeOk_upd | apply modeOk_zero | apply Keeps.to ?_ ?_ (State.note_keeps ..)
        | apply Keeps.to ?_ ?_ (State.alarm_keeps ..) | apply Keeps.to ?_ ?_ (State.setSt_keeps ..)
        | apply Keeps.foldS | apply Keeps.foldl | (intro _)
    | split
    | with_reducible apply Keeps.upd
    | (with_reducible apply Same.of_upd) <;> with_reducible first | exact bit_same | exact bit_in (by decide)
    | decide

theorem State.deferNote_keeps (s : State) (code cls : Nat) (params : List Nat) :
    Keeps 0x2000 s (State.deferNote s code cls params) := by
  unfold State.deferNote
  try dsimp only
  repeat' first
    | with_reducible first
        | apply Keeps.ite | apply Keeps.refl | assumption | apply storeOk_putV | apply storeOk_filter
        | apply modeOk_upd | apply modeOk_zero | apply Keeps.to ?_ ?_ (State.setSt_keeps ..) | apply Keeps.foldS
        | apply Keeps.foldl | (intro _)
    | split
    | with_reducible apply Keeps.upd
    | (with_reducible apply Same.of_upd) <;> with_reducible first | exact bit_same | exact bit_in (by decide)
    | decide

theorem State.chainStart_keeps (s : State) :
    Keeps 0x8368248 s (State.chainStart s) := by
  unfold State.chainStart
  try dsimp only
  repeat' first
    | with_reducible first
        | apply Keeps.ite | apply Keeps.refl | assumption | apply storeOk_putV | apply storeOk_filter
        | apply modeOk_upd | apply modeOk_zero | apply Keeps.to ?_ ?_ (State.obsUninit_keeps ..)
        | apply Keeps.to ?_ ?_ (State.setTill_keeps ..) | apply Keeps.to ?_ ?_ (State.setStook_keeps ..)
        | apply Keeps.to ?_ ?_ (State.restartAllEnc_keeps ..) | apply Keeps.to ?_ ?_ (State.restartChaff_keeps ..)
        | apply heldOk_none | apply Keeps.foldS | apply Keeps.foldl | (intro _)
    | split
    | with_reducible apply Keeps.upd
    | (with_reducible apply Same.of_upd) <;> with_reducible first | exact bit_same | exact bit_in (by decide)
    | decide

theorem State.standbyReady_keeps (s : State) (f : Nat) :
    Keeps 0x80c634c s (State.standbyReady s f) := by
  unfold State.standbyReady
  try dsimp only
  repeat' first
    | with_reducible first
        | apply Keeps.ite | apply Keeps.refl | assumption | apply storeOk_putV | apply storeOk_filter
        | apply modeOk_upd | apply modeOk_zero | apply Keeps.to ?_ ?_ (State.setHal_keeps ..)
        | apply Keeps.to ?_ ?_ (State.toStandby_keeps ..) | apply Keeps.to ?_ ?_ (State.setNet_keeps ..)
        | apply Keeps.to ?_ ?_ (State.setSt_keeps ..) | apply heldOk_none | apply Keeps.foldS | apply Keeps.foldl
        | (intro _)
    | split
    | with_reducible apply Keeps.upd
    | (with_reducible apply Same.of_upd) <;> with_reducible first | exact bit_same | exact bit_in (by decide)
    | decide

theorem State.startChain_keeps (s : State) :
    Keeps 0xa3ee35c s (State.startChain s) := by
  unfold State.startChain
  try dsimp only
  repeat' first
    | with_reducible first
        | apply Keeps.ite | apply Keeps.refl | assumption | apply storeOk_putV | apply storeOk_filter
        | apply modeOk_upd | apply modeOk_zero | apply Keeps.to ?_ ?_ (State.putBoth_keeps ..)
        | apply Keeps.to ?_ ?_ (State.setPan_keeps ..) | apply Keeps.to ?_ ?_ (State.loadChaff_keeps ..)
        | apply Keeps.to ?_ ?_ (State.chainStart_keeps ..) | apply Keeps.to ?_ ?_ (State.standbyReady_keeps ..)
        | apply Keeps.foldS | apply Keeps.foldl | (intro _)
    | split
    | with_reducible apply Keeps.upd
    | (with_reducible apply Same.of_upd) <;> with_reducible first | exact bit_same | exact bit_in (by decide)
    | decide

theorem State.startObjects_keeps (s : State) (ms : Nat) :
    Keeps 0x18 s (State.startObjects s ms) := by
  unfold State.startObjects
  try dsimp only
  repeat' first
    | with_reducible first
        | apply Keeps.ite | apply Keeps.refl | assumption | apply storeOk_putV | apply storeOk_filter
        | apply modeOk_upd | apply modeOk_zero | apply Keeps.to ?_ ?_ (State.putBoth_keeps ..) | apply Keeps.foldS
        | apply Keeps.foldl | (intro _)
    | split
    | with_reducible apply Keeps.upd
    | (with_reducible apply Same.of_upd) <;> with_reducible first | exact bit_same | exact bit_in (by decide)
    | decide

theorem State.lastStage_keeps (s : State) :
    Keeps 0xa3eebdc s (State.lastStage s) := by
  unfold State.lastStage
  try dsimp only
  repeat' first
    | with_reducible first
        | apply Keeps.ite | apply Keeps.refl | assumption | apply storeOk_putV | apply storeOk_filter
        | apply modeOk_upd | apply modeOk_zero | apply Keeps.to ?_ ?_ (State.putBoth_keeps ..)
        | apply Keeps.to ?_ ?_ (State.raise_keeps ..) | apply Keeps.to ?_ ?_ (State.note_keeps ..)
        | apply Keeps.to ?_ ?_ (State.storeKeys_keeps ..) | apply Keeps.to ?_ ?_ (State.setTherm_keeps ..)
        | apply Keeps.to ?_ ?_ (State.startChain_keeps ..) | apply Keeps.to ?_ ?_ (State.startObjects_keeps ..)
        | apply Keeps.foldS | apply Keeps.foldl | (intro _)
    | split
    | with_reducible apply Keeps.upd
    | (with_reducible apply Same.of_upd) <;> with_reducible first | exact bit_same | exact bit_in (by decide)
    | decide

theorem State.abandonSlot_keeps (s : State) (slot reason : Nat) :
    Keeps 0x2000 s (State.abandonSlot s slot reason) := by
  unfold State.abandonSlot
  try dsimp only
  repeat' first
    | with_reducible first
        | apply Keeps.ite | apply Keeps.refl | assumption | apply storeOk_putV | apply storeOk_filter
        | apply modeOk_upd | apply modeOk_zero | apply Keeps.to ?_ ?_ (State.setSt_keeps ..)
        | apply Keeps.to ?_ ?_ (State.deferNote_keeps ..) | apply Keeps.foldS | apply Keeps.foldl | (intro _)
    | split
    | with_reducible apply Keeps.upd
    | (with_reducible apply Same.of_upd) <;> with_reducible first | exact bit_same | exact bit_in (by decide)
    | decide

theorem State.holdRom_keeps (s : State) :
    Keeps 0x2000 s (State.holdRom s) := by
  unfold State.holdRom
  try dsimp only
  repeat' first
    | with_reducible first
        | apply Keeps.ite | apply Keeps.refl | assumption | apply storeOk_putV | apply storeOk_filter
        | apply modeOk_upd | apply modeOk_zero | apply Keeps.to ?_ ?_ (State.setSt_keeps ..) | apply Keeps.foldS
        | apply Keeps.foldl | (intro _)
    | split
    | with_reducible apply Keeps.upd
    | (with_reducible apply Same.of_upd) <;> with_reducible first | exact bit_same | exact bit_in (by decide)
    | decide

theorem State.chooseSlot_keeps (s : State) :
    Keeps 0x2000 s (State.chooseSlot s) := by
  unfold State.chooseSlot
  try dsimp only
  repeat' first
    | with_reducible first
        | apply Keeps.ite | apply Keeps.refl | assumption | apply storeOk_putV | apply storeOk_filter
        | apply modeOk_upd | apply modeOk_zero | apply Keeps.to ?_ ?_ (State.setSt_keeps ..)
        | apply Keeps.to ?_ ?_ (State.holdRom_keeps ..) | apply heldOk_none | apply Keeps.foldS | apply Keeps.foldl
        | (intro _)
    | split
    | with_reducible apply Keeps.upd
    | (with_reducible apply Same.of_upd) <;> with_reducible first | exact bit_same | exact bit_in (by decide)
    | decide

theorem State.failTest_keeps (s : State) (f : Nat × Nat) :
    Keeps 0x2218 s (State.failTest s f) := by
  unfold State.failTest
  try dsimp only
  repeat' first
    | with_reducible first
        | apply Keeps.ite | apply Keeps.refl | assumption | apply storeOk_putV | apply storeOk_filter
        | apply modeOk_upd | apply modeOk_zero | apply Keeps.to ?_ ?_ (State.putBoth_keeps ..)
        | apply Keeps.to ?_ ?_ (State.record_keeps ..) | apply Keeps.to ?_ ?_ (State.setSt_keeps ..)
        | apply Keeps.foldS | apply Keeps.foldl | (intro _)
    | split
    | with_reducible apply Keeps.upd
    | (with_reducible apply Same.of_upd) <;> with_reducible first | exact bit_same | exact bit_in (by decide)
    | decide

theorem State.stage1_keeps (s : State) (x : StageIn) :
    Keeps 0x2404 s (State.stage1 s x) := by
  unfold State.stage1
  try dsimp only
  repeat' first
    | with_reducible first
        | apply Keeps.ite | apply Keeps.refl | assumption | apply storeOk_putV | apply storeOk_filter
        | apply modeOk_upd | apply modeOk_zero | apply Keeps.to ?_ ?_ (State.setHusk_keeps ..)
        | apply Keeps.to ?_ ?_ (State.setSt_keeps ..) | apply Keeps.to ?_ ?_ (State.deferNote_keeps ..)
        | apply heldOk_none | apply Keeps.foldS | apply Keeps.foldl | (intro _)
    | split
    | with_reducible apply Keeps.upd
    | (with_reducible apply Same.of_upd) <;> with_reducible first | exact bit_same | exact bit_in (by decide)
    | decide

theorem State.stage4_keeps (s : State) (x : StageIn) :
    Keeps 0x2000 s (State.stage4 s x) := by
  unfold State.stage4
  try dsimp only
  repeat' first
    | with_reducible first
        | apply Keeps.ite | apply Keeps.refl | assumption | apply storeOk_putV | apply storeOk_filter
        | apply modeOk_upd | apply modeOk_zero | apply Keeps.to ?_ ?_ (State.setSt_keeps ..)
        | apply Keeps.to ?_ ?_ (State.abandonSlot_keeps ..) | apply Keeps.to ?_ ?_ (State.chooseSlot_keeps ..)
        | apply Keeps.foldS | apply Keeps.foldl | (intro _)
    | split
    | with_reducible apply Keeps.upd
    | (with_reducible apply Same.of_upd) <;> with_reducible first | exact bit_same | exact bit_in (by decide)
    | decide

theorem State.stage5_keeps (s : State) (x : StageIn) :
    Keeps 0x800265a s (State.stage5 s x) := by
  unfold State.stage5
  try dsimp only
  repeat' first
    | with_reducible first
        | apply Keeps.ite | apply Keeps.refl | assumption | apply storeOk_putV | apply storeOk_filter
        | apply modeOk_upd | apply modeOk_zero | apply Keeps.to ?_ ?_ (State.openGranary_keeps ..)
        | apply Keeps.to ?_ ?_ (State.tamperLatched_keeps ..) | apply Keeps.to ?_ ?_ (State.setSt_keeps ..)
        | apply Keeps.to ?_ ?_ (State.flushNotes_keeps ..) | apply Keeps.to ?_ ?_ (State.failTest_keeps ..)
        | apply Keeps.foldS | apply Keeps.foldl | (intro _)
    | split
    | with_reducible apply Keeps.upd
    | (with_reducible apply Same.of_upd) <;> with_reducible first | exact bit_same | exact bit_in (by decide)
    | decide

theorem State.stageDone_keeps (s : State) (x : StageIn) :
    Keeps 0xa3eefde s (State.stageDone s x) := by
  unfold State.stageDone
  try dsimp only
  repeat' first
    | with_reducible first
        | apply Keeps.ite | apply Keeps.refl | assumption | apply storeOk_putV | apply storeOk_filter
        | apply modeOk_upd | apply modeOk_zero | apply Keeps.to ?_ ?_ (State.setNet_keeps ..)
        | apply Keeps.to ?_ ?_ (State.setSt_keeps ..) | apply Keeps.to ?_ ?_ (State.configStage_keeps ..)
        | apply Keeps.to ?_ ?_ (State.lastStage_keeps ..) | apply Keeps.to ?_ ?_ (State.holdRom_keeps ..)
        | apply Keeps.to ?_ ?_ (State.chooseSlot_keeps ..) | apply Keeps.to ?_ ?_ (State.stage1_keeps ..)
        | apply Keeps.to ?_ ?_ (State.stage4_keeps ..) | apply Keeps.to ?_ ?_ (State.stage5_keeps ..)
        | apply Keeps.foldS | apply Keeps.foldl | (intro _)
    | split
    | with_reducible apply Keeps.upd
    | (with_reducible apply Same.of_upd) <;> with_reducible first | exact bit_same | exact bit_in (by decide)
    | decide

theorem State.cutStore_keeps (s : State) :
    Keeps 0x80 s (State.cutStore s) := by
  unfold State.cutStore
  try dsimp only
  repeat' first
    | with_reducible first
        | apply Keeps.ite | apply Keeps.refl | assumption | apply storeOk_putV | apply storeOk_filter
        | apply modeOk_upd | apply modeOk_zero | apply heldOk_none | apply Keeps.foldS | apply Keeps.foldl
        | (intro _)
    | split
    | with_reducible apply Keeps.upd
    | (with_reducible apply Same.of_upd) <;> with_reducible first | exact bit_same | exact bit_in (by decide)
    | decide

theorem State.dark_keeps (s : State) (p : Power) :
    Keeps 0x406080 s (State.dark s p) := by
  unfold State.dark
  try dsimp only
  repeat' first
    | with_reducible first
        | apply Keeps.ite | apply Keeps.refl | assumption | apply storeOk_putV | apply storeOk_filter
        | apply modeOk_upd | apply modeOk_zero | apply Keeps.to ?_ ?_ (State.restartDue_keeps ..)
        | apply heldOk_none | apply Keeps.foldS | apply Keeps.foldl | (intro _)
    | split
    | with_reducible apply Keeps.upd
    | (with_reducible apply Same.of_upd) <;> with_reducible first | exact bit_same | exact bit_in (by decide)
    | decide

theorem State.orderRestart_keeps (s : State) (p : Path) (kind : Nat) :
    Keeps 0xa002248 s (State.orderRestart s p kind) := by
  unfold State.orderRestart
  try dsimp only
  repeat' first
    | with_reducible first
        | apply Keeps.ite | apply Keeps.refl | assumption | apply storeOk_putV | apply storeOk_filter
        | apply modeOk_upd | apply modeOk_zero | apply Keeps.to ?_ ?_ (State.note_keeps ..)
        | apply Keeps.to ?_ ?_ (State.writeRetain_keeps ..) | apply Keeps.to ?_ ?_ (State.setSt_keeps ..)
        | apply Keeps.foldS | apply Keeps.foldl | (intro _)
    | split
    | with_reducible apply Keeps.upd
    | (with_reducible apply Same.of_upd) <;> with_reducible first | exact bit_same | exact bit_in (by decide)
    | decide

theorem State.ruleRestart2020_keeps (s : State) (p : Path) (x1 x2 : Nat) (v : Val) :
    Verdict.keeps 0xa002248 s (State.ruleRestart2020 s p x1 x2 v) := by
  unfold State.ruleRestart2020
  try dsimp only
  repeat' first
    | with_reducible first
        | apply verdict_ite | apply Verdict.keeps.store | apply Verdict.keeps.refuse | apply Verdict.keeps.done
        | apply Keeps.ite | apply Keeps.refl | assumption | apply storeOk_putV | apply storeOk_filter
        | apply modeOk_upd | apply modeOk_zero | apply Keeps.to ?_ ?_ (State.orderRestart_keeps ..)
        | apply Keeps.foldS | apply Keeps.foldl | (intro _)
    | split
    | with_reducible apply Keeps.upd
    | (with_reducible apply Same.of_upd) <;> with_reducible first | exact bit_same | exact bit_in (by decide)
    | decide

theorem State.restartBoundary_keeps (s : State) : Keeps 0xffffffc s s.restartBoundary := by
  unfold State.restartBoundary
  split
  · exact Keeps.refl _
  · rename_i kind _
    have h1 := (State.writePages_keeps s s.writable.length).mono (m := 0xffffffc) (by decide)
    dsimp only
    generalize s.writePages s.writable.length = t at h1 ⊢
    refine Keeps.trans h1 (Keeps.ite (Keeps.refl _) ?_)
    split
    · rename_i u _
      refine Keeps.ite (Keeps.ite (Keeps.refl _) ?_) (State.beginStart_keeps ..)
      have hv := State.ruleHand_keeps t .panicle 0x3E20 0 (.u u)
      split
      · rename_i t' h'
        rw [h'] at hv
        exact (hv.of_done.mono (by decide)).to (by decide) (State.setSt_keeps ..)
      · exact (State.beginStart_keeps ..).mono (by decide)
    · exact (State.beginStart_keeps ..).mono (by decide)


theorem State.enterDormancy_keeps (s : State) :
    Keeps 0xac06248 s (State.enterDormancy s) := by
  unfold State.enterDormancy
  try dsimp only
  repeat' first
    | with_reducible first
        | apply Keeps.ite | apply Keeps.refl | assumption | apply storeOk_putV | apply storeOk_filter
        | apply modeOk_upd | apply modeOk_zero | apply Keeps.to ?_ ?_ (State.note_keeps ..)
        | apply Keeps.to ?_ ?_ (State.safeUpdate_keeps ..) | apply Keeps.to ?_ ?_ (State.setGn_keeps ..)
        | apply Keeps.to ?_ ?_ (State.writeRetain_keeps ..) | apply Keeps.to ?_ ?_ (State.writePages_keeps ..)
        | apply Keeps.to ?_ ?_ (State.setSt_keeps ..) | apply Keeps.foldS | apply Keeps.foldl | (intro _)
    | split
    | with_reducible apply Keeps.upd
    | (with_reducible apply Same.of_upd) <;> with_reducible first | exact bit_same | exact bit_in (by decide)
    | decide

theorem execVinApplied_keeps (t : Nat) (s : State) :
    outKeeps 0xffffffc s (execVinApplied t s) := by
  unfold execVinApplied
  try dsimp only
  repeat' first
    | with_reducible first
        | apply outKeeps_ite | apply outKeeps.next | apply Keeps.ite | apply Keeps.refl | assumption
        | apply storeOk_putV | apply storeOk_filter | apply modeOk_upd | apply modeOk_zero
        | apply Keeps.to ?_ ?_ (State.setSt_keeps ..) | apply Keeps.to ?_ ?_ (State.beginStart_keeps ..)
        | apply Keeps.foldS | apply Keeps.foldl | (intro _)
    | split
    | with_reducible apply Keeps.upd
    | (with_reducible apply Same.of_upd) <;> with_reducible first | exact bit_same | exact bit_in (by decide)
    | decide

theorem execStartUpStage_keeps (x : StageIn) (s : State) :
    outKeeps 0xa3eefde s (execStartUpStage x s) := by
  unfold execStartUpStage
  try dsimp only
  repeat' first
    | with_reducible first
        | apply outKeeps_ite | apply outKeeps.next | apply Keeps.ite | apply Keeps.refl | assumption
        | apply storeOk_putV | apply storeOk_filter | apply modeOk_upd | apply modeOk_zero
        | apply Keeps.to ?_ ?_ (State.at'_keeps ..) | apply Keeps.to ?_ ?_ (State.stageDone_keeps ..)
        | apply Keeps.foldS | apply Keeps.foldl | (intro _)
    | split
    | with_reducible apply Keeps.upd
    | (with_reducible apply Same.of_upd) <;> with_reducible first | exact bit_same | exact bit_in (by decide)
    | decide

theorem execBootWatchdog_keeps (t : Nat) (s : State) :
    outKeeps 0xffffffc s (execBootWatchdog t s) := by
  unfold execBootWatchdog
  try dsimp only
  repeat' first
    | with_reducible first
        | apply outKeeps_ite | apply outKeeps.next | apply Keeps.ite | apply Keeps.refl | assumption
        | apply storeOk_putV | apply storeOk_filter | apply modeOk_upd | apply modeOk_zero
        | apply Keeps.to ?_ ?_ (State.at'_keeps ..) | apply Keeps.to ?_ ?_ (State.setSt_keeps ..)
        | apply Keeps.to ?_ ?_ (State.beginStart_keeps ..) | apply Keeps.to ?_ ?_ (State.abandonSlot_keeps ..)
        | apply Keeps.foldS | apply Keeps.foldl | (intro _)
    | split
    | with_reducible apply Keeps.upd
    | (with_reducible apply Same.of_upd) <;> with_reducible first | exact bit_same | exact bit_in (by decide)
    | decide

theorem execSelfTestHaltRetry_keeps (t : Nat) (s : State) :
    outKeeps 0xffffffc s (execSelfTestHaltRetry t s) := by
  unfold execSelfTestHaltRetry
  try dsimp only
  repeat' first
    | with_reducible first
        | apply outKeeps_ite | apply outKeeps.next | apply Keeps.ite | apply Keeps.refl | assumption
        | apply storeOk_putV | apply storeOk_filter | apply modeOk_upd | apply modeOk_zero
        | apply Keeps.to ?_ ?_ (State.at'_keeps ..) | apply Keeps.to ?_ ?_ (State.beginStart_keeps ..)
        | apply Keeps.foldS | apply Keeps.foldl | (intro _)
    | split
    | with_reducible apply Keeps.upd
    | (with_reducible apply Same.of_upd) <;> with_reducible first | exact bit_same | exact bit_in (by decide)
    | decide

theorem execRepeatableSelfTest_keeps (item inst : Nat) (pass : Bool) (s : State) :
    outKeeps 0x8002258 s (execRepeatableSelfTest item inst pass s) := by
  unfold execRepeatableSelfTest
  try dsimp only
  repeat' first
    | with_reducible first
        | apply outKeeps_ite | apply outKeeps.next | apply Keeps.ite | apply Keeps.refl | assumption
        | apply storeOk_putV | apply storeOk_filter | apply modeOk_upd | apply modeOk_zero
        | apply Keeps.to ?_ ?_ (State.raise_keeps ..) | apply Keeps.to ?_ ?_ (State.unitStop_keeps ..)
        | apply Keeps.to ?_ ?_ (State.failTest_keeps ..) | apply Keeps.foldS | apply Keeps.foldl | (intro _)
    | split
    | with_reducible apply Keeps.upd
    | (with_reducible apply Same.of_upd) <;> with_reducible first | exact bit_same | exact bit_in (by decide)
    | decide

theorem execResetNLow_keeps (s : State) :
    outKeeps 0x406288 s (execResetNLow s) := by
  unfold execResetNLow
  try dsimp only
  repeat' first
    | with_reducible first
        | apply outKeeps_ite | apply outKeeps.next | apply Keeps.ite | apply Keeps.refl | assumption
        | apply storeOk_putV | apply storeOk_filter | apply modeOk_upd | apply modeOk_zero
        | apply Keeps.to ?_ ?_ (State.setGran_keeps ..) | apply Keeps.to ?_ ?_ (State.countHeld_keeps ..)
        | apply Keeps.to ?_ ?_ (State.flushRec_keeps ..) | apply Keeps.to ?_ ?_ (State.setSt_keeps ..)
        | apply Keeps.to ?_ ?_ (State.cutStore_keeps ..) | apply Keeps.to ?_ ?_ (State.dark_keeps ..)
        | apply heldOk_none | apply Keeps.foldS | apply Keeps.foldl | (intro _)
    | split
    | with_reducible apply Keeps.upd
    | (with_reducible apply Same.of_upd) <;> with_reducible first | exact bit_same | exact bit_in (by decide)
    | decide

theorem execResetNRelease_keeps (t : Nat) (s : State) :
    outKeeps 0xffffffc s (execResetNRelease t s) := by
  unfold execResetNRelease
  try dsimp only
  repeat' first
    | with_reducible first
        | apply outKeeps_ite | apply outKeeps.next | apply Keeps.ite | apply Keeps.refl | assumption
        | apply storeOk_putV | apply storeOk_filter | apply modeOk_upd | apply modeOk_zero
        | apply Keeps.to ?_ ?_ (State.at'_keeps ..) | apply Keeps.to ?_ ?_ (State.setSt_keeps ..)
        | apply Keeps.to ?_ ?_ (State.beginStart_keeps ..) | apply Keeps.foldS | apply Keeps.foldl | (intro _)
    | split
    | with_reducible apply Keeps.upd
    | (with_reducible apply Same.of_upd) <;> with_reducible first | exact bit_same | exact bit_in (by decide)
    | decide

theorem execVinFalling_keeps (s : State) :
    outKeeps 0xa4062c8 s (execVinFalling s) := by
  unfold execVinFalling
  try dsimp only
  repeat' first
    | with_reducible first
        | apply outKeeps_ite | apply outKeeps.next | apply Keeps.ite | apply Keeps.refl | assumption
        | apply storeOk_putV | apply storeOk_filter | apply modeOk_upd | apply modeOk_zero
        | apply Keeps.to ?_ ?_ (State.writeRetain_keeps ..) | apply Keeps.to ?_ ?_ (State.powerFlush_keeps ..)
        | apply Keeps.to ?_ ?_ (State.setSt_keeps ..) | apply Keeps.to ?_ ?_ (State.cutStore_keeps ..)
        | apply Keeps.to ?_ ?_ (State.dark_keeps ..) | apply Keeps.foldS | apply Keeps.foldl | (intro _)
    | split
    | with_reducible apply Keeps.upd
    | (with_reducible apply Same.of_upd) <;> with_reducible first | exact bit_same | exact bit_in (by decide)
    | decide

theorem execSupervisorReset_keeps (frames t : Nat) (s : State) :
    outKeeps 0xffffffc s (execSupervisorReset frames t s) := by
  unfold execSupervisorReset
  try dsimp only
  repeat' first
    | with_reducible first
        | apply outKeeps_ite | apply outKeeps.next | apply Keeps.ite | apply Keeps.refl | assumption
        | apply storeOk_putV | apply storeOk_filter | apply modeOk_upd | apply modeOk_zero
        | apply Keeps.to ?_ ?_ (State.at'_keeps ..) | apply Keeps.to ?_ ?_ (State.beginStart_keeps ..)
        | apply Keeps.to ?_ ?_ (State.cutStore_keeps ..) | apply Keeps.foldS | apply Keeps.foldl | (intro _)
    | split
    | with_reducible apply Keeps.upd
    | (with_reducible apply Same.of_upd) <;> with_reducible first | exact bit_same | exact bit_in (by decide)
    | decide

theorem execAutomaticRestart_keeps (t : Nat) (refresh : Bool) (s : State) :
    outKeeps 0xffffffc s (execAutomaticRestart t refresh s) := by
  unfold execAutomaticRestart
  try dsimp only
  repeat' first
    | with_reducible first
        | apply outKeeps_ite | apply outKeeps.next | apply Keeps.ite | apply Keeps.refl | assumption
        | apply storeOk_putV | apply storeOk_filter | apply modeOk_upd | apply modeOk_zero
        | apply Keeps.to ?_ ?_ (State.at'_keeps ..) | apply Keeps.to ?_ ?_ (State.restartDue_keeps ..)
        | apply Keeps.to ?_ ?_ (State.beginStart_keeps ..) | apply Keeps.foldS | apply Keeps.foldl | (intro _)
    | split
    | with_reducible apply Keeps.upd
    | (with_reducible apply Same.of_upd) <;> with_reducible first | exact bit_same | exact bit_in (by decide)
    | decide

theorem execRecoveryImage_keeps (b : List Byte) (s : State) :
    outKeeps 0x400 s (execRecoveryImage b s) := by
  unfold execRecoveryImage
  try dsimp only
  repeat' first
    | with_reducible first
        | apply outKeeps_ite | apply outKeeps.next | apply Keeps.ite | apply Keeps.refl | assumption
        | apply storeOk_putV | apply storeOk_filter | apply modeOk_upd | apply modeOk_zero
        | apply Keeps.to ?_ ?_ (State.putImage_keeps ..) | apply Keeps.foldS | apply Keeps.foldl | (intro _)
    | split
    | with_reducible apply Keeps.upd
    | (with_reducible apply Same.of_upd) <;> with_reducible first | exact bit_same | exact bit_in (by decide)
    | decide

theorem execStrapCheck_keeps (boot unit : Nat) (s : State) :
    outKeeps 0x8002248 s (execStrapCheck boot unit s) := by
  unfold execStrapCheck
  try dsimp only
  repeat' first
    | with_reducible first
        | apply outKeeps_ite | apply outKeeps.next | apply Keeps.ite | apply Keeps.refl | assumption
        | apply storeOk_putV | apply storeOk_filter | apply modeOk_upd | apply modeOk_zero
        | apply Keeps.to ?_ ?_ (State.lower_keeps ..) | apply Keeps.to ?_ ?_ (State.alarm_keeps ..)
        | apply Keeps.to ?_ ?_ (State.setSt_keeps ..) | apply Keeps.foldS | apply Keeps.foldl | (intro _)
    | split
    | with_reducible apply Keeps.upd
    | (with_reducible apply Same.of_upd) <;> with_reducible first | exact bit_same | exact bit_in (by decide)
    | decide

theorem execRomRetry_keeps (t : Nat) (s : State) :
    outKeeps 0x2004 s (execRomRetry t s) := by
  unfold execRomRetry
  try dsimp only
  repeat' first
    | with_reducible first
        | apply outKeeps_ite | apply outKeeps.next | apply Keeps.ite | apply Keeps.refl | assumption
        | apply storeOk_putV | apply storeOk_filter | apply modeOk_upd | apply modeOk_zero
        | apply Keeps.to ?_ ?_ (State.at'_keeps ..) | apply Keeps.to ?_ ?_ (State.setSt_keeps ..)
        | apply Keeps.foldS | apply Keeps.foldl | (intro _)
    | split
    | with_reducible apply Keeps.upd
    | (with_reducible apply Same.of_upd) <;> with_reducible first | exact bit_same | exact bit_in (by decide)
    | decide

theorem execRestartWarmCommand_keeps (p : Path) (s : State) :
    outKeeps 0xa0022d8 s (execRestartWarmCommand p s) := by
  unfold execRestartWarmCommand
  try dsimp only
  repeat' first
    | with_reducible first
        | apply outKeeps_ite | apply outKeeps.next | apply Keeps.ite | apply Keeps.refl | assumption
        | apply storeOk_putV | apply storeOk_filter | apply modeOk_upd | apply modeOk_zero
        | apply Keeps.trans ?_ (State.writeWith_keeps ?_ _ ?_ ..)
        | apply verdict_to ?_ ?_ (State.ruleRestart2020_keeps ..) | apply Keeps.foldS | apply Keeps.foldl
        | (intro _)
    | split
    | with_reducible apply Keeps.upd
    | (with_reducible apply Same.of_upd) <;> with_reducible first | exact bit_same | exact bit_in (by decide)
    | decide

theorem execRestartColdCommand_keeps (p : Path) (s : State) :
    outKeeps 0xa0022d8 s (execRestartColdCommand p s) := by
  unfold execRestartColdCommand
  try dsimp only
  repeat' first
    | with_reducible first
        | apply outKeeps_ite | apply outKeeps.next | apply Keeps.ite | apply Keeps.refl | assumption
        | apply storeOk_putV | apply storeOk_filter | apply modeOk_upd | apply modeOk_zero
        | apply Keeps.trans ?_ (State.writeWith_keeps ?_ _ ?_ ..)
        | apply verdict_to ?_ ?_ (State.ruleRestart2020_keeps ..) | apply Keeps.foldS | apply Keeps.foldl
        | (intro _)
    | split
    | with_reducible apply Keeps.upd
    | (with_reducible apply Same.of_upd) <;> with_reducible first | exact bit_same | exact bit_in (by decide)
    | decide

theorem execWakeComplete_keeps (ok : Bool) (s : State) :
    outKeeps 0xffffffc s (execWakeComplete ok s) := by
  unfold execWakeComplete
  try dsimp only
  repeat' first
    | with_reducible first
        | apply outKeeps_ite | apply outKeeps.next | apply Keeps.ite | apply Keeps.refl | assumption
        | apply storeOk_putV | apply storeOk_filter | apply modeOk_upd | apply modeOk_zero
        | apply Keeps.to ?_ ?_ (State.setPan_keeps ..) | apply Keeps.to ?_ ?_ (State.setNet_keeps ..)
        | apply Keeps.to ?_ ?_ (State.beginStart_keeps ..) | apply Keeps.to ?_ ?_ (State.chainStart_keeps ..)
        | apply Keeps.to ?_ ?_ (State.standbyReady_keeps ..) | apply Keeps.foldS | apply Keeps.foldl | (intro _)
    | split
    | with_reducible apply Keeps.upd
    | (with_reducible apply Same.of_upd) <;> with_reducible first | exact bit_same | exact bit_in (by decide)
    | decide

end Sys2Proof.Machine
end

