-- ==== Sys2Proof/Laws/KeepRules.lean ====
section
/-! SUPPORT. What the operations of Machine/Rules.lean keep (Laws/Keeps.lean). -/
namespace Sys2Proof.Machine

theorem State.readCompares_keeps (s : State) (p : Path) (sub : Nat) :
    Keeps 0x200088 s (State.readCompares s p sub) := by
  unfold State.readCompares
  try dsimp only
  repeat' first
    | with_reducible first
        | apply Keeps.ite | apply Keeps.refl | assumption | apply storeOk_putV | apply storeOk_filter
        | apply modeOk_upd | apply modeOk_zero | apply Keeps.to ?_ ?_ (State.answer_keeps ..)
        | apply Keeps.to ?_ ?_ (State.readWith_keeps ..) | apply Keeps.to ?_ ?_ (State.setEnc_keeps ..)
        | apply Keeps.to ?_ ?_ (State.putCompares_keeps ..) | apply heldOk_none | apply Keeps.foldS
        | apply Keeps.foldl | (intro _)
    | split
    | with_reducible apply Keeps.upd
    | (with_reducible apply Same.of_upd) <;> with_reducible first | exact bit_same | exact bit_in (by decide)
    | decide

theorem State.readAny_keeps (s : State) (p : Path) (idx sub : Nat) :
    Keeps 0x200088 s (State.readAny s p idx sub) := by
  unfold State.readAny
  try dsimp only
  repeat' first
    | with_reducible first
        | apply Keeps.ite | apply Keeps.refl | assumption | apply storeOk_putV | apply storeOk_filter
        | apply modeOk_upd | apply modeOk_zero | apply Keeps.to ?_ ?_ (State.putU_keeps ..)
        | apply Keeps.to ?_ ?_ (State.answer_keeps ..) | apply Keeps.to ?_ ?_ (State.readWith_keeps ..)
        | apply Keeps.to ?_ ?_ (State.readSticky_keeps ..) | apply Keeps.to ?_ ?_ (State.navRead_keeps ..)
        | apply Keeps.to ?_ ?_ (State.readGranary_keeps ..) | apply Keeps.to ?_ ?_ (State.readCompares_keeps ..)
        | apply heldOk_none | apply Keeps.foldS | apply Keeps.foldl | (intro _)
    | split
    | with_reducible apply Keeps.upd
    | (with_reducible apply Same.of_upd) <;> with_reducible first | exact bit_same | exact bit_in (by decide)
    | decide

theorem State.ruleStore_keeps (s : State) (x1 : Path) (idx sub : Nat) (v : Val) :
    Verdict.keeps 0x80 s (State.ruleStore s x1 idx sub v) := by
  unfold State.ruleStore
  try dsimp only
  repeat' first
    | with_reducible first
        | apply verdict_ite | apply Verdict.keeps.store | apply Verdict.keeps.refuse | apply Verdict.keeps.done
        | apply Keeps.ite | apply Keeps.refl | assumption | apply storeOk_putV | apply storeOk_filter
        | apply modeOk_upd | apply modeOk_zero | apply Keeps.to ?_ ?_ (State.acceptAction_keeps ..)
        | apply Keeps.foldS | apply Keeps.foldl | (intro _)
    | split
    | with_reducible apply Keeps.upd
    | (with_reducible apply Same.of_upd) <;> with_reducible first | exact bit_same | exact bit_in (by decide)
    | decide

theorem State.ruleRestore_keeps (s : State) (x1 : Path) (x2 sub : Nat) (v : Val) :
    Verdict.keeps 0x80 s (State.ruleRestore s x1 x2 sub v) := by
  unfold State.ruleRestore
  try dsimp only
  repeat' first
    | with_reducible first
        | apply verdict_ite | apply Verdict.keeps.store | apply Verdict.keeps.refuse | apply Verdict.keeps.done
        | apply Keeps.ite | apply Keeps.refl | assumption | apply storeOk_putV | apply storeOk_filter
        | apply modeOk_upd | apply modeOk_zero | apply Keeps.foldS | apply Keeps.foldl | (intro _)
    | split
    | with_reducible apply Keeps.upd
    | (with_reducible apply Same.of_upd) <;> with_reducible first | exact bit_same | exact bit_in (by decide)
    | decide

theorem State.ruleLength_keeps (s : State) (x1 : Path) (x2 sub : Nat) (v : Val) :
    Verdict.keeps 0x0 s (State.ruleLength s x1 x2 sub v) := by
  unfold State.ruleLength
  try dsimp only
  repeat' first
    | with_reducible first
        | apply verdict_ite | apply Verdict.keeps.store | apply Verdict.keeps.refuse | apply Verdict.keeps.done
        | apply Keeps.ite | apply Keeps.refl | assumption | apply storeOk_putV | apply storeOk_filter
        | apply modeOk_upd | apply modeOk_zero | apply Keeps.foldS | apply Keeps.foldl | (intro _)
    | split
    | with_reducible apply Keeps.upd
    | (with_reducible apply Same.of_upd) <;> with_reducible first | exact bit_same | exact bit_in (by decide)
    | decide

theorem State.ruleTimebase_keeps (s : State) (x1 : Path) (idx sub : Nat) (v : Val) :
    Verdict.keeps 0x0 s (State.ruleTimebase s x1 idx sub v) := by
  unfold State.ruleTimebase
  try dsimp only
  repeat' first
    | with_reducible first
        | apply verdict_ite | apply Verdict.keeps.store | apply Verdict.keeps.refuse | apply Verdict.keeps.done
        | apply Keeps.ite | apply Keeps.refl | assumption | apply storeOk_putV | apply storeOk_filter
        | apply modeOk_upd | apply modeOk_zero | apply Keeps.foldS | apply Keeps.foldl | (intro _)
    | split
    | with_reducible apply Keeps.upd
    | (with_reducible apply Same.of_upd) <;> with_reducible first | exact bit_same | exact bit_in (by decide)
    | decide

theorem State.ruleSource_keeps (s : State) (x1 : Path) (x2 x3 : Nat) (v : Val) :
    Verdict.keeps 0x0 s (State.ruleSource s x1 x2 x3 v) := by
  unfold State.ruleSource
  try dsimp only
  repeat' first
    | with_reducible first
        | apply verdict_ite | apply Verdict.keeps.store | apply Verdict.keeps.refuse | apply Verdict.keeps.done
        | apply Keeps.ite | apply Keeps.refl | assumption | apply storeOk_putV | apply storeOk_filter
        | apply modeOk_upd | apply modeOk_zero | apply Keeps.foldS | apply Keeps.foldl | (intro _)
    | split
    | with_reducible apply Keeps.upd
    | (with_reducible apply Same.of_upd) <;> with_reducible first | exact bit_same | exact bit_in (by decide)
    | decide

theorem State.rulePlain_keeps (s : State) (p : Path) (idx sub : Nat) (v : Val) :
    Verdict.keeps 0x208 s (State.rulePlain s p idx sub v) := by
  unfold State.rulePlain
  try dsimp only
  repeat' first
    | with_reducible first
        | apply verdict_ite | apply Verdict.keeps.store | apply Verdict.keeps.refuse | apply Verdict.keeps.done
        | apply Keeps.ite | apply Keeps.refl | assumption | apply storeOk_putV | apply storeOk_filter
        | apply modeOk_upd | apply modeOk_zero | apply verdict_to ?_ ?_ (State.ruleGroup_keeps ..)
        | apply verdict_to ?_ ?_ (State.ruleDescriptor_keeps ..) | apply verdict_to ?_ ?_ (State.rulePlant_keeps ..)
        | apply verdict_to ?_ ?_ (State.ruleThruster_keeps ..) | apply verdict_to ?_ ?_ (State.ruleCase_keeps ..)
        | apply verdict_to ?_ ?_ (State.ruleImu_keeps ..) | apply verdict_to ?_ ?_ (State.ruleEnc_keeps ..)
        | apply verdict_to ?_ ?_ (State.ruleChaffSource_keeps ..) | apply verdict_to ?_ ?_ (State.ruleGate_keeps ..)
        | apply verdict_to ?_ ?_ (State.ruleNodes_keeps ..) | apply verdict_to ?_ ?_ (State.ruleMap_keeps ..)
        | apply verdict_to ?_ ?_ (State.ruleTiming_keeps ..) | apply verdict_to ?_ ?_ (State.ruleFilter_keeps ..)
        | apply verdict_to ?_ ?_ (State.ruleCanDrive_keeps ..) | apply verdict_to ?_ ?_ (State.rulePdoComm_keeps ..)
        | apply verdict_to ?_ ?_ (State.rulePdoMap_keeps ..) | apply verdict_to ?_ ?_ (State.rulePower_keeps ..)
        | apply verdict_to ?_ ?_ (State.ruleWake_keeps ..) | apply verdict_to ?_ ?_ (State.ruleMonitor_keeps ..)
        | apply verdict_to ?_ ?_ (State.ruleLength_keeps ..) | apply verdict_to ?_ ?_ (State.ruleTimebase_keeps ..)
        | apply verdict_to ?_ ?_ (State.ruleSource_keeps ..) | apply Keeps.foldS | apply Keeps.foldl | (intro _)
    | split
    | with_reducible apply Keeps.upd
    | (with_reducible apply Same.of_upd) <;> with_reducible first | exact bit_same | exact bit_in (by decide)
    | decide

theorem State.withEntries_keeps (s : State) (l : List (Nat × Nat × List Byte)) :
    Keeps 0x8 s (State.withEntries s l) := by
  unfold State.withEntries
  try dsimp only
  repeat' first
    | with_reducible first
        | apply Keeps.ite | apply Keeps.refl | assumption | apply storeOk_putV | apply storeOk_filter
        | apply modeOk_upd | apply modeOk_zero | apply storeOk_foldl | apply Keeps.foldS | apply Keeps.foldl
        | (intro _)
    | split
    | with_reducible apply Keeps.upd
    | (with_reducible apply Same.of_upd) <;> with_reducible first | exact bit_same | exact bit_in (by decide)
    | decide

theorem State.configRefuse_keeps (s : State) (b : List Byte) (a key : Nat) :
    Verdict.keeps 0x208 s (State.configRefuse s b a key) := by
  unfold State.configRefuse
  try dsimp only
  repeat' first
    | with_reducible first
        | apply verdict_ite | apply Verdict.keeps.store | apply Verdict.keeps.refuse | apply Verdict.keeps.done
        | apply Keeps.ite | apply Keeps.refl | assumption | apply storeOk_putV | apply storeOk_filter
        | apply modeOk_upd | apply modeOk_zero | apply Keeps.to ?_ ?_ (State.putU_keeps ..)
        | apply Keeps.to ?_ ?_ (State.note_keeps ..) | apply Keeps.foldS | apply Keeps.foldl | (intro _)
    | split
    | with_reducible apply Keeps.upd
    | (with_reducible apply Same.of_upd) <;> with_reducible first | exact bit_same | exact bit_in (by decide)
    | decide

theorem State.brokenRule_keeps {s : State} {p : Path} {l : List (Nat × Nat × List Byte)} {k : Nat} {t : State}
    (h : s.brokenRule p l = some (k, t)) : Keeps 0x208 s t := by
  induction l with
  | nil => cases h
  | cons e l ih =>
    unfold State.brokenRule at h
    have hv := State.rulePlain_keeps s p (e.1 / 256) (e.1 % 256) (entryVal e.1 e.2.2)
    split at h
    · rename_i h'
      rw [h'] at hv
      cases h
      exact hv.of_refuse
    · exact ih h

/-- An entry's event in place of the values it was tried on. -/
theorem State.keepEvent_keeps {m : Nat} {s full t : State} (hb : m.testBit 3 = true) (h0 : Keeps m s full) (h : Keeps m full t) :
    Keeps m s (s.keepEvent t) :=
  have ht := h0.trans h
  ⟨ht.queue, fun ho _ => storeOk_putV _ _ ho, ht.force, ht.mode, ht.held, { ht.same with obj := bit_in hb }⟩


theorem State.ruleConfig_keeps (s : State) (p : Path) (x y : Nat) (v : Val) :
    Verdict.keeps 0x208 s (State.ruleConfig s p x y v) := by
  unfold State.ruleConfig
  dsimp only
  split
  · exact verdict_to (by decide) (Keeps.refl _) (State.configRefuse_keeps ..)
  · rename_i d _
    split
    · exact verdict_to (by decide) (Keeps.refl _) (State.configRefuse_keeps ..)
    · rename_i l _
      refine verdict_ite (verdict_to (by decide) (Keeps.refl _) (State.configRefuse_keeps ..)) ?_
      split
      · exact verdict_to (by decide) (Keeps.refl _) (State.configRefuse_keeps ..)
      · have h1 := (State.setSigned_keeps s d).mono (m := 0x208) (by decide)
        generalize (s.setSigned d).snd = t at h1 ⊢
        refine verdict_ite (verdict_to (by decide) h1 (State.configRefuse_keeps ..)) ?_
        split
        · exact verdict_to (by decide) h1 (State.configRefuse_keeps ..)
        · split
          · rename_i h
            exact verdict_to (by decide) (h1.trans (State.keepEvent_keeps (by decide) ((State.withEntries_keeps ..).mono (by decide))
              ((State.brokenRule_keeps h).mono (by decide)))) (State.configRefuse_keeps ..)
          · exact verdict_ite (verdict_to (by decide) (h1.to (by decide) (State.note_keeps ..)) (State.configRefuse_keeps ..)) .store


theorem State.afterWrite_keeps (s : State) (p : Path) (idx sub : Nat) (b : List Byte) :
    Keeps 0xa8012e8 s (State.afterWrite s p idx sub b) := by
  unfold State.afterWrite
  try dsimp only
  repeat' first
    | with_reducible first
        | apply Keeps.ite | apply Keeps.refl | assumption | apply storeOk_putV | apply storeOk_filter
        | apply modeOk_upd | apply modeOk_zero | apply Keeps.to ?_ ?_ (State.note_keeps ..)
        | apply Keeps.to ?_ ?_ (State.storeKeys_keeps ..) | apply Keeps.to ?_ ?_ (State.setGn_keeps ..)
        | apply Keeps.to ?_ ?_ (State.setPan_keeps ..) | apply Keeps.to ?_ ?_ (State.canAfter_keeps ..)
        | apply Keeps.to ?_ ?_ (State.publishWindow_keeps ..) | apply Keeps.to ?_ ?_ (State.monitorAfter_keeps ..)
        | apply Keeps.foldS | apply Keeps.foldl | (intro _)
    | split
    | with_reducible apply Keeps.upd
    | (with_reducible apply Same.of_upd) <;> with_reducible first | exact bit_same | exact bit_in (by decide)
    | decide

theorem State.ruleAll_keeps (s : State) (p : Path) (idx sub : Nat) (v : Val) :
    Verdict.keeps 0xbe267da s (State.ruleAll s p idx sub v) := by
  unfold State.ruleAll
  try dsimp only
  repeat' first
    | with_reducible first
        | apply verdict_ite | apply Verdict.keeps.store | apply Verdict.keeps.refuse | apply Verdict.keeps.done
        | apply Keeps.ite | apply Keeps.refl | assumption | apply storeOk_putV | apply storeOk_filter
        | apply modeOk_upd | apply modeOk_zero | apply verdict_to ?_ ?_ (State.ruleSelection_keeps ..)
        | apply verdict_to ?_ ?_ (State.ruleObsReset_keeps ..) | apply verdict_to ?_ ?_ (State.ruleCulmSet_keeps ..)
        | apply verdict_to ?_ ?_ (State.ruleStubSet_keeps ..) | apply verdict_to ?_ ?_ (State.ruleTransmit_keeps ..)
        | apply verdict_to ?_ ?_ (State.ruleCompare_keeps ..) | apply verdict_to ?_ ?_ (State.ruleChaffSet_keeps ..)
        | apply verdict_to ?_ ?_ (State.ruleGnss_keeps ..) | apply verdict_to ?_ ?_ (State.ruleJump_keeps ..)
        | apply verdict_to ?_ ?_ (State.ruleForces_keeps ..) | apply verdict_to ?_ ?_ (State.ruleImage_keeps ..)
        | apply verdict_to ?_ ?_ (State.ruleRestart_keeps ..) | apply verdict_to ?_ ?_ (State.ruleHand_keeps ..)
        | apply verdict_to ?_ ?_ (State.ruleCanRestart_keeps ..)
        | apply verdict_to ?_ ?_ (State.ruleCursor_keeps ..) | apply verdict_to ?_ ?_ (State.ruleToken_keeps ..)
        | apply verdict_to ?_ ?_ (State.ruleOwnerCa_keeps ..)
        | apply verdict_to ?_ ?_ (State.ruleRevocation_keeps ..) | apply verdict_to ?_ ?_ (State.ruleSlot_keeps ..)
        | apply verdict_to ?_ ?_ (State.ruleCommit_keeps ..)
        | apply verdict_to ?_ ?_ (State.ruleTamperClear_keeps ..)
        | apply verdict_to ?_ ?_ (State.ruleRestart2020_keeps ..)
        | apply verdict_to ?_ ?_ (State.ruleCommand_keeps ..) | apply verdict_to ?_ ?_ (State.ruleStore_keeps ..)
        | apply verdict_to ?_ ?_ (State.ruleRestore_keeps ..) | apply verdict_to ?_ ?_ (State.rulePlain_keeps ..)
        | apply verdict_to ?_ ?_ (State.ruleConfig_keeps ..) | apply Keeps.foldS | apply Keeps.foldl | (intro _)
    | split
    | with_reducible apply Keeps.upd
    | (with_reducible apply Same.of_upd) <;> with_reducible first | exact bit_same | exact bit_in (by decide)
    | decide

theorem State.writeAny_keeps (s : State) (p : Path) (idx sub : Nat) (b : List Byte) :
    Keeps 0xbe277fa s (State.writeAny s p idx sub b) := by
  unfold State.writeAny
  try dsimp only
  repeat' first
    | with_reducible first
        | apply Keeps.ite | apply Keeps.refl | assumption | apply storeOk_putV | apply storeOk_filter
        | apply modeOk_upd | apply modeOk_zero | apply Keeps.trans ?_ (State.writeWith_keeps ?_ _ ?_ ..)
        | apply Keeps.to ?_ ?_ (State.answer_keeps ..) | apply Keeps.to ?_ ?_ (State.writeTiming_keeps ..)
        | apply Keeps.to ?_ ?_ (State.afterWrite_keeps ..) | apply verdict_to ?_ ?_ (State.ruleAll_keeps ..)
        | apply Keeps.foldS | apply Keeps.foldl | (intro _)
    | split
    | with_reducible apply Keeps.upd
    | (with_reducible apply Same.of_upd) <;> with_reducible first | exact bit_same | exact bit_in (by decide)
    | decide

theorem State.applyConfigSet_keeps (s : State) :
    Keeps 0x8000298 s (State.applyConfigSet s) := by
  unfold State.applyConfigSet
  try dsimp only
  repeat' first
    | with_reducible first
        | apply Keeps.ite | apply Keeps.refl | assumption | apply storeOk_putV | apply storeOk_filter
        | apply modeOk_upd | apply modeOk_zero | apply Keeps.to ?_ ?_ (State.putU_keeps ..)
        | apply Keeps.to ?_ ?_ (State.putBoth_keeps ..) | apply Keeps.to ?_ ?_ (State.note_keeps ..)
        | apply Keeps.to ?_ ?_ (State.canAfter_keeps ..) | apply heldOk_none | apply Keeps.foldS | apply Keeps.foldl
        | (intro _)
    | split
    | with_reducible apply Keeps.upd
    | (with_reducible apply Same.of_upd) <;> with_reducible first | exact bit_same | exact bit_in (by decide)
    | decide

theorem State.finishStore_keeps (s : State) :
    Keeps 0x80 s (State.finishStore s) := by
  unfold State.finishStore
  try dsimp only
  repeat' first
    | with_reducible first
        | apply Keeps.ite | apply Keeps.refl | assumption | apply storeOk_putV | apply storeOk_filter
        | apply modeOk_upd | apply modeOk_zero | apply Keeps.to ?_ ?_ (State.storeKeys_keeps ..) | apply heldOk_none
        | apply Keeps.foldS | apply Keeps.foldl | (intro _)
    | split
    | with_reducible apply Keeps.upd
    | (with_reducible apply Same.of_upd) <;> with_reducible first | exact bit_same | exact bit_in (by decide)
    | decide

theorem execGenericWrite_keeps (p : Path) (idx sub : Nat) (b : List Byte) (s : State) :
    outKeeps 0xbe277fa s (execGenericWrite p idx sub b s) := by
  unfold execGenericWrite
  try dsimp only
  repeat' first
    | with_reducible first
        | apply outKeeps_ite | apply outKeeps.next | apply Keeps.ite | apply Keeps.refl | assumption
        | apply storeOk_putV | apply storeOk_filter | apply modeOk_upd | apply modeOk_zero
        | apply Keeps.to ?_ ?_ (State.writeAny_keeps ..) | apply Keeps.foldS | apply Keeps.foldl | (intro _)
    | split
    | with_reducible apply Keeps.upd
    | (with_reducible apply Same.of_upd) <;> with_reducible first | exact bit_same | exact bit_in (by decide)
    | decide

theorem execResultSampleRead_keeps (p : Path) (idx : Nat) (s : State) :
    outKeeps 0x200088 s (execResultSampleRead p idx s) := by
  unfold execResultSampleRead
  try dsimp only
  repeat' first
    | with_reducible first
        | apply outKeeps_ite | apply outKeeps.next | apply Keeps.ite | apply Keeps.refl | assumption
        | apply storeOk_putV | apply storeOk_filter | apply modeOk_upd | apply modeOk_zero
        | apply Keeps.to ?_ ?_ (State.readAny_keeps ..) | apply Keeps.foldS | apply Keeps.foldl | (intro _)
    | split
    | with_reducible apply Keeps.upd
    | (with_reducible apply Same.of_upd) <;> with_reducible first | exact bit_same | exact bit_in (by decide)
    | decide

theorem execResultLatchTimeout_keeps (p : Path) (t : Nat) (s : State) :
    outKeeps 0x84 s (execResultLatchTimeout p t s) := by
  unfold execResultLatchTimeout
  try dsimp only
  repeat' first
    | with_reducible first
        | apply outKeeps_ite | apply outKeeps.next | apply Keeps.ite | apply Keeps.refl | assumption
        | apply storeOk_putV | apply storeOk_filter | apply modeOk_upd | apply modeOk_zero
        | apply Keeps.to ?_ ?_ (State.at'_keeps ..) | apply Keeps.to ?_ ?_ (State.setSession_keeps ..)
        | apply heldOk_none | apply Keeps.foldS | apply Keeps.foldl | (intro _)
    | split
    | with_reducible apply Keeps.upd
    | (with_reducible apply Same.of_upd) <;> with_reducible first | exact bit_same | exact bit_in (by decide)
    | decide

theorem execStoreParameters_keeps (p : Path) (sub : Nat) (b : List Byte) (s : State) :
    outKeeps 0x298 s (execStoreParameters p sub b s) := by
  unfold execStoreParameters
  try dsimp only
  repeat' first
    | with_reducible first
        | apply outKeeps_ite | apply outKeeps.next | apply Keeps.ite | apply Keeps.refl | assumption
        | apply storeOk_putV | apply storeOk_filter | apply modeOk_upd | apply modeOk_zero
        | apply Keeps.trans ?_ (State.writeWith_keeps ?_ _ ?_ ..)
        | apply verdict_to ?_ ?_ (State.ruleStore_keeps ..) | apply Keeps.foldS | apply Keeps.foldl | (intro _)
    | split
    | with_reducible apply Keeps.upd
    | (with_reducible apply Same.of_upd) <;> with_reducible first | exact bit_same | exact bit_in (by decide)
    | decide

theorem execStoreComplete_keeps (s : State) :
    outKeeps 0x80 s (execStoreComplete s) := by
  unfold execStoreComplete
  try dsimp only
  repeat' first
    | with_reducible first
        | apply outKeeps_ite | apply outKeeps.next | apply Keeps.ite | apply Keeps.refl | assumption
        | apply storeOk_putV | apply storeOk_filter | apply modeOk_upd | apply modeOk_zero
        | apply Keeps.to ?_ ?_ (State.finishStore_keeps ..) | apply Keeps.foldS | apply Keeps.foldl | (intro _)
    | split
    | with_reducible apply Keeps.upd
    | (with_reducible apply Same.of_upd) <;> with_reducible first | exact bit_same | exact bit_in (by decide)
    | decide

theorem execRestoreDefaults_keeps (p : Path) (sub : Nat) (b : List Byte) (s : State) :
    outKeeps 0x298 s (execRestoreDefaults p sub b s) := by
  unfold execRestoreDefaults
  try dsimp only
  repeat' first
    | with_reducible first
        | apply outKeeps_ite | apply outKeeps.next | apply Keeps.ite | apply Keeps.refl | assumption
        | apply storeOk_putV | apply storeOk_filter | apply modeOk_upd | apply modeOk_zero
        | apply Keeps.trans ?_ (State.writeWith_keeps ?_ _ ?_ ..)
        | apply verdict_to ?_ ?_ (State.ruleRestore_keeps ..) | apply Keeps.foldS | apply Keeps.foldl | (intro _)
    | split
    | with_reducible apply Keeps.upd
    | (with_reducible apply Same.of_upd) <;> with_reducible first | exact bit_same | exact bit_in (by decide)
    | decide

theorem execConfigurationSetLoad_keeps (p : Path) (b : List Byte) (s : State) :
    outKeeps 0x298 s (execConfigurationSetLoad p b s) := by
  unfold execConfigurationSetLoad
  try dsimp only
  repeat' first
    | with_reducible first
        | apply outKeeps_ite | apply outKeeps.next | apply Keeps.ite | apply Keeps.refl | assumption
        | apply storeOk_putV | apply storeOk_filter | apply modeOk_upd | apply modeOk_zero
        | apply Keeps.trans ?_ (State.writeWith_keeps ?_ _ ?_ ..)
        | apply verdict_to ?_ ?_ (State.ruleConfig_keeps ..) | apply Keeps.foldS | apply Keeps.foldl | (intro _)
    | split
    | with_reducible apply Keeps.upd
    | (with_reducible apply Same.of_upd) <;> with_reducible first | exact bit_same | exact bit_in (by decide)
    | decide

theorem execSampleLengthWrite_keeps (p : Path) (b : List Byte) (s : State) :
    outKeeps 0xbe277fa s (execSampleLengthWrite p b s) := by
  unfold execSampleLengthWrite
  try dsimp only
  repeat' first
    | with_reducible first
        | apply outKeeps_ite | apply outKeeps.next | apply Keeps.ite | apply Keeps.refl | assumption
        | apply storeOk_putV | apply storeOk_filter | apply modeOk_upd | apply modeOk_zero
        | apply Keeps.to ?_ ?_ (State.writeAny_keeps ..) | apply Keeps.foldS | apply Keeps.foldl | (intro _)
    | split
    | with_reducible apply Keeps.upd
    | (with_reducible apply Same.of_upd) <;> with_reducible first | exact bit_same | exact bit_in (by decide)
    | decide

end Sys2Proof.Machine
end

