-- ==== Sys2Proof/Laws/KeepScan.lean ====
section
/-! SUPPORT. What the operations of Machine/Scan.lean keep (Laws/Keeps.lean). -/
namespace Sys2Proof.Machine

theorem State.writeOut_keeps (s : State) (p : Prog) (o : Nat × Nat) :
    Keeps 0xbe277fa s (State.writeOut s p o) := by
  unfold State.writeOut
  try dsimp only
  repeat' first
    | with_reducible first
        | apply Keeps.ite | apply Keeps.refl | assumption | apply storeOk_putV | apply storeOk_filter
        | apply modeOk_upd | apply modeOk_zero | apply Keeps.to ?_ ?_ (State.incU_keeps ..)
        | apply Keeps.to ?_ ?_ (State.note_keeps ..) | apply Keeps.to ?_ ?_ (State.answer_keeps ..)
        | apply Keeps.to ?_ ?_ (State.setPan_keeps ..) | apply Keeps.to ?_ ?_ (State.writeAny_keeps ..)
        | apply heldOk_none | apply Keeps.foldS | apply Keeps.foldl | (intro _)
    | split
    | with_reducible apply Keeps.upd
    | (with_reducible apply Same.of_upd) <;> with_reducible first | exact bit_same | exact bit_in (by decide)
    | decide

theorem State.outputPhase_keeps (s : State) :
    Keeps 0xbe277fa s (State.outputPhase s) := by
  unfold State.outputPhase
  try dsimp only
  repeat' first
    | with_reducible first
        | apply Keeps.ite | apply Keeps.refl | assumption | apply storeOk_putV | apply storeOk_filter
        | apply modeOk_upd | apply modeOk_zero | apply Keeps.to ?_ ?_ (State.publishPan_keeps ..)
        | apply Keeps.to ?_ ?_ (State.writeOut_keeps ..) | apply heldOk_none | apply storeOk_foldl
        | apply Keeps.foldS | apply Keeps.foldl | (intro _)
    | split
    | with_reducible apply Keeps.upd
    | (with_reducible apply Same.of_upd) <;> with_reducible first | exact bit_same | exact bit_in (by decide)
    | decide

theorem execPanicleInputPhase_keeps (s : State) :
    outKeeps 0xa000248 s (execPanicleInputPhase s) := by
  unfold execPanicleInputPhase
  try dsimp only
  repeat' first
    | with_reducible first
        | apply outKeeps_ite | apply outKeeps.next | apply Keeps.ite | apply Keeps.refl | assumption
        | apply storeOk_putV | apply storeOk_filter | apply modeOk_upd | apply modeOk_zero
        | apply Keeps.to ?_ ?_ (State.inputPhase_keeps ..) | apply Keeps.foldS | apply Keeps.foldl | (intro _)
    | split
    | with_reducible apply Keeps.upd
    | (with_reducible apply Same.of_upd) <;> with_reducible first | exact bit_same | exact bit_in (by decide)
    | decide

theorem execPanicleOutputPhase_keeps (s : State) :
    outKeeps 0xbe277fa s (execPanicleOutputPhase s) := by
  unfold execPanicleOutputPhase
  try dsimp only
  repeat' first
    | with_reducible first
        | apply outKeeps_ite | apply outKeeps.next | apply Keeps.ite | apply Keeps.refl | assumption
        | apply storeOk_putV | apply storeOk_filter | apply modeOk_upd | apply modeOk_zero
        | apply Keeps.to ?_ ?_ (State.outputPhase_keeps ..) | apply Keeps.foldS | apply Keeps.foldl | (intro _)
    | split
    | with_reducible apply Keeps.upd
    | (with_reducible apply Same.of_upd) <;> with_reducible first | exact bit_same | exact bit_in (by decide)
    | decide

end Sys2Proof.Machine
end

