-- ==== Sys2Proof/Laws/KeepServe.lean ====
section
/-! SUPPORT. What the operations of Machine/Serve.lean keep (Laws/Keeps.lean). -/
namespace Sys2Proof.Machine

theorem State.processWrite_keeps (s : State) (p : Path) (idx sub : Nat) (b : List Byte) :
    Keeps 0xbe277fa s (State.processWrite s p idx sub b).2 := by
  unfold State.processWrite
  try dsimp only
  repeat' first
    | with_reducible first
        | apply Keeps.ite | apply Keeps.refl | assumption | apply storeOk_putV | apply storeOk_filter
        | apply modeOk_upd | apply modeOk_zero | apply Keeps.to ?_ ?_ (State.answer_keeps ..)
        | apply Keeps.to ?_ ?_ (State.writeAny_keeps ..) | apply Keeps.foldS | apply Keeps.foldl | (intro _)
    | split
    | with_reducible apply Keeps.upd
    | (with_reducible apply Same.of_upd) <;> with_reducible first | exact bit_same | exact bit_in (by decide)
    | decide
theorem State.processWrite_keepsEq {s : State} {p : Path} {idx sub : Nat} {b : List Byte} {x t} (h : State.processWrite s p idx sub b = (x, t))   : Keeps 0xbe277fa s t := by
  have := State.processWrite_keeps s p idx sub b
  rw [h] at this
  exact this

theorem State.receiveEntry_keeps (s : State) (k : Nat) (e : List Byte) :
    Keeps 0xbea77fa s (State.receiveEntry s k e) := by
  unfold State.receiveEntry
  try dsimp only
  repeat' first
    | with_reducible first
        | apply Keeps.ite | apply Keeps.refl | assumption | apply storeOk_putV | apply storeOk_filter
        | apply modeOk_upd | apply modeOk_zero | apply Keeps.to ?_ ?_ (State.incU_keeps ..)
        | apply Keeps.to ?_ ?_ (State.note_keeps ..) | apply Keeps.to ?_ ?_ (State.setNet_keeps ..)
        | apply Keeps.to ?_ ?_ (State.processWrite_keeps ..)
        | apply Keeps.to ?_ ?_ (State.processWrite_keepsEq (by assumption)) | apply Keeps.foldS | apply Keeps.foldl
        | (intro _)
    | split
    | with_reducible apply Keeps.upd
    | (with_reducible apply Same.of_upd) <;> with_reducible first | exact bit_same | exact bit_in (by decide)
    | decide

theorem State.receiveMap_keeps (s : State) :
    Keeps 0xbea77fa s (State.receiveMap s) := by
  unfold State.receiveMap
  try dsimp only
  repeat' first
    | with_reducible first
        | apply Keeps.ite | apply Keeps.refl | assumption | apply storeOk_putV | apply storeOk_filter
        | apply modeOk_upd | apply modeOk_zero | apply Keeps.to ?_ ?_ (State.receiveEntry_keeps ..)
        | apply Keeps.foldS | apply Keeps.foldl | (intro _)
    | split
    | with_reducible apply Keeps.upd
    | (with_reducible apply Same.of_upd) <;> with_reducible first | exact bit_same | exact bit_in (by decide)
    | decide

theorem State.publishRecord_keeps (s : State) (k : Nat) :
    Keeps 0x80002 s (State.publishRecord s k) := by
  unfold State.publishRecord
  try dsimp only
  repeat' first
    | with_reducible first
        | apply Keeps.ite | apply Keeps.refl | assumption | apply storeOk_putV | apply storeOk_filter
        | apply modeOk_upd | apply modeOk_zero | apply Keeps.to ?_ ?_ (State.freeN_keeps ..)
        | apply Keeps.to ?_ ?_ (State.freeN_keepsEq (by assumption))
        | apply Keeps.to ?_ ?_ (State.queueKpp_keeps ..) | apply Keeps.foldS | apply Keeps.foldl | (intro _)
    | split
    | with_reducible apply Keeps.upd
    | (with_reducible apply Same.of_upd) <;> with_reducible first | exact bit_same | exact bit_in (by decide)
    | decide

theorem State.rpdoEntry_keeps (s : State) (c n i idx sub : Nat) (b : List Byte) :
    Keeps 0xbe277fa s (State.rpdoEntry s c n i idx sub b) := by
  unfold State.rpdoEntry
  try dsimp only
  repeat' first
    | with_reducible first
        | apply Keeps.ite | apply Keeps.refl | assumption | apply storeOk_putV | apply storeOk_filter
        | apply modeOk_upd | apply modeOk_zero | apply Keeps.to ?_ ?_ (State.note_keeps ..)
        | apply Keeps.to ?_ ?_ (State.setCan_keeps ..) | apply Keeps.to ?_ ?_ (State.processWrite_keeps ..)
        | apply Keeps.to ?_ ?_ (State.processWrite_keepsEq (by assumption)) | apply Keeps.foldS | apply Keeps.foldl
        | (intro _)
    | split
    | with_reducible apply Keeps.upd
    | (with_reducible apply Same.of_upd) <;> with_reducible first | exact bit_same | exact bit_in (by decide)
    | decide

theorem State.rpdoEntries_keeps (s : State) (c n : Nat) (data : List Byte) (i at' : Nat) (l : List (Nat × Nat × Nat)) :
    Keeps 0xbe277fa s (State.rpdoEntries s c n data i at' l) := by
  induction l generalizing s i at' with
  | nil => exact Keeps.refl _
  | cons e l ih =>
    obtain ⟨idx, sub, k⟩ := e
    exact (State.rpdoEntry_keeps ..).trans (ih ..)

theorem State.rpdoApply_keeps (s : State) (c : Nat) (m : CanRx) :
    Keeps 0xbe277fa s (State.rpdoApply s c m) := by
  unfold State.rpdoApply
  try dsimp only
  repeat' first
    | with_reducible first
        | apply Keeps.ite | apply Keeps.refl | assumption | apply storeOk_putV | apply storeOk_filter
        | apply modeOk_upd | apply modeOk_zero | apply Keeps.ofId
        | apply Keeps.to ?_ ?_ (State.rpdoEntries_keeps ..) | apply Keeps.foldS | apply Keeps.foldl | (intro _)
    | split
    | with_reducible apply Keeps.upd
    | (with_reducible apply Same.of_upd) <;> with_reducible first | exact bit_same | exact bit_in (by decide)
    | decide

theorem State.rpdosApply_keeps (s : State) :
    Keeps 0xbe277fa s (State.rpdosApply s) := by
  unfold State.rpdosApply
  try dsimp only
  repeat' first
    | with_reducible first
        | apply Keeps.ite | apply Keeps.refl | assumption | apply storeOk_putV | apply storeOk_filter
        | apply modeOk_upd | apply modeOk_zero | apply Keeps.to ?_ ?_ (State.setCan_keeps ..)
        | apply Keeps.to ?_ ?_ (State.rpdoApply_keeps ..) | apply Keeps.foldS | apply Keeps.foldl | (intro _)
    | split
    | with_reducible apply Keeps.upd
    | (with_reducible apply Same.of_upd) <;> with_reducible first | exact bit_same | exact bit_in (by decide)
    | decide

theorem State.tpdoSend_keeps (s : State) (n : Nat) (timer : Bool) :
    Keeps 0x8000000 s (State.tpdoSend s n timer) := by
  unfold State.tpdoSend
  try dsimp only
  repeat' first
    | with_reducible first
        | apply Keeps.ite | apply Keeps.refl | assumption | apply storeOk_putV | apply storeOk_filter
        | apply modeOk_upd | apply modeOk_zero | apply Keeps.to ?_ ?_ (State.canQueue_keeps ..)
        | apply Keeps.to ?_ ?_ (State.setCan_keeps ..) | apply Keeps.ofId | apply Keeps.foldS | apply Keeps.foldl
        | (intro _)
    | split
    | with_reducible apply Keeps.upd
    | (with_reducible apply Same.of_upd) <;> with_reducible first | exact bit_same | exact bit_in (by decide)
    | decide

theorem State.beatSend_keeps (s : State) :
    Keeps 0x8000000 s (State.beatSend s) := by
  unfold State.beatSend
  try dsimp only
  repeat' first
    | with_reducible first
        | apply Keeps.ite | apply Keeps.refl | assumption | apply storeOk_putV | apply storeOk_filter
        | apply modeOk_upd | apply modeOk_zero | apply Keeps.to ?_ ?_ (State.canQueue_keeps ..)
        | apply Keeps.to ?_ ?_ (State.setCan_keeps ..) | apply Keeps.ofId | apply Keeps.foldS | apply Keeps.foldl
        | (intro _)
    | split
    | with_reducible apply Keeps.upd
    | (with_reducible apply Same.of_upd) <;> with_reducible first | exact bit_same | exact bit_in (by decide)
    | decide

theorem State.sdoWrite_keeps (s : State) (c : Nat) (x : Sdo) (req data : List Byte) :
    Keeps 0xbe277fa s (State.sdoWrite s c x req data) := by
  unfold State.sdoWrite
  try dsimp only
  repeat' first
    | with_reducible first
        | apply Keeps.ite | apply Keeps.refl | assumption | apply storeOk_putV | apply storeOk_filter
        | apply modeOk_upd | apply modeOk_zero | apply Keeps.to ?_ ?_ (State.answer_keeps ..)
        | apply Keeps.to ?_ ?_ (State.sdoAbort_keeps ..) | apply Keeps.to ?_ ?_ (State.sdoFinish_keeps ..)
        | apply Keeps.to ?_ ?_ (State.writeAny_keeps ..) | apply Keeps.foldS | apply Keeps.foldl | (intro _)
    | split
    | with_reducible apply Keeps.upd
    | (with_reducible apply Same.of_upd) <;> with_reducible first | exact bit_same | exact bit_in (by decide)
    | decide

theorem State.sdoDown_keeps (s : State) (c : Nat) (b : List Byte) :
    Keeps 0xbe277fa s (State.sdoDown s c b) := by
  unfold State.sdoDown
  try dsimp only
  repeat' first
    | with_reducible first
        | apply Keeps.ite | apply Keeps.refl | assumption | apply storeOk_putV | apply storeOk_filter
        | apply modeOk_upd | apply modeOk_zero | apply Keeps.to ?_ ?_ (State.sdoSend_keeps ..)
        | apply Keeps.to ?_ ?_ (State.setSdo_keeps ..) | apply Keeps.to ?_ ?_ (State.sdoWrite_keeps ..)
        | apply Keeps.foldS | apply Keeps.foldl | (intro _)
    | split
    | with_reducible apply Keeps.upd
    | (with_reducible apply Same.of_upd) <;> with_reducible first | exact bit_same | exact bit_in (by decide)
    | decide

theorem State.sdoUp_keeps (s : State) (c : Nat) (b : List Byte) :
    Keeps 0x8200288 s (State.sdoUp s c b) := by
  unfold State.sdoUp
  try dsimp only
  repeat' first
    | with_reducible first
        | apply Keeps.ite | apply Keeps.refl | assumption | apply storeOk_putV | apply storeOk_filter
        | apply modeOk_upd | apply modeOk_zero | apply Keeps.to ?_ ?_ (State.answer_keeps ..)
        | apply Keeps.to ?_ ?_ (State.sdoSend_keeps ..) | apply Keeps.to ?_ ?_ (State.setSdo_keeps ..)
        | apply Keeps.to ?_ ?_ (State.sdoAbort_keeps ..) | apply Keeps.to ?_ ?_ (State.readAny_keeps ..)
        | apply heldOk_none | apply Keeps.foldS | apply Keeps.foldl | (intro _)
    | split
    | with_reducible apply Keeps.upd
    | (with_reducible apply Same.of_upd) <;> with_reducible first | exact bit_same | exact bit_in (by decide)
    | decide

theorem State.sdoBlockDown_keeps (s : State) (c : Nat) (b : List Byte) :
    Keeps 0x8000000 s (State.sdoBlockDown s c b) := by
  unfold State.sdoBlockDown
  try dsimp only
  repeat' first
    | with_reducible first
        | apply Keeps.ite | apply Keeps.refl | assumption | apply storeOk_putV | apply storeOk_filter
        | apply modeOk_upd | apply modeOk_zero | apply Keeps.to ?_ ?_ (State.sdoSend_keeps ..)
        | apply Keeps.to ?_ ?_ (State.setSdo_keeps ..) | apply Keeps.foldS | apply Keeps.foldl | (intro _)
    | split
    | with_reducible apply Keeps.upd
    | (with_reducible apply Same.of_upd) <;> with_reducible first | exact bit_same | exact bit_in (by decide)
    | decide

theorem State.sdoBlockUp_keeps (s : State) (c : Nat) (b : List Byte) :
    Keeps 0x8200288 s (State.sdoBlockUp s c b) := by
  unfold State.sdoBlockUp
  try dsimp only
  repeat' first
    | with_reducible first
        | apply Keeps.ite | apply Keeps.refl | assumption | apply storeOk_putV | apply storeOk_filter
        | apply modeOk_upd | apply modeOk_zero | apply Keeps.to ?_ ?_ (State.answer_keeps ..)
        | apply Keeps.to ?_ ?_ (State.sdoSend_keeps ..) | apply Keeps.to ?_ ?_ (State.setSdo_keeps ..)
        | apply Keeps.to ?_ ?_ (State.sdoAbort_keeps ..) | apply Keeps.to ?_ ?_ (State.readAny_keeps ..)
        | apply heldOk_none | apply Keeps.foldS | apply Keeps.foldl | (intro _)
    | split
    | with_reducible apply Keeps.upd
    | (with_reducible apply Same.of_upd) <;> with_reducible first | exact bit_same | exact bit_in (by decide)
    | decide

theorem State.sdoInitiate_keeps (s : State) (c : Nat) (b : List Byte) :
    Keeps 0xbe277fa s (State.sdoInitiate s c b) := by
  unfold State.sdoInitiate
  try dsimp only
  repeat' first
    | with_reducible first
        | apply Keeps.ite | apply Keeps.refl | assumption | apply storeOk_putV | apply storeOk_filter
        | apply modeOk_upd | apply modeOk_zero | apply Keeps.to ?_ ?_ (State.setSdo_keeps ..)
        | apply Keeps.to ?_ ?_ (State.sdoAbort_keeps ..) | apply Keeps.to ?_ ?_ (State.sdoDown_keeps ..)
        | apply Keeps.to ?_ ?_ (State.sdoUp_keeps ..) | apply Keeps.to ?_ ?_ (State.sdoBlockDown_keeps ..)
        | apply Keeps.to ?_ ?_ (State.sdoBlockUp_keeps ..) | apply heldOk_none | apply Keeps.foldS
        | apply Keeps.foldl | (intro _)
    | split
    | with_reducible apply Keeps.upd
    | (with_reducible apply Same.of_upd) <;> with_reducible first | exact bit_same | exact bit_in (by decide)
    | decide

theorem State.sdoRepeat_keeps (s : State) (c : Nat) (x : Sdo) (b : List Byte) :
    Keeps 0x8000208 s (State.sdoRepeat s c x b) := by
  unfold State.sdoRepeat
  try dsimp only
  repeat' first
    | with_reducible first
        | apply Keeps.ite | apply Keeps.refl | assumption | apply storeOk_putV | apply storeOk_filter
        | apply modeOk_upd | apply modeOk_zero | apply Keeps.to ?_ ?_ (State.sdoSend_keeps ..)
        | apply Keeps.to ?_ ?_ (State.sdoAbort_keeps ..) | apply heldOk_none | apply Keeps.foldS | apply Keeps.foldl
        | (intro _)
    | split
    | with_reducible apply Keeps.upd
    | (with_reducible apply Same.of_upd) <;> with_reducible first | exact bit_same | exact bit_in (by decide)
    | decide

theorem State.sdoDownSeg_keeps (s : State) (c : Nat) (x : Sdo) (b : List Byte) :
    Keeps 0xbe277fa s (State.sdoDownSeg s c x b) := by
  unfold State.sdoDownSeg
  try dsimp only
  repeat' first
    | with_reducible first
        | apply Keeps.ite | apply Keeps.refl | assumption | apply storeOk_putV | apply storeOk_filter
        | apply modeOk_upd | apply modeOk_zero | apply Keeps.to ?_ ?_ (State.at'_keeps ..)
        | apply Keeps.to ?_ ?_ (State.sdoSend_keeps ..) | apply Keeps.to ?_ ?_ (State.setSdo_keeps ..)
        | apply Keeps.to ?_ ?_ (State.sdoWrite_keeps ..) | apply Keeps.to ?_ ?_ (State.sdoRepeat_keeps ..)
        | apply Keeps.foldS | apply Keeps.foldl | (intro _)
    | split
    | with_reducible apply Keeps.upd
    | (with_reducible apply Same.of_upd) <;> with_reducible first | exact bit_same | exact bit_in (by decide)
    | decide

theorem State.sdoUpSeg_keeps (s : State) (c : Nat) (x : Sdo) (b : List Byte) :
    Keeps 0x8000208 s (State.sdoUpSeg s c x b) := by
  unfold State.sdoUpSeg
  try dsimp only
  repeat' first
    | with_reducible first
        | apply Keeps.ite | apply Keeps.refl | assumption | apply storeOk_putV | apply storeOk_filter
        | apply modeOk_upd | apply modeOk_zero | apply Keeps.to ?_ ?_ (State.at'_keeps ..)
        | apply Keeps.to ?_ ?_ (State.sdoSend_keeps ..) | apply Keeps.to ?_ ?_ (State.setSdo_keeps ..)
        | apply Keeps.to ?_ ?_ (State.sdoRepeat_keeps ..) | apply Keeps.foldS | apply Keeps.foldl | (intro _)
    | split
    | with_reducible apply Keeps.upd
    | (with_reducible apply Same.of_upd) <;> with_reducible first | exact bit_same | exact bit_in (by decide)
    | decide

theorem State.sdoSegment_keeps (s : State) (c : Nat) (b : List Byte) :
    Keeps 0xbe277fa s (State.sdoSegment s c b) := by
  unfold State.sdoSegment
  try dsimp only
  repeat' first
    | with_reducible first
        | apply Keeps.ite | apply Keeps.refl | assumption | apply storeOk_putV | apply storeOk_filter
        | apply modeOk_upd | apply modeOk_zero | apply Keeps.to ?_ ?_ (State.sdoAbort_keeps ..)
        | apply Keeps.to ?_ ?_ (State.sdoDownSeg_keeps ..) | apply Keeps.to ?_ ?_ (State.sdoUpSeg_keeps ..)
        | apply heldOk_none | apply Keeps.foldS | apply Keeps.foldl | (intro _)
    | split
    | with_reducible apply Keeps.upd
    | (with_reducible apply Same.of_upd) <;> with_reducible first | exact bit_same | exact bit_in (by decide)
    | decide

theorem State.sdoBlockIn_keeps (s : State) (c : Nat) (x : Sdo) (b : List Byte) :
    Keeps 0x8000208 s (State.sdoBlockIn s c x b) := by
  unfold State.sdoBlockIn
  try dsimp only
  repeat' first
    | with_reducible first
        | apply Keeps.ite | apply Keeps.refl | assumption | apply storeOk_putV | apply storeOk_filter
        | apply modeOk_upd | apply modeOk_zero | apply Keeps.to ?_ ?_ (State.at'_keeps ..)
        | apply Keeps.to ?_ ?_ (State.sdoSend_keeps ..) | apply Keeps.to ?_ ?_ (State.setSdo_keeps ..)
        | apply Keeps.to ?_ ?_ (State.sdoAbort_keeps ..) | apply Keeps.foldS | apply Keeps.foldl | (intro _)
    | split
    | with_reducible apply Keeps.upd
    | (with_reducible apply Same.of_upd) <;> with_reducible first | exact bit_same | exact bit_in (by decide)
    | decide

theorem State.sdoBlockEnd_keeps (s : State) (c : Nat) (x : Sdo) (b : List Byte) :
    Keeps 0xbe277fa s (State.sdoBlockEnd s c x b) := by
  unfold State.sdoBlockEnd
  try dsimp only
  repeat' first
    | with_reducible first
        | apply Keeps.ite | apply Keeps.refl | assumption | apply storeOk_putV | apply storeOk_filter
        | apply modeOk_upd | apply modeOk_zero | apply Keeps.to ?_ ?_ (State.at'_keeps ..)
        | apply Keeps.to ?_ ?_ (State.sdoAbort_keeps ..) | apply Keeps.to ?_ ?_ (State.sdoWrite_keeps ..)
        | apply Keeps.foldS | apply Keeps.foldl | (intro _)
    | split
    | with_reducible apply Keeps.upd
    | (with_reducible apply Same.of_upd) <;> with_reducible first | exact bit_same | exact bit_in (by decide)
    | decide

theorem State.sdoSendBlock_keeps (s : State) (c : Nat) (x : Sdo) :
    Keeps 0x8000000 s (State.sdoSendBlock s c x) := by
  unfold State.sdoSendBlock
  try dsimp only
  repeat' first
    | with_reducible first
        | apply Keeps.ite | apply Keeps.refl | assumption | apply storeOk_putV | apply storeOk_filter
        | apply modeOk_upd | apply modeOk_zero | apply Keeps.to ?_ ?_ (State.at'_keeps ..)
        | apply Keeps.to ?_ ?_ (State.sdoSend_keeps ..) | apply Keeps.to ?_ ?_ (State.setSdo_keeps ..)
        | apply Keeps.foldS | apply Keeps.foldl | (intro _)
    | split
    | with_reducible apply Keeps.upd
    | (with_reducible apply Same.of_upd) <;> with_reducible first | exact bit_same | exact bit_in (by decide)
    | decide

theorem State.sdoBlockAck_keeps (s : State) (c : Nat) (x : Sdo) (b : List Byte) :
    Keeps 0x8000208 s (State.sdoBlockAck s c x b) := by
  unfold State.sdoBlockAck
  try dsimp only
  repeat' first
    | with_reducible first
        | apply Keeps.ite | apply Keeps.refl | assumption | apply storeOk_putV | apply storeOk_filter
        | apply modeOk_upd | apply modeOk_zero | apply Keeps.to ?_ ?_ (State.at'_keeps ..)
        | apply Keeps.to ?_ ?_ (State.sdoSend_keeps ..) | apply Keeps.to ?_ ?_ (State.setSdo_keeps ..)
        | apply Keeps.to ?_ ?_ (State.sdoAbort_keeps ..) | apply Keeps.to ?_ ?_ (State.sdoSendBlock_keeps ..)
        | apply Keeps.foldS | apply Keeps.foldl | (intro _)
    | split
    | with_reducible apply Keeps.upd
    | (with_reducible apply Same.of_upd) <;> with_reducible first | exact bit_same | exact bit_in (by decide)
    | decide

theorem State.sdoBlock_keeps (s : State) (c : Nat) (b : List Byte) :
    Keeps 0xbe277fa s (State.sdoBlock s c b) := by
  unfold State.sdoBlock
  try dsimp only
  repeat' first
    | with_reducible first
        | apply Keeps.ite | apply Keeps.refl | assumption | apply storeOk_putV | apply storeOk_filter
        | apply modeOk_upd | apply modeOk_zero | apply Keeps.to ?_ ?_ (State.setSdo_keeps ..)
        | apply Keeps.to ?_ ?_ (State.sdoAbort_keeps ..) | apply Keeps.to ?_ ?_ (State.sdoRepeat_keeps ..)
        | apply Keeps.to ?_ ?_ (State.sdoBlockIn_keeps ..) | apply Keeps.to ?_ ?_ (State.sdoBlockEnd_keeps ..)
        | apply Keeps.to ?_ ?_ (State.sdoSendBlock_keeps ..) | apply Keeps.to ?_ ?_ (State.sdoBlockAck_keeps ..)
        | apply heldOk_none | apply Keeps.foldS | apply Keeps.foldl | (intro _)
    | split
    | with_reducible apply Keeps.upd
    | (with_reducible apply Same.of_upd) <;> with_reducible first | exact bit_same | exact bit_in (by decide)
    | decide

theorem State.sdoServe_keeps {m : Nat} (le : 0x8000004 ||| m = m) {serve : State → List Byte → State}
    (h : ∀ u b, Keeps m u (serve u b)) (s : State) (c t cls : Nat) : Keeps m s (State.sdoServe s c t cls serve) := by
  have sub' : ∀ {a : Nat}, a ||| 0x8000004 = 0x8000004 → a ||| m = m := fun h => by rw [← le, ← Nat.or_assoc, h]
  unfold State.sdoServe
  have h1 := (State.at'_keeps s t).mono (sub' (by decide))
  dsimp only
  generalize s.at' t = u at h1 ⊢
  refine Keeps.ite h1 ?_
  split
  · exact h1
  · exact Keeps.ite h1 ((h1.to (sub' (by decide)) (State.setCanC_keeps ..)).trans (h _ _))


theorem State.kdpClose_keeps (s : State) (id cause : Nat) :
    Keeps 0x288 s (State.kdpClose s id cause) := by
  unfold State.kdpClose
  try dsimp only
  repeat' first
    | with_reducible first
        | apply Keeps.ite | apply Keeps.refl | assumption | apply storeOk_putV | apply storeOk_filter
        | apply modeOk_upd | apply modeOk_zero | apply Keeps.to ?_ ?_ (State.note_keeps ..) | apply Keeps.ofId
        | apply Keeps.foldS | apply Keeps.foldl | (intro _)
    | split
    | with_reducible apply Keeps.upd
    | (with_reducible apply Same.of_upd) <;> with_reducible first | exact bit_same | exact bit_in (by decide)
    | decide

theorem State.kdpRead_keeps (s : State) (id unit idx sub : Nat) :
    Keeps 0x200088 s (State.kdpRead s id unit idx sub) := by
  unfold State.kdpRead
  try dsimp only
  repeat' first
    | with_reducible first
        | apply Keeps.ite | apply Keeps.refl | assumption | apply storeOk_putV | apply storeOk_filter
        | apply modeOk_upd | apply modeOk_zero | apply Keeps.to ?_ ?_ (State.answer_keeps ..)
        | apply Keeps.to ?_ ?_ (State.readAny_keeps ..) | apply Keeps.ofId | apply Keeps.foldS | apply Keeps.foldl
        | (intro _)
    | split
    | with_reducible apply Keeps.upd
    | (with_reducible apply Same.of_upd) <;> with_reducible first | exact bit_same | exact bit_in (by decide)
    | decide

theorem State.recordStep_keeps (s : State) (id idx : Nat) (a : State × List Byte × Nat) (k : Nat) (h : Keeps 0x200088 s a.1) :
    Keeps 0x200088 s (State.recordStep id idx a k).1 := by
  unfold State.recordStep
  split
  · exact h
  · exact h.to (by decide) (State.readAny_keeps ..)

theorem State.recordSteps_keeps (s : State) (id idx : Nat) (l : List Nat) (a : State × List Byte × Nat) (h : Keeps 0x200088 s a.1) :
    Keeps 0x200088 s (l.foldl (State.recordStep id idx) a).1 := by
  induction l generalizing a with
  | nil => exact h
  | cons k l ih => exact ih _ (State.recordStep_keeps s id idx a k h)

theorem State.wholeOwn_keeps (s : State) (id idx : Nat) : Keeps 0x200088 s (State.wholeOwn s id idx) := by
  unfold State.wholeOwn
  refine Keeps.ite ((State.answer_keeps ..).mono (by decide)) (Keeps.ite ((State.answer_keeps ..).mono (by decide)) ?_)
  exact ((State.recordSteps_keeps s id idx _ _ (Keeps.refl _)).mono (by decide)).to (by decide) (State.answer_keeps ..)


theorem State.wholeMirror_keeps (s : State) (unit idx : Nat) :
    Keeps 0x80 s (State.wholeMirror s unit idx) := by
  unfold State.wholeMirror
  try dsimp only
  repeat' first
    | with_reducible first
        | apply Keeps.ite | apply Keeps.refl | assumption | apply storeOk_putV | apply storeOk_filter
        | apply modeOk_upd | apply modeOk_zero | apply Keeps.to ?_ ?_ (State.answer_keeps ..) | apply storeOk_foldl
        | apply Keeps.foldS | apply Keeps.foldl | (intro _)
    | split
    | with_reducible apply Keeps.upd
    | (with_reducible apply Same.of_upd) <;> with_reducible first | exact bit_same | exact bit_in (by decide)
    | decide

theorem State.kdpRun_keeps (s : State) (id : Nat) (b : List Byte) :
    Keeps 0xbe277fa s (State.kdpRun s id b) := by
  unfold State.kdpRun
  try dsimp only
  repeat' first
    | with_reducible first
        | apply Keeps.ite | apply Keeps.refl | assumption | apply storeOk_putV | apply storeOk_filter
        | apply modeOk_upd | apply modeOk_zero | apply Keeps.to ?_ ?_ (State.answer_keeps ..)
        | apply Keeps.to ?_ ?_ (State.writeAny_keeps ..) | apply Keeps.to ?_ ?_ (State.kdpRead_keeps ..)
        | apply Keeps.to ?_ ?_ (State.wholeOwn_keeps ..) | apply Keeps.to ?_ ?_ (State.wholeMirror_keeps ..)
        | apply Keeps.ofId | apply Keeps.foldS | apply Keeps.foldl | (intro _)
    | split
    | with_reducible apply Keeps.upd
    | (with_reducible apply Same.of_upd) <;> with_reducible first | exact bit_same | exact bit_in (by decide)
    | decide

theorem State.kdpExecute_keeps (s : State) (id req : Nat) (b : List Byte) :
    Keeps 0xbe277fa s (State.kdpExecute s id req b) := by
  unfold State.kdpExecute
  try dsimp only
  repeat' first
    | with_reducible first
        | apply Keeps.ite | apply Keeps.refl | assumption | apply storeOk_putV | apply storeOk_filter
        | apply modeOk_upd | apply modeOk_zero | apply Keeps.to ?_ ?_ (State.setSession_keeps ..)
        | apply Keeps.to ?_ ?_ (State.answer_keeps ..) | apply Keeps.to ?_ ?_ (State.kdpRun_keeps ..)
        | apply heldOk_none | apply Keeps.ofId | apply Keeps.foldS | apply Keeps.foldl | (intro _)
    | split
    | with_reducible apply Keeps.upd
    | (with_reducible apply Same.of_upd) <;> with_reducible first | exact bit_same | exact bit_in (by decide)
    | decide

theorem State.kdpDrain_keeps (s : State) (id : Nat) :
    Keeps 0xbe277fa s (State.kdpDrain s id) := by
  unfold State.kdpDrain
  try dsimp only
  repeat' first
    | with_reducible first
        | apply Keeps.ite | apply Keeps.refl | assumption | apply storeOk_putV | apply storeOk_filter
        | apply modeOk_upd | apply modeOk_zero | apply Keeps.to ?_ ?_ (State.setSession_keeps ..)
        | apply Keeps.to ?_ ?_ (State.kdpClose_keeps ..) | apply Keeps.to ?_ ?_ (State.kdpExecute_keeps ..)
        | apply Keeps.ofId | apply Keeps.foldS | apply Keeps.foldl | (intro _)
    | split
    | with_reducible apply Keeps.upd
    | (with_reducible apply Same.of_upd) <;> with_reducible first | exact bit_same | exact bit_in (by decide)
    | decide

theorem State.kdpFrame_keeps (s : State) :
    Keeps 0xbe277fa s (State.kdpFrame s) := by
  unfold State.kdpFrame
  try dsimp only
  repeat' first
    | with_reducible first
        | apply Keeps.ite | apply Keeps.refl | assumption | apply storeOk_putV | apply storeOk_filter
        | apply modeOk_upd | apply modeOk_zero | apply Keeps.to ?_ ?_ (State.answer_keeps ..)
        | apply Keeps.to ?_ ?_ (State.kdpDrain_keeps ..) | apply Keeps.foldS | apply Keeps.foldl | (intro _)
    | split
    | with_reducible apply Keeps.upd
    | (with_reducible apply Same.of_upd) <;> with_reducible first | exact bit_same | exact bit_in (by decide)
    | decide

theorem State.kdpMessage_keeps (s : State) (id t req : Nat) (b : List Byte) :
    Keeps 0xbe277fe s (State.kdpMessage s id t req b) := by
  unfold State.kdpMessage
  try dsimp only
  repeat' first
    | with_reducible first
        | apply Keeps.ite | apply Keeps.refl | assumption | apply storeOk_putV | apply storeOk_filter
        | apply modeOk_upd | apply modeOk_zero | apply Keeps.to ?_ ?_ (State.at'_keeps ..)
        | apply Keeps.to ?_ ?_ (State.setSession_keeps ..) | apply Keeps.to ?_ ?_ (State.kdpClose_keeps ..)
        | apply Keeps.to ?_ ?_ (State.kdpExecute_keeps ..) | apply Keeps.to ?_ ?_ (State.kdpDrain_keeps ..)
        | apply Keeps.ofId | apply Keeps.foldS | apply Keeps.foldl | (intro _)
    | split
    | with_reducible apply Keeps.upd
    | (with_reducible apply Same.of_upd) <;> with_reducible first | exact bit_same | exact bit_in (by decide)
    | decide

theorem State.clientRole_keeps (s : State) (kid : List Byte) :
    Keeps 0x208 s (State.clientRole s kid).2 := by
  unfold State.clientRole
  try dsimp only
  repeat' first
    | with_reducible first
        | apply Keeps.ite | apply Keeps.refl | assumption | apply storeOk_putV | apply storeOk_filter
        | apply modeOk_upd | apply modeOk_zero | apply Keeps.to ?_ ?_ (State.note_keeps ..) | apply heldOk_none
        | apply Keeps.foldS | apply Keeps.foldl | (intro _)
    | split
    | with_reducible apply Keeps.upd
    | (with_reducible apply Same.of_upd) <;> with_reducible first | exact bit_same | exact bit_in (by decide)
    | decide
theorem State.clientRole_keepsEq {s : State} {kid : List Byte} {x t} (h : State.clientRole s kid = (x, t))   : Keeps 0x208 s t := by
  have := State.clientRole_keeps s kid
  rw [h] at this
  exact this

theorem State.kdpConnect_keeps (s : State) (id peer net : Nat) (kid : List Byte) (tls : Bool) :
    Keeps 0x288 s (State.kdpConnect s id peer net kid tls) := by
  unfold State.kdpConnect
  try dsimp only
  repeat' first
    | with_reducible first
        | apply Keeps.ite | apply Keeps.refl | assumption | apply storeOk_putV | apply storeOk_filter
        | apply modeOk_upd | apply modeOk_zero | apply Keeps.to ?_ ?_ (State.incU_keeps ..)
        | apply Keeps.to ?_ ?_ (State.note_keeps ..) | apply Keeps.to ?_ ?_ (State.setSession_keeps ..)
        | apply Keeps.to ?_ ?_ (State.clientRole_keeps ..)
        | apply Keeps.to ?_ ?_ (State.clientRole_keepsEq (by assumption)) | apply heldOk_none | apply Keeps.ofId
        | apply Keeps.foldS | apply Keeps.foldl | (intro _)
    | split
    | with_reducible apply Keeps.upd
    | (with_reducible apply Same.of_upd) <;> with_reducible first | exact bit_same | exact bit_in (by decide)
    | decide

theorem execPublishedRecordSend_keeps (k : Nat) (s : State) :
    outKeeps 0x80002 s (execPublishedRecordSend k s) := by
  unfold execPublishedRecordSend
  try dsimp only
  repeat' first
    | with_reducible first
        | apply outKeeps_ite | apply outKeeps.next | apply Keeps.ite | apply Keeps.refl | assumption
        | apply storeOk_putV | apply storeOk_filter | apply modeOk_upd | apply modeOk_zero
        | apply Keeps.to ?_ ?_ (State.publishRecord_keeps ..) | apply Keeps.foldS | apply Keeps.foldl | (intro _)
    | split
    | with_reducible apply Keeps.upd
    | (with_reducible apply Same.of_upd) <;> with_reducible first | exact bit_same | exact bit_in (by decide)
    | decide

theorem execTpdoEventTimer_keeps (n t : Nat) (s : State) :
    outKeeps 0x8000004 s (execTpdoEventTimer n t s) := by
  unfold execTpdoEventTimer
  try dsimp only
  repeat' first
    | with_reducible first
        | apply outKeeps_ite | apply outKeeps.next | apply Keeps.ite | apply Keeps.refl | assumption
        | apply storeOk_putV | apply storeOk_filter | apply modeOk_upd | apply modeOk_zero
        | apply Keeps.to ?_ ?_ (State.at'_keeps ..) | apply Keeps.to ?_ ?_ (State.tpdoSend_keeps ..)
        | apply Keeps.foldS | apply Keeps.foldl | (intro _)
    | split
    | with_reducible apply Keeps.upd
    | (with_reducible apply Same.of_upd) <;> with_reducible first | exact bit_same | exact bit_in (by decide)
    | decide

theorem execProducerHeartbeat_keeps (t : Nat) (s : State) :
    outKeeps 0x8000004 s (execProducerHeartbeat t s) := by
  unfold execProducerHeartbeat
  try dsimp only
  repeat' first
    | with_reducible first
        | apply outKeeps_ite | apply outKeeps.next | apply Keeps.ite | apply Keeps.refl | assumption
        | apply storeOk_putV | apply storeOk_filter | apply modeOk_upd | apply modeOk_zero
        | apply Keeps.to ?_ ?_ (State.at'_keeps ..) | apply Keeps.to ?_ ?_ (State.beatSend_keeps ..)
        | apply Keeps.foldS | apply Keeps.foldl | (intro _)
    | split
    | with_reducible apply Keeps.upd
    | (with_reducible apply Same.of_upd) <;> with_reducible first | exact bit_same | exact bit_in (by decide)
    | decide

theorem execSdoInitiate_keeps (c t : Nat) (s : State) :
    outKeeps 0xbe277fe s (execSdoInitiate c t s) := by
  unfold execSdoInitiate
  try dsimp only
  repeat' first
    | with_reducible first
        | apply outKeeps_ite | apply outKeeps.next | apply Keeps.ite | apply Keeps.refl | assumption
        | apply storeOk_putV | apply storeOk_filter | apply modeOk_upd | apply modeOk_zero
        | apply Keeps.to ?_ ?_ (State.sdoInitiate_keeps ..) | apply Keeps.trans ?_ (State.sdoServe_keeps ?_ ?_ ..)
        | apply Keeps.foldS | apply Keeps.foldl | (intro _)
    | split
    | with_reducible apply Keeps.upd
    | (with_reducible apply Same.of_upd) <;> with_reducible first | exact bit_same | exact bit_in (by decide)
    | decide

theorem execSdoSegment_keeps (c t : Nat) (s : State) :
    outKeeps 0xbe277fe s (execSdoSegment c t s) := by
  unfold execSdoSegment
  try dsimp only
  repeat' first
    | with_reducible first
        | apply outKeeps_ite | apply outKeeps.next | apply Keeps.ite | apply Keeps.refl | assumption
        | apply storeOk_putV | apply storeOk_filter | apply modeOk_upd | apply modeOk_zero
        | apply Keeps.to ?_ ?_ (State.sdoSegment_keeps ..) | apply Keeps.trans ?_ (State.sdoServe_keeps ?_ ?_ ..)
        | apply Keeps.foldS | apply Keeps.foldl | (intro _)
    | split
    | with_reducible apply Keeps.upd
    | (with_reducible apply Same.of_upd) <;> with_reducible first | exact bit_same | exact bit_in (by decide)
    | decide

theorem execSdoBlockSegment_keeps (c t : Nat) (s : State) :
    outKeeps 0xbe277fe s (execSdoBlockSegment c t s) := by
  unfold execSdoBlockSegment
  try dsimp only
  repeat' first
    | with_reducible first
        | apply outKeeps_ite | apply outKeeps.next | apply Keeps.ite | apply Keeps.refl | assumption
        | apply storeOk_putV | apply storeOk_filter | apply modeOk_upd | apply modeOk_zero
        | apply Keeps.to ?_ ?_ (State.sdoBlock_keeps ..) | apply Keeps.trans ?_ (State.sdoServe_keeps ?_ ?_ ..)
        | apply Keeps.foldS | apply Keeps.foldl | (intro _)
    | split
    | with_reducible apply Keeps.upd
    | (with_reducible apply Same.of_upd) <;> with_reducible first | exact bit_same | exact bit_in (by decide)
    | decide

theorem execSdoTransferTimeout_keeps (c t : Nat) (s : State) :
    outKeeps 0x800020c s (execSdoTransferTimeout c t s) := by
  unfold execSdoTransferTimeout
  try dsimp only
  repeat' first
    | with_reducible first
        | apply outKeeps_ite | apply outKeeps.next | apply Keeps.ite | apply Keeps.refl | assumption
        | apply storeOk_putV | apply storeOk_filter | apply modeOk_upd | apply modeOk_zero
        | apply Keeps.to ?_ ?_ (State.at'_keeps ..) | apply Keeps.to ?_ ?_ (State.sdoAbort_keeps ..)
        | apply heldOk_none | apply Keeps.foldS | apply Keeps.foldl | (intro _)
    | split
    | with_reducible apply Keeps.upd
    | (with_reducible apply Same.of_upd) <;> with_reducible first | exact bit_same | exact bit_in (by decide)
    | decide

theorem execKdpConnection_keeps (id t peer net : Nat) (kid : List Byte) (tls : Bool) (s : State) :
    outKeeps 0x28c s (execKdpConnection id t peer net kid tls s) := by
  unfold execKdpConnection
  try dsimp only
  repeat' first
    | with_reducible first
        | apply outKeeps_ite | apply outKeeps.next | apply Keeps.ite | apply Keeps.refl | assumption
        | apply storeOk_putV | apply storeOk_filter | apply modeOk_upd | apply modeOk_zero
        | apply Keeps.to ?_ ?_ (State.at'_keeps ..) | apply Keeps.to ?_ ?_ (State.kdpConnect_keeps ..)
        | apply Keeps.ofId | apply Keeps.foldS | apply Keeps.foldl | (intro _)
    | split
    | with_reducible apply Keeps.upd
    | (with_reducible apply Same.of_upd) <;> with_reducible first | exact bit_same | exact bit_in (by decide)
    | decide

theorem execKdpIdleTimeout_keeps (id t : Nat) (s : State) :
    outKeeps 0x28c s (execKdpIdleTimeout id t s) := by
  unfold execKdpIdleTimeout
  try dsimp only
  repeat' first
    | with_reducible first
        | apply outKeeps_ite | apply outKeeps.next | apply Keeps.ite | apply Keeps.refl | assumption
        | apply storeOk_putV | apply storeOk_filter | apply modeOk_upd | apply modeOk_zero
        | apply Keeps.to ?_ ?_ (State.at'_keeps ..) | apply Keeps.to ?_ ?_ (State.kdpClose_keeps ..)
        | apply Keeps.ofId | apply Keeps.foldS | apply Keeps.foldl | (intro _)
    | split
    | with_reducible apply Keeps.upd
    | (with_reducible apply Same.of_upd) <;> with_reducible first | exact bit_same | exact bit_in (by decide)
    | decide

theorem execKdpRead_keeps (id t req : Nat) (rest : List Byte) (s : State) :
    outKeeps 0xbe277fe s (execKdpRead id t req rest s) := by
  unfold execKdpRead
  try dsimp only
  repeat' first
    | with_reducible first
        | apply outKeeps_ite | apply outKeeps.next | apply Keeps.ite | apply Keeps.refl | assumption
        | apply storeOk_putV | apply storeOk_filter | apply modeOk_upd | apply modeOk_zero
        | apply Keeps.to ?_ ?_ (State.kdpMessage_keeps ..) | apply Keeps.ofId | apply Keeps.foldS
        | apply Keeps.foldl | (intro _)
    | split
    | with_reducible apply Keeps.upd
    | (with_reducible apply Same.of_upd) <;> with_reducible first | exact bit_same | exact bit_in (by decide)
    | decide

theorem execKdpWrite_keeps (id t req : Nat) (rest : List Byte) (s : State) :
    outKeeps 0xbe277fe s (execKdpWrite id t req rest s) := by
  unfold execKdpWrite
  try dsimp only
  repeat' first
    | with_reducible first
        | apply outKeeps_ite | apply outKeeps.next | apply Keeps.ite | apply Keeps.refl | assumption
        | apply storeOk_putV | apply storeOk_filter | apply modeOk_upd | apply modeOk_zero
        | apply Keeps.to ?_ ?_ (State.kdpMessage_keeps ..) | apply Keeps.ofId | apply Keeps.foldS
        | apply Keeps.foldl | (intro _)
    | split
    | with_reducible apply Keeps.upd
    | (with_reducible apply Same.of_upd) <;> with_reducible first | exact bit_same | exact bit_in (by decide)
    | decide

theorem execKdpWholeRecordRead_keeps (id t req : Nat) (rest : List Byte) (s : State) :
    outKeeps 0xbe277fe s (execKdpWholeRecordRead id t req rest s) := by
  unfold execKdpWholeRecordRead
  try dsimp only
  repeat' first
    | with_reducible first
        | apply outKeeps_ite | apply outKeeps.next | apply Keeps.ite | apply Keeps.refl | assumption
        | apply storeOk_putV | apply storeOk_filter | apply modeOk_upd | apply modeOk_zero
        | apply Keeps.to ?_ ?_ (State.kdpMessage_keeps ..) | apply Keeps.ofId | apply Keeps.foldS
        | apply Keeps.foldl | (intro _)
    | split
    | with_reducible apply Keeps.upd
    | (with_reducible apply Same.of_upd) <;> with_reducible first | exact bit_same | exact bit_in (by decide)
    | decide

theorem execKdpKeepalive_keeps (id t req : Nat) (op : Byte) (rest : List Byte) (s : State) :
    outKeeps 0xbe277fe s (execKdpKeepalive id t req op rest s) := by
  unfold execKdpKeepalive
  try dsimp only
  repeat' first
    | with_reducible first
        | apply outKeeps_ite | apply outKeeps.next | apply Keeps.ite | apply Keeps.refl | assumption
        | apply storeOk_putV | apply storeOk_filter | apply modeOk_upd | apply modeOk_zero
        | apply Keeps.to ?_ ?_ (State.kdpMessage_keeps ..) | apply Keeps.ofId | apply Keeps.foldS
        | apply Keeps.foldl | (intro _)
    | split
    | with_reducible apply Keeps.upd
    | (with_reducible apply Same.of_upd) <;> with_reducible first | exact bit_same | exact bit_in (by decide)
    | decide

theorem execKdpConnectionClosed_keeps (id t : Nat) (s : State) :
    outKeeps 0x28c s (execKdpConnectionClosed id t s) := by
  unfold execKdpConnectionClosed
  try dsimp only
  repeat' first
    | with_reducible first
        | apply outKeeps_ite | apply outKeeps.next | apply Keeps.ite | apply Keeps.refl | assumption
        | apply storeOk_putV | apply storeOk_filter | apply modeOk_upd | apply modeOk_zero
        | apply Keeps.to ?_ ?_ (State.at'_keeps ..) | apply Keeps.to ?_ ?_ (State.kdpClose_keeps ..)
        | apply Keeps.ofId | apply Keeps.foldS | apply Keeps.foldl | (intro _)
    | split
    | with_reducible apply Keeps.upd
    | (with_reducible apply Same.of_upd) <;> with_reducible first | exact bit_same | exact bit_in (by decide)
    | decide

end Sys2Proof.Machine
end

