-- ==== Sys2Proof/Laws/KeepFrame.lean ====
section
/-! SUPPORT. What the operations of Machine/Frame.lean keep (Laws/Keeps.lean). -/
namespace Sys2Proof.Machine

theorem State.reclass_keeps (s : State) :
    Keeps 0x40 s (State.reclass s) := by
  unfold State.reclass
  try dsimp only
  repeat' first
    | with_reducible first
        | apply Keeps.ite | apply Keeps.refl | assumption | apply storeOk_putV | apply storeOk_filter
        | apply modeOk_upd | apply modeOk_zero | apply Keeps.foldS | apply Keeps.foldl | (intro _)
    | split
    | with_reducible apply Keeps.upd
    | (with_reducible apply Same.of_upd) <;> with_reducible first | exact bit_same | exact bit_in (by decide)
    | decide

theorem State.runningFrame_keeps (s : State) (r : Readings) (ended prev : Nat) :
    Keeps 0xffefffa s (State.runningFrame s r ended prev) := by
  unfold State.runningFrame
  try dsimp only
  repeat' first
    | with_reducible first
        | apply Keeps.ite | apply Keeps.refl | assumption | apply storeOk_putV | apply storeOk_filter
        | apply modeOk_upd | apply modeOk_zero | apply Keeps.to ?_ ?_ (State.exchange_keeps ..)
        | apply Keeps.to ?_ ?_ (State.plantFrame_keeps ..) | apply Keeps.to ?_ ?_ (State.publishImu_keeps ..)
        | apply Keeps.to ?_ ?_ (State.takeAnalog_keeps ..) | apply Keeps.to ?_ ?_ (State.publishAnalog_keeps ..)
        | apply Keeps.to ?_ ?_ (State.driveDio_keeps ..) | apply Keeps.to ?_ ?_ (State.safeUpdate_keeps ..)
        | apply Keeps.to ?_ ?_ (State.publishDiscrete_keeps ..)
        | apply Keeps.to ?_ ?_ (State.feedbackFrame_keeps ..) | apply Keeps.to ?_ ?_ (State.chaffFrame_keeps ..)
        | apply Keeps.to ?_ ?_ (State.gnssFrame_keeps ..) | apply Keeps.to ?_ ?_ (State.timeFrame_keeps ..)
        | apply Keeps.to ?_ ?_ (State.halurFrame_keeps ..) | apply Keeps.to ?_ ?_ (State.netFrame_keeps ..)
        | apply Keeps.to ?_ ?_ (State.canFrame_keeps ..) | apply Keeps.to ?_ ?_ (State.thermFrame_keeps ..)
        | apply Keeps.to ?_ ?_ (State.assembleStatus_keeps ..) | apply Keeps.to ?_ ?_ (State.receiveMap_keeps ..)
        | apply Keeps.to ?_ ?_ (State.rpdosApply_keeps ..) | apply Keeps.to ?_ ?_ (State.kdpFrame_keeps ..)
        | apply Keeps.to ?_ ?_ (State.reclass_keeps ..) | apply Keeps.foldS | apply Keeps.foldl | (intro _)
    | split
    | with_reducible apply Keeps.upd
    | (with_reducible apply Same.of_upd) <;> with_reducible first | exact bit_same | exact bit_in (by decide)
    | decide

theorem State.stoppedFrame_keeps (s : State) :
    Keeps 0x402208 s (State.stoppedFrame s) := by
  unfold State.stoppedFrame
  try dsimp only
  repeat' first
    | with_reducible first
        | apply Keeps.ite | apply Keeps.refl | assumption | apply storeOk_putV | apply storeOk_filter
        | apply modeOk_upd | apply modeOk_zero | apply Keeps.to ?_ ?_ (State.driveDio_keeps ..)
        | apply Keeps.to ?_ ?_ (State.safeUpdate_keeps ..) | apply Keeps.foldS | apply Keeps.foldl | (intro _)
    | split
    | with_reducible apply Keeps.upd
    | (with_reducible apply Same.of_upd) <;> with_reducible first | exact bit_same | exact bit_in (by decide)
    | decide

theorem State.frameStart_keeps (s : State) (r : Readings) :
    Keeps 0xffefffe s (State.frameStart s r) := by
  unfold State.frameStart
  try dsimp only
  repeat' first
    | with_reducible first
        | apply Keeps.ite | apply Keeps.refl | assumption | apply storeOk_putV | apply storeOk_filter
        | apply modeOk_upd | apply modeOk_zero | apply Keeps.to ?_ ?_ (State.gridFrame_keeps ..)
        | apply Keeps.to ?_ ?_ (State.runningFrame_keeps ..) | apply Keeps.to ?_ ?_ (State.stoppedFrame_keeps ..)
        | apply Keeps.foldS | apply Keeps.foldl | (intro _)
    | split
    | with_reducible apply Keeps.upd
    | (with_reducible apply Same.of_upd) <;> with_reducible first | exact bit_same | exact bit_in (by decide)
    | decide

theorem State.beginSample_keeps (s : State) :
    Keeps 0x58004 s (State.beginSample s) := by
  unfold State.beginSample
  try dsimp only
  repeat' first
    | with_reducible first
        | apply Keeps.ite | apply Keeps.refl | assumption | apply storeOk_putV | apply storeOk_filter
        | apply modeOk_upd | apply modeOk_zero | apply heldOk_none | apply Keeps.foldS | apply Keeps.foldl
        | (intro _)
    | split
    | with_reducible apply Keeps.upd
    | (with_reducible apply Same.of_upd) <;> with_reducible first | exact bit_same | exact bit_in (by decide)
    | decide

theorem State.pairBoundary_keeps (s : State) :
    Keeps 0xf4663f8 s (State.pairBoundary s) := by
  unfold State.pairBoundary
  try dsimp only
  repeat' first
    | with_reducible first
        | apply Keeps.ite | apply Keeps.refl | assumption | apply storeOk_putV | apply storeOk_filter
        | apply modeOk_upd | apply modeOk_zero | apply Keeps.to ?_ ?_ (State.adoptFull_keeps ..)
        | apply Keeps.to ?_ ?_ (State.joinApply_keeps ..) | apply Keeps.to ?_ ?_ (State.roleBoundary_keeps ..)
        | apply Keeps.to ?_ ?_ (State.countDigests_keeps ..) | apply Keeps.foldS | apply Keeps.foldl | (intro _)
    | split
    | with_reducible apply Keeps.upd
    | (with_reducible apply Same.of_upd) <;> with_reducible first | exact bit_same | exact bit_in (by decide)
    | decide

theorem State.forwardedStores_keeps (s : State) :
    Keeps 0x80 s (State.forwardedStores s) := by
  unfold State.forwardedStores
  try dsimp only
  repeat' first
    | with_reducible first
        | apply Keeps.ite | apply Keeps.refl | assumption | apply storeOk_putV | apply storeOk_filter
        | apply modeOk_upd | apply modeOk_zero | apply Keeps.to ?_ ?_ (State.storeKeys_keeps ..) | apply Keeps.foldS
        | apply Keeps.foldl | (intro _)
    | split
    | with_reducible apply Keeps.upd
    | (with_reducible apply Same.of_upd) <;> with_reducible first | exact bit_same | exact bit_in (by decide)
    | decide

theorem State.writesInForce_keeps (s : State) :
    Keeps 0x97f82d8 s (State.writesInForce s) := by
  unfold State.writesInForce
  try dsimp only
  repeat' first
    | with_reducible first
        | apply Keeps.ite | apply Keeps.refl | assumption | apply storeOk_putV | apply storeOk_filter
        | apply modeOk_upd | apply modeOk_zero | apply Keeps.to ?_ ?_ (State.applyDue_keeps ..)
        | apply Keeps.to ?_ ?_ (State.refreshStreams_keeps ..) | apply Keeps.to ?_ ?_ (State.holdTest_keeps ..)
        | apply Keeps.to ?_ ?_ (State.setTill_keeps ..) | apply Keeps.to ?_ ?_ (State.applyRanges_keeps ..)
        | apply Keeps.to ?_ ?_ (State.chaffSource_keeps ..) | apply Keeps.to ?_ ?_ (State.applyEnc_keeps ..)
        | apply Keeps.to ?_ ?_ (State.chaffDelays_keeps ..) | apply Keeps.to ?_ ?_ (State.chaffSources_keeps ..)
        | apply Keeps.to ?_ ?_ (State.sourcesInForce_keeps ..) | apply Keeps.to ?_ ?_ (State.setNet_keeps ..)
        | apply Keeps.to ?_ ?_ (State.applyConfigSet_keeps ..)
        | apply Keeps.to ?_ ?_ (State.forwardedStores_keeps ..) | apply Keeps.foldS | apply Keeps.foldl | (intro _)
    | split
    | with_reducible apply Keeps.upd
    | (with_reducible apply Same.of_upd) <;> with_reducible first | exact bit_same | exact bit_in (by decide)
    | decide

theorem State.setsInForce_keeps (s : State) (chaff culm stub : Bool) :
    Keeps 0x140298 s (State.setsInForce s chaff culm stub) := by
  unfold State.setsInForce
  try dsimp only
  repeat' first
    | with_reducible first
        | apply Keeps.ite | apply Keeps.refl | assumption | apply storeOk_putV | apply storeOk_filter
        | apply modeOk_upd | apply modeOk_zero | apply Keeps.to ?_ ?_ (State.putObj_keeps ..)
        | apply Keeps.to ?_ ?_ (State.applyCulmSet_keeps ..) | apply Keeps.to ?_ ?_ (State.applyStubSet_keeps ..)
        | apply Keeps.to ?_ ?_ (State.applyChaffSet_keeps ..) | apply Keeps.to ?_ ?_ (State.reclampInner_keeps ..)
        | apply Keeps.foldS | apply Keeps.foldl | (intro _)
    | split
    | with_reducible apply Keeps.upd
    | (with_reducible apply Same.of_upd) <;> with_reducible first | exact bit_same | exact bit_in (by decide)
    | decide

theorem State.stubbleBoundary_keeps (s : State) :
    Keeps 0x8040248 s (State.stubbleBoundary s) := by
  unfold State.stubbleBoundary
  try dsimp only
  repeat' first
    | with_reducible first
        | apply Keeps.ite | apply Keeps.refl | assumption | apply storeOk_putV | apply storeOk_filter
        | apply modeOk_upd | apply modeOk_zero | apply Keeps.to ?_ ?_ (State.blendStep_keeps ..)
        | apply Keeps.to ?_ ?_ (State.remix_keeps ..) | apply Keeps.foldS | apply Keeps.foldl | (intro _)
    | split
    | with_reducible apply Keeps.upd
    | (with_reducible apply Same.of_upd) <;> with_reducible first | exact bit_same | exact bit_in (by decide)
    | decide

theorem State.epochCommands_keeps (s : State) :
    Keeps 0x40000 s (State.epochCommands s) := by
  unfold State.epochCommands
  try dsimp only
  repeat' first
    | with_reducible first
        | apply Keeps.ite | apply Keeps.refl | assumption | apply storeOk_putV | apply storeOk_filter
        | apply modeOk_upd | apply modeOk_zero | apply Keeps.foldS | apply Keeps.foldl | (intro _)
    | split
    | with_reducible apply Keeps.upd
    | (with_reducible apply Same.of_upd) <;> with_reducible first | exact bit_same | exact bit_in (by decide)
    | decide

theorem State.sampleStart_keeps (s : State) :
    Keeps 0xffffffc s (State.sampleStart s) := by
  unfold State.sampleStart
  try dsimp only
  repeat' first
    | with_reducible first
        | apply Keeps.ite | apply Keeps.refl | assumption | apply storeOk_putV | apply storeOk_filter
        | apply modeOk_upd | apply modeOk_zero | apply Keeps.to ?_ ?_ (State.axesBoundary_keeps ..)
        | apply Keeps.to ?_ ?_ (State.stubAxes_keeps ..) | apply Keeps.to ?_ ?_ (State.quietAlarm_keeps ..)
        | apply Keeps.to ?_ ?_ (State.stookBoundary_keeps ..) | apply Keeps.to ?_ ?_ (State.clearRemovals_keeps ..)
        | apply Keeps.to ?_ ?_ (State.promote_keeps ..) | apply Keeps.to ?_ ?_ (State.reductionStep_keeps ..)
        | apply Keeps.to ?_ ?_ (State.panBoundary_keeps ..) | apply Keeps.to ?_ ?_ (State.numberBoundary_keeps ..)
        | apply Keeps.to ?_ ?_ (State.restartBoundary_keeps ..)
        | apply Keeps.to ?_ ?_ (State.enterDormancy_keeps ..) | apply Keeps.to ?_ ?_ (State.takeCommands_keeps ..)
        | apply Keeps.to ?_ ?_ (State.formSetPoints_keeps ..) | apply Keeps.to ?_ ?_ (State.assembleStatus_keeps ..)
        | apply Keeps.to ?_ ?_ (State.beginSample_keeps ..) | apply Keeps.to ?_ ?_ (State.pairBoundary_keeps ..)
        | apply Keeps.to ?_ ?_ (State.writesInForce_keeps ..) | apply Keeps.to ?_ ?_ (State.setsInForce_keeps ..)
        | apply Keeps.to ?_ ?_ (State.stubbleBoundary_keeps ..)
        | apply Keeps.to ?_ ?_ (State.epochCommands_keeps ..) | apply Keeps.foldS | apply Keeps.foldl | (intro _)
    | split
    | with_reducible apply Keeps.upd
    | (with_reducible apply Same.of_upd) <;> with_reducible first | exact bit_same | exact bit_in (by decide)
    | decide

theorem execFrameBoundary_keeps (r : Readings) (s : State) :
    outKeeps 0xffefffe s (execFrameBoundary r s) := by
  unfold execFrameBoundary
  try dsimp only
  repeat' first
    | with_reducible first
        | apply outKeeps_ite | apply outKeeps.next | apply Keeps.ite | apply Keeps.refl | assumption
        | apply storeOk_putV | apply storeOk_filter | apply modeOk_upd | apply modeOk_zero
        | apply Keeps.to ?_ ?_ (State.jtag_keeps ..) | apply Keeps.to ?_ ?_ (State.frameStart_keeps ..)
        | apply Keeps.foldS | apply Keeps.foldl | (intro _)
    | split
    | with_reducible apply Keeps.upd
    | (with_reducible apply Same.of_upd) <;> with_reducible first | exact bit_same | exact bit_in (by decide)
    | decide

theorem execSampleBoundary_keeps (s : State) :
    outKeeps 0xffffffc s (execSampleBoundary s) := by
  unfold execSampleBoundary
  try dsimp only
  repeat' first
    | with_reducible first
        | apply outKeeps_ite | apply outKeeps.next | apply Keeps.ite | apply Keeps.refl | assumption
        | apply storeOk_putV | apply storeOk_filter | apply modeOk_upd | apply modeOk_zero
        | apply Keeps.to ?_ ?_ (State.sampleStart_keeps ..) | apply Keeps.foldS | apply Keeps.foldl | (intro _)
    | split
    | with_reducible apply Keeps.upd
    | (with_reducible apply Same.of_upd) <;> with_reducible first | exact bit_same | exact bit_in (by decide)
    | decide

end Sys2Proof.Machine
end

