-- ==== Sys2Proof/Laws/Exec.lean ====
section
/-! SUPPORT. What every command keeps: Laws/Keeps.lean for `exec`, with the parts it touches. -/
namespace Sys2Proof.Machine

/-- The bit of a part in the masks of `Same`. -/
def Part.bit : Part → Nat
  | .free => 1
  | .clk => 2
  | .obj => 3
  | .force => 4
  | .res => 5
  | .faults => 6
  | .acc => 7
  | .mode => 8
  | .gran => 9
  | .husk => 10
  | .therm => 11
  | .mons => 12
  | .st => 13
  | .hal => 14
  | .sheaf => 15
  | .win => 16
  | .obs => 17
  | .ctl => 18
  | .net => 19
  | .chaff => 20
  | .fb => 21
  | .io => 22
  | .gn => 23
  | .tb => 24
  | .pan => 25
  | .mir => 26
  | .can => 27

/-- The mask of a list of parts. -/
def bits (l : List Part) : Nat := l.foldr (fun p m => 2 ^ p.bit ||| m) 0

theorem bit_inj {p q : Part} (h : p.bit = q.bit) : p = q := by
  cases p <;> cases q <;> first | rfl | (exact absurd h (by decide))

theorem bits_not_mem {l : List Part} {p : Part} (h : p ∉ l) : (bits l).testBit p.bit = false := by
  induction l with
  | nil => exact Nat.zero_testBit _
  | cons q l ih =>
    rw [List.mem_cons, not_or] at h
    show (2 ^ q.bit ||| bits l).testBit p.bit = false
    rw [Nat.testBit_or, ih h.2, Bool.or_false, Nat.testBit_two_pow]
    exact decide_eq_false fun e => h.1 (bit_inj e.symm)

theorem Same.part {m : Nat} {s t : State} (h : Same m s t) {p : Part} (k : m.testBit p.bit = false) : p.same s t := by
  cases p
  · exact h.free k
  · exact h.clk k
  · exact h.obj k
  · exact h.force k
  · exact h.res k
  · exact h.faults k
  · exact h.acc k
  · exact h.mode k
  · exact h.gran k
  · exact h.husk k
  · exact h.therm k
  · exact h.mons k
  · exact h.st k
  · exact h.hal k
  · exact h.sheaf k
  · exact h.win k
  · exact h.obs k
  · exact h.ctl k
  · exact h.net k
  · exact h.chaff k
  · exact h.fb k
  · exact h.io k
  · exact h.gn k
  · exact h.tb k
  · exact h.pan k
  · exact h.mir k
  · exact h.can k

theorem outKeeps_mono {a m : Nat} {s : State} {o : Out} (h : a ||| m = m) (x : outKeeps a s o) : outKeeps m s o := by
  cases x with
  | next x => exact .next (x.mono h)

/-- Every command within the bounds of its operands answers a next state that keeps the invariant's parts and touches no
part but its own. -/
theorem exec_keeps (c : Instr) (s : State) (h : c.wf = true) : outKeeps (bits (touches c)) s (exec c s) := by
  cases c
  case frameBoundary => exact outKeeps_mono (by dsimp only [touches]; decide) (execFrameBoundary_keeps ..)
  case innerLoopRun => exact outKeeps_mono (by dsimp only [touches]; decide) (execInnerLoopRun_keeps ..)
  case innerLoopSlotOverrun => exact outKeeps_mono (by dsimp only [touches]; decide) (execInnerLoopSlotOverrun_keeps ..)
  case chaffSlot => exact outKeeps_mono (by dsimp only [touches]; decide) (execChaffSlot_keeps ..)
  case chaffSlotOverrun => exact outKeeps_mono (by dsimp only [touches]; decide) (execChaffSlotOverrun_keeps ..)
  case powerPlantModelRun => exact outKeeps_mono (by dsimp only [touches]; decide) (execPowerPlantModelRun_keeps ..)
  case breakerStateConfirmed => exact outKeeps_mono (by dsimp only [touches]; decide) (execBreakerStateConfirmed_keeps ..)
  case lrRelease => exact outKeeps_mono (by dsimp only [touches]; decide) (execLrRelease_keeps ..)
  case breakerDiscrepancy => exact outKeeps_mono (by dsimp only [touches]; decide) (execBreakerDiscrepancy_keeps ..)
  case powerPlantModelOverrun => exact outKeeps_mono (by dsimp only [touches]; decide) (execPowerPlantModelOverrun_keeps ..)
  case sampleBoundary => exact outKeeps_mono (by dsimp only [touches]; decide) (execSampleBoundary_keeps ..)
  case sheafAlignment => exact outKeeps_mono (by dsimp only [touches]; decide) (execSheafAlignment_keeps ..)
  case sheafOverrun => exact outKeeps_mono (by dsimp only [touches]; decide) (execSheafOverrun_keeps ..)
  case streamSilent => exact outKeeps_mono (by dsimp only [touches]; decide) (execStreamSilent_keeps ..)
  case winnowRun => exact outKeeps_mono (by dsimp only [touches]; decide) (execWinnowRun_keeps ..)
  case winnowOverrun => exact outKeeps_mono (by dsimp only [touches]; decide) (execWinnowOverrun_keeps ..)
  case observerUpdate => exact outKeeps_mono (by dsimp only [touches]; decide) (execObserverUpdate_keeps ..)
  case observerOverrun => exact outKeeps_mono (by dsimp only [touches]; decide) (execObserverOverrun_keeps ..)
  case culmLaw => exact outKeeps_mono (by dsimp only [touches]; decide) (execCulmLaw_keeps ..)
  case culmLawOverrun => exact outKeeps_mono (by dsimp only [touches]; decide) (execCulmLawOverrun_keeps ..)
  case stubbleLaw => exact outKeeps_mono (by dsimp only [touches]; decide) (execStubbleLaw_keeps ..)
  case stubbleLost => exact outKeeps_mono (by dsimp only [touches]; decide) (execStubbleLost_keeps ..)
  case tillerNominalSolve => exact outKeeps_mono (by dsimp only [touches]; decide) (execTillerNominalSolve_keeps ..)
  case tillerPublish => exact outKeeps_mono (by dsimp only [touches]; decide) (execTillerPublish_keeps ..)
  case tillerOverrun => exact outKeeps_mono (by dsimp only [touches]; decide) (execTillerOverrun_keeps ..)
  case allocationApply => exact outKeeps_mono (by dsimp only [touches]; decide) (execAllocationApply_keeps ..)
  case stookSweep => exact outKeeps_mono (by dsimp only [touches]; decide) (execStookSweep_keeps ..)
  case caseSetPublish => exact outKeeps_mono (by dsimp only [touches]; decide) (execCaseSetPublish_keeps ..)
  case consequenceAlarm => exact outKeeps_mono (by dsimp only [touches]; decide) (execConsequenceAlarm_keeps ..)
  case driveSilenceDetection => exact outKeeps_mono (by dsimp only [touches]; decide) (execDriveSilenceDetection_keeps ..)
  case fastMirrorSend => exact outKeeps_mono (by dsimp only [touches]; decide) (execFastMirrorSend_keeps ..)
  case fullMirrorSend => exact outKeeps_mono (by dsimp only [touches]; decide) (execFullMirrorSend_keeps ..)
  case sharedValueDigestMismatch => exact outKeeps_mono (by dsimp only [touches]; decide) (execSharedValueDigestMismatch_keeps ..)
  case panicleInputPhase => exact outKeeps_mono (by dsimp only [touches]; decide) (execPanicleInputPhase_keeps ..)
  case panicleExecutePhase => exact outKeeps_mono (by dsimp only [touches]; decide) (execPanicleExecutePhase_keeps ..)
  case panicleOutputPhase => exact outKeeps_mono (by dsimp only [touches]; decide) (execPanicleOutputPhase_keeps ..)
  case panicleScanOverrun => exact outKeeps_mono (by dsimp only [touches]; decide) (execPanicleScanOverrun_keeps ..)
  case panicleRetainWrite => exact outKeeps_mono (by dsimp only [touches]; decide) (execPanicleRetainWrite_keeps ..)
  case genericWrite => exact outKeeps_mono (by dsimp only [touches]; decide) (execGenericWrite_keeps ..)
  case resultSampleRead => exact outKeeps_mono (by dsimp only [touches]; decide) (execResultSampleRead_keeps ..)
  case resultLatchTimeout => exact outKeeps_mono (by dsimp only [touches]; decide) (execResultLatchTimeout_keeps ..)
  case storeParameters => exact outKeeps_mono (by dsimp only [touches]; decide) (execStoreParameters_keeps ..)
  case storeComplete => exact outKeeps_mono (by dsimp only [touches]; decide) (execStoreComplete_keeps ..)
  case restoreDefaults => exact outKeeps_mono (by dsimp only [touches]; decide) (execRestoreDefaults_keeps ..)
  case configurationSetLoad => exact outKeeps_mono (by dsimp only [touches]; decide) (execConfigurationSetLoad_keeps ..)
  case sampleLengthWrite => exact outKeeps_mono (by dsimp only [touches]; decide) (execSampleLengthWrite_keeps ..)
  case modeCommandStandby => exact outKeeps_mono (by dsimp only [touches]; decide) (execModeCommandStandby_keeps ..)
  case modeCommandLever => exact outKeeps_mono (by dsimp only [touches]; decide) (execModeCommandLever_keeps ..)
  case modeCommandJoystick => exact outKeeps_mono (by dsimp only [touches]; decide) (execModeCommandJoystick_keeps ..)
  case modeCommandAutoHeading => exact outKeeps_mono (by dsimp only [touches]; decide) (execModeCommandAutoHeading_keeps ..)
  case modeCommandAutoPosition => exact outKeeps_mono (by dsimp only [touches]; decide) (execModeCommandAutoPosition_keeps ..)
  case modeCommandTrack => exact outKeeps_mono (by dsimp only [touches]; decide) (execModeCommandTrack_keeps ..)
  case modeCommandMaintenance => exact outKeeps_mono (by dsimp only [touches]; decide) (execModeCommandMaintenance_keeps ..)
  case modeCommandDormancy => exact outKeeps_mono (by dsimp only [touches]; decide) (execModeCommandDormancy_keeps ..)
  case actionCapturePosition => exact outKeeps_mono (by dsimp only [touches]; decide) (execActionCapturePosition_keeps ..)
  case actionCaptureHeading => exact outKeeps_mono (by dsimp only [touches]; decide) (execActionCaptureHeading_keeps ..)
  case actionHoldRamps => exact outKeeps_mono (by dsimp only [touches]; decide) (execActionHoldRamps_keeps ..)
  case actionReleaseRamps => exact outKeeps_mono (by dsimp only [touches]; decide) (execActionReleaseRamps_keeps ..)
  case streamDescriptorWrite => exact outKeeps_mono (by dsimp only [touches]; decide) (execStreamDescriptorWrite_keeps ..)
  case clockSlotReset => exact outKeeps_mono (by dsimp only [touches]; decide) (execClockSlotReset_keeps ..)
  case groupMembershipWrite => exact outKeeps_mono (by dsimp only [touches]; decide) (execGroupMembershipWrite_keeps ..)
  case referenceSelection => exact outKeeps_mono (by dsimp only [touches]; decide) (execReferenceSelection_keeps ..)
  case chaffCoefficientSet => exact outKeeps_mono (by dsimp only [touches]; decide) (execChaffCoefficientSet_keeps ..)
  case chaffStickyRead => exact outKeeps_mono (by dsimp only [touches]; decide) (execChaffStickyRead_keeps ..)
  case observerReset => exact outKeeps_mono (by dsimp only [touches]; decide) (execObserverReset_keeps ..)
  case gainSetSelection => exact outKeeps_mono (by dsimp only [touches]; decide) (execGainSetSelection_keeps ..)
  case culmCoefficientSet => exact outKeeps_mono (by dsimp only [touches]; decide) (execCulmCoefficientSet_keeps ..)
  case culmStickyRead => exact outKeeps_mono (by dsimp only [touches]; decide) (execCulmStickyRead_keeps ..)
  case thrusterDescriptorWrite => exact outKeeps_mono (by dsimp only [touches]; decide) (execThrusterDescriptorWrite_keeps ..)
  case caseDescriptorWrite => exact outKeeps_mono (by dsimp only [touches]; decide) (execCaseDescriptorWrite_keeps ..)
  case clearMismatchRemovals => exact outKeeps_mono (by dsimp only [touches]; decide) (execClearMismatchRemovals_keeps ..)
  case stubbleSet => exact outKeeps_mono (by dsimp only [touches]; decide) (execStubbleSet_keeps ..)
  case returnRequest => exact outKeeps_mono (by dsimp only [touches]; decide) (execReturnRequest_keeps ..)
  case stubbleStickyRead => exact outKeeps_mono (by dsimp only [touches]; decide) (execStubbleStickyRead_keeps ..)
  case plantDescriptorWrite => exact outKeeps_mono (by dsimp only [touches]; decide) (execPlantDescriptorWrite_keeps ..)
  case frontEndScriptWrite => exact outKeeps_mono (by dsimp only [touches]; decide) (execFrontEndScriptWrite_keeps ..)
  case spoofingClear => exact outKeeps_mono (by dsimp only [touches]; decide) (execSpoofingClear_keeps ..)
  case snapshotCaptureCommand => exact outKeeps_mono (by dsimp only [touches]; decide) (execSnapshotCaptureCommand_keeps ..)
  case archiveSelected => exact outKeeps_mono (by dsimp only [touches]; decide) (execArchiveSelected_keeps ..)
  case keepSelected => exact outKeeps_mono (by dsimp only [touches]; decide) (execKeepSelected_keeps ..)
  case navigationRecordsRead => exact outKeeps_mono (by dsimp only [touches]; decide) (execNavigationRecordsRead_keeps ..)
  case acceptJump => exact outKeeps_mono (by dsimp only [touches]; decide) (execAcceptJump_keeps ..)
  case queueOverflowRead => exact outKeeps_mono (by dsimp only [touches]; decide) (execQueueOverflowRead_keeps ..)
  case channelDescriptorWrite => exact outKeeps_mono (by dsimp only [touches]; decide) (execChannelDescriptorWrite_keeps ..)
  case comparePositionWrite => exact outKeeps_mono (by dsimp only [touches]; decide) (execComparePositionWrite_keeps ..)
  case feedbackStickyRead => exact outKeeps_mono (by dsimp only [touches]; decide) (execFeedbackStickyRead_keeps ..)
  case compareStatusRead => exact outKeeps_mono (by dsimp only [touches]; decide) (execCompareStatusRead_keeps ..)
  case serialTransmit => exact outKeeps_mono (by dsimp only [touches]; decide) (execSerialTransmit_keeps ..)
  case imuDescriptorWrite => exact outKeeps_mono (by dsimp only [touches]; decide) (execImuDescriptorWrite_keeps ..)
  case programImageLoad => exact outKeeps_mono (by dsimp only [touches]; decide) (execProgramImageLoad_keeps ..)
  case panicleRestartWarm => exact outKeeps_mono (by dsimp only [touches]; decide) (execPanicleRestartWarm_keeps ..)
  case panicleRestartCold => exact outKeeps_mono (by dsimp only [touches]; decide) (execPanicleRestartCold_keeps ..)
  case panicleRunWrite => exact outKeeps_mono (by dsimp only [touches]; decide) (execPanicleRunWrite_keeps ..)
  case scanLengthWrite => exact outKeeps_mono (by dsimp only [touches]; decide) (execScanLengthWrite_keeps ..)
  case forceListWrite => exact outKeeps_mono (by dsimp only [touches]; decide) (execForceListWrite_keeps ..)
  case arithmeticStickyRead => exact outKeeps_mono (by dsimp only [touches]; decide) (execArithmeticStickyRead_keeps ..)
  case handLeadToUnit => exact outKeeps_mono (by dsimp only [touches]; decide) (execHandLeadToUnit_keeps ..)
  case gateControlListWrite => exact outKeeps_mono (by dsimp only [touches]; decide) (execGateControlListWrite_keeps ..)
  case nodeTableWrite => exact outKeeps_mono (by dsimp only [touches]; decide) (execNodeTableWrite_keeps ..)
  case processMapWrite => exact outKeeps_mono (by dsimp only [touches]; decide) (execProcessMapWrite_keeps ..)
  case canTimingWrite => exact outKeeps_mono (by dsimp only [touches]; decide) (execCanTimingWrite_keeps ..)
  case filterListWrite => exact outKeeps_mono (by dsimp only [touches]; decide) (execFilterListWrite_keeps ..)
  case canRestart => exact outKeeps_mono (by dsimp only [touches]; decide) (execCanRestart_keeps ..)
  case granaryRead => exact outKeeps_mono (by dsimp only [touches]; decide) (execGranaryRead_keeps ..)
  case clearingToken => exact outKeeps_mono (by dsimp only [touches]; decide) (execClearingToken_keeps ..)
  case ownerCaEnrolment => exact outKeeps_mono (by dsimp only [touches]; decide) (execOwnerCaEnrolment_keeps ..)
  case revocationListLoad => exact outKeeps_mono (by dsimp only [touches]; decide) (execRevocationListLoad_keeps ..)
  case firmwareSlotWrite => exact outKeeps_mono (by dsimp only [touches]; decide) (execFirmwareSlotWrite_keeps ..)
  case antiRollbackCommit => exact outKeeps_mono (by dsimp only [touches]; decide) (execAntiRollbackCommit_keeps ..)
  case tamperClear => exact outKeeps_mono (by dsimp only [touches]; decide) (execTamperClear_keeps ..)
  case restartWarmCommand => exact outKeeps_mono (by dsimp only [touches]; decide) (execRestartWarmCommand_keeps ..)
  case restartColdCommand => exact outKeeps_mono (by dsimp only [touches]; decide) (execRestartColdCommand_keeps ..)
  case serialCharacterError => exact outKeeps_mono (by dsimp only [touches]; decide) (execSerialCharacterError_keeps ..)
  case sentenceReceived => exact outKeeps_mono (by dsimp only [touches]; decide) (execSentenceReceived_keeps ..)
  case rawFrameReceived => exact outKeeps_mono (by dsimp only [touches]; decide) (execRawFrameReceived_keeps ..)
  case serialTransmitComplete => exact outKeeps_mono (by dsimp only [touches]; decide) (execSerialTransmitComplete_keeps ..)
  case intakeDatagram => exact outKeeps_mono (by dsimp only [touches]; decide) (execIntakeDatagram_keeps ..)
  case imuDrdy => exact outKeeps_mono (by dsimp only [touches]; decide) (execImuDrdy_keeps ..)
  case imuReadComplete => exact outKeeps_mono (by dsimp only [touches]; decide) (execImuReadComplete_keeps ..)
  case imuPortFault => exact outKeeps_mono (by dsimp only [touches]; decide) (execImuPortFault_keeps ..)
  case aref1Low => exact outKeeps_mono (by dsimp only [touches]; decide) (execAref1Low_keeps ..)
  case aref1Restored => exact outKeeps_mono (by dsimp only [touches]; decide) (execAref1Restored_keeps ..)
  case dioLevelChange => exact outKeeps_mono (by dsimp only [touches]; decide) (execDioLevelChange_keeps ..)
  case comparePulseEnd => exact outKeeps_mono (by dsimp only [touches]; decide) (execComparePulseEnd_keeps ..)
  case supervisorRefreshMissed => exact outKeeps_mono (by dsimp only [touches]; decide) (execSupervisorRefreshMissed_keeps ..)
  case safeOvercurrent => exact outKeeps_mono (by dsimp only [touches]; decide) (execSafeOvercurrent_keeps ..)
  case safeOvercurrentRetry => exact outKeeps_mono (by dsimp only [touches]; decide) (execSafeOvercurrentRetry_keeps ..)
  case lrOvercurrent => exact outKeeps_mono (by dsimp only [touches]; decide) (execLrOvercurrent_keeps ..)
  case wakeNAsserted => exact outKeeps_mono (by dsimp only [touches]; decide) (execWakeNAsserted_keeps ..)
  case quadratureEdge => exact outKeeps_mono (by dsimp only [touches]; decide) (execQuadratureEdge_keeps ..)
  case channelFaultClear => exact outKeeps_mono (by dsimp only [touches]; decide) (execChannelFaultClear_keeps ..)
  case homeEvent => exact outKeeps_mono (by dsimp only [touches]; decide) (execHomeEvent_keeps ..)
  case trackingObserverUpdate => exact outKeeps_mono (by dsimp only [touches]; decide) (execTrackingObserverUpdate_keeps ..)
  case ssiReadStart => exact outKeeps_mono (by dsimp only [touches]; decide) (execSsiReadStart_keeps ..)
  case ssiReadComplete => exact outKeeps_mono (by dsimp only [touches]; decide) (execSsiReadComplete_keeps ..)
  case ssiClockTaken => exact outKeeps_mono (by dsimp only [touches]; decide) (execSsiClockTaken_keeps ..)
  case ssiClockYielded => exact outKeeps_mono (by dsimp only [touches]; decide) (execSsiClockYielded_keeps ..)
  case magneticInputChange => exact outKeeps_mono (by dsimp only [touches]; decide) (execMagneticInputChange_keeps ..)
  case gnssPortFault => exact outKeeps_mono (by dsimp only [touches]; decide) (execGnssPortFault_keeps ..)
  case gnssPortFaultClear => exact outKeeps_mono (by dsimp only [touches]; decide) (execGnssPortFaultClear_keeps ..)
  case frontEndEnable => exact outKeeps_mono (by dsimp only [touches]; decide) (execFrontEndEnable_keeps ..)
  case frontEndScriptRun => exact outKeeps_mono (by dsimp only [touches]; decide) (execFrontEndScriptRun_keeps ..)
  case frontEndAttention => exact outKeeps_mono (by dsimp only [touches]; decide) (execFrontEndAttention_keeps ..)
  case frontEndScriptRetry => exact outKeeps_mono (by dsimp only [touches]; decide) (execFrontEndScriptRetry_keeps ..)
  case acquisitionSearch => exact outKeeps_mono (by dsimp only [touches]; decide) (execAcquisitionSearch_keeps ..)
  case acquisitionLockTimeout => exact outKeeps_mono (by dsimp only [touches]; decide) (execAcquisitionLockTimeout_keeps ..)
  case channelFade => exact outKeeps_mono (by dsimp only [touches]; decide) (execChannelFade_keeps ..)
  case coastExpiry => exact outKeeps_mono (by dsimp only [touches]; decide) (execCoastExpiry_keeps ..)
  case sidePeakCheck => exact outKeeps_mono (by dsimp only [touches]; decide) (execSidePeakCheck_keeps ..)
  case measurementEpoch => exact outKeeps_mono (by dsimp only [touches]; decide) (execMeasurementEpoch_keeps ..)
  case jamming => exact outKeeps_mono (by dsimp only [touches]; decide) (execJamming_keeps ..)
  case jammingEnded => exact outKeeps_mono (by dsimp only [touches]; decide) (execJammingEnded_keeps ..)
  case snapshotArchive => exact outKeeps_mono (by dsimp only [touches]; decide) (execSnapshotArchive_keeps ..)
  case timeOffer => exact outKeeps_mono (by dsimp only [touches]; decide) (execTimeOffer_keeps ..)
  case navigationMessage => exact outKeeps_mono (by dsimp only [touches]; decide) (execNavigationMessage_keeps ..)
  case lossAidedSearch => exact outKeeps_mono (by dsimp only [touches]; decide) (execLossAidedSearch_keeps ..)
  case dormancyGnssCheck => exact outKeeps_mono (by dsimp only [touches]; decide) (execDormancyGnssCheck_keeps ..)
  case timeMeasurement => exact outKeeps_mono (by dsimp only [touches]; decide) (execTimeMeasurement_keeps ..)
  case timeStep => exact outKeeps_mono (by dsimp only [touches]; decide) (execTimeStep_keeps ..)
  case sourceLost => exact outKeeps_mono (by dsimp only [touches]; decide) (execSourceLost_keeps ..)
  case holdoverEntry => exact outKeeps_mono (by dsimp only [touches]; decide) (execHoldoverEntry_keeps ..)
  case holdoverLimit => exact outKeeps_mono (by dsimp only [touches]; decide) (execHoldoverLimit_keeps ..)
  case referenceChange => exact outKeeps_mono (by dsimp only [touches]; decide) (execReferenceChange_keeps ..)
  case ppsInEdge => exact outKeeps_mono (by dsimp only [touches]; decide) (execPpsInEdge_keeps ..)
  case ppsOutPulse => exact outKeeps_mono (by dsimp only [touches]; decide) (execPpsOutPulse_keeps ..)
  case leapSecondChange => exact outKeeps_mono (by dsimp only [touches]; decide) (execLeapSecondChange_keeps ..)
  case ptpSync => exact outKeeps_mono (by dsimp only [touches]; decide) (execPtpSync_keeps ..)
  case ptpAnnounce => exact outKeeps_mono (by dsimp only [touches]; decide) (execPtpAnnounce_keeps ..)
  case announceReceiptTimeout => exact outKeeps_mono (by dsimp only [touches]; decide) (execAnnounceReceiptTimeout_keeps ..)
  case ptpEventForward => exact outKeeps_mono (by dsimp only [touches]; decide) (execPtpEventForward_keeps ..)
  case transmitTimestamp => exact outKeeps_mono (by dsimp only [touches]; decide) (execTransmitTimestamp_keeps ..)
  case halurTimeMeasurement => exact outKeeps_mono (by dsimp only [touches]; decide) (execHalurTimeMeasurement_keeps ..)
  case canReferenceMessage => exact outKeeps_mono (by dsimp only [touches]; decide) (execCanReferenceMessage_keeps ..)
  case halurFastFrame => exact outKeeps_mono (by dsimp only [touches]; decide) (execHalurFastFrame_keeps ..)
  case halurFullFrame => exact outKeeps_mono (by dsimp only [touches]; decide) (execHalurFullFrame_keeps _ _ _ _ (by
    simp only [Instr.wf, Bool.and_eq_true] at h; exact h.2))
  case leadLossDeclaration => exact outKeeps_mono (by dsimp only [touches]; decide) (execLeadLossDeclaration_keeps ..)
  case claim h1 e p => exact outKeeps_mono (by dsimp only [touches]; decide) (execClaim_keeps h1 e p s)
  case takeLead => exact outKeeps_mono (by dsimp only [touches]; decide) (execTakeLead_keeps ..)
  case yield => exact outKeeps_mono (by dsimp only [touches]; decide) (execYield_keeps ..)
  case stopNotice h1 c => exact outKeeps_mono (by dsimp only [touches]; decide) (execStopNotice_keeps h1 c s)
  case joinRequest => exact outKeeps_mono (by dsimp only [touches]; decide) (execJoinRequest_keeps ..)
  case election => exact outKeeps_mono (by dsimp only [touches]; decide) (execElection_keeps ..)
  case bulkFrame => exact outKeeps_mono (by dsimp only [touches]; decide) (execBulkFrame_keeps ..)
  case bulkAcknowledgement => exact outKeeps_mono (by dsimp only [touches]; decide) (execBulkAcknowledgement_keeps ..)
  case bulkTransferTimeout => exact outKeeps_mono (by dsimp only [touches]; decide) (execBulkTransferTimeout_keeps ..)
  case panicleRequest => exact outKeeps_mono (by dsimp only [touches]; decide) (execPanicleRequest_keeps ..)
  case halurPortChange => exact outKeeps_mono (by dsimp only [touches]; decide) (execHalurPortChange_keeps ..)
  case mirrorDegraded => exact outKeeps_mono (by dsimp only [touches]; decide) (execMirrorDegraded_keeps ..)
  case halurDegraded => exact outKeeps_mono (by dsimp only [touches]; decide) (execHalurDegraded_keeps ..)
  case phyLinkChange => exact outKeeps_mono (by dsimp only [touches]; decide) (execPhyLinkChange_keeps ..)
  case kppFrame => exact outKeeps_mono (by dsimp only [touches]; decide) (execKppFrame_keeps ..)
  case kppQueue => exact outKeeps_mono (by dsimp only [touches]; decide) (execKppQueue_keeps ..)
  case kppWindowClose => exact outKeeps_mono (by dsimp only [touches]; decide) (execKppWindowClose_keeps ..)
  case publishedRecordSend => exact outKeeps_mono (by dsimp only [touches]; decide) (execPublishedRecordSend_keeps ..)
  case networkLost => exact outKeeps_mono (by dsimp only [touches]; decide) (execNetworkLost_keeps ..)
  case networkRestored => exact outKeeps_mono (by dsimp only [touches]; decide) (execNetworkRestored_keeps ..)
  case nodeLost => exact outKeeps_mono (by dsimp only [touches]; decide) (execNodeLost_keeps ..)
  case leadOffFieldPath => exact outKeeps_mono (by dsimp only [touches]; decide) (execLeadOffFieldPath_keeps ..)
  case kdpConnection => exact outKeeps_mono (by dsimp only [touches]; decide) (execKdpConnection_keeps ..)
  case kdpIdleTimeout => exact outKeeps_mono (by dsimp only [touches]; decide) (execKdpIdleTimeout_keeps ..)
  case kdpRead => exact outKeeps_mono (by dsimp only [touches]; decide) (execKdpRead_keeps ..)
  case kdpWrite => exact outKeeps_mono (by dsimp only [touches]; decide) (execKdpWrite_keeps ..)
  case kdpWholeRecordRead => exact outKeeps_mono (by dsimp only [touches]; decide) (execKdpWholeRecordRead_keeps ..)
  case kdpKeepalive => exact outKeeps_mono (by dsimp only [touches]; decide) (execKdpKeepalive_keeps ..)
  case canFrameReceived => exact outKeeps_mono (by dsimp only [touches]; decide) (execCanFrameReceived_keeps ..)
  case canCyclicQueue => exact outKeeps_mono (by dsimp only [touches]; decide) (execCanCyclicQueue_keeps ..)
  case canTransmitDone => exact outKeeps_mono (by dsimp only [touches]; decide) (execCanTransmitDone_keeps ..)
  case canErrorStateChange => exact outKeeps_mono (by dsimp only [touches]; decide) (execCanErrorStateChange_keeps ..)
  case busOffRecoveryStart => exact outKeeps_mono (by dsimp only [touches]; decide) (execBusOffRecoveryStart_keeps ..)
  case busOffRecovered => exact outKeeps_mono (by dsimp only [touches]; decide) (execBusOffRecovered_keeps ..)
  case controllerAlone => exact outKeeps_mono (by dsimp only [touches]; decide) (execControllerAlone_keeps ..)
  case bitRateCandidate => exact outKeeps_mono (by dsimp only [touches]; decide) (execBitRateCandidate_keeps ..)
  case sdoInitiate => exact outKeeps_mono (by dsimp only [touches]; decide) (execSdoInitiate_keeps ..)
  case sdoSegment => exact outKeeps_mono (by dsimp only [touches]; decide) (execSdoSegment_keeps ..)
  case sdoBlockSegment => exact outKeeps_mono (by dsimp only [touches]; decide) (execSdoBlockSegment_keeps ..)
  case sdoTransferTimeout => exact outKeeps_mono (by dsimp only [touches]; decide) (execSdoTransferTimeout_keeps ..)
  case rpdoReceived => exact outKeeps_mono (by dsimp only [touches]; decide) (execRpdoReceived_keeps ..)
  case tpdoEventTimer => exact outKeeps_mono (by dsimp only [touches]; decide) (execTpdoEventTimer_keeps ..)
  case producerHeartbeat => exact outKeeps_mono (by dsimp only [touches]; decide) (execProducerHeartbeat_keeps ..)
  case consumerHeartbeatLoss => exact outKeeps_mono (by dsimp only [touches]; decide) (execConsumerHeartbeatLoss_keeps ..)
  case nmtCommand a b c => exact outKeeps_mono (by dsimp only [touches]; decide) (execNmtCommand_keeps a b c s)
  case granaryPageWrite => exact outKeeps_mono (by dsimp only [touches]; decide) (execGranaryPageWrite_keeps ..)
  case signatureBlockComplete => exact outKeeps_mono (by dsimp only [touches]; decide) (execSignatureBlockComplete_keeps ..)
  case tamper => exact outKeeps_mono (by dsimp only [touches]; decide) (execTamper_keeps ..)
  case levelRaised => exact outKeeps_mono (by dsimp only [touches]; decide) (execLevelRaised_keeps ..)
  case levelLowered => exact outKeeps_mono (by dsimp only [touches]; decide) (execLevelLowered_keeps ..)
  case heatLimitExceeded => exact outKeeps_mono (by dsimp only [touches]; decide) (execHeatLimitExceeded_keeps ..)
  case caseSensorRestore => exact outKeeps_mono (by dsimp only [touches]; decide) (execCaseSensorRestore_keeps ..)
  case monitorWindowEnd => exact outKeeps_mono (by dsimp only [touches]; decide) (execMonitorWindowEnd_keeps ..)
  case wakeSource => exact outKeeps_mono (by dsimp only [touches]; decide) (execWakeSource_keeps ..)
  case wakeComplete => exact outKeeps_mono (by dsimp only [touches]; decide) (execWakeComplete_keeps ..)
  case vinApplied => exact outKeeps_mono (by dsimp only [touches]; decide) (execVinApplied_keeps ..)
  case startUpStage => exact outKeeps_mono (by dsimp only [touches]; decide) (execStartUpStage_keeps ..)
  case bootWatchdog => exact outKeeps_mono (by dsimp only [touches]; decide) (execBootWatchdog_keeps ..)
  case selfTestHaltRetry => exact outKeeps_mono (by dsimp only [touches]; decide) (execSelfTestHaltRetry_keeps ..)
  case repeatableSelfTest => exact outKeeps_mono (by dsimp only [touches]; decide) (execRepeatableSelfTest_keeps ..)
  case resetNLow => exact outKeeps_mono (by dsimp only [touches]; decide) (execResetNLow_keeps ..)
  case vinFalling => exact outKeeps_mono (by dsimp only [touches]; decide) (execVinFalling_keeps ..)
  case supervisorReset => exact outKeeps_mono (by dsimp only [touches]; decide) (execSupervisorReset_keeps ..)
  case automaticRestart => exact outKeeps_mono (by dsimp only [touches]; decide) (execAutomaticRestart_keeps ..)
  case recoveryImage => exact outKeeps_mono (by dsimp only [touches]; decide) (execRecoveryImage_keeps ..)
  case strapCheck => exact outKeeps_mono (by dsimp only [touches]; decide) (execStrapCheck_keeps ..)
  case resetNRelease => exact outKeeps_mono (by dsimp only [touches]; decide) (execResetNRelease_keeps ..)
  case romRetry => exact outKeeps_mono (by dsimp only [touches]; decide) (execRomRetry_keeps ..)
  case tamperEnded => exact outKeeps_mono (by dsimp only [touches]; decide) (execTamperEnded_keeps ..)
  case kdpConnectionClosed => exact outKeeps_mono (by dsimp only [touches]; decide) (execKdpConnectionClosed_keeps ..)
  case ptpSyncTransmit => exact outKeeps_mono (by dsimp only [touches]; decide) (execPtpSyncTransmit_keeps ..)
  case ptpDelayReqTransmit => exact outKeeps_mono (by dsimp only [touches]; decide) (execPtpDelayReqTransmit_keeps ..)

end Sys2Proof.Machine
end

