-- ==== Sys2Proof/Laws/State.lean ====
section
/-! SUPPORT. One lemma per field and operation of State: what each shared operation leaves unchanged, and what it sets. -/
namespace Sys2Proof.Machine
namespace State

theorem Noted.keeps_pending {s t : State} {c k : Nat} {l : List Nat} (h : s.Noted t c k l) : t.pending = s.pending :=
  show { t with gran := s.gran, obj := s.obj }.pending = s.pending from congrArg State.pending h.rest
theorem Noted.keeps_free {s t : State} {c k : Nat} {l : List Nat} (h : s.Noted t c k l) : t.free = s.free :=
  show { t with gran := s.gran, obj := s.obj }.free = s.free from congrArg State.free h.rest
theorem Noted.keeps_clk {s t : State} {c k : Nat} {l : List Nat} (h : s.Noted t c k l) : t.clk = s.clk :=
  show { t with gran := s.gran, obj := s.obj }.clk = s.clk from congrArg State.clk h.rest
theorem Noted.keeps_force {s t : State} {c k : Nat} {l : List Nat} (h : s.Noted t c k l) : t.force = s.force :=
  show { t with gran := s.gran, obj := s.obj }.force = s.force from congrArg State.force h.rest
theorem Noted.keeps_res {s t : State} {c k : Nat} {l : List Nat} (h : s.Noted t c k l) : t.res = s.res :=
  show { t with gran := s.gran, obj := s.obj }.res = s.res from congrArg State.res h.rest
theorem Noted.keeps_faults {s t : State} {c k : Nat} {l : List Nat} (h : s.Noted t c k l) : t.faults = s.faults :=
  show { t with gran := s.gran, obj := s.obj }.faults = s.faults from congrArg State.faults h.rest
theorem Noted.keeps_acc {s t : State} {c k : Nat} {l : List Nat} (h : s.Noted t c k l) : t.acc = s.acc :=
  show { t with gran := s.gran, obj := s.obj }.acc = s.acc from congrArg State.acc h.rest
theorem Noted.keeps_mode {s t : State} {c k : Nat} {l : List Nat} (h : s.Noted t c k l) : t.mode = s.mode :=
  show { t with gran := s.gran, obj := s.obj }.mode = s.mode from congrArg State.mode h.rest
theorem Noted.keeps_husk {s t : State} {c k : Nat} {l : List Nat} (h : s.Noted t c k l) : t.husk = s.husk :=
  show { t with gran := s.gran, obj := s.obj }.husk = s.husk from congrArg State.husk h.rest
theorem Noted.keeps_therm {s t : State} {c k : Nat} {l : List Nat} (h : s.Noted t c k l) : t.therm = s.therm :=
  show { t with gran := s.gran, obj := s.obj }.therm = s.therm from congrArg State.therm h.rest
theorem Noted.keeps_mons {s t : State} {c k : Nat} {l : List Nat} (h : s.Noted t c k l) : t.mons = s.mons :=
  show { t with gran := s.gran, obj := s.obj }.mons = s.mons from congrArg State.mons h.rest
theorem Noted.keeps_st {s t : State} {c k : Nat} {l : List Nat} (h : s.Noted t c k l) : t.st = s.st :=
  show { t with gran := s.gran, obj := s.obj }.st = s.st from congrArg State.st h.rest
theorem Noted.keeps_hal {s t : State} {c k : Nat} {l : List Nat} (h : s.Noted t c k l) : t.hal = s.hal :=
  show { t with gran := s.gran, obj := s.obj }.hal = s.hal from congrArg State.hal h.rest
theorem Noted.keeps_sheaf {s t : State} {c k : Nat} {l : List Nat} (h : s.Noted t c k l) : t.sheaf = s.sheaf :=
  show { t with gran := s.gran, obj := s.obj }.sheaf = s.sheaf from congrArg State.sheaf h.rest
theorem Noted.keeps_win {s t : State} {c k : Nat} {l : List Nat} (h : s.Noted t c k l) : t.win = s.win :=
  show { t with gran := s.gran, obj := s.obj }.win = s.win from congrArg State.win h.rest
theorem Noted.keeps_obs {s t : State} {c k : Nat} {l : List Nat} (h : s.Noted t c k l) : t.obs = s.obs :=
  show { t with gran := s.gran, obj := s.obj }.obs = s.obs from congrArg State.obs h.rest
theorem Noted.keeps_ctl {s t : State} {c k : Nat} {l : List Nat} (h : s.Noted t c k l) : t.ctl = s.ctl :=
  show { t with gran := s.gran, obj := s.obj }.ctl = s.ctl from congrArg State.ctl h.rest
theorem Noted.keeps_net {s t : State} {c k : Nat} {l : List Nat} (h : s.Noted t c k l) : t.net = s.net :=
  show { t with gran := s.gran, obj := s.obj }.net = s.net from congrArg State.net h.rest
theorem Noted.keeps_chaff {s t : State} {c k : Nat} {l : List Nat} (h : s.Noted t c k l) : t.chaff = s.chaff :=
  show { t with gran := s.gran, obj := s.obj }.chaff = s.chaff from congrArg State.chaff h.rest
theorem Noted.keeps_fb {s t : State} {c k : Nat} {l : List Nat} (h : s.Noted t c k l) : t.fb = s.fb :=
  show { t with gran := s.gran, obj := s.obj }.fb = s.fb from congrArg State.fb h.rest
theorem Noted.keeps_io {s t : State} {c k : Nat} {l : List Nat} (h : s.Noted t c k l) : t.io = s.io :=
  show { t with gran := s.gran, obj := s.obj }.io = s.io from congrArg State.io h.rest
theorem Noted.keeps_gn {s t : State} {c k : Nat} {l : List Nat} (h : s.Noted t c k l) : t.gn = s.gn :=
  show { t with gran := s.gran, obj := s.obj }.gn = s.gn from congrArg State.gn h.rest
theorem Noted.keeps_tb {s t : State} {c k : Nat} {l : List Nat} (h : s.Noted t c k l) : t.tb = s.tb :=
  show { t with gran := s.gran, obj := s.obj }.tb = s.tb from congrArg State.tb h.rest
theorem Noted.keeps_pan {s t : State} {c k : Nat} {l : List Nat} (h : s.Noted t c k l) : t.pan = s.pan :=
  show { t with gran := s.gran, obj := s.obj }.pan = s.pan from congrArg State.pan h.rest
theorem Noted.keeps_mir {s t : State} {c k : Nat} {l : List Nat} (h : s.Noted t c k l) : t.mir = s.mir :=
  show { t with gran := s.gran, obj := s.obj }.mir = s.mir from congrArg State.mir h.rest
theorem Noted.keeps_can {s t : State} {c k : Nat} {l : List Nat} (h : s.Noted t c k l) : t.can = s.can :=
  show { t with gran := s.gran, obj := s.obj }.can = s.can from congrArg State.can h.rest

theorem Raised.keeps_pending {s t : State} {c i k : Nat} (h : s.Raised t c i k) : t.pending = s.pending :=
  show { t with can := s.can, faults := s.faults }.pending = s.pending from congrArg State.pending h.rest
theorem Raised.keeps_free {s t : State} {c i k : Nat} (h : s.Raised t c i k) : t.free = s.free :=
  show { t with can := s.can, faults := s.faults }.free = s.free from congrArg State.free h.rest
theorem Raised.keeps_clk {s t : State} {c i k : Nat} (h : s.Raised t c i k) : t.clk = s.clk :=
  show { t with can := s.can, faults := s.faults }.clk = s.clk from congrArg State.clk h.rest
theorem Raised.keeps_obj {s t : State} {c i k : Nat} (h : s.Raised t c i k) : t.obj = s.obj :=
  show { t with can := s.can, faults := s.faults }.obj = s.obj from congrArg State.obj h.rest
theorem Raised.keeps_force {s t : State} {c i k : Nat} (h : s.Raised t c i k) : t.force = s.force :=
  show { t with can := s.can, faults := s.faults }.force = s.force from congrArg State.force h.rest
theorem Raised.keeps_res {s t : State} {c i k : Nat} (h : s.Raised t c i k) : t.res = s.res :=
  show { t with can := s.can, faults := s.faults }.res = s.res from congrArg State.res h.rest
theorem Raised.keeps_acc {s t : State} {c i k : Nat} (h : s.Raised t c i k) : t.acc = s.acc :=
  show { t with can := s.can, faults := s.faults }.acc = s.acc from congrArg State.acc h.rest
theorem Raised.keeps_mode {s t : State} {c i k : Nat} (h : s.Raised t c i k) : t.mode = s.mode :=
  show { t with can := s.can, faults := s.faults }.mode = s.mode from congrArg State.mode h.rest
theorem Raised.keeps_gran {s t : State} {c i k : Nat} (h : s.Raised t c i k) : t.gran = s.gran :=
  show { t with can := s.can, faults := s.faults }.gran = s.gran from congrArg State.gran h.rest
theorem Raised.keeps_husk {s t : State} {c i k : Nat} (h : s.Raised t c i k) : t.husk = s.husk :=
  show { t with can := s.can, faults := s.faults }.husk = s.husk from congrArg State.husk h.rest
theorem Raised.keeps_therm {s t : State} {c i k : Nat} (h : s.Raised t c i k) : t.therm = s.therm :=
  show { t with can := s.can, faults := s.faults }.therm = s.therm from congrArg State.therm h.rest
theorem Raised.keeps_mons {s t : State} {c i k : Nat} (h : s.Raised t c i k) : t.mons = s.mons :=
  show { t with can := s.can, faults := s.faults }.mons = s.mons from congrArg State.mons h.rest
theorem Raised.keeps_st {s t : State} {c i k : Nat} (h : s.Raised t c i k) : t.st = s.st :=
  show { t with can := s.can, faults := s.faults }.st = s.st from congrArg State.st h.rest
theorem Raised.keeps_hal {s t : State} {c i k : Nat} (h : s.Raised t c i k) : t.hal = s.hal :=
  show { t with can := s.can, faults := s.faults }.hal = s.hal from congrArg State.hal h.rest
theorem Raised.keeps_sheaf {s t : State} {c i k : Nat} (h : s.Raised t c i k) : t.sheaf = s.sheaf :=
  show { t with can := s.can, faults := s.faults }.sheaf = s.sheaf from congrArg State.sheaf h.rest
theorem Raised.keeps_win {s t : State} {c i k : Nat} (h : s.Raised t c i k) : t.win = s.win :=
  show { t with can := s.can, faults := s.faults }.win = s.win from congrArg State.win h.rest
theorem Raised.keeps_obs {s t : State} {c i k : Nat} (h : s.Raised t c i k) : t.obs = s.obs :=
  show { t with can := s.can, faults := s.faults }.obs = s.obs from congrArg State.obs h.rest
theorem Raised.keeps_ctl {s t : State} {c i k : Nat} (h : s.Raised t c i k) : t.ctl = s.ctl :=
  show { t with can := s.can, faults := s.faults }.ctl = s.ctl from congrArg State.ctl h.rest
theorem Raised.keeps_net {s t : State} {c i k : Nat} (h : s.Raised t c i k) : t.net = s.net :=
  show { t with can := s.can, faults := s.faults }.net = s.net from congrArg State.net h.rest
theorem Raised.keeps_chaff {s t : State} {c i k : Nat} (h : s.Raised t c i k) : t.chaff = s.chaff :=
  show { t with can := s.can, faults := s.faults }.chaff = s.chaff from congrArg State.chaff h.rest
theorem Raised.keeps_fb {s t : State} {c i k : Nat} (h : s.Raised t c i k) : t.fb = s.fb :=
  show { t with can := s.can, faults := s.faults }.fb = s.fb from congrArg State.fb h.rest
theorem Raised.keeps_io {s t : State} {c i k : Nat} (h : s.Raised t c i k) : t.io = s.io :=
  show { t with can := s.can, faults := s.faults }.io = s.io from congrArg State.io h.rest
theorem Raised.keeps_gn {s t : State} {c i k : Nat} (h : s.Raised t c i k) : t.gn = s.gn :=
  show { t with can := s.can, faults := s.faults }.gn = s.gn from congrArg State.gn h.rest
theorem Raised.keeps_tb {s t : State} {c i k : Nat} (h : s.Raised t c i k) : t.tb = s.tb :=
  show { t with can := s.can, faults := s.faults }.tb = s.tb from congrArg State.tb h.rest
theorem Raised.keeps_pan {s t : State} {c i k : Nat} (h : s.Raised t c i k) : t.pan = s.pan :=
  show { t with can := s.can, faults := s.faults }.pan = s.pan from congrArg State.pan h.rest
theorem Raised.keeps_mir {s t : State} {c i k : Nat} (h : s.Raised t c i k) : t.mir = s.mir :=
  show { t with can := s.can, faults := s.faults }.mir = s.mir from congrArg State.mir h.rest

theorem Cleared.keeps_pending {s t : State} {c i : Nat} (h : s.Cleared t c i) : t.pending = s.pending :=
  show { t with can := s.can, faults := s.faults }.pending = s.pending from congrArg State.pending h.rest
theorem Cleared.keeps_free {s t : State} {c i : Nat} (h : s.Cleared t c i) : t.free = s.free :=
  show { t with can := s.can, faults := s.faults }.free = s.free from congrArg State.free h.rest
theorem Cleared.keeps_clk {s t : State} {c i : Nat} (h : s.Cleared t c i) : t.clk = s.clk :=
  show { t with can := s.can, faults := s.faults }.clk = s.clk from congrArg State.clk h.rest
theorem Cleared.keeps_obj {s t : State} {c i : Nat} (h : s.Cleared t c i) : t.obj = s.obj :=
  show { t with can := s.can, faults := s.faults }.obj = s.obj from congrArg State.obj h.rest
theorem Cleared.keeps_force {s t : State} {c i : Nat} (h : s.Cleared t c i) : t.force = s.force :=
  show { t with can := s.can, faults := s.faults }.force = s.force from congrArg State.force h.rest
theorem Cleared.keeps_res {s t : State} {c i : Nat} (h : s.Cleared t c i) : t.res = s.res :=
  show { t with can := s.can, faults := s.faults }.res = s.res from congrArg State.res h.rest
theorem Cleared.keeps_acc {s t : State} {c i : Nat} (h : s.Cleared t c i) : t.acc = s.acc :=
  show { t with can := s.can, faults := s.faults }.acc = s.acc from congrArg State.acc h.rest
theorem Cleared.keeps_mode {s t : State} {c i : Nat} (h : s.Cleared t c i) : t.mode = s.mode :=
  show { t with can := s.can, faults := s.faults }.mode = s.mode from congrArg State.mode h.rest
theorem Cleared.keeps_gran {s t : State} {c i : Nat} (h : s.Cleared t c i) : t.gran = s.gran :=
  show { t with can := s.can, faults := s.faults }.gran = s.gran from congrArg State.gran h.rest
theorem Cleared.keeps_husk {s t : State} {c i : Nat} (h : s.Cleared t c i) : t.husk = s.husk :=
  show { t with can := s.can, faults := s.faults }.husk = s.husk from congrArg State.husk h.rest
theorem Cleared.keeps_therm {s t : State} {c i : Nat} (h : s.Cleared t c i) : t.therm = s.therm :=
  show { t with can := s.can, faults := s.faults }.therm = s.therm from congrArg State.therm h.rest
theorem Cleared.keeps_mons {s t : State} {c i : Nat} (h : s.Cleared t c i) : t.mons = s.mons :=
  show { t with can := s.can, faults := s.faults }.mons = s.mons from congrArg State.mons h.rest
theorem Cleared.keeps_st {s t : State} {c i : Nat} (h : s.Cleared t c i) : t.st = s.st :=
  show { t with can := s.can, faults := s.faults }.st = s.st from congrArg State.st h.rest
theorem Cleared.keeps_hal {s t : State} {c i : Nat} (h : s.Cleared t c i) : t.hal = s.hal :=
  show { t with can := s.can, faults := s.faults }.hal = s.hal from congrArg State.hal h.rest
theorem Cleared.keeps_sheaf {s t : State} {c i : Nat} (h : s.Cleared t c i) : t.sheaf = s.sheaf :=
  show { t with can := s.can, faults := s.faults }.sheaf = s.sheaf from congrArg State.sheaf h.rest
theorem Cleared.keeps_win {s t : State} {c i : Nat} (h : s.Cleared t c i) : t.win = s.win :=
  show { t with can := s.can, faults := s.faults }.win = s.win from congrArg State.win h.rest
theorem Cleared.keeps_obs {s t : State} {c i : Nat} (h : s.Cleared t c i) : t.obs = s.obs :=
  show { t with can := s.can, faults := s.faults }.obs = s.obs from congrArg State.obs h.rest
theorem Cleared.keeps_ctl {s t : State} {c i : Nat} (h : s.Cleared t c i) : t.ctl = s.ctl :=
  show { t with can := s.can, faults := s.faults }.ctl = s.ctl from congrArg State.ctl h.rest
theorem Cleared.keeps_net {s t : State} {c i : Nat} (h : s.Cleared t c i) : t.net = s.net :=
  show { t with can := s.can, faults := s.faults }.net = s.net from congrArg State.net h.rest
theorem Cleared.keeps_chaff {s t : State} {c i : Nat} (h : s.Cleared t c i) : t.chaff = s.chaff :=
  show { t with can := s.can, faults := s.faults }.chaff = s.chaff from congrArg State.chaff h.rest
theorem Cleared.keeps_fb {s t : State} {c i : Nat} (h : s.Cleared t c i) : t.fb = s.fb :=
  show { t with can := s.can, faults := s.faults }.fb = s.fb from congrArg State.fb h.rest
theorem Cleared.keeps_io {s t : State} {c i : Nat} (h : s.Cleared t c i) : t.io = s.io :=
  show { t with can := s.can, faults := s.faults }.io = s.io from congrArg State.io h.rest
theorem Cleared.keeps_gn {s t : State} {c i : Nat} (h : s.Cleared t c i) : t.gn = s.gn :=
  show { t with can := s.can, faults := s.faults }.gn = s.gn from congrArg State.gn h.rest
theorem Cleared.keeps_tb {s t : State} {c i : Nat} (h : s.Cleared t c i) : t.tb = s.tb :=
  show { t with can := s.can, faults := s.faults }.tb = s.tb from congrArg State.tb h.rest
theorem Cleared.keeps_pan {s t : State} {c i : Nat} (h : s.Cleared t c i) : t.pan = s.pan :=
  show { t with can := s.can, faults := s.faults }.pan = s.pan from congrArg State.pan h.rest
theorem Cleared.keeps_mir {s t : State} {c i : Nat} (h : s.Cleared t c i) : t.mir = s.mir :=
  show { t with can := s.can, faults := s.faults }.mir = s.mir from congrArg State.mir h.rest

theorem Alarmed.keeps_pending {s t : State} {c i k : Nat} {l : List Nat} (h : s.Alarmed t c i k l) : t.pending = s.pending :=
  h.choose_spec.2.keeps_pending.trans h.choose_spec.1.keeps_pending
theorem Alarmed.keeps_free {s t : State} {c i k : Nat} {l : List Nat} (h : s.Alarmed t c i k l) : t.free = s.free :=
  h.choose_spec.2.keeps_free.trans h.choose_spec.1.keeps_free
theorem Alarmed.keeps_clk {s t : State} {c i k : Nat} {l : List Nat} (h : s.Alarmed t c i k l) : t.clk = s.clk :=
  h.choose_spec.2.keeps_clk.trans h.choose_spec.1.keeps_clk
theorem Alarmed.keeps_force {s t : State} {c i k : Nat} {l : List Nat} (h : s.Alarmed t c i k l) : t.force = s.force :=
  h.choose_spec.2.keeps_force.trans h.choose_spec.1.keeps_force
theorem Alarmed.keeps_res {s t : State} {c i k : Nat} {l : List Nat} (h : s.Alarmed t c i k l) : t.res = s.res :=
  h.choose_spec.2.keeps_res.trans h.choose_spec.1.keeps_res
theorem Alarmed.keeps_acc {s t : State} {c i k : Nat} {l : List Nat} (h : s.Alarmed t c i k l) : t.acc = s.acc :=
  h.choose_spec.2.keeps_acc.trans h.choose_spec.1.keeps_acc
theorem Alarmed.keeps_mode {s t : State} {c i k : Nat} {l : List Nat} (h : s.Alarmed t c i k l) : t.mode = s.mode :=
  h.choose_spec.2.keeps_mode.trans h.choose_spec.1.keeps_mode
theorem Alarmed.keeps_husk {s t : State} {c i k : Nat} {l : List Nat} (h : s.Alarmed t c i k l) : t.husk = s.husk :=
  h.choose_spec.2.keeps_husk.trans h.choose_spec.1.keeps_husk
theorem Alarmed.keeps_therm {s t : State} {c i k : Nat} {l : List Nat} (h : s.Alarmed t c i k l) : t.therm = s.therm :=
  h.choose_spec.2.keeps_therm.trans h.choose_spec.1.keeps_therm
theorem Alarmed.keeps_mons {s t : State} {c i k : Nat} {l : List Nat} (h : s.Alarmed t c i k l) : t.mons = s.mons :=
  h.choose_spec.2.keeps_mons.trans h.choose_spec.1.keeps_mons
theorem Alarmed.keeps_st {s t : State} {c i k : Nat} {l : List Nat} (h : s.Alarmed t c i k l) : t.st = s.st :=
  h.choose_spec.2.keeps_st.trans h.choose_spec.1.keeps_st
theorem Alarmed.keeps_hal {s t : State} {c i k : Nat} {l : List Nat} (h : s.Alarmed t c i k l) : t.hal = s.hal :=
  h.choose_spec.2.keeps_hal.trans h.choose_spec.1.keeps_hal
theorem Alarmed.keeps_sheaf {s t : State} {c i k : Nat} {l : List Nat} (h : s.Alarmed t c i k l) : t.sheaf = s.sheaf :=
  h.choose_spec.2.keeps_sheaf.trans h.choose_spec.1.keeps_sheaf
theorem Alarmed.keeps_win {s t : State} {c i k : Nat} {l : List Nat} (h : s.Alarmed t c i k l) : t.win = s.win :=
  h.choose_spec.2.keeps_win.trans h.choose_spec.1.keeps_win
theorem Alarmed.keeps_obs {s t : State} {c i k : Nat} {l : List Nat} (h : s.Alarmed t c i k l) : t.obs = s.obs :=
  h.choose_spec.2.keeps_obs.trans h.choose_spec.1.keeps_obs
theorem Alarmed.keeps_ctl {s t : State} {c i k : Nat} {l : List Nat} (h : s.Alarmed t c i k l) : t.ctl = s.ctl :=
  h.choose_spec.2.keeps_ctl.trans h.choose_spec.1.keeps_ctl
theorem Alarmed.keeps_net {s t : State} {c i k : Nat} {l : List Nat} (h : s.Alarmed t c i k l) : t.net = s.net :=
  h.choose_spec.2.keeps_net.trans h.choose_spec.1.keeps_net
theorem Alarmed.keeps_chaff {s t : State} {c i k : Nat} {l : List Nat} (h : s.Alarmed t c i k l) : t.chaff = s.chaff :=
  h.choose_spec.2.keeps_chaff.trans h.choose_spec.1.keeps_chaff
theorem Alarmed.keeps_fb {s t : State} {c i k : Nat} {l : List Nat} (h : s.Alarmed t c i k l) : t.fb = s.fb :=
  h.choose_spec.2.keeps_fb.trans h.choose_spec.1.keeps_fb
theorem Alarmed.keeps_io {s t : State} {c i k : Nat} {l : List Nat} (h : s.Alarmed t c i k l) : t.io = s.io :=
  h.choose_spec.2.keeps_io.trans h.choose_spec.1.keeps_io
theorem Alarmed.keeps_gn {s t : State} {c i k : Nat} {l : List Nat} (h : s.Alarmed t c i k l) : t.gn = s.gn :=
  h.choose_spec.2.keeps_gn.trans h.choose_spec.1.keeps_gn
theorem Alarmed.keeps_tb {s t : State} {c i k : Nat} {l : List Nat} (h : s.Alarmed t c i k l) : t.tb = s.tb :=
  h.choose_spec.2.keeps_tb.trans h.choose_spec.1.keeps_tb
theorem Alarmed.keeps_pan {s t : State} {c i k : Nat} {l : List Nat} (h : s.Alarmed t c i k l) : t.pan = s.pan :=
  h.choose_spec.2.keeps_pan.trans h.choose_spec.1.keeps_pan
theorem Alarmed.keeps_mir {s t : State} {c i k : Nat} {l : List Nat} (h : s.Alarmed t c i k l) : t.mir = s.mir :=
  h.choose_spec.2.keeps_mir.trans h.choose_spec.1.keeps_mir

@[simp] theorem record_pending (s : State) (c k : Nat) (l : List Nat) : (s.record c k l).pending = s.pending := (record_noted s c k l).keeps_pending
@[simp] theorem record_free (s : State) (c k : Nat) (l : List Nat) : (s.record c k l).free = s.free := (record_noted s c k l).keeps_free
@[simp] theorem record_clk (s : State) (c k : Nat) (l : List Nat) : (s.record c k l).clk = s.clk := (record_noted s c k l).keeps_clk
@[simp] theorem record_force (s : State) (c k : Nat) (l : List Nat) : (s.record c k l).force = s.force := (record_noted s c k l).keeps_force
@[simp] theorem record_res (s : State) (c k : Nat) (l : List Nat) : (s.record c k l).res = s.res := (record_noted s c k l).keeps_res
@[simp] theorem record_faults (s : State) (c k : Nat) (l : List Nat) : (s.record c k l).faults = s.faults := (record_noted s c k l).keeps_faults
@[simp] theorem record_acc (s : State) (c k : Nat) (l : List Nat) : (s.record c k l).acc = s.acc := (record_noted s c k l).keeps_acc
@[simp] theorem record_mode (s : State) (c k : Nat) (l : List Nat) : (s.record c k l).mode = s.mode := (record_noted s c k l).keeps_mode
@[simp] theorem record_husk (s : State) (c k : Nat) (l : List Nat) : (s.record c k l).husk = s.husk := (record_noted s c k l).keeps_husk
@[simp] theorem record_therm (s : State) (c k : Nat) (l : List Nat) : (s.record c k l).therm = s.therm := (record_noted s c k l).keeps_therm
@[simp] theorem record_mons (s : State) (c k : Nat) (l : List Nat) : (s.record c k l).mons = s.mons := (record_noted s c k l).keeps_mons
@[simp] theorem record_st (s : State) (c k : Nat) (l : List Nat) : (s.record c k l).st = s.st := (record_noted s c k l).keeps_st
@[simp] theorem record_hal (s : State) (c k : Nat) (l : List Nat) : (s.record c k l).hal = s.hal := (record_noted s c k l).keeps_hal
@[simp] theorem record_sheaf (s : State) (c k : Nat) (l : List Nat) : (s.record c k l).sheaf = s.sheaf := (record_noted s c k l).keeps_sheaf
@[simp] theorem record_win (s : State) (c k : Nat) (l : List Nat) : (s.record c k l).win = s.win := (record_noted s c k l).keeps_win
@[simp] theorem record_obs (s : State) (c k : Nat) (l : List Nat) : (s.record c k l).obs = s.obs := (record_noted s c k l).keeps_obs
@[simp] theorem record_ctl (s : State) (c k : Nat) (l : List Nat) : (s.record c k l).ctl = s.ctl := (record_noted s c k l).keeps_ctl
@[simp] theorem record_net (s : State) (c k : Nat) (l : List Nat) : (s.record c k l).net = s.net := (record_noted s c k l).keeps_net
@[simp] theorem record_chaff (s : State) (c k : Nat) (l : List Nat) : (s.record c k l).chaff = s.chaff := (record_noted s c k l).keeps_chaff
@[simp] theorem record_fb (s : State) (c k : Nat) (l : List Nat) : (s.record c k l).fb = s.fb := (record_noted s c k l).keeps_fb
@[simp] theorem record_io (s : State) (c k : Nat) (l : List Nat) : (s.record c k l).io = s.io := (record_noted s c k l).keeps_io
@[simp] theorem record_gn (s : State) (c k : Nat) (l : List Nat) : (s.record c k l).gn = s.gn := (record_noted s c k l).keeps_gn
@[simp] theorem record_tb (s : State) (c k : Nat) (l : List Nat) : (s.record c k l).tb = s.tb := (record_noted s c k l).keeps_tb
@[simp] theorem record_pan (s : State) (c k : Nat) (l : List Nat) : (s.record c k l).pan = s.pan := (record_noted s c k l).keeps_pan
@[simp] theorem record_mir (s : State) (c k : Nat) (l : List Nat) : (s.record c k l).mir = s.mir := (record_noted s c k l).keeps_mir
@[simp] theorem record_can (s : State) (c k : Nat) (l : List Nat) : (s.record c k l).can = s.can := (record_noted s c k l).keeps_can

@[simp] theorem note_pending (s : State) (c : Nat) (l : List Nat) : (s.note c l).pending = s.pending := (note_noted s c l).keeps_pending
@[simp] theorem note_free (s : State) (c : Nat) (l : List Nat) : (s.note c l).free = s.free := (note_noted s c l).keeps_free
@[simp] theorem note_clk (s : State) (c : Nat) (l : List Nat) : (s.note c l).clk = s.clk := (note_noted s c l).keeps_clk
@[simp] theorem note_force (s : State) (c : Nat) (l : List Nat) : (s.note c l).force = s.force := (note_noted s c l).keeps_force
@[simp] theorem note_res (s : State) (c : Nat) (l : List Nat) : (s.note c l).res = s.res := (note_noted s c l).keeps_res
@[simp] theorem note_faults (s : State) (c : Nat) (l : List Nat) : (s.note c l).faults = s.faults := (note_noted s c l).keeps_faults
@[simp] theorem note_acc (s : State) (c : Nat) (l : List Nat) : (s.note c l).acc = s.acc := (note_noted s c l).keeps_acc
@[simp] theorem note_mode (s : State) (c : Nat) (l : List Nat) : (s.note c l).mode = s.mode := (note_noted s c l).keeps_mode
@[simp] theorem note_husk (s : State) (c : Nat) (l : List Nat) : (s.note c l).husk = s.husk := (note_noted s c l).keeps_husk
@[simp] theorem note_therm (s : State) (c : Nat) (l : List Nat) : (s.note c l).therm = s.therm := (note_noted s c l).keeps_therm
@[simp] theorem note_mons (s : State) (c : Nat) (l : List Nat) : (s.note c l).mons = s.mons := (note_noted s c l).keeps_mons
@[simp] theorem note_st (s : State) (c : Nat) (l : List Nat) : (s.note c l).st = s.st := (note_noted s c l).keeps_st
@[simp] theorem note_hal (s : State) (c : Nat) (l : List Nat) : (s.note c l).hal = s.hal := (note_noted s c l).keeps_hal
@[simp] theorem note_sheaf (s : State) (c : Nat) (l : List Nat) : (s.note c l).sheaf = s.sheaf := (note_noted s c l).keeps_sheaf
@[simp] theorem note_win (s : State) (c : Nat) (l : List Nat) : (s.note c l).win = s.win := (note_noted s c l).keeps_win
@[simp] theorem note_obs (s : State) (c : Nat) (l : List Nat) : (s.note c l).obs = s.obs := (note_noted s c l).keeps_obs
@[simp] theorem note_ctl (s : State) (c : Nat) (l : List Nat) : (s.note c l).ctl = s.ctl := (note_noted s c l).keeps_ctl
@[simp] theorem note_net (s : State) (c : Nat) (l : List Nat) : (s.note c l).net = s.net := (note_noted s c l).keeps_net
@[simp] theorem note_chaff (s : State) (c : Nat) (l : List Nat) : (s.note c l).chaff = s.chaff := (note_noted s c l).keeps_chaff
@[simp] theorem note_fb (s : State) (c : Nat) (l : List Nat) : (s.note c l).fb = s.fb := (note_noted s c l).keeps_fb
@[simp] theorem note_io (s : State) (c : Nat) (l : List Nat) : (s.note c l).io = s.io := (note_noted s c l).keeps_io
@[simp] theorem note_gn (s : State) (c : Nat) (l : List Nat) : (s.note c l).gn = s.gn := (note_noted s c l).keeps_gn
@[simp] theorem note_tb (s : State) (c : Nat) (l : List Nat) : (s.note c l).tb = s.tb := (note_noted s c l).keeps_tb
@[simp] theorem note_pan (s : State) (c : Nat) (l : List Nat) : (s.note c l).pan = s.pan := (note_noted s c l).keeps_pan
@[simp] theorem note_mir (s : State) (c : Nat) (l : List Nat) : (s.note c l).mir = s.mir := (note_noted s c l).keeps_mir
@[simp] theorem note_can (s : State) (c : Nat) (l : List Nat) : (s.note c l).can = s.can := (note_noted s c l).keeps_can

@[simp] theorem raise_pending (s : State) (c i k : Nat) : (s.raise c i k).pending = s.pending := (raise_raised s c i k).keeps_pending
@[simp] theorem raise_free (s : State) (c i k : Nat) : (s.raise c i k).free = s.free := (raise_raised s c i k).keeps_free
@[simp] theorem raise_clk (s : State) (c i k : Nat) : (s.raise c i k).clk = s.clk := (raise_raised s c i k).keeps_clk
@[simp] theorem raise_obj (s : State) (c i k : Nat) : (s.raise c i k).obj = s.obj := (raise_raised s c i k).keeps_obj
@[simp] theorem raise_force (s : State) (c i k : Nat) : (s.raise c i k).force = s.force := (raise_raised s c i k).keeps_force
@[simp] theorem raise_res (s : State) (c i k : Nat) : (s.raise c i k).res = s.res := (raise_raised s c i k).keeps_res
@[simp] theorem raise_acc (s : State) (c i k : Nat) : (s.raise c i k).acc = s.acc := (raise_raised s c i k).keeps_acc
@[simp] theorem raise_mode (s : State) (c i k : Nat) : (s.raise c i k).mode = s.mode := (raise_raised s c i k).keeps_mode
@[simp] theorem raise_gran (s : State) (c i k : Nat) : (s.raise c i k).gran = s.gran := (raise_raised s c i k).keeps_gran
@[simp] theorem raise_husk (s : State) (c i k : Nat) : (s.raise c i k).husk = s.husk := (raise_raised s c i k).keeps_husk
@[simp] theorem raise_therm (s : State) (c i k : Nat) : (s.raise c i k).therm = s.therm := (raise_raised s c i k).keeps_therm
@[simp] theorem raise_mons (s : State) (c i k : Nat) : (s.raise c i k).mons = s.mons := (raise_raised s c i k).keeps_mons
@[simp] theorem raise_st (s : State) (c i k : Nat) : (s.raise c i k).st = s.st := (raise_raised s c i k).keeps_st
@[simp] theorem raise_hal (s : State) (c i k : Nat) : (s.raise c i k).hal = s.hal := (raise_raised s c i k).keeps_hal
@[simp] theorem raise_sheaf (s : State) (c i k : Nat) : (s.raise c i k).sheaf = s.sheaf := (raise_raised s c i k).keeps_sheaf
@[simp] theorem raise_win (s : State) (c i k : Nat) : (s.raise c i k).win = s.win := (raise_raised s c i k).keeps_win
@[simp] theorem raise_obs (s : State) (c i k : Nat) : (s.raise c i k).obs = s.obs := (raise_raised s c i k).keeps_obs
@[simp] theorem raise_ctl (s : State) (c i k : Nat) : (s.raise c i k).ctl = s.ctl := (raise_raised s c i k).keeps_ctl
@[simp] theorem raise_net (s : State) (c i k : Nat) : (s.raise c i k).net = s.net := (raise_raised s c i k).keeps_net
@[simp] theorem raise_chaff (s : State) (c i k : Nat) : (s.raise c i k).chaff = s.chaff := (raise_raised s c i k).keeps_chaff
@[simp] theorem raise_fb (s : State) (c i k : Nat) : (s.raise c i k).fb = s.fb := (raise_raised s c i k).keeps_fb
@[simp] theorem raise_io (s : State) (c i k : Nat) : (s.raise c i k).io = s.io := (raise_raised s c i k).keeps_io
@[simp] theorem raise_gn (s : State) (c i k : Nat) : (s.raise c i k).gn = s.gn := (raise_raised s c i k).keeps_gn
@[simp] theorem raise_tb (s : State) (c i k : Nat) : (s.raise c i k).tb = s.tb := (raise_raised s c i k).keeps_tb
@[simp] theorem raise_pan (s : State) (c i k : Nat) : (s.raise c i k).pan = s.pan := (raise_raised s c i k).keeps_pan
@[simp] theorem raise_mir (s : State) (c i k : Nat) : (s.raise c i k).mir = s.mir := (raise_raised s c i k).keeps_mir

@[simp] theorem lower_pending (s : State) (c i : Nat) : (s.lower c i).pending = s.pending := (lower_cleared s c i).keeps_pending
@[simp] theorem lower_free (s : State) (c i : Nat) : (s.lower c i).free = s.free := (lower_cleared s c i).keeps_free
@[simp] theorem lower_clk (s : State) (c i : Nat) : (s.lower c i).clk = s.clk := (lower_cleared s c i).keeps_clk
@[simp] theorem lower_obj (s : State) (c i : Nat) : (s.lower c i).obj = s.obj := (lower_cleared s c i).keeps_obj
@[simp] theorem lower_force (s : State) (c i : Nat) : (s.lower c i).force = s.force := (lower_cleared s c i).keeps_force
@[simp] theorem lower_res (s : State) (c i : Nat) : (s.lower c i).res = s.res := (lower_cleared s c i).keeps_res
@[simp] theorem lower_acc (s : State) (c i : Nat) : (s.lower c i).acc = s.acc := (lower_cleared s c i).keeps_acc
@[simp] theorem lower_mode (s : State) (c i : Nat) : (s.lower c i).mode = s.mode := (lower_cleared s c i).keeps_mode
@[simp] theorem lower_gran (s : State) (c i : Nat) : (s.lower c i).gran = s.gran := (lower_cleared s c i).keeps_gran
@[simp] theorem lower_husk (s : State) (c i : Nat) : (s.lower c i).husk = s.husk := (lower_cleared s c i).keeps_husk
@[simp] theorem lower_therm (s : State) (c i : Nat) : (s.lower c i).therm = s.therm := (lower_cleared s c i).keeps_therm
@[simp] theorem lower_mons (s : State) (c i : Nat) : (s.lower c i).mons = s.mons := (lower_cleared s c i).keeps_mons
@[simp] theorem lower_st (s : State) (c i : Nat) : (s.lower c i).st = s.st := (lower_cleared s c i).keeps_st
@[simp] theorem lower_hal (s : State) (c i : Nat) : (s.lower c i).hal = s.hal := (lower_cleared s c i).keeps_hal
@[simp] theorem lower_sheaf (s : State) (c i : Nat) : (s.lower c i).sheaf = s.sheaf := (lower_cleared s c i).keeps_sheaf
@[simp] theorem lower_win (s : State) (c i : Nat) : (s.lower c i).win = s.win := (lower_cleared s c i).keeps_win
@[simp] theorem lower_obs (s : State) (c i : Nat) : (s.lower c i).obs = s.obs := (lower_cleared s c i).keeps_obs
@[simp] theorem lower_ctl (s : State) (c i : Nat) : (s.lower c i).ctl = s.ctl := (lower_cleared s c i).keeps_ctl
@[simp] theorem lower_net (s : State) (c i : Nat) : (s.lower c i).net = s.net := (lower_cleared s c i).keeps_net
@[simp] theorem lower_chaff (s : State) (c i : Nat) : (s.lower c i).chaff = s.chaff := (lower_cleared s c i).keeps_chaff
@[simp] theorem lower_fb (s : State) (c i : Nat) : (s.lower c i).fb = s.fb := (lower_cleared s c i).keeps_fb
@[simp] theorem lower_io (s : State) (c i : Nat) : (s.lower c i).io = s.io := (lower_cleared s c i).keeps_io
@[simp] theorem lower_gn (s : State) (c i : Nat) : (s.lower c i).gn = s.gn := (lower_cleared s c i).keeps_gn
@[simp] theorem lower_tb (s : State) (c i : Nat) : (s.lower c i).tb = s.tb := (lower_cleared s c i).keeps_tb
@[simp] theorem lower_pan (s : State) (c i : Nat) : (s.lower c i).pan = s.pan := (lower_cleared s c i).keeps_pan
@[simp] theorem lower_mir (s : State) (c i : Nat) : (s.lower c i).mir = s.mir := (lower_cleared s c i).keeps_mir

@[simp] theorem alarm_pending (s : State) (c i k : Nat) (l : List Nat) : (s.alarm c i k l).pending = s.pending := (alarm_alarmed s c i k l).keeps_pending
@[simp] theorem alarm_free (s : State) (c i k : Nat) (l : List Nat) : (s.alarm c i k l).free = s.free := (alarm_alarmed s c i k l).keeps_free
@[simp] theorem alarm_clk (s : State) (c i k : Nat) (l : List Nat) : (s.alarm c i k l).clk = s.clk := (alarm_alarmed s c i k l).keeps_clk
@[simp] theorem alarm_force (s : State) (c i k : Nat) (l : List Nat) : (s.alarm c i k l).force = s.force := (alarm_alarmed s c i k l).keeps_force
@[simp] theorem alarm_res (s : State) (c i k : Nat) (l : List Nat) : (s.alarm c i k l).res = s.res := (alarm_alarmed s c i k l).keeps_res
@[simp] theorem alarm_acc (s : State) (c i k : Nat) (l : List Nat) : (s.alarm c i k l).acc = s.acc := (alarm_alarmed s c i k l).keeps_acc
@[simp] theorem alarm_mode (s : State) (c i k : Nat) (l : List Nat) : (s.alarm c i k l).mode = s.mode := (alarm_alarmed s c i k l).keeps_mode
@[simp] theorem alarm_husk (s : State) (c i k : Nat) (l : List Nat) : (s.alarm c i k l).husk = s.husk := (alarm_alarmed s c i k l).keeps_husk
@[simp] theorem alarm_therm (s : State) (c i k : Nat) (l : List Nat) : (s.alarm c i k l).therm = s.therm := (alarm_alarmed s c i k l).keeps_therm
@[simp] theorem alarm_mons (s : State) (c i k : Nat) (l : List Nat) : (s.alarm c i k l).mons = s.mons := (alarm_alarmed s c i k l).keeps_mons
@[simp] theorem alarm_st (s : State) (c i k : Nat) (l : List Nat) : (s.alarm c i k l).st = s.st := (alarm_alarmed s c i k l).keeps_st
@[simp] theorem alarm_hal (s : State) (c i k : Nat) (l : List Nat) : (s.alarm c i k l).hal = s.hal := (alarm_alarmed s c i k l).keeps_hal
@[simp] theorem alarm_sheaf (s : State) (c i k : Nat) (l : List Nat) : (s.alarm c i k l).sheaf = s.sheaf := (alarm_alarmed s c i k l).keeps_sheaf
@[simp] theorem alarm_win (s : State) (c i k : Nat) (l : List Nat) : (s.alarm c i k l).win = s.win := (alarm_alarmed s c i k l).keeps_win
@[simp] theorem alarm_obs (s : State) (c i k : Nat) (l : List Nat) : (s.alarm c i k l).obs = s.obs := (alarm_alarmed s c i k l).keeps_obs
@[simp] theorem alarm_ctl (s : State) (c i k : Nat) (l : List Nat) : (s.alarm c i k l).ctl = s.ctl := (alarm_alarmed s c i k l).keeps_ctl
@[simp] theorem alarm_net (s : State) (c i k : Nat) (l : List Nat) : (s.alarm c i k l).net = s.net := (alarm_alarmed s c i k l).keeps_net
@[simp] theorem alarm_chaff (s : State) (c i k : Nat) (l : List Nat) : (s.alarm c i k l).chaff = s.chaff := (alarm_alarmed s c i k l).keeps_chaff
@[simp] theorem alarm_fb (s : State) (c i k : Nat) (l : List Nat) : (s.alarm c i k l).fb = s.fb := (alarm_alarmed s c i k l).keeps_fb
@[simp] theorem alarm_io (s : State) (c i k : Nat) (l : List Nat) : (s.alarm c i k l).io = s.io := (alarm_alarmed s c i k l).keeps_io
@[simp] theorem alarm_gn (s : State) (c i k : Nat) (l : List Nat) : (s.alarm c i k l).gn = s.gn := (alarm_alarmed s c i k l).keeps_gn
@[simp] theorem alarm_tb (s : State) (c i k : Nat) (l : List Nat) : (s.alarm c i k l).tb = s.tb := (alarm_alarmed s c i k l).keeps_tb
@[simp] theorem alarm_pan (s : State) (c i k : Nat) (l : List Nat) : (s.alarm c i k l).pan = s.pan := (alarm_alarmed s c i k l).keeps_pan
@[simp] theorem alarm_mir (s : State) (c i k : Nat) (l : List Nat) : (s.alarm c i k l).mir = s.mir := (alarm_alarmed s c i k l).keeps_mir

@[simp] theorem putObj_pending (s : State) (i j : Nat) (v : Val) : (s.putObj i j v).pending = s.pending := rfl
@[simp] theorem putObj_free (s : State) (i j : Nat) (v : Val) : (s.putObj i j v).free = s.free := rfl
@[simp] theorem putObj_clk (s : State) (i j : Nat) (v : Val) : (s.putObj i j v).clk = s.clk := rfl
@[simp] theorem putObj_force (s : State) (i j : Nat) (v : Val) : (s.putObj i j v).force = s.force := rfl
@[simp] theorem putObj_res (s : State) (i j : Nat) (v : Val) : (s.putObj i j v).res = s.res := rfl
@[simp] theorem putObj_faults (s : State) (i j : Nat) (v : Val) : (s.putObj i j v).faults = s.faults := rfl
@[simp] theorem putObj_acc (s : State) (i j : Nat) (v : Val) : (s.putObj i j v).acc = s.acc := rfl
@[simp] theorem putObj_mode (s : State) (i j : Nat) (v : Val) : (s.putObj i j v).mode = s.mode := rfl
@[simp] theorem putObj_gran (s : State) (i j : Nat) (v : Val) : (s.putObj i j v).gran = s.gran := rfl
@[simp] theorem putObj_husk (s : State) (i j : Nat) (v : Val) : (s.putObj i j v).husk = s.husk := rfl
@[simp] theorem putObj_therm (s : State) (i j : Nat) (v : Val) : (s.putObj i j v).therm = s.therm := rfl
@[simp] theorem putObj_mons (s : State) (i j : Nat) (v : Val) : (s.putObj i j v).mons = s.mons := rfl
@[simp] theorem putObj_st (s : State) (i j : Nat) (v : Val) : (s.putObj i j v).st = s.st := rfl
@[simp] theorem putObj_hal (s : State) (i j : Nat) (v : Val) : (s.putObj i j v).hal = s.hal := rfl
@[simp] theorem putObj_sheaf (s : State) (i j : Nat) (v : Val) : (s.putObj i j v).sheaf = s.sheaf := rfl
@[simp] theorem putObj_win (s : State) (i j : Nat) (v : Val) : (s.putObj i j v).win = s.win := rfl
@[simp] theorem putObj_obs (s : State) (i j : Nat) (v : Val) : (s.putObj i j v).obs = s.obs := rfl
@[simp] theorem putObj_ctl (s : State) (i j : Nat) (v : Val) : (s.putObj i j v).ctl = s.ctl := rfl
@[simp] theorem putObj_net (s : State) (i j : Nat) (v : Val) : (s.putObj i j v).net = s.net := rfl
@[simp] theorem putObj_chaff (s : State) (i j : Nat) (v : Val) : (s.putObj i j v).chaff = s.chaff := rfl
@[simp] theorem putObj_fb (s : State) (i j : Nat) (v : Val) : (s.putObj i j v).fb = s.fb := rfl
@[simp] theorem putObj_io (s : State) (i j : Nat) (v : Val) : (s.putObj i j v).io = s.io := rfl
@[simp] theorem putObj_gn (s : State) (i j : Nat) (v : Val) : (s.putObj i j v).gn = s.gn := rfl
@[simp] theorem putObj_tb (s : State) (i j : Nat) (v : Val) : (s.putObj i j v).tb = s.tb := rfl
@[simp] theorem putObj_pan (s : State) (i j : Nat) (v : Val) : (s.putObj i j v).pan = s.pan := rfl
@[simp] theorem putObj_mir (s : State) (i j : Nat) (v : Val) : (s.putObj i j v).mir = s.mir := rfl
@[simp] theorem putObj_can (s : State) (i j : Nat) (v : Val) : (s.putObj i j v).can = s.can := rfl

@[simp] theorem putU_pending (s : State) (i j n : Nat) : (s.putU i j n).pending = s.pending := rfl
@[simp] theorem putU_free (s : State) (i j n : Nat) : (s.putU i j n).free = s.free := rfl
@[simp] theorem putU_clk (s : State) (i j n : Nat) : (s.putU i j n).clk = s.clk := rfl
@[simp] theorem putU_force (s : State) (i j n : Nat) : (s.putU i j n).force = s.force := rfl
@[simp] theorem putU_res (s : State) (i j n : Nat) : (s.putU i j n).res = s.res := rfl
@[simp] theorem putU_faults (s : State) (i j n : Nat) : (s.putU i j n).faults = s.faults := rfl
@[simp] theorem putU_acc (s : State) (i j n : Nat) : (s.putU i j n).acc = s.acc := rfl
@[simp] theorem putU_mode (s : State) (i j n : Nat) : (s.putU i j n).mode = s.mode := rfl
@[simp] theorem putU_gran (s : State) (i j n : Nat) : (s.putU i j n).gran = s.gran := rfl
@[simp] theorem putU_husk (s : State) (i j n : Nat) : (s.putU i j n).husk = s.husk := rfl
@[simp] theorem putU_therm (s : State) (i j n : Nat) : (s.putU i j n).therm = s.therm := rfl
@[simp] theorem putU_mons (s : State) (i j n : Nat) : (s.putU i j n).mons = s.mons := rfl
@[simp] theorem putU_st (s : State) (i j n : Nat) : (s.putU i j n).st = s.st := rfl
@[simp] theorem putU_hal (s : State) (i j n : Nat) : (s.putU i j n).hal = s.hal := rfl
@[simp] theorem putU_sheaf (s : State) (i j n : Nat) : (s.putU i j n).sheaf = s.sheaf := rfl
@[simp] theorem putU_win (s : State) (i j n : Nat) : (s.putU i j n).win = s.win := rfl
@[simp] theorem putU_obs (s : State) (i j n : Nat) : (s.putU i j n).obs = s.obs := rfl
@[simp] theorem putU_ctl (s : State) (i j n : Nat) : (s.putU i j n).ctl = s.ctl := rfl
@[simp] theorem putU_net (s : State) (i j n : Nat) : (s.putU i j n).net = s.net := rfl
@[simp] theorem putU_chaff (s : State) (i j n : Nat) : (s.putU i j n).chaff = s.chaff := rfl
@[simp] theorem putU_fb (s : State) (i j n : Nat) : (s.putU i j n).fb = s.fb := rfl
@[simp] theorem putU_io (s : State) (i j n : Nat) : (s.putU i j n).io = s.io := rfl
@[simp] theorem putU_gn (s : State) (i j n : Nat) : (s.putU i j n).gn = s.gn := rfl
@[simp] theorem putU_tb (s : State) (i j n : Nat) : (s.putU i j n).tb = s.tb := rfl
@[simp] theorem putU_pan (s : State) (i j n : Nat) : (s.putU i j n).pan = s.pan := rfl
@[simp] theorem putU_mir (s : State) (i j n : Nat) : (s.putU i j n).mir = s.mir := rfl
@[simp] theorem putU_can (s : State) (i j n : Nat) : (s.putU i j n).can = s.can := rfl

@[simp] theorem putI_pending (s : State) (i j : Nat) (z : Int) : (s.putI i j z).pending = s.pending := rfl
@[simp] theorem putI_free (s : State) (i j : Nat) (z : Int) : (s.putI i j z).free = s.free := rfl
@[simp] theorem putI_clk (s : State) (i j : Nat) (z : Int) : (s.putI i j z).clk = s.clk := rfl
@[simp] theorem putI_force (s : State) (i j : Nat) (z : Int) : (s.putI i j z).force = s.force := rfl
@[simp] theorem putI_res (s : State) (i j : Nat) (z : Int) : (s.putI i j z).res = s.res := rfl
@[simp] theorem putI_faults (s : State) (i j : Nat) (z : Int) : (s.putI i j z).faults = s.faults := rfl
@[simp] theorem putI_acc (s : State) (i j : Nat) (z : Int) : (s.putI i j z).acc = s.acc := rfl
@[simp] theorem putI_mode (s : State) (i j : Nat) (z : Int) : (s.putI i j z).mode = s.mode := rfl
@[simp] theorem putI_gran (s : State) (i j : Nat) (z : Int) : (s.putI i j z).gran = s.gran := rfl
@[simp] theorem putI_husk (s : State) (i j : Nat) (z : Int) : (s.putI i j z).husk = s.husk := rfl
@[simp] theorem putI_therm (s : State) (i j : Nat) (z : Int) : (s.putI i j z).therm = s.therm := rfl
@[simp] theorem putI_mons (s : State) (i j : Nat) (z : Int) : (s.putI i j z).mons = s.mons := rfl
@[simp] theorem putI_st (s : State) (i j : Nat) (z : Int) : (s.putI i j z).st = s.st := rfl
@[simp] theorem putI_hal (s : State) (i j : Nat) (z : Int) : (s.putI i j z).hal = s.hal := rfl
@[simp] theorem putI_sheaf (s : State) (i j : Nat) (z : Int) : (s.putI i j z).sheaf = s.sheaf := rfl
@[simp] theorem putI_win (s : State) (i j : Nat) (z : Int) : (s.putI i j z).win = s.win := rfl
@[simp] theorem putI_obs (s : State) (i j : Nat) (z : Int) : (s.putI i j z).obs = s.obs := rfl
@[simp] theorem putI_ctl (s : State) (i j : Nat) (z : Int) : (s.putI i j z).ctl = s.ctl := rfl
@[simp] theorem putI_net (s : State) (i j : Nat) (z : Int) : (s.putI i j z).net = s.net := rfl
@[simp] theorem putI_chaff (s : State) (i j : Nat) (z : Int) : (s.putI i j z).chaff = s.chaff := rfl
@[simp] theorem putI_fb (s : State) (i j : Nat) (z : Int) : (s.putI i j z).fb = s.fb := rfl
@[simp] theorem putI_io (s : State) (i j : Nat) (z : Int) : (s.putI i j z).io = s.io := rfl
@[simp] theorem putI_gn (s : State) (i j : Nat) (z : Int) : (s.putI i j z).gn = s.gn := rfl
@[simp] theorem putI_tb (s : State) (i j : Nat) (z : Int) : (s.putI i j z).tb = s.tb := rfl
@[simp] theorem putI_pan (s : State) (i j : Nat) (z : Int) : (s.putI i j z).pan = s.pan := rfl
@[simp] theorem putI_mir (s : State) (i j : Nat) (z : Int) : (s.putI i j z).mir = s.mir := rfl
@[simp] theorem putI_can (s : State) (i j : Nat) (z : Int) : (s.putI i j z).can = s.can := rfl

@[simp] theorem putR_pending (s : State) (i j : Nat) (x : Rat) : (s.putR i j x).pending = s.pending := rfl
@[simp] theorem putR_free (s : State) (i j : Nat) (x : Rat) : (s.putR i j x).free = s.free := rfl
@[simp] theorem putR_clk (s : State) (i j : Nat) (x : Rat) : (s.putR i j x).clk = s.clk := rfl
@[simp] theorem putR_force (s : State) (i j : Nat) (x : Rat) : (s.putR i j x).force = s.force := rfl
@[simp] theorem putR_res (s : State) (i j : Nat) (x : Rat) : (s.putR i j x).res = s.res := rfl
@[simp] theorem putR_faults (s : State) (i j : Nat) (x : Rat) : (s.putR i j x).faults = s.faults := rfl
@[simp] theorem putR_acc (s : State) (i j : Nat) (x : Rat) : (s.putR i j x).acc = s.acc := rfl
@[simp] theorem putR_mode (s : State) (i j : Nat) (x : Rat) : (s.putR i j x).mode = s.mode := rfl
@[simp] theorem putR_gran (s : State) (i j : Nat) (x : Rat) : (s.putR i j x).gran = s.gran := rfl
@[simp] theorem putR_husk (s : State) (i j : Nat) (x : Rat) : (s.putR i j x).husk = s.husk := rfl
@[simp] theorem putR_therm (s : State) (i j : Nat) (x : Rat) : (s.putR i j x).therm = s.therm := rfl
@[simp] theorem putR_mons (s : State) (i j : Nat) (x : Rat) : (s.putR i j x).mons = s.mons := rfl
@[simp] theorem putR_st (s : State) (i j : Nat) (x : Rat) : (s.putR i j x).st = s.st := rfl
@[simp] theorem putR_hal (s : State) (i j : Nat) (x : Rat) : (s.putR i j x).hal = s.hal := rfl
@[simp] theorem putR_sheaf (s : State) (i j : Nat) (x : Rat) : (s.putR i j x).sheaf = s.sheaf := rfl
@[simp] theorem putR_win (s : State) (i j : Nat) (x : Rat) : (s.putR i j x).win = s.win := rfl
@[simp] theorem putR_obs (s : State) (i j : Nat) (x : Rat) : (s.putR i j x).obs = s.obs := rfl
@[simp] theorem putR_ctl (s : State) (i j : Nat) (x : Rat) : (s.putR i j x).ctl = s.ctl := rfl
@[simp] theorem putR_net (s : State) (i j : Nat) (x : Rat) : (s.putR i j x).net = s.net := rfl
@[simp] theorem putR_chaff (s : State) (i j : Nat) (x : Rat) : (s.putR i j x).chaff = s.chaff := rfl
@[simp] theorem putR_fb (s : State) (i j : Nat) (x : Rat) : (s.putR i j x).fb = s.fb := rfl
@[simp] theorem putR_io (s : State) (i j : Nat) (x : Rat) : (s.putR i j x).io = s.io := rfl
@[simp] theorem putR_gn (s : State) (i j : Nat) (x : Rat) : (s.putR i j x).gn = s.gn := rfl
@[simp] theorem putR_tb (s : State) (i j : Nat) (x : Rat) : (s.putR i j x).tb = s.tb := rfl
@[simp] theorem putR_pan (s : State) (i j : Nat) (x : Rat) : (s.putR i j x).pan = s.pan := rfl
@[simp] theorem putR_mir (s : State) (i j : Nat) (x : Rat) : (s.putR i j x).mir = s.mir := rfl
@[simp] theorem putR_can (s : State) (i j : Nat) (x : Rat) : (s.putR i j x).can = s.can := rfl

@[simp] theorem putB_pending (s : State) (i j : Nat) (b : Bool) : (s.putB i j b).pending = s.pending := rfl
@[simp] theorem putB_free (s : State) (i j : Nat) (b : Bool) : (s.putB i j b).free = s.free := rfl
@[simp] theorem putB_clk (s : State) (i j : Nat) (b : Bool) : (s.putB i j b).clk = s.clk := rfl
@[simp] theorem putB_force (s : State) (i j : Nat) (b : Bool) : (s.putB i j b).force = s.force := rfl
@[simp] theorem putB_res (s : State) (i j : Nat) (b : Bool) : (s.putB i j b).res = s.res := rfl
@[simp] theorem putB_faults (s : State) (i j : Nat) (b : Bool) : (s.putB i j b).faults = s.faults := rfl
@[simp] theorem putB_acc (s : State) (i j : Nat) (b : Bool) : (s.putB i j b).acc = s.acc := rfl
@[simp] theorem putB_mode (s : State) (i j : Nat) (b : Bool) : (s.putB i j b).mode = s.mode := rfl
@[simp] theorem putB_gran (s : State) (i j : Nat) (b : Bool) : (s.putB i j b).gran = s.gran := rfl
@[simp] theorem putB_husk (s : State) (i j : Nat) (b : Bool) : (s.putB i j b).husk = s.husk := rfl
@[simp] theorem putB_therm (s : State) (i j : Nat) (b : Bool) : (s.putB i j b).therm = s.therm := rfl
@[simp] theorem putB_mons (s : State) (i j : Nat) (b : Bool) : (s.putB i j b).mons = s.mons := rfl
@[simp] theorem putB_st (s : State) (i j : Nat) (b : Bool) : (s.putB i j b).st = s.st := rfl
@[simp] theorem putB_hal (s : State) (i j : Nat) (b : Bool) : (s.putB i j b).hal = s.hal := rfl
@[simp] theorem putB_sheaf (s : State) (i j : Nat) (b : Bool) : (s.putB i j b).sheaf = s.sheaf := rfl
@[simp] theorem putB_win (s : State) (i j : Nat) (b : Bool) : (s.putB i j b).win = s.win := rfl
@[simp] theorem putB_obs (s : State) (i j : Nat) (b : Bool) : (s.putB i j b).obs = s.obs := rfl
@[simp] theorem putB_ctl (s : State) (i j : Nat) (b : Bool) : (s.putB i j b).ctl = s.ctl := rfl
@[simp] theorem putB_net (s : State) (i j : Nat) (b : Bool) : (s.putB i j b).net = s.net := rfl
@[simp] theorem putB_chaff (s : State) (i j : Nat) (b : Bool) : (s.putB i j b).chaff = s.chaff := rfl
@[simp] theorem putB_fb (s : State) (i j : Nat) (b : Bool) : (s.putB i j b).fb = s.fb := rfl
@[simp] theorem putB_io (s : State) (i j : Nat) (b : Bool) : (s.putB i j b).io = s.io := rfl
@[simp] theorem putB_gn (s : State) (i j : Nat) (b : Bool) : (s.putB i j b).gn = s.gn := rfl
@[simp] theorem putB_tb (s : State) (i j : Nat) (b : Bool) : (s.putB i j b).tb = s.tb := rfl
@[simp] theorem putB_pan (s : State) (i j : Nat) (b : Bool) : (s.putB i j b).pan = s.pan := rfl
@[simp] theorem putB_mir (s : State) (i j : Nat) (b : Bool) : (s.putB i j b).mir = s.mir := rfl
@[simp] theorem putB_can (s : State) (i j : Nat) (b : Bool) : (s.putB i j b).can = s.can := rfl

@[simp] theorem addU_pending (s : State) (i j k : Nat) : (s.addU i j k).pending = s.pending := rfl
@[simp] theorem addU_free (s : State) (i j k : Nat) : (s.addU i j k).free = s.free := rfl
@[simp] theorem addU_clk (s : State) (i j k : Nat) : (s.addU i j k).clk = s.clk := rfl
@[simp] theorem addU_force (s : State) (i j k : Nat) : (s.addU i j k).force = s.force := rfl
@[simp] theorem addU_res (s : State) (i j k : Nat) : (s.addU i j k).res = s.res := rfl
@[simp] theorem addU_faults (s : State) (i j k : Nat) : (s.addU i j k).faults = s.faults := rfl
@[simp] theorem addU_acc (s : State) (i j k : Nat) : (s.addU i j k).acc = s.acc := rfl
@[simp] theorem addU_mode (s : State) (i j k : Nat) : (s.addU i j k).mode = s.mode := rfl
@[simp] theorem addU_gran (s : State) (i j k : Nat) : (s.addU i j k).gran = s.gran := rfl
@[simp] theorem addU_husk (s : State) (i j k : Nat) : (s.addU i j k).husk = s.husk := rfl
@[simp] theorem addU_therm (s : State) (i j k : Nat) : (s.addU i j k).therm = s.therm := rfl
@[simp] theorem addU_mons (s : State) (i j k : Nat) : (s.addU i j k).mons = s.mons := rfl
@[simp] theorem addU_st (s : State) (i j k : Nat) : (s.addU i j k).st = s.st := rfl
@[simp] theorem addU_hal (s : State) (i j k : Nat) : (s.addU i j k).hal = s.hal := rfl
@[simp] theorem addU_sheaf (s : State) (i j k : Nat) : (s.addU i j k).sheaf = s.sheaf := rfl
@[simp] theorem addU_win (s : State) (i j k : Nat) : (s.addU i j k).win = s.win := rfl
@[simp] theorem addU_obs (s : State) (i j k : Nat) : (s.addU i j k).obs = s.obs := rfl
@[simp] theorem addU_ctl (s : State) (i j k : Nat) : (s.addU i j k).ctl = s.ctl := rfl
@[simp] theorem addU_net (s : State) (i j k : Nat) : (s.addU i j k).net = s.net := rfl
@[simp] theorem addU_chaff (s : State) (i j k : Nat) : (s.addU i j k).chaff = s.chaff := rfl
@[simp] theorem addU_fb (s : State) (i j k : Nat) : (s.addU i j k).fb = s.fb := rfl
@[simp] theorem addU_io (s : State) (i j k : Nat) : (s.addU i j k).io = s.io := rfl
@[simp] theorem addU_gn (s : State) (i j k : Nat) : (s.addU i j k).gn = s.gn := rfl
@[simp] theorem addU_tb (s : State) (i j k : Nat) : (s.addU i j k).tb = s.tb := rfl
@[simp] theorem addU_pan (s : State) (i j k : Nat) : (s.addU i j k).pan = s.pan := rfl
@[simp] theorem addU_mir (s : State) (i j k : Nat) : (s.addU i j k).mir = s.mir := rfl
@[simp] theorem addU_can (s : State) (i j k : Nat) : (s.addU i j k).can = s.can := rfl

@[simp] theorem incU_pending (s : State) (i j : Nat) : (s.incU i j).pending = s.pending := rfl
@[simp] theorem incU_free (s : State) (i j : Nat) : (s.incU i j).free = s.free := rfl
@[simp] theorem incU_clk (s : State) (i j : Nat) : (s.incU i j).clk = s.clk := rfl
@[simp] theorem incU_force (s : State) (i j : Nat) : (s.incU i j).force = s.force := rfl
@[simp] theorem incU_res (s : State) (i j : Nat) : (s.incU i j).res = s.res := rfl
@[simp] theorem incU_faults (s : State) (i j : Nat) : (s.incU i j).faults = s.faults := rfl
@[simp] theorem incU_acc (s : State) (i j : Nat) : (s.incU i j).acc = s.acc := rfl
@[simp] theorem incU_mode (s : State) (i j : Nat) : (s.incU i j).mode = s.mode := rfl
@[simp] theorem incU_gran (s : State) (i j : Nat) : (s.incU i j).gran = s.gran := rfl
@[simp] theorem incU_husk (s : State) (i j : Nat) : (s.incU i j).husk = s.husk := rfl
@[simp] theorem incU_therm (s : State) (i j : Nat) : (s.incU i j).therm = s.therm := rfl
@[simp] theorem incU_mons (s : State) (i j : Nat) : (s.incU i j).mons = s.mons := rfl
@[simp] theorem incU_st (s : State) (i j : Nat) : (s.incU i j).st = s.st := rfl
@[simp] theorem incU_hal (s : State) (i j : Nat) : (s.incU i j).hal = s.hal := rfl
@[simp] theorem incU_sheaf (s : State) (i j : Nat) : (s.incU i j).sheaf = s.sheaf := rfl
@[simp] theorem incU_win (s : State) (i j : Nat) : (s.incU i j).win = s.win := rfl
@[simp] theorem incU_obs (s : State) (i j : Nat) : (s.incU i j).obs = s.obs := rfl
@[simp] theorem incU_ctl (s : State) (i j : Nat) : (s.incU i j).ctl = s.ctl := rfl
@[simp] theorem incU_net (s : State) (i j : Nat) : (s.incU i j).net = s.net := rfl
@[simp] theorem incU_chaff (s : State) (i j : Nat) : (s.incU i j).chaff = s.chaff := rfl
@[simp] theorem incU_fb (s : State) (i j : Nat) : (s.incU i j).fb = s.fb := rfl
@[simp] theorem incU_io (s : State) (i j : Nat) : (s.incU i j).io = s.io := rfl
@[simp] theorem incU_gn (s : State) (i j : Nat) : (s.incU i j).gn = s.gn := rfl
@[simp] theorem incU_tb (s : State) (i j : Nat) : (s.incU i j).tb = s.tb := rfl
@[simp] theorem incU_pan (s : State) (i j : Nat) : (s.incU i j).pan = s.pan := rfl
@[simp] theorem incU_mir (s : State) (i j : Nat) : (s.incU i j).mir = s.mir := rfl
@[simp] theorem incU_can (s : State) (i j : Nat) : (s.incU i j).can = s.can := rfl

@[simp] theorem putBoth_pending (s : State) (i j : Nat) (v : Val) : (s.putBoth i j v).pending = s.pending := rfl
@[simp] theorem putBoth_free (s : State) (i j : Nat) (v : Val) : (s.putBoth i j v).free = s.free := rfl
@[simp] theorem putBoth_clk (s : State) (i j : Nat) (v : Val) : (s.putBoth i j v).clk = s.clk := rfl
@[simp] theorem putBoth_res (s : State) (i j : Nat) (v : Val) : (s.putBoth i j v).res = s.res := rfl
@[simp] theorem putBoth_faults (s : State) (i j : Nat) (v : Val) : (s.putBoth i j v).faults = s.faults := rfl
@[simp] theorem putBoth_acc (s : State) (i j : Nat) (v : Val) : (s.putBoth i j v).acc = s.acc := rfl
@[simp] theorem putBoth_mode (s : State) (i j : Nat) (v : Val) : (s.putBoth i j v).mode = s.mode := rfl
@[simp] theorem putBoth_gran (s : State) (i j : Nat) (v : Val) : (s.putBoth i j v).gran = s.gran := rfl
@[simp] theorem putBoth_husk (s : State) (i j : Nat) (v : Val) : (s.putBoth i j v).husk = s.husk := rfl
@[simp] theorem putBoth_therm (s : State) (i j : Nat) (v : Val) : (s.putBoth i j v).therm = s.therm := rfl
@[simp] theorem putBoth_mons (s : State) (i j : Nat) (v : Val) : (s.putBoth i j v).mons = s.mons := rfl
@[simp] theorem putBoth_st (s : State) (i j : Nat) (v : Val) : (s.putBoth i j v).st = s.st := rfl
@[simp] theorem putBoth_hal (s : State) (i j : Nat) (v : Val) : (s.putBoth i j v).hal = s.hal := rfl
@[simp] theorem putBoth_sheaf (s : State) (i j : Nat) (v : Val) : (s.putBoth i j v).sheaf = s.sheaf := rfl
@[simp] theorem putBoth_win (s : State) (i j : Nat) (v : Val) : (s.putBoth i j v).win = s.win := rfl
@[simp] theorem putBoth_obs (s : State) (i j : Nat) (v : Val) : (s.putBoth i j v).obs = s.obs := rfl
@[simp] theorem putBoth_ctl (s : State) (i j : Nat) (v : Val) : (s.putBoth i j v).ctl = s.ctl := rfl
@[simp] theorem putBoth_net (s : State) (i j : Nat) (v : Val) : (s.putBoth i j v).net = s.net := rfl
@[simp] theorem putBoth_chaff (s : State) (i j : Nat) (v : Val) : (s.putBoth i j v).chaff = s.chaff := rfl
@[simp] theorem putBoth_fb (s : State) (i j : Nat) (v : Val) : (s.putBoth i j v).fb = s.fb := rfl
@[simp] theorem putBoth_io (s : State) (i j : Nat) (v : Val) : (s.putBoth i j v).io = s.io := rfl
@[simp] theorem putBoth_gn (s : State) (i j : Nat) (v : Val) : (s.putBoth i j v).gn = s.gn := rfl
@[simp] theorem putBoth_tb (s : State) (i j : Nat) (v : Val) : (s.putBoth i j v).tb = s.tb := rfl
@[simp] theorem putBoth_pan (s : State) (i j : Nat) (v : Val) : (s.putBoth i j v).pan = s.pan := rfl
@[simp] theorem putBoth_mir (s : State) (i j : Nat) (v : Val) : (s.putBoth i j v).mir = s.mir := rfl
@[simp] theorem putBoth_can (s : State) (i j : Nat) (v : Val) : (s.putBoth i j v).can = s.can := rfl

@[simp] theorem publish_pending (s : State) (i : Nat) (l : List Val) : (s.publish i l).pending = s.pending := rfl
@[simp] theorem publish_free (s : State) (i : Nat) (l : List Val) : (s.publish i l).free = s.free := rfl
@[simp] theorem publish_clk (s : State) (i : Nat) (l : List Val) : (s.publish i l).clk = s.clk := rfl
@[simp] theorem publish_obj (s : State) (i : Nat) (l : List Val) : (s.publish i l).obj = s.obj := rfl
@[simp] theorem publish_force (s : State) (i : Nat) (l : List Val) : (s.publish i l).force = s.force := rfl
@[simp] theorem publish_faults (s : State) (i : Nat) (l : List Val) : (s.publish i l).faults = s.faults := rfl
@[simp] theorem publish_acc (s : State) (i : Nat) (l : List Val) : (s.publish i l).acc = s.acc := rfl
@[simp] theorem publish_mode (s : State) (i : Nat) (l : List Val) : (s.publish i l).mode = s.mode := rfl
@[simp] theorem publish_gran (s : State) (i : Nat) (l : List Val) : (s.publish i l).gran = s.gran := rfl
@[simp] theorem publish_husk (s : State) (i : Nat) (l : List Val) : (s.publish i l).husk = s.husk := rfl
@[simp] theorem publish_therm (s : State) (i : Nat) (l : List Val) : (s.publish i l).therm = s.therm := rfl
@[simp] theorem publish_mons (s : State) (i : Nat) (l : List Val) : (s.publish i l).mons = s.mons := rfl
@[simp] theorem publish_st (s : State) (i : Nat) (l : List Val) : (s.publish i l).st = s.st := rfl
@[simp] theorem publish_hal (s : State) (i : Nat) (l : List Val) : (s.publish i l).hal = s.hal := rfl
@[simp] theorem publish_sheaf (s : State) (i : Nat) (l : List Val) : (s.publish i l).sheaf = s.sheaf := rfl
@[simp] theorem publish_win (s : State) (i : Nat) (l : List Val) : (s.publish i l).win = s.win := rfl
@[simp] theorem publish_obs (s : State) (i : Nat) (l : List Val) : (s.publish i l).obs = s.obs := rfl
@[simp] theorem publish_ctl (s : State) (i : Nat) (l : List Val) : (s.publish i l).ctl = s.ctl := rfl
@[simp] theorem publish_net (s : State) (i : Nat) (l : List Val) : (s.publish i l).net = s.net := rfl
@[simp] theorem publish_chaff (s : State) (i : Nat) (l : List Val) : (s.publish i l).chaff = s.chaff := rfl
@[simp] theorem publish_fb (s : State) (i : Nat) (l : List Val) : (s.publish i l).fb = s.fb := rfl
@[simp] theorem publish_io (s : State) (i : Nat) (l : List Val) : (s.publish i l).io = s.io := rfl
@[simp] theorem publish_gn (s : State) (i : Nat) (l : List Val) : (s.publish i l).gn = s.gn := rfl
@[simp] theorem publish_tb (s : State) (i : Nat) (l : List Val) : (s.publish i l).tb = s.tb := rfl
@[simp] theorem publish_pan (s : State) (i : Nat) (l : List Val) : (s.publish i l).pan = s.pan := rfl
@[simp] theorem publish_mir (s : State) (i : Nat) (l : List Val) : (s.publish i l).mir = s.mir := rfl
@[simp] theorem publish_can (s : State) (i : Nat) (l : List Val) : (s.publish i l).can = s.can := rfl

@[simp] theorem publishAt_pending (s : State) (i e : Nat) (l : List Val) : (s.publishAt i e l).pending = s.pending := rfl
@[simp] theorem publishAt_free (s : State) (i e : Nat) (l : List Val) : (s.publishAt i e l).free = s.free := rfl
@[simp] theorem publishAt_clk (s : State) (i e : Nat) (l : List Val) : (s.publishAt i e l).clk = s.clk := rfl
@[simp] theorem publishAt_obj (s : State) (i e : Nat) (l : List Val) : (s.publishAt i e l).obj = s.obj := rfl
@[simp] theorem publishAt_force (s : State) (i e : Nat) (l : List Val) : (s.publishAt i e l).force = s.force := rfl
@[simp] theorem publishAt_faults (s : State) (i e : Nat) (l : List Val) : (s.publishAt i e l).faults = s.faults := rfl
@[simp] theorem publishAt_acc (s : State) (i e : Nat) (l : List Val) : (s.publishAt i e l).acc = s.acc := rfl
@[simp] theorem publishAt_mode (s : State) (i e : Nat) (l : List Val) : (s.publishAt i e l).mode = s.mode := rfl
@[simp] theorem publishAt_gran (s : State) (i e : Nat) (l : List Val) : (s.publishAt i e l).gran = s.gran := rfl
@[simp] theorem publishAt_husk (s : State) (i e : Nat) (l : List Val) : (s.publishAt i e l).husk = s.husk := rfl
@[simp] theorem publishAt_therm (s : State) (i e : Nat) (l : List Val) : (s.publishAt i e l).therm = s.therm := rfl
@[simp] theorem publishAt_mons (s : State) (i e : Nat) (l : List Val) : (s.publishAt i e l).mons = s.mons := rfl
@[simp] theorem publishAt_st (s : State) (i e : Nat) (l : List Val) : (s.publishAt i e l).st = s.st := rfl
@[simp] theorem publishAt_hal (s : State) (i e : Nat) (l : List Val) : (s.publishAt i e l).hal = s.hal := rfl
@[simp] theorem publishAt_sheaf (s : State) (i e : Nat) (l : List Val) : (s.publishAt i e l).sheaf = s.sheaf := rfl
@[simp] theorem publishAt_win (s : State) (i e : Nat) (l : List Val) : (s.publishAt i e l).win = s.win := rfl
@[simp] theorem publishAt_obs (s : State) (i e : Nat) (l : List Val) : (s.publishAt i e l).obs = s.obs := rfl
@[simp] theorem publishAt_ctl (s : State) (i e : Nat) (l : List Val) : (s.publishAt i e l).ctl = s.ctl := rfl
@[simp] theorem publishAt_net (s : State) (i e : Nat) (l : List Val) : (s.publishAt i e l).net = s.net := rfl
@[simp] theorem publishAt_chaff (s : State) (i e : Nat) (l : List Val) : (s.publishAt i e l).chaff = s.chaff := rfl
@[simp] theorem publishAt_fb (s : State) (i e : Nat) (l : List Val) : (s.publishAt i e l).fb = s.fb := rfl
@[simp] theorem publishAt_io (s : State) (i e : Nat) (l : List Val) : (s.publishAt i e l).io = s.io := rfl
@[simp] theorem publishAt_gn (s : State) (i e : Nat) (l : List Val) : (s.publishAt i e l).gn = s.gn := rfl
@[simp] theorem publishAt_tb (s : State) (i e : Nat) (l : List Val) : (s.publishAt i e l).tb = s.tb := rfl
@[simp] theorem publishAt_pan (s : State) (i e : Nat) (l : List Val) : (s.publishAt i e l).pan = s.pan := rfl
@[simp] theorem publishAt_mir (s : State) (i e : Nat) (l : List Val) : (s.publishAt i e l).mir = s.mir := rfl
@[simp] theorem publishAt_can (s : State) (i e : Nat) (l : List Val) : (s.publishAt i e l).can = s.can := rfl

@[simp] theorem stale_pending (s : State) (i : Nat) : (s.stale i).pending = s.pending := rfl
@[simp] theorem stale_free (s : State) (i : Nat) : (s.stale i).free = s.free := rfl
@[simp] theorem stale_clk (s : State) (i : Nat) : (s.stale i).clk = s.clk := rfl
@[simp] theorem stale_obj (s : State) (i : Nat) : (s.stale i).obj = s.obj := rfl
@[simp] theorem stale_force (s : State) (i : Nat) : (s.stale i).force = s.force := rfl
@[simp] theorem stale_faults (s : State) (i : Nat) : (s.stale i).faults = s.faults := rfl
@[simp] theorem stale_acc (s : State) (i : Nat) : (s.stale i).acc = s.acc := rfl
@[simp] theorem stale_mode (s : State) (i : Nat) : (s.stale i).mode = s.mode := rfl
@[simp] theorem stale_gran (s : State) (i : Nat) : (s.stale i).gran = s.gran := rfl
@[simp] theorem stale_husk (s : State) (i : Nat) : (s.stale i).husk = s.husk := rfl
@[simp] theorem stale_therm (s : State) (i : Nat) : (s.stale i).therm = s.therm := rfl
@[simp] theorem stale_mons (s : State) (i : Nat) : (s.stale i).mons = s.mons := rfl
@[simp] theorem stale_st (s : State) (i : Nat) : (s.stale i).st = s.st := rfl
@[simp] theorem stale_hal (s : State) (i : Nat) : (s.stale i).hal = s.hal := rfl
@[simp] theorem stale_sheaf (s : State) (i : Nat) : (s.stale i).sheaf = s.sheaf := rfl
@[simp] theorem stale_win (s : State) (i : Nat) : (s.stale i).win = s.win := rfl
@[simp] theorem stale_obs (s : State) (i : Nat) : (s.stale i).obs = s.obs := rfl
@[simp] theorem stale_ctl (s : State) (i : Nat) : (s.stale i).ctl = s.ctl := rfl
@[simp] theorem stale_net (s : State) (i : Nat) : (s.stale i).net = s.net := rfl
@[simp] theorem stale_chaff (s : State) (i : Nat) : (s.stale i).chaff = s.chaff := rfl
@[simp] theorem stale_fb (s : State) (i : Nat) : (s.stale i).fb = s.fb := rfl
@[simp] theorem stale_io (s : State) (i : Nat) : (s.stale i).io = s.io := rfl
@[simp] theorem stale_gn (s : State) (i : Nat) : (s.stale i).gn = s.gn := rfl
@[simp] theorem stale_tb (s : State) (i : Nat) : (s.stale i).tb = s.tb := rfl
@[simp] theorem stale_pan (s : State) (i : Nat) : (s.stale i).pan = s.pan := rfl
@[simp] theorem stale_mir (s : State) (i : Nat) : (s.stale i).mir = s.mir := rfl
@[simp] theorem stale_can (s : State) (i : Nat) : (s.stale i).can = s.can := rfl

@[simp] theorem heldRes_pending (s : State) (i : Nat) : (s.heldRes i).pending = s.pending := rfl
@[simp] theorem heldRes_free (s : State) (i : Nat) : (s.heldRes i).free = s.free := rfl
@[simp] theorem heldRes_clk (s : State) (i : Nat) : (s.heldRes i).clk = s.clk := rfl
@[simp] theorem heldRes_obj (s : State) (i : Nat) : (s.heldRes i).obj = s.obj := rfl
@[simp] theorem heldRes_force (s : State) (i : Nat) : (s.heldRes i).force = s.force := rfl
@[simp] theorem heldRes_faults (s : State) (i : Nat) : (s.heldRes i).faults = s.faults := rfl
@[simp] theorem heldRes_acc (s : State) (i : Nat) : (s.heldRes i).acc = s.acc := rfl
@[simp] theorem heldRes_mode (s : State) (i : Nat) : (s.heldRes i).mode = s.mode := rfl
@[simp] theorem heldRes_gran (s : State) (i : Nat) : (s.heldRes i).gran = s.gran := rfl
@[simp] theorem heldRes_husk (s : State) (i : Nat) : (s.heldRes i).husk = s.husk := rfl
@[simp] theorem heldRes_therm (s : State) (i : Nat) : (s.heldRes i).therm = s.therm := rfl
@[simp] theorem heldRes_mons (s : State) (i : Nat) : (s.heldRes i).mons = s.mons := rfl
@[simp] theorem heldRes_st (s : State) (i : Nat) : (s.heldRes i).st = s.st := rfl
@[simp] theorem heldRes_hal (s : State) (i : Nat) : (s.heldRes i).hal = s.hal := rfl
@[simp] theorem heldRes_sheaf (s : State) (i : Nat) : (s.heldRes i).sheaf = s.sheaf := rfl
@[simp] theorem heldRes_win (s : State) (i : Nat) : (s.heldRes i).win = s.win := rfl
@[simp] theorem heldRes_obs (s : State) (i : Nat) : (s.heldRes i).obs = s.obs := rfl
@[simp] theorem heldRes_ctl (s : State) (i : Nat) : (s.heldRes i).ctl = s.ctl := rfl
@[simp] theorem heldRes_net (s : State) (i : Nat) : (s.heldRes i).net = s.net := rfl
@[simp] theorem heldRes_chaff (s : State) (i : Nat) : (s.heldRes i).chaff = s.chaff := rfl
@[simp] theorem heldRes_fb (s : State) (i : Nat) : (s.heldRes i).fb = s.fb := rfl
@[simp] theorem heldRes_io (s : State) (i : Nat) : (s.heldRes i).io = s.io := rfl
@[simp] theorem heldRes_gn (s : State) (i : Nat) : (s.heldRes i).gn = s.gn := rfl
@[simp] theorem heldRes_tb (s : State) (i : Nat) : (s.heldRes i).tb = s.tb := rfl
@[simp] theorem heldRes_pan (s : State) (i : Nat) : (s.heldRes i).pan = s.pan := rfl
@[simp] theorem heldRes_mir (s : State) (i : Nat) : (s.heldRes i).mir = s.mir := rfl
@[simp] theorem heldRes_can (s : State) (i : Nat) : (s.heldRes i).can = s.can := rfl

@[simp] theorem at'_pending (s : State) (n : Nat) : (s.at' n).pending = s.pending := rfl
@[simp] theorem at'_free (s : State) (n : Nat) : (s.at' n).free = s.free := rfl
@[simp] theorem at'_obj (s : State) (n : Nat) : (s.at' n).obj = s.obj := rfl
@[simp] theorem at'_force (s : State) (n : Nat) : (s.at' n).force = s.force := rfl
@[simp] theorem at'_res (s : State) (n : Nat) : (s.at' n).res = s.res := rfl
@[simp] theorem at'_faults (s : State) (n : Nat) : (s.at' n).faults = s.faults := rfl
@[simp] theorem at'_acc (s : State) (n : Nat) : (s.at' n).acc = s.acc := rfl
@[simp] theorem at'_mode (s : State) (n : Nat) : (s.at' n).mode = s.mode := rfl
@[simp] theorem at'_gran (s : State) (n : Nat) : (s.at' n).gran = s.gran := rfl
@[simp] theorem at'_husk (s : State) (n : Nat) : (s.at' n).husk = s.husk := rfl
@[simp] theorem at'_therm (s : State) (n : Nat) : (s.at' n).therm = s.therm := rfl
@[simp] theorem at'_mons (s : State) (n : Nat) : (s.at' n).mons = s.mons := rfl
@[simp] theorem at'_st (s : State) (n : Nat) : (s.at' n).st = s.st := rfl
@[simp] theorem at'_hal (s : State) (n : Nat) : (s.at' n).hal = s.hal := rfl
@[simp] theorem at'_sheaf (s : State) (n : Nat) : (s.at' n).sheaf = s.sheaf := rfl
@[simp] theorem at'_win (s : State) (n : Nat) : (s.at' n).win = s.win := rfl
@[simp] theorem at'_obs (s : State) (n : Nat) : (s.at' n).obs = s.obs := rfl
@[simp] theorem at'_ctl (s : State) (n : Nat) : (s.at' n).ctl = s.ctl := rfl
@[simp] theorem at'_net (s : State) (n : Nat) : (s.at' n).net = s.net := rfl
@[simp] theorem at'_chaff (s : State) (n : Nat) : (s.at' n).chaff = s.chaff := rfl
@[simp] theorem at'_fb (s : State) (n : Nat) : (s.at' n).fb = s.fb := rfl
@[simp] theorem at'_io (s : State) (n : Nat) : (s.at' n).io = s.io := rfl
@[simp] theorem at'_gn (s : State) (n : Nat) : (s.at' n).gn = s.gn := rfl
@[simp] theorem at'_tb (s : State) (n : Nat) : (s.at' n).tb = s.tb := rfl
@[simp] theorem at'_pan (s : State) (n : Nat) : (s.at' n).pan = s.pan := rfl
@[simp] theorem at'_mir (s : State) (n : Nat) : (s.at' n).mir = s.mir := rfl
@[simp] theorem at'_can (s : State) (n : Nat) : (s.at' n).can = s.can := rfl

@[simp] theorem answer_pending (s : State) (n : Nat) (l : List Byte) : (s.answer n l).pending = s.pending := rfl
@[simp] theorem answer_free (s : State) (n : Nat) (l : List Byte) : (s.answer n l).free = s.free := rfl
@[simp] theorem answer_clk (s : State) (n : Nat) (l : List Byte) : (s.answer n l).clk = s.clk := rfl
@[simp] theorem answer_obj (s : State) (n : Nat) (l : List Byte) : (s.answer n l).obj = s.obj := rfl
@[simp] theorem answer_force (s : State) (n : Nat) (l : List Byte) : (s.answer n l).force = s.force := rfl
@[simp] theorem answer_res (s : State) (n : Nat) (l : List Byte) : (s.answer n l).res = s.res := rfl
@[simp] theorem answer_faults (s : State) (n : Nat) (l : List Byte) : (s.answer n l).faults = s.faults := rfl
@[simp] theorem answer_mode (s : State) (n : Nat) (l : List Byte) : (s.answer n l).mode = s.mode := rfl
@[simp] theorem answer_gran (s : State) (n : Nat) (l : List Byte) : (s.answer n l).gran = s.gran := rfl
@[simp] theorem answer_husk (s : State) (n : Nat) (l : List Byte) : (s.answer n l).husk = s.husk := rfl
@[simp] theorem answer_therm (s : State) (n : Nat) (l : List Byte) : (s.answer n l).therm = s.therm := rfl
@[simp] theorem answer_mons (s : State) (n : Nat) (l : List Byte) : (s.answer n l).mons = s.mons := rfl
@[simp] theorem answer_st (s : State) (n : Nat) (l : List Byte) : (s.answer n l).st = s.st := rfl
@[simp] theorem answer_hal (s : State) (n : Nat) (l : List Byte) : (s.answer n l).hal = s.hal := rfl
@[simp] theorem answer_sheaf (s : State) (n : Nat) (l : List Byte) : (s.answer n l).sheaf = s.sheaf := rfl
@[simp] theorem answer_win (s : State) (n : Nat) (l : List Byte) : (s.answer n l).win = s.win := rfl
@[simp] theorem answer_obs (s : State) (n : Nat) (l : List Byte) : (s.answer n l).obs = s.obs := rfl
@[simp] theorem answer_ctl (s : State) (n : Nat) (l : List Byte) : (s.answer n l).ctl = s.ctl := rfl
@[simp] theorem answer_net (s : State) (n : Nat) (l : List Byte) : (s.answer n l).net = s.net := rfl
@[simp] theorem answer_chaff (s : State) (n : Nat) (l : List Byte) : (s.answer n l).chaff = s.chaff := rfl
@[simp] theorem answer_fb (s : State) (n : Nat) (l : List Byte) : (s.answer n l).fb = s.fb := rfl
@[simp] theorem answer_io (s : State) (n : Nat) (l : List Byte) : (s.answer n l).io = s.io := rfl
@[simp] theorem answer_gn (s : State) (n : Nat) (l : List Byte) : (s.answer n l).gn = s.gn := rfl
@[simp] theorem answer_tb (s : State) (n : Nat) (l : List Byte) : (s.answer n l).tb = s.tb := rfl
@[simp] theorem answer_pan (s : State) (n : Nat) (l : List Byte) : (s.answer n l).pan = s.pan := rfl
@[simp] theorem answer_mir (s : State) (n : Nat) (l : List Byte) : (s.answer n l).mir = s.mir := rfl
@[simp] theorem answer_can (s : State) (n : Nat) (l : List Byte) : (s.answer n l).can = s.can := rfl

@[simp] theorem setSession_pending (s : State) (p : Path) (x : Session) : (s.setSession p x).pending = s.pending := rfl
@[simp] theorem setSession_free (s : State) (p : Path) (x : Session) : (s.setSession p x).free = s.free := rfl
@[simp] theorem setSession_clk (s : State) (p : Path) (x : Session) : (s.setSession p x).clk = s.clk := rfl
@[simp] theorem setSession_obj (s : State) (p : Path) (x : Session) : (s.setSession p x).obj = s.obj := rfl
@[simp] theorem setSession_force (s : State) (p : Path) (x : Session) : (s.setSession p x).force = s.force := rfl
@[simp] theorem setSession_res (s : State) (p : Path) (x : Session) : (s.setSession p x).res = s.res := rfl
@[simp] theorem setSession_faults (s : State) (p : Path) (x : Session) : (s.setSession p x).faults = s.faults := rfl
@[simp] theorem setSession_mode (s : State) (p : Path) (x : Session) : (s.setSession p x).mode = s.mode := rfl
@[simp] theorem setSession_gran (s : State) (p : Path) (x : Session) : (s.setSession p x).gran = s.gran := rfl
@[simp] theorem setSession_husk (s : State) (p : Path) (x : Session) : (s.setSession p x).husk = s.husk := rfl
@[simp] theorem setSession_therm (s : State) (p : Path) (x : Session) : (s.setSession p x).therm = s.therm := rfl
@[simp] theorem setSession_mons (s : State) (p : Path) (x : Session) : (s.setSession p x).mons = s.mons := rfl
@[simp] theorem setSession_st (s : State) (p : Path) (x : Session) : (s.setSession p x).st = s.st := rfl
@[simp] theorem setSession_hal (s : State) (p : Path) (x : Session) : (s.setSession p x).hal = s.hal := rfl
@[simp] theorem setSession_sheaf (s : State) (p : Path) (x : Session) : (s.setSession p x).sheaf = s.sheaf := rfl
@[simp] theorem setSession_win (s : State) (p : Path) (x : Session) : (s.setSession p x).win = s.win := rfl
@[simp] theorem setSession_obs (s : State) (p : Path) (x : Session) : (s.setSession p x).obs = s.obs := rfl
@[simp] theorem setSession_ctl (s : State) (p : Path) (x : Session) : (s.setSession p x).ctl = s.ctl := rfl
@[simp] theorem setSession_net (s : State) (p : Path) (x : Session) : (s.setSession p x).net = s.net := rfl
@[simp] theorem setSession_chaff (s : State) (p : Path) (x : Session) : (s.setSession p x).chaff = s.chaff := rfl
@[simp] theorem setSession_fb (s : State) (p : Path) (x : Session) : (s.setSession p x).fb = s.fb := rfl
@[simp] theorem setSession_io (s : State) (p : Path) (x : Session) : (s.setSession p x).io = s.io := rfl
@[simp] theorem setSession_gn (s : State) (p : Path) (x : Session) : (s.setSession p x).gn = s.gn := rfl
@[simp] theorem setSession_tb (s : State) (p : Path) (x : Session) : (s.setSession p x).tb = s.tb := rfl
@[simp] theorem setSession_pan (s : State) (p : Path) (x : Session) : (s.setSession p x).pan = s.pan := rfl
@[simp] theorem setSession_mir (s : State) (p : Path) (x : Session) : (s.setSession p x).mir = s.mir := rfl
@[simp] theorem setSession_can (s : State) (p : Path) (x : Session) : (s.setSession p x).can = s.can := rfl

@[simp] theorem setCanC_pending (s : State) (c : Nat) (x : CanCtl) : (s.setCanC c x).pending = s.pending := rfl
@[simp] theorem setCanC_free (s : State) (c : Nat) (x : CanCtl) : (s.setCanC c x).free = s.free := rfl
@[simp] theorem setCanC_clk (s : State) (c : Nat) (x : CanCtl) : (s.setCanC c x).clk = s.clk := rfl
@[simp] theorem setCanC_obj (s : State) (c : Nat) (x : CanCtl) : (s.setCanC c x).obj = s.obj := rfl
@[simp] theorem setCanC_force (s : State) (c : Nat) (x : CanCtl) : (s.setCanC c x).force = s.force := rfl
@[simp] theorem setCanC_res (s : State) (c : Nat) (x : CanCtl) : (s.setCanC c x).res = s.res := rfl
@[simp] theorem setCanC_faults (s : State) (c : Nat) (x : CanCtl) : (s.setCanC c x).faults = s.faults := rfl
@[simp] theorem setCanC_acc (s : State) (c : Nat) (x : CanCtl) : (s.setCanC c x).acc = s.acc := rfl
@[simp] theorem setCanC_mode (s : State) (c : Nat) (x : CanCtl) : (s.setCanC c x).mode = s.mode := rfl
@[simp] theorem setCanC_gran (s : State) (c : Nat) (x : CanCtl) : (s.setCanC c x).gran = s.gran := rfl
@[simp] theorem setCanC_husk (s : State) (c : Nat) (x : CanCtl) : (s.setCanC c x).husk = s.husk := rfl
@[simp] theorem setCanC_therm (s : State) (c : Nat) (x : CanCtl) : (s.setCanC c x).therm = s.therm := rfl
@[simp] theorem setCanC_mons (s : State) (c : Nat) (x : CanCtl) : (s.setCanC c x).mons = s.mons := rfl
@[simp] theorem setCanC_st (s : State) (c : Nat) (x : CanCtl) : (s.setCanC c x).st = s.st := rfl
@[simp] theorem setCanC_hal (s : State) (c : Nat) (x : CanCtl) : (s.setCanC c x).hal = s.hal := rfl
@[simp] theorem setCanC_sheaf (s : State) (c : Nat) (x : CanCtl) : (s.setCanC c x).sheaf = s.sheaf := rfl
@[simp] theorem setCanC_win (s : State) (c : Nat) (x : CanCtl) : (s.setCanC c x).win = s.win := rfl
@[simp] theorem setCanC_obs (s : State) (c : Nat) (x : CanCtl) : (s.setCanC c x).obs = s.obs := rfl
@[simp] theorem setCanC_ctl (s : State) (c : Nat) (x : CanCtl) : (s.setCanC c x).ctl = s.ctl := rfl
@[simp] theorem setCanC_net (s : State) (c : Nat) (x : CanCtl) : (s.setCanC c x).net = s.net := rfl
@[simp] theorem setCanC_chaff (s : State) (c : Nat) (x : CanCtl) : (s.setCanC c x).chaff = s.chaff := rfl
@[simp] theorem setCanC_fb (s : State) (c : Nat) (x : CanCtl) : (s.setCanC c x).fb = s.fb := rfl
@[simp] theorem setCanC_io (s : State) (c : Nat) (x : CanCtl) : (s.setCanC c x).io = s.io := rfl
@[simp] theorem setCanC_gn (s : State) (c : Nat) (x : CanCtl) : (s.setCanC c x).gn = s.gn := rfl
@[simp] theorem setCanC_tb (s : State) (c : Nat) (x : CanCtl) : (s.setCanC c x).tb = s.tb := rfl
@[simp] theorem setCanC_pan (s : State) (c : Nat) (x : CanCtl) : (s.setCanC c x).pan = s.pan := rfl
@[simp] theorem setCanC_mir (s : State) (c : Nat) (x : CanCtl) : (s.setCanC c x).mir = s.mir := rfl

@[simp] theorem dropFault_pending (s : State) (c i : Nat) : (s.dropFault c i).pending = s.pending := rfl
@[simp] theorem dropFault_free (s : State) (c i : Nat) : (s.dropFault c i).free = s.free := rfl
@[simp] theorem dropFault_clk (s : State) (c i : Nat) : (s.dropFault c i).clk = s.clk := rfl
@[simp] theorem dropFault_obj (s : State) (c i : Nat) : (s.dropFault c i).obj = s.obj := rfl
@[simp] theorem dropFault_force (s : State) (c i : Nat) : (s.dropFault c i).force = s.force := rfl
@[simp] theorem dropFault_res (s : State) (c i : Nat) : (s.dropFault c i).res = s.res := rfl
@[simp] theorem dropFault_acc (s : State) (c i : Nat) : (s.dropFault c i).acc = s.acc := rfl
@[simp] theorem dropFault_mode (s : State) (c i : Nat) : (s.dropFault c i).mode = s.mode := rfl
@[simp] theorem dropFault_gran (s : State) (c i : Nat) : (s.dropFault c i).gran = s.gran := rfl
@[simp] theorem dropFault_husk (s : State) (c i : Nat) : (s.dropFault c i).husk = s.husk := rfl
@[simp] theorem dropFault_therm (s : State) (c i : Nat) : (s.dropFault c i).therm = s.therm := rfl
@[simp] theorem dropFault_mons (s : State) (c i : Nat) : (s.dropFault c i).mons = s.mons := rfl
@[simp] theorem dropFault_st (s : State) (c i : Nat) : (s.dropFault c i).st = s.st := rfl
@[simp] theorem dropFault_hal (s : State) (c i : Nat) : (s.dropFault c i).hal = s.hal := rfl
@[simp] theorem dropFault_sheaf (s : State) (c i : Nat) : (s.dropFault c i).sheaf = s.sheaf := rfl
@[simp] theorem dropFault_win (s : State) (c i : Nat) : (s.dropFault c i).win = s.win := rfl
@[simp] theorem dropFault_obs (s : State) (c i : Nat) : (s.dropFault c i).obs = s.obs := rfl
@[simp] theorem dropFault_ctl (s : State) (c i : Nat) : (s.dropFault c i).ctl = s.ctl := rfl
@[simp] theorem dropFault_net (s : State) (c i : Nat) : (s.dropFault c i).net = s.net := rfl
@[simp] theorem dropFault_chaff (s : State) (c i : Nat) : (s.dropFault c i).chaff = s.chaff := rfl
@[simp] theorem dropFault_fb (s : State) (c i : Nat) : (s.dropFault c i).fb = s.fb := rfl
@[simp] theorem dropFault_io (s : State) (c i : Nat) : (s.dropFault c i).io = s.io := rfl
@[simp] theorem dropFault_gn (s : State) (c i : Nat) : (s.dropFault c i).gn = s.gn := rfl
@[simp] theorem dropFault_tb (s : State) (c i : Nat) : (s.dropFault c i).tb = s.tb := rfl
@[simp] theorem dropFault_pan (s : State) (c i : Nat) : (s.dropFault c i).pan = s.pan := rfl
@[simp] theorem dropFault_mir (s : State) (c i : Nat) : (s.dropFault c i).mir = s.mir := rfl
@[simp] theorem dropFault_can (s : State) (c i : Nat) : (s.dropFault c i).can = s.can := rfl

/-! Fields set. -/
theorem records_congr {s t : State} (h1 : t.st = s.st) (h2 : t.gran = s.gran) (h3 : t.force = s.force) : t.records = s.records := by
  unfold records granRoom cfgU cfgV
  rw [h1, h2, h3]
theorem up_congr {s t : State} (h : t.st = s.st) : t.up = s.up := by unfold up; rw [h]
theorem objU_eq (s : State) (i j : Nat) : s.objU i j = (getV s.obj (okey i j)).asNat := rfl
theorem putObj_obj (s : State) (i j : Nat) (v : Val) : (s.putObj i j v).obj = putV s.obj (okey i j) v := rfl
theorem putU_obj (s : State) (i j n : Nat) : (s.putU i j n).obj = putV s.obj (okey i j) (.u n) := rfl
theorem putBoth_obj (s : State) (i j : Nat) (v : Val) : (s.putBoth i j v).obj = putV s.obj (okey i j) v := rfl
theorem putBoth_force (s : State) (i j : Nat) (v : Val) : (s.putBoth i j v).force = putV s.force (okey i j) v := rfl
@[simp] theorem answer_answer (s : State) (n : Nat) (l : List Byte) : (s.answer n l).acc.answer = ⟨n, l⟩ := rfl
@[simp] theorem answer_sessions (s : State) (n : Nat) (l : List Byte) : (s.answer n l).acc.sessions = s.acc.sessions := rfl
@[simp] theorem answer_fresh (s : State) (n : Nat) (l : List Byte) : (s.answer n l).acc.fresh = s.acc.fresh := rfl
@[simp] theorem answer_bulk (s : State) (n : Nat) (l : List Byte) : (s.answer n l).acc.bulk = s.acc.bulk := rfl
@[simp] theorem answer_store (s : State) (n : Nat) (l : List Byte) : (s.answer n l).acc.store = s.acc.store := rfl
@[simp] theorem session_setSession (s : State) (p : Path) (x : Session) : (s.setSession p x).session p = x := tget_tset_self _ _ _ _
@[simp] theorem canC_setCanC (s : State) (c : Nat) (x : CanCtl) : (s.setCanC c x).canC c = x := tget_tset_self _ _ _ _
theorem result_publish (s : State) (i : Nat) (l : List Val) :
    (s.publish i l).result i = ⟨s.clk.sample, s.clk.epoch, 0x80, l⟩ := by
  unfold result publish
  rw [tget_tset_self]
theorem result_publish_other (s : State) (i k : Nat) (l : List Val) (h : k ≠ i) : (s.publish i l).result k = s.result k := by
  unfold result publish
  rw [tget_tset_other _ _ _ _ _ h]
/-- What fills the second buffer leaves the readable one (R52). -/
theorem result_publishEnd (s : State) (i k : Nat) (l : List Val) : (s.publishEnd i l).result k = s.result k := by
  unfold result publishEnd tmod
  by_cases h : k = i
  · subst h; rw [tget_tset_self]
  · rw [tget_tset_other _ _ _ _ _ h]
theorem freshest_publishEnd (s : State) (i : Nat) (l : List Val) :
    (s.publishEnd i l).freshest i = ⟨s.clk.sample, s.clk.epoch, 0x80, l⟩ := by
  unfold freshest publishEnd tmod
  rw [tget_tset_self]; rfl
theorem objV_putObj (s : State) (i j : Nat) (v : Val) (h : storeOk s.obj = true) : (s.putObj i j v).objV i j = v :=
  getV_putV_self _ _ h
theorem objV_putObj_other (s : State) (i j i' j' : Nat) (v : Val) (h : okey i' j' ≠ okey i j) :
    (s.putObj i j v).objV i' j' = s.objV i' j' := getV_putV_other _ _ _ _ h

end State
end Sys2Proof.Machine
end

