-- ==== Sys2Proof/Laws/Writes.lean ====
section
/-! SUPPORT. Each command that writes one object is a write of that object under the rules of every object. -/
set_option linter.unusedSimpArgs false
namespace Sys2Proof.Machine
namespace State

/-- A write depends on the own rule of the written object alone. -/
theorem writeWith_congr {own own' : State → Path → Nat → Nat → Val → Verdict} (s : State) (p : Path) (i j : Nat) (b : List Byte)
    (h : ∀ v, own s p i j v = own' s p i j v) : s.writeWith own p i j b = s.writeWith own' p i j b := by
  unfold writeWith
  split
  · rfl
  · rw [h]

/-- A write of an object that is no bit timing and brings no further work with it. -/
theorem writeAny_own {own : State → Path → Nat → Nat → Val → Verdict} (s : State) (p : Path) (i j : Nat) (b : List Byte)
    (ht : ¬(0x4200 ≤ i ∧ i ≤ 0x4203 ∧ 3 ≤ j ∧ j ≤ 0x0A)) (h : ∀ v, ruleAll s p i j v = own s p i j v)
    (ha : ∀ t : State, t.afterWrite p i j b = t) : s.writeAny p i j b = s.writeWith own p i j b := by
  unfold writeAny
  rw [if_neg ht, writeWith_congr s p i j b h]
  simp only [ha, ite_self]

/-- A write of an object that is no bit timing, with the work it brings with it. -/
theorem writeAny_after {own : State → Path → Nat → Nat → Val → Verdict} (s : State) (p : Path) (i j : Nat) (b : List Byte)
    (ht : ¬(0x4200 ≤ i ∧ i ≤ 0x4203 ∧ 3 ≤ j ∧ j ≤ 0x0A)) (h : ∀ v, ruleAll s p i j v = own s p i j v) :
    s.writeAny p i j b = if (s.writeWith own p i j b).acc.answer.code = 0 then (s.writeWith own p i j b).afterWrite p i j b
      else s.writeWith own p i j b := by
  unfold writeAny
  rw [if_neg ht, writeWith_congr s p i j b h]

end State

theorem execGenericWrite_write (p : Path) (i : Nat) (j : Nat) (b : List Byte) (s : State) (hu : s.up = true) :
    execGenericWrite p i j b s = .next (s.writeAny p (i) (j) (b)) := by
  simp only [execGenericWrite, hu, if_true]

theorem execStoreParameters_write (p : Path) (j : Nat) (b : List Byte) (s : State) (hu : s.up = true) :
    execStoreParameters p j b s = .next (s.writeAny p (0x1010) (j) (b)) := by
  have hx : execStoreParameters p j b s = .next (s.writeWith State.ruleStore p (0x1010) (j) (b)) := by
    simp only [execStoreParameters, hu, if_true, Bool.not_true, Bool.false_eq_true, if_false]
  rw [hx]
  congr 1
  symm
  refine State.writeAny_own _ _ _ _ _ (by omega) (fun v => ?_) (fun t => ?_)
  · simp [State.ruleAll, State.rulePlain, State.noRule]
  · simp [State.afterWrite]

theorem execRestoreDefaults_write (p : Path) (j : Nat) (b : List Byte) (s : State) (hu : s.up = true) :
    execRestoreDefaults p j b s = .next (s.writeAny p (0x1011) (j) (b)) := by
  have hx : execRestoreDefaults p j b s = .next (s.writeWith State.ruleRestore p (0x1011) (j) (b)) := by
    simp only [execRestoreDefaults, hu, if_true, Bool.not_true, Bool.false_eq_true, if_false]
  rw [hx]
  congr 1
  symm
  refine State.writeAny_own _ _ _ _ _ (by omega) (fun v => ?_) (fun t => ?_)
  · simp [State.ruleAll, State.rulePlain, State.noRule]
  · simp [State.afterWrite]

theorem execConfigurationSetLoad_write (p : Path) (b : List Byte) (s : State) (hu : s.up = true) :
    execConfigurationSetLoad p b s = .next (s.writeAny p (0x2010) (0) (b)) := by
  have hx : execConfigurationSetLoad p b s = .next (s.writeWith State.ruleConfig p (0x2010) (0) (b)) := by
    simp only [execConfigurationSetLoad, hu, if_true, Bool.not_true, Bool.false_eq_true, if_false]
  rw [hx]
  congr 1
  symm
  refine State.writeAny_own _ _ _ _ _ (by omega) (fun v => ?_) (fun t => ?_)
  · simp [State.ruleAll, State.rulePlain, State.noRule]
  · simp [State.afterWrite]

theorem execSampleLengthWrite_write (p : Path) (b : List Byte) (s : State) (hu : s.up = true) :
    execSampleLengthWrite p b s = .next (s.writeAny p (0x2030) (1) (b)) := by
  simp only [execSampleLengthWrite, hu, if_true]

theorem execModeCommandStandby_write (p : Path) (h : Nat) (s : State) (hu : s.up = true) :
    execModeCommandStandby p h s = .next (s.writeAny p (0x2201) (0) (modeWord h 0)) := by
  have hx : execModeCommandStandby p h s = .next (s.writeWith State.ruleCommand p (0x2201) (0) (modeWord h 0)) := by
    simp only [execModeCommandStandby, hu, if_true, Bool.not_true, Bool.false_eq_true, if_false]
  rw [hx]
  congr 1
  symm
  refine State.writeAny_own _ _ _ _ _ (by omega) (fun v => ?_) (fun t => ?_)
  · simp [State.ruleAll, State.rulePlain, State.noRule]
  · simp [State.afterWrite]

theorem execModeCommandLever_write (p : Path) (h : Nat) (s : State) (hu : s.up = true) :
    execModeCommandLever p h s = .next (s.writeAny p (0x2201) (0) (modeWord h 1)) := by
  have hx : execModeCommandLever p h s = .next (s.writeWith State.ruleCommand p (0x2201) (0) (modeWord h 1)) := by
    simp only [execModeCommandLever, hu, if_true, Bool.not_true, Bool.false_eq_true, if_false]
  rw [hx]
  congr 1
  symm
  refine State.writeAny_own _ _ _ _ _ (by omega) (fun v => ?_) (fun t => ?_)
  · simp [State.ruleAll, State.rulePlain, State.noRule]
  · simp [State.afterWrite]

theorem execModeCommandJoystick_write (p : Path) (h : Nat) (s : State) (hu : s.up = true) :
    execModeCommandJoystick p h s = .next (s.writeAny p (0x2201) (0) (modeWord h 2)) := by
  have hx : execModeCommandJoystick p h s = .next (s.writeWith State.ruleCommand p (0x2201) (0) (modeWord h 2)) := by
    simp only [execModeCommandJoystick, hu, if_true, Bool.not_true, Bool.false_eq_true, if_false]
  rw [hx]
  congr 1
  symm
  refine State.writeAny_own _ _ _ _ _ (by omega) (fun v => ?_) (fun t => ?_)
  · simp [State.ruleAll, State.rulePlain, State.noRule]
  · simp [State.afterWrite]

theorem execModeCommandAutoHeading_write (p : Path) (h : Nat) (s : State) (hu : s.up = true) :
    execModeCommandAutoHeading p h s = .next (s.writeAny p (0x2201) (0) (modeWord h 3)) := by
  have hx : execModeCommandAutoHeading p h s = .next (s.writeWith State.ruleCommand p (0x2201) (0) (modeWord h 3)) := by
    simp only [execModeCommandAutoHeading, hu, if_true, Bool.not_true, Bool.false_eq_true, if_false]
  rw [hx]
  congr 1
  symm
  refine State.writeAny_own _ _ _ _ _ (by omega) (fun v => ?_) (fun t => ?_)
  · simp [State.ruleAll, State.rulePlain, State.noRule]
  · simp [State.afterWrite]

theorem execModeCommandAutoPosition_write (p : Path) (h : Nat) (s : State) (hu : s.up = true) :
    execModeCommandAutoPosition p h s = .next (s.writeAny p (0x2201) (0) (modeWord h 4)) := by
  have hx : execModeCommandAutoPosition p h s = .next (s.writeWith State.ruleCommand p (0x2201) (0) (modeWord h 4)) := by
    simp only [execModeCommandAutoPosition, hu, if_true, Bool.not_true, Bool.false_eq_true, if_false]
  rw [hx]
  congr 1
  symm
  refine State.writeAny_own _ _ _ _ _ (by omega) (fun v => ?_) (fun t => ?_)
  · simp [State.ruleAll, State.rulePlain, State.noRule]
  · simp [State.afterWrite]

theorem execModeCommandTrack_write (p : Path) (h : Nat) (s : State) (hu : s.up = true) :
    execModeCommandTrack p h s = .next (s.writeAny p (0x2201) (0) (modeWord h 5)) := by
  have hx : execModeCommandTrack p h s = .next (s.writeWith State.ruleCommand p (0x2201) (0) (modeWord h 5)) := by
    simp only [execModeCommandTrack, hu, if_true, Bool.not_true, Bool.false_eq_true, if_false]
  rw [hx]
  congr 1
  symm
  refine State.writeAny_own _ _ _ _ _ (by omega) (fun v => ?_) (fun t => ?_)
  · simp [State.ruleAll, State.rulePlain, State.noRule]
  · simp [State.afterWrite]

theorem execModeCommandMaintenance_write (p : Path) (h : Nat) (s : State) (hu : s.up = true) :
    execModeCommandMaintenance p h s = .next (s.writeAny p (0x2201) (0) (modeWord h 6)) := by
  have hx : execModeCommandMaintenance p h s = .next (s.writeWith State.ruleCommand p (0x2201) (0) (modeWord h 6)) := by
    simp only [execModeCommandMaintenance, hu, if_true, Bool.not_true, Bool.false_eq_true, if_false]
  rw [hx]
  congr 1
  symm
  refine State.writeAny_own _ _ _ _ _ (by omega) (fun v => ?_) (fun t => ?_)
  · simp [State.ruleAll, State.rulePlain, State.noRule]
  · simp [State.afterWrite]

theorem execModeCommandDormancy_write (p : Path) (h : Nat) (s : State) (hu : s.up = true) :
    execModeCommandDormancy p h s = .next (s.writeAny p (0x2201) (0) (modeWord h 7)) := by
  have hx : execModeCommandDormancy p h s = .next (s.writeWith State.ruleCommand p (0x2201) (0) (modeWord h 7)) := by
    simp only [execModeCommandDormancy, hu, if_true, Bool.not_true, Bool.false_eq_true, if_false]
  rw [hx]
  congr 1
  symm
  refine State.writeAny_own _ _ _ _ _ (by omega) (fun v => ?_) (fun t => ?_)
  · simp [State.ruleAll, State.rulePlain, State.noRule]
  · simp [State.afterWrite]

theorem execActionCapturePosition_write (p : Path) (h : Nat) (s : State) (hu : s.up = true) :
    execActionCapturePosition p h s = .next (s.writeAny p (0x2203) (0) (actionWord h 1)) := by
  have hx : execActionCapturePosition p h s = .next (s.writeWith State.ruleCommand p (0x2203) (0) (actionWord h 1)) := by
    simp only [execActionCapturePosition, hu, if_true, Bool.not_true, Bool.false_eq_true, if_false]
  rw [hx]
  congr 1
  symm
  refine State.writeAny_own _ _ _ _ _ (by omega) (fun v => ?_) (fun t => ?_)
  · simp [State.ruleAll, State.rulePlain, State.noRule]
  · simp [State.afterWrite]

theorem execActionCaptureHeading_write (p : Path) (h : Nat) (s : State) (hu : s.up = true) :
    execActionCaptureHeading p h s = .next (s.writeAny p (0x2203) (0) (actionWord h 2)) := by
  have hx : execActionCaptureHeading p h s = .next (s.writeWith State.ruleCommand p (0x2203) (0) (actionWord h 2)) := by
    simp only [execActionCaptureHeading, hu, if_true, Bool.not_true, Bool.false_eq_true, if_false]
  rw [hx]
  congr 1
  symm
  refine State.writeAny_own _ _ _ _ _ (by omega) (fun v => ?_) (fun t => ?_)
  · simp [State.ruleAll, State.rulePlain, State.noRule]
  · simp [State.afterWrite]

theorem execActionHoldRamps_write (p : Path) (h : Nat) (s : State) (hu : s.up = true) :
    execActionHoldRamps p h s = .next (s.writeAny p (0x2203) (0) (actionWord h 3)) := by
  have hx : execActionHoldRamps p h s = .next (s.writeWith State.ruleCommand p (0x2203) (0) (actionWord h 3)) := by
    simp only [execActionHoldRamps, hu, if_true, Bool.not_true, Bool.false_eq_true, if_false]
  rw [hx]
  congr 1
  symm
  refine State.writeAny_own _ _ _ _ _ (by omega) (fun v => ?_) (fun t => ?_)
  · simp [State.ruleAll, State.rulePlain, State.noRule]
  · simp [State.afterWrite]

theorem execActionReleaseRamps_write (p : Path) (h : Nat) (s : State) (hu : s.up = true) :
    execActionReleaseRamps p h s = .next (s.writeAny p (0x2203) (0) (actionWord h 4)) := by
  have hx : execActionReleaseRamps p h s = .next (s.writeWith State.ruleCommand p (0x2203) (0) (actionWord h 4)) := by
    simp only [execActionReleaseRamps, hu, if_true, Bool.not_true, Bool.false_eq_true, if_false]
  rw [hx]
  congr 1
  symm
  refine State.writeAny_own _ _ _ _ _ (by omega) (fun v => ?_) (fun t => ?_)
  · simp [State.ruleAll, State.rulePlain, State.noRule]
  · simp [State.afterWrite]

theorem execStreamDescriptorWrite_write (p : Path) (k : Nat) (j : Nat) (b : List Byte) (s : State) (hu : s.up = true) (h : k < 256) :
    execStreamDescriptorWrite p k j b s = .next (s.writeAny p (0x2400 + k) (j) (b)) := by
  have hx : execStreamDescriptorWrite p k j b s = .next (s.writeWith State.ruleDescriptor p (0x2400 + k) (j) (b)) := by
    unfold execStreamDescriptorWrite
    first
    | (rw [if_pos (by simp [hu]; omega)]; done)
    | (rw [if_neg (by simp [hu]; omega)]; done)
    | (simp [hu]; omega)
    | simp [hu, h, State.canObj]
  rw [hx]
  congr 1
  symm
  refine State.writeAny_own _ _ _ _ _ (by omega) (fun v => ?_) (fun t => ?_)
  · unfold State.ruleAll State.rulePlain
    dsimp only
    try simp only [Bool.and_eq_true, decide_eq_true_eq, Bool.or_eq_true, beq_iff_eq]
    simp (disch := omega) only [if_neg, if_pos]
    try first | rfl | (rw [if_pos (by simp; omega)])
  · unfold State.afterWrite
    simp (disch := omega) only [if_neg, if_pos]

theorem execClockSlotReset_write (p : Path) (k : Nat) (b : List Byte) (s : State) (hu : s.up = true) (h : k < 64) :
    execClockSlotReset p k b s = .next (s.writeAny p (0x2540 + k) (4) (b)) := by
  have hx : execClockSlotReset p k b s = .next (s.writeWith State.noRule p (0x2540 + k) (4) (b)) := by
    unfold execClockSlotReset
    first
    | (rw [if_pos (by simp [hu]; omega)]; done)
    | (rw [if_neg (by simp [hu]; omega)]; done)
    | (simp [hu]; omega)
    | simp [hu, h, State.canObj]
  rw [hx]
  congr 1
  symm
  refine State.writeAny_own _ _ _ _ _ (by omega) (fun v => ?_) (fun t => ?_)
  · unfold State.ruleAll State.rulePlain
    dsimp only
    try simp only [Bool.and_eq_true, decide_eq_true_eq, Bool.or_eq_true, beq_iff_eq]
    simp (disch := omega) only [if_neg, if_pos]
    try first | rfl | (rw [if_pos (by simp; omega)])
  · unfold State.afterWrite
    simp (disch := omega) only [if_neg, if_pos]

theorem execGroupMembershipWrite_write (p : Path) (k : Nat) (b : List Byte) (s : State) (hu : s.up = true) (h : k < 256) :
    execGroupMembershipWrite p k b s = .next (s.writeAny p (0x2600 + k) (1) (b)) := by
  have hx : execGroupMembershipWrite p k b s = .next (s.writeWith State.ruleGroup p (0x2600 + k) (1) (b)) := by
    unfold execGroupMembershipWrite
    first
    | (rw [if_pos (by simp [hu]; omega)]; done)
    | (rw [if_neg (by simp [hu]; omega)]; done)
    | (simp [hu]; omega)
    | simp [hu, h, State.canObj]
  rw [hx]
  congr 1
  symm
  refine State.writeAny_own _ _ _ _ _ (by omega) (fun v => ?_) (fun t => ?_)
  · unfold State.ruleAll State.rulePlain
    dsimp only
    try simp only [Bool.and_eq_true, decide_eq_true_eq, Bool.or_eq_true, beq_iff_eq]
    simp (disch := omega) only [if_neg, if_pos]
    try first | rfl | (rw [if_pos (by simp; omega)])
  · unfold State.afterWrite
    simp (disch := omega) only [if_neg, if_pos]

theorem execReferenceSelection_write (p : Path) (j : Nat) (b : List Byte) (s : State) (hu : s.up = true) :
    execReferenceSelection p j b s = .next (s.writeAny p (0x2240) (j) (b)) := by
  have hx : execReferenceSelection p j b s = .next (s.writeWith State.ruleSelection p (0x2240) (j) (b)) := by
    simp only [execReferenceSelection, hu, if_true, Bool.not_true, Bool.false_eq_true, if_false]
  rw [hx]
  congr 1
  symm
  refine State.writeAny_own _ _ _ _ _ (by omega) (fun v => ?_) (fun t => ?_)
  · simp [State.ruleAll, State.rulePlain, State.noRule]
  · simp [State.afterWrite]

theorem execChaffCoefficientSet_write (p : Path) (b : List Byte) (s : State) (hu : s.up = true) :
    execChaffCoefficientSet p b s = .next (s.writeAny p (0x2900) (0) (b)) := by
  have hx : execChaffCoefficientSet p b s = .next (s.writeWith State.ruleChaffSet p (0x2900) (0) (b)) := by
    simp only [execChaffCoefficientSet, hu, if_true, Bool.not_true, Bool.false_eq_true, if_false]
  rw [hx]
  congr 1
  symm
  refine State.writeAny_own _ _ _ _ _ (by omega) (fun v => ?_) (fun t => ?_)
  · simp [State.ruleAll, State.rulePlain, State.noRule]
  · simp [State.afterWrite]

theorem execObserverReset_write (p : Path) (b : List Byte) (s : State) (hu : s.up = true) :
    execObserverReset p b s = .next (s.writeAny p (0x2A10) (1) (b)) := by
  have hx : execObserverReset p b s = .next (s.writeWith State.ruleObsReset p (0x2A10) (1) (b)) := by
    simp only [execObserverReset, hu, if_true, Bool.not_true, Bool.false_eq_true, if_false]
  rw [hx]
  congr 1
  symm
  refine State.writeAny_own _ _ _ _ _ (by omega) (fun v => ?_) (fun t => ?_)
  · simp [State.ruleAll, State.rulePlain, State.noRule]
  · simp [State.afterWrite]

theorem execGainSetSelection_write (p : Path) (b : List Byte) (s : State) (hu : s.up = true) :
    execGainSetSelection p b s = .next (s.writeAny p (0x2C00) (1) (b)) := by
  have hx : execGainSetSelection p b s = .next (s.writeWith State.noRule p (0x2C00) (1) (b)) := by
    simp only [execGainSetSelection, hu, if_true, Bool.not_true, Bool.false_eq_true, if_false]
  rw [hx]
  congr 1
  symm
  refine State.writeAny_own _ _ _ _ _ (by omega) (fun v => ?_) (fun t => ?_)
  · simp [State.ruleAll, State.rulePlain, State.noRule]
  · simp [State.afterWrite]

theorem execCulmCoefficientSet_write (p : Path) (b : List Byte) (s : State) (hu : s.up = true) :
    execCulmCoefficientSet p b s = .next (s.writeAny p (0x2C01) (0) (b)) := by
  have hx : execCulmCoefficientSet p b s = .next (s.writeWith State.ruleCulmSet p (0x2C01) (0) (b)) := by
    simp only [execCulmCoefficientSet, hu, if_true, Bool.not_true, Bool.false_eq_true, if_false]
  rw [hx]
  congr 1
  symm
  refine State.writeAny_own _ _ _ _ _ (by omega) (fun v => ?_) (fun t => ?_)
  · simp [State.ruleAll, State.rulePlain, State.noRule]
  · simp [State.afterWrite]

theorem execThrusterDescriptorWrite_write (p : Path) (i : Nat) (j : Nat) (b : List Byte) (s : State) (hu : s.up = true) (h : 0x2E80 ≤ i ∧ i ≤ 0x2EDF) :
    execThrusterDescriptorWrite p i j b s = .next (s.writeAny p (i) (j) (b)) := by
  have hx : execThrusterDescriptorWrite p i j b s = .next (s.writeWith State.ruleThruster p (i) (j) (b)) := by
    unfold execThrusterDescriptorWrite
    first
    | (rw [if_pos (by simp [hu]; omega)]; done)
    | (rw [if_neg (by simp [hu]; omega)]; done)
    | (simp [hu]; omega)
    | simp [hu, h, State.canObj]
  rw [hx]
  congr 1
  symm
  refine State.writeAny_own _ _ _ _ _ (by omega) (fun v => ?_) (fun t => ?_)
  · unfold State.ruleAll State.rulePlain
    dsimp only
    try simp only [Bool.and_eq_true, decide_eq_true_eq, Bool.or_eq_true, beq_iff_eq]
    simp (disch := omega) only [if_neg, if_pos]
    try first | rfl | (rw [if_pos (by simp; omega)])
  · unfold State.afterWrite
    simp (disch := omega) only [if_neg, if_pos]

theorem execCaseDescriptorWrite_write (p : Path) (c : Nat) (j : Nat) (b : List Byte) (s : State) (hu : s.up = true) (h : c < 128) :
    execCaseDescriptorWrite p c j b s = .next (s.writeAny p (0x3080 + c) (j) (b)) := by
  have hx : execCaseDescriptorWrite p c j b s = .next (s.writeWith State.ruleCase p (0x3080 + c) (j) (b)) := by
    unfold execCaseDescriptorWrite
    first
    | (rw [if_pos (by simp [hu]; omega)]; done)
    | (rw [if_neg (by simp [hu]; omega)]; done)
    | (simp [hu]; omega)
    | simp [hu, h, State.canObj]
  rw [hx]
  congr 1
  symm
  refine State.writeAny_own _ _ _ _ _ (by omega) (fun v => ?_) (fun t => ?_)
  · unfold State.ruleAll State.rulePlain
    dsimp only
    try simp only [Bool.and_eq_true, decide_eq_true_eq, Bool.or_eq_true, beq_iff_eq]
    simp (disch := omega) only [if_neg, if_pos]
    try first | rfl | (rw [if_pos (by simp; omega)])
  · unfold State.afterWrite
    simp (disch := omega) only [if_neg, if_pos]

theorem execClearMismatchRemovals_write (p : Path) (b : List Byte) (s : State) (hu : s.up = true) :
    execClearMismatchRemovals p b s = .next (s.writeAny p (0x3002) (0) (b)) := by
  have hx : execClearMismatchRemovals p b s = .next (s.writeWith State.noRule p (0x3002) (0) (b)) := by
    simp only [execClearMismatchRemovals, hu, if_true, Bool.not_true, Bool.false_eq_true, if_false]
  rw [hx]
  congr 1
  symm
  refine State.writeAny_own _ _ _ _ _ (by omega) (fun v => ?_) (fun t => ?_)
  · simp [State.ruleAll, State.rulePlain, State.noRule]
  · simp [State.afterWrite]

theorem execStubbleSet_write (p : Path) (b : List Byte) (s : State) (hu : s.up = true) :
    execStubbleSet p b s = .next (s.writeAny p (0x3200) (0) (b)) := by
  have hx : execStubbleSet p b s = .next (s.writeWith State.ruleStubSet p (0x3200) (0) (b)) := by
    simp only [execStubbleSet, hu, if_true, Bool.not_true, Bool.false_eq_true, if_false]
  rw [hx]
  congr 1
  symm
  refine State.writeAny_own _ _ _ _ _ (by omega) (fun v => ?_) (fun t => ?_)
  · simp [State.ruleAll, State.rulePlain, State.noRule]
  · simp [State.afterWrite]

theorem execReturnRequest_write (p : Path) (b : List Byte) (s : State) (hu : s.up = true) :
    execReturnRequest p b s = .next (s.writeAny p (0x3203) (0) (b)) := by
  have hx : execReturnRequest p b s = .next (s.writeWith State.noRule p (0x3203) (0) (b)) := by
    simp only [execReturnRequest, hu, if_true, Bool.not_true, Bool.false_eq_true, if_false]
  rw [hx]
  congr 1
  symm
  refine State.writeAny_own _ _ _ _ _ (by omega) (fun v => ?_) (fun t => ?_)
  · simp [State.ruleAll, State.rulePlain, State.noRule]
  · simp [State.afterWrite]

theorem execPlantDescriptorWrite_write (p : Path) (i : Nat) (j : Nat) (b : List Byte) (s : State) (hu : s.up = true) (h : 0x3400 ≤ i ∧ i ≤ 0x34DF) :
    execPlantDescriptorWrite p i j b s = .next (s.writeAny p (i) (j) (b)) := by
  have hx : execPlantDescriptorWrite p i j b s = .next (s.writeWith State.rulePlant p (i) (j) (b)) := by
    unfold execPlantDescriptorWrite
    first
    | (rw [if_pos (by simp [hu]; omega)]; done)
    | (rw [if_neg (by simp [hu]; omega)]; done)
    | (simp [hu]; omega)
    | simp [hu, h, State.canObj]
  rw [hx]
  congr 1
  symm
  refine State.writeAny_own _ _ _ _ _ (by omega) (fun v => ?_) (fun t => ?_)
  · unfold State.ruleAll State.rulePlain
    dsimp only
    try simp only [Bool.and_eq_true, decide_eq_true_eq, Bool.or_eq_true, beq_iff_eq]
    simp (disch := omega) only [if_neg, if_pos]
    try first | rfl | (rw [if_pos (by simp; omega)])
  · unfold State.afterWrite
    simp (disch := omega) only [if_neg, if_pos]

theorem execFrontEndScriptWrite_write (p : Path) (b : List Byte) (s : State) (hu : s.up = true) :
    execFrontEndScriptWrite p b s = .next (s.writeAny p (0x3601) (2) (b)) := by
  unfold execFrontEndScriptWrite
  rw [State.writeAny_after (own := State.noRule) _ _ _ _ _ (by omega) (fun v => by simp [State.ruleAll, State.rulePlain, State.noRule])]
  simp only [hu, Bool.not_true, Bool.false_eq_true, if_false, State.afterWrite]
  generalize s.writeWith State.noRule p (0x3601) (2) b = t
  by_cases h : t.acc.answer.code = 0 <;> by_cases h2 : t.feMaster = true <;> simp [h, h2]

theorem execSpoofingClear_write (p : Path) (b : List Byte) (s : State) (hu : s.up = true) :
    execSpoofingClear p b s = .next (s.writeAny p (0x3611) (0) (b)) := by
  have hx : execSpoofingClear p b s = .next (s.writeWith State.ruleGnss p (0x3611) (0) (b)) := by
    simp only [execSpoofingClear, hu, if_true, Bool.not_true, Bool.false_eq_true, if_false]
  rw [hx]
  congr 1
  symm
  refine State.writeAny_own _ _ _ _ _ (by omega) (fun v => ?_) (fun t => ?_)
  · simp [State.ruleAll, State.rulePlain, State.noRule]
  · simp [State.afterWrite]

theorem execSnapshotCaptureCommand_write (p : Path) (b : List Byte) (s : State) (hu : s.up = true) :
    execSnapshotCaptureCommand p b s = .next (s.writeAny p (0x3620) (1) (b)) := by
  have hx : execSnapshotCaptureCommand p b s = .next (s.writeWith State.ruleGnss p (0x3620) (1) (b)) := by
    simp only [execSnapshotCaptureCommand, hu, if_true, Bool.not_true, Bool.false_eq_true, if_false]
  rw [hx]
  congr 1
  symm
  refine State.writeAny_own _ _ _ _ _ (by omega) (fun v => ?_) (fun t => ?_)
  · simp [State.ruleAll, State.rulePlain, State.noRule]
  · simp [State.afterWrite]

theorem execArchiveSelected_write (p : Path) (b : List Byte) (s : State) (hu : s.up = true) :
    execArchiveSelected p b s = .next (s.writeAny p (0x3621) (3) (b)) := by
  have hx : execArchiveSelected p b s = .next (s.writeWith State.ruleGnss p (0x3621) (3) (b)) := by
    simp only [execArchiveSelected, hu, if_true, Bool.not_true, Bool.false_eq_true, if_false]
  rw [hx]
  congr 1
  symm
  refine State.writeAny_own _ _ _ _ _ (by omega) (fun v => ?_) (fun t => ?_)
  · simp [State.ruleAll, State.rulePlain, State.noRule]
  · simp [State.afterWrite]

theorem execKeepSelected_write (p : Path) (b : List Byte) (s : State) (hu : s.up = true) :
    execKeepSelected p b s = .next (s.writeAny p (0x3621) (4) (b)) := by
  have hx : execKeepSelected p b s = .next (s.writeWith State.ruleGnss p (0x3621) (4) (b)) := by
    simp only [execKeepSelected, hu, if_true, Bool.not_true, Bool.false_eq_true, if_false]
  rw [hx]
  congr 1
  symm
  refine State.writeAny_own _ _ _ _ _ (by omega) (fun v => ?_) (fun t => ?_)
  · simp [State.ruleAll, State.rulePlain, State.noRule]
  · simp [State.afterWrite]

theorem execAcceptJump_write (p : Path) (b : List Byte) (s : State) (hu : s.up = true) :
    execAcceptJump p b s = .next (s.writeAny p (0x3802) (0) (b)) := by
  have hx : execAcceptJump p b s = .next (s.writeWith State.ruleJump p (0x3802) (0) (b)) := by
    simp only [execAcceptJump, hu, if_true, Bool.not_true, Bool.false_eq_true, if_false]
  rw [hx]
  congr 1
  symm
  refine State.writeAny_own _ _ _ _ _ (by omega) (fun v => ?_) (fun t => ?_)
  · simp [State.ruleAll, State.rulePlain, State.noRule]
  · simp [State.afterWrite]

theorem execChannelDescriptorWrite_write (p : Path) (n : Nat) (j : Nat) (b : List Byte) (s : State) (hu : s.up = true) (h : n < 32) :
    execChannelDescriptorWrite p n j b s = .next (s.writeAny p (0x3A00 + n) (j) (b)) := by
  have hx : execChannelDescriptorWrite p n j b s = .next (s.writeWith State.ruleEnc p (0x3A00 + n) (j) (b)) := by
    unfold execChannelDescriptorWrite
    first
    | (rw [if_pos (by simp [hu]; omega)]; done)
    | (rw [if_neg (by simp [hu]; omega)]; done)
    | (simp [hu]; omega)
    | simp [hu, h, State.canObj]
  rw [hx]
  congr 1
  symm
  refine State.writeAny_own _ _ _ _ _ (by omega) (fun v => ?_) (fun t => ?_)
  · unfold State.ruleAll State.rulePlain
    dsimp only
    try simp only [Bool.and_eq_true, decide_eq_true_eq, Bool.or_eq_true, beq_iff_eq]
    simp (disch := omega) only [if_neg, if_pos]
    try first | rfl | (rw [if_pos (by simp; omega)])
  · unfold State.afterWrite
    simp (disch := omega) only [if_neg, if_pos]

theorem execComparePositionWrite_write (p : Path) (n : Nat) (j : Nat) (b : List Byte) (s : State) (hu : s.up = true) (h : n < 32) :
    execComparePositionWrite p n j b s = .next (s.writeAny p (0x3A20 + n) (j) (b)) := by
  have hx : execComparePositionWrite p n j b s = .next (s.writeWith State.ruleCompare p (0x3A20 + n) (j) (b)) := by
    unfold execComparePositionWrite
    first
    | (rw [if_pos (by simp [hu]; omega)]; done)
    | (rw [if_neg (by simp [hu]; omega)]; done)
    | (simp [hu]; omega)
    | simp [hu, h, State.canObj]
  rw [hx]
  congr 1
  symm
  refine State.writeAny_own _ _ _ _ _ (by omega) (fun v => ?_) (fun t => ?_)
  · unfold State.ruleAll State.rulePlain
    dsimp only
    try simp only [Bool.and_eq_true, decide_eq_true_eq, Bool.or_eq_true, beq_iff_eq]
    simp (disch := omega) only [if_neg, if_pos]
    try first | rfl | (rw [if_pos (by simp; omega)])
  · unfold State.afterWrite
    simp (disch := omega) only [if_neg, if_pos]

theorem execSerialTransmit_write (p : Path) (n : Nat) (b : List Byte) (s : State) (hu : s.up = true) (h : n < 16) :
    execSerialTransmit p n b s = .next (s.writeAny p (0x4420 + n) (0) (b)) := by
  have hx : execSerialTransmit p n b s = .next (s.writeWith State.ruleTransmit p (0x4420 + n) (0) (b)) := by
    unfold execSerialTransmit
    first
    | (rw [if_pos (by simp [hu]; omega)]; done)
    | (rw [if_neg (by simp [hu]; omega)]; done)
    | (simp [hu]; omega)
    | simp [hu, h, State.canObj]
  rw [hx]
  congr 1
  symm
  refine State.writeAny_own _ _ _ _ _ (by omega) (fun v => ?_) (fun t => ?_)
  · unfold State.ruleAll State.rulePlain
    dsimp only
    try simp only [Bool.and_eq_true, decide_eq_true_eq, Bool.or_eq_true, beq_iff_eq]
    simp (disch := omega) only [if_neg, if_pos]
    try first | rfl | (rw [if_pos (by simp; omega)])
  · unfold State.afterWrite
    simp (disch := omega) only [if_neg, if_pos]

theorem execImuDescriptorWrite_write (p : Path) (i : Nat) (j : Nat) (b : List Byte) (s : State) (hu : s.up = true) (h : i < 2) :
    execImuDescriptorWrite p i j b s = .next (s.writeAny p (0x4470 + i) (j) (b)) := by
  have hx : execImuDescriptorWrite p i j b s = .next (s.writeWith State.ruleImu p (0x4470 + i) (j) (b)) := by
    unfold execImuDescriptorWrite
    first
    | (rw [if_pos (by simp [hu]; omega)]; done)
    | (rw [if_neg (by simp [hu]; omega)]; done)
    | (simp [hu]; omega)
    | simp [hu, h, State.canObj]
  rw [hx]
  congr 1
  symm
  refine State.writeAny_own _ _ _ _ _ (by omega) (fun v => ?_) (fun t => ?_)
  · unfold State.ruleAll State.rulePlain
    dsimp only
    try simp only [Bool.and_eq_true, decide_eq_true_eq, Bool.or_eq_true, beq_iff_eq]
    simp (disch := omega) only [if_neg, if_pos]
    try first | rfl | (rw [if_pos (by simp; omega)])
  · unfold State.afterWrite
    simp (disch := omega) only [if_neg, if_pos]

theorem execProgramImageLoad_write (p : Path) (b : List Byte) (s : State) (hu : s.up = true) :
    execProgramImageLoad p b s = .next (s.writeAny p (0x3C01) (0) (b)) := by
  unfold execProgramImageLoad
  rw [State.writeAny_after (own := State.ruleImage) _ _ _ _ _ (by omega) (fun v => by simp [State.ruleAll, State.rulePlain, State.noRule])]
  simp only [hu, Bool.not_true, Bool.false_eq_true, if_false, State.afterWrite]
  generalize s.writeWith State.ruleImage p (0x3C01) (0) b = t
  by_cases h : t.acc.answer.code = 0 <;> by_cases h2 : t.feMaster = true <;> simp [h, h2]

theorem execPanicleRestartWarm_write (p : Path) (s : State) (hu : s.up = true) :
    execPanicleRestartWarm p s = .next (s.writeAny p (0x3C03) (0) (natLe 1 1)) := by
  have hx : execPanicleRestartWarm p s = .next (s.writeWith State.ruleRestart p (0x3C03) (0) (natLe 1 1)) := by
    simp only [execPanicleRestartWarm, hu, if_true, Bool.not_true, Bool.false_eq_true, if_false]
  rw [hx]
  congr 1
  symm
  refine State.writeAny_own _ _ _ _ _ (by omega) (fun v => ?_) (fun t => ?_)
  · simp [State.ruleAll, State.rulePlain, State.noRule]
  · simp [State.afterWrite]

theorem execPanicleRestartCold_write (p : Path) (s : State) (hu : s.up = true) :
    execPanicleRestartCold p s = .next (s.writeAny p (0x3C03) (0) (natLe 1 2)) := by
  have hx : execPanicleRestartCold p s = .next (s.writeWith State.ruleRestart p (0x3C03) (0) (natLe 1 2)) := by
    simp only [execPanicleRestartCold, hu, if_true, Bool.not_true, Bool.false_eq_true, if_false]
  rw [hx]
  congr 1
  symm
  refine State.writeAny_own _ _ _ _ _ (by omega) (fun v => ?_) (fun t => ?_)
  · simp [State.ruleAll, State.rulePlain, State.noRule]
  · simp [State.afterWrite]

theorem execPanicleRunWrite_write (p : Path) (b : List Byte) (s : State) (hu : s.up = true) :
    execPanicleRunWrite p b s = .next (s.writeAny p (0x3C00) (2) (b)) := by
  have hx : execPanicleRunWrite p b s = .next (s.writeWith State.noRule p (0x3C00) (2) (b)) := by
    simp only [execPanicleRunWrite, hu, if_true, Bool.not_true, Bool.false_eq_true, if_false]
  rw [hx]
  congr 1
  symm
  refine State.writeAny_own _ _ _ _ _ (by omega) (fun v => ?_) (fun t => ?_)
  · simp [State.ruleAll, State.rulePlain, State.noRule]
  · simp [State.afterWrite]

theorem execScanLengthWrite_write (p : Path) (b : List Byte) (s : State) (hu : s.up = true) :
    execScanLengthWrite p b s = .next (s.writeAny p (0x3C00) (1) (b)) := by
  have hx : execScanLengthWrite p b s = .next (s.writeWith State.noRule p (0x3C00) (1) (b)) := by
    simp only [execScanLengthWrite, hu, if_true, Bool.not_true, Bool.false_eq_true, if_false]
  rw [hx]
  congr 1
  symm
  refine State.writeAny_own _ _ _ _ _ (by omega) (fun v => ?_) (fun t => ?_)
  · simp [State.ruleAll, State.rulePlain, State.noRule]
  · simp [State.afterWrite]

theorem execForceListWrite_write (p : Path) (b : List Byte) (s : State) (hu : s.up = true) :
    execForceListWrite p b s = .next (s.writeAny p (0x3C10) (0) (b)) := by
  unfold execForceListWrite
  rw [State.writeAny_after (own := State.ruleForces) _ _ _ _ _ (by omega) (fun v => by simp [State.ruleAll, State.rulePlain, State.noRule])]
  simp only [hu, Bool.not_true, Bool.false_eq_true, if_false, State.afterWrite]
  generalize s.writeWith State.ruleForces p (0x3C10) (0) b = t
  by_cases h : t.acc.answer.code = 0 <;> by_cases h2 : t.feMaster = true <;> simp [h, h2]

theorem execHandLeadToUnit_write (p : Path) (b : List Byte) (s : State) (hu : s.up = true) :
    execHandLeadToUnit p b s = .next (s.writeAny p (0x3E20) (0) (b)) := by
  have hx : execHandLeadToUnit p b s = .next (s.writeWith State.ruleHand p (0x3E20) (0) (b)) := by
    simp only [execHandLeadToUnit, hu, if_true, Bool.not_true, Bool.false_eq_true, if_false]
  rw [hx]
  congr 1
  symm
  refine State.writeAny_own _ _ _ _ _ (by omega) (fun v => ?_) (fun t => ?_)
  · simp [State.ruleAll, State.rulePlain, State.noRule]
  · simp [State.afterWrite]

theorem execGateControlListWrite_write (p : Path) (b : List Byte) (s : State) (hu : s.up = true) :
    execGateControlListWrite p b s = .next (s.writeAny p (0x4010) (0) (b)) := by
  have hx : execGateControlListWrite p b s = .next (s.writeWith State.ruleGate p (0x4010) (0) (b)) := by
    simp only [execGateControlListWrite, hu, if_true, Bool.not_true, Bool.false_eq_true, if_false]
  rw [hx]
  congr 1
  symm
  refine State.writeAny_own _ _ _ _ _ (by omega) (fun v => ?_) (fun t => ?_)
  · simp [State.ruleAll, State.rulePlain, State.noRule]
  · simp [State.afterWrite]

theorem execNodeTableWrite_write (p : Path) (b : List Byte) (s : State) (hu : s.up = true) :
    execNodeTableWrite p b s = .next (s.writeAny p (0x4020) (0) (b)) := by
  have hx : execNodeTableWrite p b s = .next (s.writeWith State.ruleNodes p (0x4020) (0) (b)) := by
    simp only [execNodeTableWrite, hu, if_true, Bool.not_true, Bool.false_eq_true, if_false]
  rw [hx]
  congr 1
  symm
  refine State.writeAny_own _ _ _ _ _ (by omega) (fun v => ?_) (fun t => ?_)
  · simp [State.ruleAll, State.rulePlain, State.noRule]
  · simp [State.afterWrite]

theorem execProcessMapWrite_write (p : Path) (r : Bool) (b : List Byte) (s : State) (hu : s.up = true) :
    execProcessMapWrite p r b s = .next (s.writeAny p (if r then 0x4032 else 0x4030) (0) (b)) := by
  cases r <;> simp only [execProcessMapWrite, hu, if_true, Bool.false_eq_true, if_false] <;> congr 1 <;> symm
  all_goals
    refine State.writeAny_own _ _ _ _ _ (by omega) (fun v => ?_) (fun t => ?_)
    · simp [State.ruleAll, State.rulePlain]
    · simp [State.afterWrite]

theorem execCanTimingWrite_write (p : Path) (c : Nat) (j : Nat) (b : List Byte) (s : State) (hu : s.up = true) (h : c < 4 ∧ 3 ≤ j ∧ j ≤ 0x0A) :
    execCanTimingWrite p c j b s = .next (s.writeAny p (0x4200 + c) (j) (b)) := by
  unfold execCanTimingWrite State.writeAny
  have e : (s.up && decide (c < 4) && decide (3 ≤ j) && decide (j ≤ 10)) = true := by simp [hu]; omega
  rw [if_pos e, if_pos (show 0x4200 ≤ 0x4200 + c ∧ 0x4200 + c ≤ 0x4203 ∧ 3 ≤ j ∧ j ≤ 10 by omega)]
  have : ∀ t : State, t.afterWrite p (0x4200 + c) j b = t := fun t => by
    unfold State.afterWrite
    simp (disch := omega) only [if_neg, if_pos]
  simp only [this, ite_self]
  rfl

theorem execFilterListWrite_write (p : Path) (c : Nat) (b : List Byte) (s : State) (hu : s.up = true) (h : c < 4) :
    execFilterListWrite p c b s = .next (s.writeAny p (0x4210 + c) (0) (b)) := by
  have hx : execFilterListWrite p c b s = .next (s.writeWith State.ruleFilter p (0x4210 + c) (0) (b)) := by
    unfold execFilterListWrite
    first
    | (rw [if_pos (by simp [hu]; omega)]; done)
    | (rw [if_neg (by simp [hu]; omega)]; done)
    | (simp [hu]; omega)
    | simp [hu, h, State.canObj]
  rw [hx]
  congr 1
  symm
  refine State.writeAny_own _ _ _ _ _ (by omega) (fun v => ?_) (fun t => ?_)
  · unfold State.ruleAll State.rulePlain
    dsimp only
    try simp only [Bool.and_eq_true, decide_eq_true_eq, Bool.or_eq_true, beq_iff_eq]
    simp (disch := omega) only [if_neg, if_pos]
    try first | rfl | (rw [if_pos (by simp; omega)])
  · unfold State.afterWrite
    simp (disch := omega) only [if_neg, if_pos]

theorem execCanRestart_write (p : Path) (c : Nat) (b : List Byte) (s : State) (hu : s.up = true) (h : c < 4) :
    execCanRestart p c b s = .next (s.writeAny p (0x4200 + c) (0x0D) (b)) := by
  have hx : execCanRestart p c b s = .next (s.writeWith State.ruleCanRestart p (0x4200 + c) (0x0D) (b)) := by
    unfold execCanRestart
    first
    | (rw [if_pos (by simp [hu]; omega)]; done)
    | (rw [if_neg (by simp [hu]; omega)]; done)
    | (simp [hu]; omega)
    | simp [hu, h, State.canObj]
  rw [hx]
  congr 1
  symm
  refine State.writeAny_own _ _ _ _ _ (by omega) (fun v => ?_) (fun t => ?_)
  · unfold State.ruleAll State.rulePlain
    dsimp only
    try simp only [Bool.and_eq_true, decide_eq_true_eq, Bool.or_eq_true, beq_iff_eq]
    simp (disch := omega) only [if_neg, if_pos]
    try first | rfl | (rw [if_pos (by simp; omega)])
  · unfold State.afterWrite
    simp (disch := omega) only [if_neg, if_pos]

theorem execClearingToken_write (p : Path) (b : List Byte) (s : State) (hu : s.up = true) :
    execClearingToken p b s = .next (s.writeAny p (0x4630) (2) (b)) := by
  have hx : execClearingToken p b s = .next (s.writeWith State.ruleToken p (0x4630) (2) (b)) := by
    simp only [execClearingToken, hu, if_true, Bool.not_true, Bool.false_eq_true, if_false]
  rw [hx]
  congr 1
  symm
  refine State.writeAny_own _ _ _ _ _ (by omega) (fun v => ?_) (fun t => ?_)
  · simp [State.ruleAll, State.rulePlain, State.noRule]
  · simp [State.afterWrite]

theorem execOwnerCaEnrolment_write (p : Path) (b : List Byte) (s : State) (hu : s.up = true) :
    execOwnerCaEnrolment p b s = .next (s.writeAny p (0x4810) (0) (b)) := by
  have hx : execOwnerCaEnrolment p b s = .next (s.writeWith State.ruleOwnerCa p (0x4810) (0) (b)) := by
    simp only [execOwnerCaEnrolment, hu, if_true, Bool.not_true, Bool.false_eq_true, if_false]
  rw [hx]
  congr 1
  symm
  refine State.writeAny_own _ _ _ _ _ (by omega) (fun v => ?_) (fun t => ?_)
  · simp [State.ruleAll, State.rulePlain, State.noRule]
  · simp [State.afterWrite]

theorem execRevocationListLoad_write (p : Path) (b : List Byte) (s : State) (hu : s.up = true) :
    execRevocationListLoad p b s = .next (s.writeAny p (0x4811) (0) (b)) := by
  have hx : execRevocationListLoad p b s = .next (s.writeWith State.ruleRevocation p (0x4811) (0) (b)) := by
    simp only [execRevocationListLoad, hu, if_true, Bool.not_true, Bool.false_eq_true, if_false]
  rw [hx]
  congr 1
  symm
  refine State.writeAny_own _ _ _ _ _ (by omega) (fun v => ?_) (fun t => ?_)
  · simp [State.ruleAll, State.rulePlain, State.noRule]
  · simp [State.afterWrite]

theorem execFirmwareSlotWrite_write (p : Path) (k : Nat) (b : List Byte) (s : State) (hu : s.up = true) (h : k < 2) :
    execFirmwareSlotWrite p k b s = .next (s.writeAny p (0x4821) (k + 1) (b)) := by
  have hx : execFirmwareSlotWrite p k b s = .next (s.writeWith State.ruleSlot p (0x4821) (k + 1) (b)) := by
    unfold execFirmwareSlotWrite
    first
    | (rw [if_pos (by simp [hu]; omega)]; done)
    | (rw [if_neg (by simp [hu]; omega)]; done)
    | (simp [hu]; omega)
    | simp [hu, h, State.canObj]
  rw [hx]
  congr 1
  symm
  refine State.writeAny_own _ _ _ _ _ (by omega) (fun v => ?_) (fun t => ?_)
  · unfold State.ruleAll State.rulePlain
    dsimp only
    try simp only [Bool.and_eq_true, decide_eq_true_eq, Bool.or_eq_true, beq_iff_eq]
    simp (disch := omega) only [if_neg, if_pos]
    try first | rfl | (rw [if_pos (by simp; omega)])
  · unfold State.afterWrite
    simp (disch := omega) only [if_neg, if_pos]

theorem execAntiRollbackCommit_write (p : Path) (b : List Byte) (s : State) (hu : s.up = true) :
    execAntiRollbackCommit p b s = .next (s.writeAny p (0x4820) (4) (b)) := by
  have hx : execAntiRollbackCommit p b s = .next (s.writeWith State.ruleCommit p (0x4820) (4) (b)) := by
    simp only [execAntiRollbackCommit, hu, if_true, Bool.not_true, Bool.false_eq_true, if_false]
  rw [hx]
  congr 1
  symm
  refine State.writeAny_own _ _ _ _ _ (by omega) (fun v => ?_) (fun t => ?_)
  · simp [State.ruleAll, State.rulePlain, State.noRule]
  · simp [State.afterWrite]

theorem execTamperClear_write (p : Path) (b : List Byte) (s : State) (hu : s.up = true) :
    execTamperClear p b s = .next (s.writeAny p (0x4830) (2) (b)) := by
  have hx : execTamperClear p b s = .next (s.writeWith State.ruleTamperClear p (0x4830) (2) (b)) := by
    simp only [execTamperClear, hu, if_true, Bool.not_true, Bool.false_eq_true, if_false]
  rw [hx]
  congr 1
  symm
  refine State.writeAny_own _ _ _ _ _ (by omega) (fun v => ?_) (fun t => ?_)
  · simp [State.ruleAll, State.rulePlain, State.noRule]
  · simp [State.afterWrite]

theorem execRestartWarmCommand_write (p : Path) (s : State) (hu : s.up = true) :
    execRestartWarmCommand p s = .next (s.writeAny p (0x2020) (0) ([1#8])) := by
  have hx : execRestartWarmCommand p s = .next (s.writeWith State.ruleRestart2020 p (0x2020) (0) ([1#8])) := by
    simp only [execRestartWarmCommand, hu, if_true, Bool.not_true, Bool.false_eq_true, if_false]
  rw [hx]
  congr 1
  symm
  refine State.writeAny_own _ _ _ _ _ (by omega) (fun v => ?_) (fun t => ?_)
  · simp [State.ruleAll, State.rulePlain, State.noRule]
  · simp [State.afterWrite]

theorem execRestartColdCommand_write (p : Path) (s : State) (hu : s.up = true) :
    execRestartColdCommand p s = .next (s.writeAny p (0x2020) (0) ([2#8])) := by
  have hx : execRestartColdCommand p s = .next (s.writeWith State.ruleRestart2020 p (0x2020) (0) ([2#8])) := by
    simp only [execRestartColdCommand, hu, if_true, Bool.not_true, Bool.false_eq_true, if_false]
  rw [hx]
  congr 1
  symm
  refine State.writeAny_own _ _ _ _ _ (by omega) (fun v => ?_) (fun t => ?_)
  · simp [State.ruleAll, State.rulePlain, State.noRule]
  · simp [State.afterWrite]

/-- Every command that writes one object acts as a write of that object. -/
theorem exec_write (c : Instr) (p : Path) (i j : Nat) (b : List Byte) (s : State) (hc : writeOf c = some (p, i, j, b))
    (hu : s.up = true) : exec c s = .next (s.writeAny p i j b) := by
  refine Eq.trans ?_ (execGenericWrite_write p i j b s hu)
  cases c <;> simp only [writeOf, reduceCtorEq, Option.some.injEq, Prod.mk.injEq] at hc
  case genericWrite => obtain ⟨rfl, rfl, rfl, rfl⟩ := hc; exact (execGenericWrite_write _ _ _ _ s hu).trans (execGenericWrite_write _ _ _ _ s hu).symm
  case storeParameters => obtain ⟨rfl, rfl, rfl, rfl⟩ := hc; exact (execStoreParameters_write _ _ _ s hu).trans (execGenericWrite_write _ _ _ _ s hu).symm
  case restoreDefaults => obtain ⟨rfl, rfl, rfl, rfl⟩ := hc; exact (execRestoreDefaults_write _ _ _ s hu).trans (execGenericWrite_write _ _ _ _ s hu).symm
  case configurationSetLoad => obtain ⟨rfl, rfl, rfl, rfl⟩ := hc; exact (execConfigurationSetLoad_write _ _ s hu).trans (execGenericWrite_write _ _ _ _ s hu).symm
  case sampleLengthWrite => obtain ⟨rfl, rfl, rfl, rfl⟩ := hc; exact (execSampleLengthWrite_write _ _ s hu).trans (execGenericWrite_write _ _ _ _ s hu).symm
  case modeCommandStandby => obtain ⟨rfl, rfl, rfl, rfl⟩ := hc; exact (execModeCommandStandby_write _ _ s hu).trans (execGenericWrite_write _ _ _ _ s hu).symm
  case modeCommandLever => obtain ⟨rfl, rfl, rfl, rfl⟩ := hc; exact (execModeCommandLever_write _ _ s hu).trans (execGenericWrite_write _ _ _ _ s hu).symm
  case modeCommandJoystick => obtain ⟨rfl, rfl, rfl, rfl⟩ := hc; exact (execModeCommandJoystick_write _ _ s hu).trans (execGenericWrite_write _ _ _ _ s hu).symm
  case modeCommandAutoHeading => obtain ⟨rfl, rfl, rfl, rfl⟩ := hc; exact (execModeCommandAutoHeading_write _ _ s hu).trans (execGenericWrite_write _ _ _ _ s hu).symm
  case modeCommandAutoPosition => obtain ⟨rfl, rfl, rfl, rfl⟩ := hc; exact (execModeCommandAutoPosition_write _ _ s hu).trans (execGenericWrite_write _ _ _ _ s hu).symm
  case modeCommandTrack => obtain ⟨rfl, rfl, rfl, rfl⟩ := hc; exact (execModeCommandTrack_write _ _ s hu).trans (execGenericWrite_write _ _ _ _ s hu).symm
  case modeCommandMaintenance => obtain ⟨rfl, rfl, rfl, rfl⟩ := hc; exact (execModeCommandMaintenance_write _ _ s hu).trans (execGenericWrite_write _ _ _ _ s hu).symm
  case modeCommandDormancy => obtain ⟨rfl, rfl, rfl, rfl⟩ := hc; exact (execModeCommandDormancy_write _ _ s hu).trans (execGenericWrite_write _ _ _ _ s hu).symm
  case actionCapturePosition => obtain ⟨rfl, rfl, rfl, rfl⟩ := hc; exact (execActionCapturePosition_write _ _ s hu).trans (execGenericWrite_write _ _ _ _ s hu).symm
  case actionCaptureHeading => obtain ⟨rfl, rfl, rfl, rfl⟩ := hc; exact (execActionCaptureHeading_write _ _ s hu).trans (execGenericWrite_write _ _ _ _ s hu).symm
  case actionHoldRamps => obtain ⟨rfl, rfl, rfl, rfl⟩ := hc; exact (execActionHoldRamps_write _ _ s hu).trans (execGenericWrite_write _ _ _ _ s hu).symm
  case actionReleaseRamps => obtain ⟨rfl, rfl, rfl, rfl⟩ := hc; exact (execActionReleaseRamps_write _ _ s hu).trans (execGenericWrite_write _ _ _ _ s hu).symm
  case streamDescriptorWrite => 
    split at hc
    · rename_i h; simp only [Option.some.injEq, Prod.mk.injEq] at hc; obtain ⟨rfl, rfl, rfl, rfl⟩ := hc
      exact (execStreamDescriptorWrite_write _ _ _ _ s hu h).trans (execGenericWrite_write _ _ _ _ s hu).symm
    · simp at hc
  case clockSlotReset => 
    split at hc
    · rename_i h; simp only [Option.some.injEq, Prod.mk.injEq] at hc; obtain ⟨rfl, rfl, rfl, rfl⟩ := hc
      exact (execClockSlotReset_write _ _ _ s hu h).trans (execGenericWrite_write _ _ _ _ s hu).symm
    · simp at hc
  case groupMembershipWrite => 
    split at hc
    · rename_i h; simp only [Option.some.injEq, Prod.mk.injEq] at hc; obtain ⟨rfl, rfl, rfl, rfl⟩ := hc
      exact (execGroupMembershipWrite_write _ _ _ s hu h).trans (execGenericWrite_write _ _ _ _ s hu).symm
    · simp at hc
  case referenceSelection => obtain ⟨rfl, rfl, rfl, rfl⟩ := hc; exact (execReferenceSelection_write _ _ _ s hu).trans (execGenericWrite_write _ _ _ _ s hu).symm
  case chaffCoefficientSet => obtain ⟨rfl, rfl, rfl, rfl⟩ := hc; exact (execChaffCoefficientSet_write _ _ s hu).trans (execGenericWrite_write _ _ _ _ s hu).symm
  case observerReset => obtain ⟨rfl, rfl, rfl, rfl⟩ := hc; exact (execObserverReset_write _ _ s hu).trans (execGenericWrite_write _ _ _ _ s hu).symm
  case gainSetSelection => obtain ⟨rfl, rfl, rfl, rfl⟩ := hc; exact (execGainSetSelection_write _ _ s hu).trans (execGenericWrite_write _ _ _ _ s hu).symm
  case culmCoefficientSet => obtain ⟨rfl, rfl, rfl, rfl⟩ := hc; exact (execCulmCoefficientSet_write _ _ s hu).trans (execGenericWrite_write _ _ _ _ s hu).symm
  case thrusterDescriptorWrite => 
    split at hc
    · rename_i h; simp only [Option.some.injEq, Prod.mk.injEq] at hc; obtain ⟨rfl, rfl, rfl, rfl⟩ := hc
      exact (execThrusterDescriptorWrite_write _ _ _ _ s hu h).trans (execGenericWrite_write _ _ _ _ s hu).symm
    · simp at hc
  case caseDescriptorWrite => 
    split at hc
    · rename_i h; simp only [Option.some.injEq, Prod.mk.injEq] at hc; obtain ⟨rfl, rfl, rfl, rfl⟩ := hc
      exact (execCaseDescriptorWrite_write _ _ _ _ s hu h).trans (execGenericWrite_write _ _ _ _ s hu).symm
    · simp at hc
  case clearMismatchRemovals => obtain ⟨rfl, rfl, rfl, rfl⟩ := hc; exact (execClearMismatchRemovals_write _ _ s hu).trans (execGenericWrite_write _ _ _ _ s hu).symm
  case stubbleSet => obtain ⟨rfl, rfl, rfl, rfl⟩ := hc; exact (execStubbleSet_write _ _ s hu).trans (execGenericWrite_write _ _ _ _ s hu).symm
  case returnRequest => obtain ⟨rfl, rfl, rfl, rfl⟩ := hc; exact (execReturnRequest_write _ _ s hu).trans (execGenericWrite_write _ _ _ _ s hu).symm
  case plantDescriptorWrite => 
    split at hc
    · rename_i h; simp only [Option.some.injEq, Prod.mk.injEq] at hc; obtain ⟨rfl, rfl, rfl, rfl⟩ := hc
      exact (execPlantDescriptorWrite_write _ _ _ _ s hu h).trans (execGenericWrite_write _ _ _ _ s hu).symm
    · simp at hc
  case frontEndScriptWrite => obtain ⟨rfl, rfl, rfl, rfl⟩ := hc; exact (execFrontEndScriptWrite_write _ _ s hu).trans (execGenericWrite_write _ _ _ _ s hu).symm
  case spoofingClear => obtain ⟨rfl, rfl, rfl, rfl⟩ := hc; exact (execSpoofingClear_write _ _ s hu).trans (execGenericWrite_write _ _ _ _ s hu).symm
  case snapshotCaptureCommand => obtain ⟨rfl, rfl, rfl, rfl⟩ := hc; exact (execSnapshotCaptureCommand_write _ _ s hu).trans (execGenericWrite_write _ _ _ _ s hu).symm
  case archiveSelected => obtain ⟨rfl, rfl, rfl, rfl⟩ := hc; exact (execArchiveSelected_write _ _ s hu).trans (execGenericWrite_write _ _ _ _ s hu).symm
  case keepSelected => obtain ⟨rfl, rfl, rfl, rfl⟩ := hc; exact (execKeepSelected_write _ _ s hu).trans (execGenericWrite_write _ _ _ _ s hu).symm
  case acceptJump => obtain ⟨rfl, rfl, rfl, rfl⟩ := hc; exact (execAcceptJump_write _ _ s hu).trans (execGenericWrite_write _ _ _ _ s hu).symm
  case channelDescriptorWrite => 
    split at hc
    · rename_i h; simp only [Option.some.injEq, Prod.mk.injEq] at hc; obtain ⟨rfl, rfl, rfl, rfl⟩ := hc
      exact (execChannelDescriptorWrite_write _ _ _ _ s hu h).trans (execGenericWrite_write _ _ _ _ s hu).symm
    · simp at hc
  case comparePositionWrite => 
    split at hc
    · rename_i h; simp only [Option.some.injEq, Prod.mk.injEq] at hc; obtain ⟨rfl, rfl, rfl, rfl⟩ := hc
      exact (execComparePositionWrite_write _ _ _ _ s hu h).trans (execGenericWrite_write _ _ _ _ s hu).symm
    · simp at hc
  case serialTransmit => 
    split at hc
    · rename_i h; simp only [Option.some.injEq, Prod.mk.injEq] at hc; obtain ⟨rfl, rfl, rfl, rfl⟩ := hc
      exact (execSerialTransmit_write _ _ _ s hu h).trans (execGenericWrite_write _ _ _ _ s hu).symm
    · simp at hc
  case imuDescriptorWrite => 
    split at hc
    · rename_i h; simp only [Option.some.injEq, Prod.mk.injEq] at hc; obtain ⟨rfl, rfl, rfl, rfl⟩ := hc
      exact (execImuDescriptorWrite_write _ _ _ _ s hu h).trans (execGenericWrite_write _ _ _ _ s hu).symm
    · simp at hc
  case programImageLoad => obtain ⟨rfl, rfl, rfl, rfl⟩ := hc; exact (execProgramImageLoad_write _ _ s hu).trans (execGenericWrite_write _ _ _ _ s hu).symm
  case panicleRestartWarm => obtain ⟨rfl, rfl, rfl, rfl⟩ := hc; exact (execPanicleRestartWarm_write _ s hu).trans (execGenericWrite_write _ _ _ _ s hu).symm
  case panicleRestartCold => obtain ⟨rfl, rfl, rfl, rfl⟩ := hc; exact (execPanicleRestartCold_write _ s hu).trans (execGenericWrite_write _ _ _ _ s hu).symm
  case panicleRunWrite => obtain ⟨rfl, rfl, rfl, rfl⟩ := hc; exact (execPanicleRunWrite_write _ _ s hu).trans (execGenericWrite_write _ _ _ _ s hu).symm
  case scanLengthWrite => obtain ⟨rfl, rfl, rfl, rfl⟩ := hc; exact (execScanLengthWrite_write _ _ s hu).trans (execGenericWrite_write _ _ _ _ s hu).symm
  case forceListWrite => obtain ⟨rfl, rfl, rfl, rfl⟩ := hc; exact (execForceListWrite_write _ _ s hu).trans (execGenericWrite_write _ _ _ _ s hu).symm
  case handLeadToUnit => obtain ⟨rfl, rfl, rfl, rfl⟩ := hc; exact (execHandLeadToUnit_write _ _ s hu).trans (execGenericWrite_write _ _ _ _ s hu).symm
  case gateControlListWrite => obtain ⟨rfl, rfl, rfl, rfl⟩ := hc; exact (execGateControlListWrite_write _ _ s hu).trans (execGenericWrite_write _ _ _ _ s hu).symm
  case nodeTableWrite => obtain ⟨rfl, rfl, rfl, rfl⟩ := hc; exact (execNodeTableWrite_write _ _ s hu).trans (execGenericWrite_write _ _ _ _ s hu).symm
  case processMapWrite => obtain ⟨rfl, rfl, rfl, rfl⟩ := hc; exact (execProcessMapWrite_write _ _ _ s hu).trans (execGenericWrite_write _ _ _ _ s hu).symm
  case canTimingWrite => 
    split at hc
    · rename_i h; simp only [Option.some.injEq, Prod.mk.injEq] at hc; obtain ⟨rfl, rfl, rfl, rfl⟩ := hc
      exact (execCanTimingWrite_write _ _ _ _ s hu h).trans (execGenericWrite_write _ _ _ _ s hu).symm
    · simp at hc
  case filterListWrite => 
    split at hc
    · rename_i h; simp only [Option.some.injEq, Prod.mk.injEq] at hc; obtain ⟨rfl, rfl, rfl, rfl⟩ := hc
      exact (execFilterListWrite_write _ _ _ s hu h).trans (execGenericWrite_write _ _ _ _ s hu).symm
    · simp at hc
  case canRestart => 
    split at hc
    · rename_i h; simp only [Option.some.injEq, Prod.mk.injEq] at hc; obtain ⟨rfl, rfl, rfl, rfl⟩ := hc
      exact (execCanRestart_write _ _ _ s hu h).trans (execGenericWrite_write _ _ _ _ s hu).symm
    · simp at hc
  case clearingToken => obtain ⟨rfl, rfl, rfl, rfl⟩ := hc; exact (execClearingToken_write _ _ s hu).trans (execGenericWrite_write _ _ _ _ s hu).symm
  case ownerCaEnrolment => obtain ⟨rfl, rfl, rfl, rfl⟩ := hc; exact (execOwnerCaEnrolment_write _ _ s hu).trans (execGenericWrite_write _ _ _ _ s hu).symm
  case revocationListLoad => obtain ⟨rfl, rfl, rfl, rfl⟩ := hc; exact (execRevocationListLoad_write _ _ s hu).trans (execGenericWrite_write _ _ _ _ s hu).symm
  case firmwareSlotWrite => 
    split at hc
    · rename_i h; simp only [Option.some.injEq, Prod.mk.injEq] at hc; obtain ⟨rfl, rfl, rfl, rfl⟩ := hc
      exact (execFirmwareSlotWrite_write _ _ _ s hu h).trans (execGenericWrite_write _ _ _ _ s hu).symm
    · simp at hc
  case antiRollbackCommit => obtain ⟨rfl, rfl, rfl, rfl⟩ := hc; exact (execAntiRollbackCommit_write _ _ s hu).trans (execGenericWrite_write _ _ _ _ s hu).symm
  case tamperClear => obtain ⟨rfl, rfl, rfl, rfl⟩ := hc; exact (execTamperClear_write _ _ s hu).trans (execGenericWrite_write _ _ _ _ s hu).symm
  case restartWarmCommand => obtain ⟨rfl, rfl, rfl, rfl⟩ := hc; exact (execRestartWarmCommand_write _ s hu).trans (execGenericWrite_write _ _ _ _ s hu).symm
  case restartColdCommand => obtain ⟨rfl, rfl, rfl, rfl⟩ := hc; exact (execRestartColdCommand_write _ s hu).trans (execGenericWrite_write _ _ _ _ s hu).symm

end Sys2Proof.Machine
end

