-- ==== Sys2Proof/Laws/WriteTests.lean ====
section
/-! SUPPORT. The tests of a write (R577) step by step, and what an accepted write leaves (Safety.lean, Taken). -/
namespace Sys2Proof.Machine

/-- The work after a write leaves the values, the answer and the queue. -/
theorem afterWrite_frame (s : State) (p : Path) (i j : Nat) (b : List Byte) :
   s.sameObjects (s.afterWrite p i j b) ∧ (s.afterWrite p i j b).force = s.force ∧ (s.afterWrite p i j b).pending = s.pending ∧
   (s.afterWrite p i j b).acc.fresh = s.acc.fresh ∧ (s.afterWrite p i j b).acc.answer = s.acc.answer := by
  have tr : s.sameObjects s ∧ s.force = s.force ∧ s.pending = s.pending ∧ s.acc.fresh = s.acc.fresh ∧ s.acc.answer = s.acc.answer :=
    ⟨fun _ _ => rfl, rfl, rfl, rfl, rfl⟩
  unfold State.afterWrite
  split
  · exact tr
  split
  · unfold State.monitorAfter
    refine ⟨fun k _ => ?_, ?_, ?_, ?_, ?_⟩ <;> simp [State.setMonitor]
  split
  · exact tr
  split
  · split <;> exact tr
  split
  · exact tr
  split
  · exact ⟨(State.note_noted s 0x0E01 _).objects, by simp, by simp, by simp, by simp⟩
  split
  · unfold State.storeKeys State.writeCopy
    dsimp only
    split <;> split <;> exact tr
  · exact tr

/-- A test that has passed. -/
theorem except_ite_ok {α β : Type} {c : Prop} [Decidable c] {e : α} {x : Except α β} {y : β}
    (h : (if c then Except.error e else x) = .ok y) : ¬c ∧ x = .ok y := by
  by_cases hc : c
  · rw [if_pos hc] at h; cases h
  · rw [if_neg hc] at h; exact ⟨hc, h⟩

/-- A write that passes its tests writes an object that a row holds and that is not read only. -/
theorem writeTests_ok {s : State} {p i j b r v} (h : s.writeTests p i j b = .ok (r, v)) :
    findRow i j = some r ∧ r.acc ≠ .ro ∧ v = decodeVal r.ty b := by
  unfold State.writeTests at h
  dsimp only at h
  obtain ⟨_, h⟩ := except_ite_ok h
  generalize hf : findRow i j = o at h
  cases o with
  | none => cases h
  | some x =>
    dsimp only at h
    obtain ⟨ha, h⟩ := except_ite_ok h
    have hx : x = r ∧ decodeVal x.ty b = v := by
      cases p <;> dsimp only at h
      case mirror => cases h
      all_goals
        repeat' first
          | (with_reducible replace h := (except_ite_ok h).2)
          | (injection h with h; injection h with h1 h2; exact ⟨h1, h2⟩)
    obtain ⟨rfl, rfl⟩ := hx
    exact ⟨rfl, fun e => ha (.inl e), rfl⟩

/-- Accepting a value takes it. -/
theorem acceptVal_taken {s : State} {p i j b r v} (hs : s.storesOk = true) (h : s.writeTests p i j b = .ok (r, v)) :
    s.Taken ((s.acceptVal r i j v).answer 0) r i j v := by
  unfold State.storesOk at hs
  rw [Bool.and_eq_true] at hs
  obtain ⟨h1, h2⟩ := hs
  have hw := writeTests_ok h
  unfold State.acceptVal
  dsimp only
  have h1' : storeOk (if r.per = Per.nv then s.putU 0x2011 3 1 else s).obj = true := by
    split
    · rw [State.putU_obj]; exact storeOk_putV _ _ h1
    · exact h1
  have ho : ∀ k, k ≠ okey 0x2011 3 → getV (if r.per = Per.nv then s.putU 0x2011 3 1 else s).obj k = getV s.obj k := by
    intro k hk
    split
    · rw [State.putU_obj, getV_putV_other _ _ _ _ hk]
    · rfl
  have hf : (if r.per = Per.nv then s.putU 0x2011 3 1 else s).force = s.force := by split <;> rfl
  have hp : (if r.per = Per.nv then s.putU 0x2011 3 1 else s).pending = s.pending := by split <;> rfl
  have ha : (if r.per = Per.nv then s.putU 0x2011 3 1 else s).acc = s.acc := by split <;> rfl
  have hc : (if r.per = Per.nv then s.putU 0x2011 3 1 else s).clk = s.clk := by split <;> rfl
  have hn : r.per = Per.nv → getV (if r.per = Per.nv then s.putU 0x2011 3 1 else s).obj (okey 0x2011 3) = .u 1 := by
    intro hr
    rw [if_pos hr, State.putU_obj, getV_putV_self _ _ h1]
  generalize (if r.per = Per.nv then s.putU 0x2011 3 1 else s) = u at *
  have hd : (if r.loc = true then u.nextF0 else u.sharedDue) = (if r.loc = true then s.nextF0 else s.sharedDue) := by
    unfold State.nextF0 State.sharedDue State.fOff; rw [hc]
  have key : ∀ k, k ≠ okey i j → k ≠ okey 0x2011 3 → k ≠ okey 0x4601 4 → getV (putV u.obj (okey i j) v) k = getV s.obj k :=
    fun k a b _ => by rw [getV_putV_other _ _ _ _ a, ho _ b]
  by_cases hl : (r.loc && !State.perSample i) = true
  · rw [if_pos hl]
    refine ⟨rfl, getV_putV_self _ _ h1', ?_, fun hr hk => ?_, key, fun k hk => ?_, hp⟩
    · rw [if_pos hl]
      refine ⟨getV_putV_self _ _ (by rw [hf]; exact h2), ?_⟩
      show u.acc.fresh = _
      rw [ha]
    · show (getV (putV u.obj (okey i j) v) (okey 0x2011 3)).asNat = 1
      rw [getV_putV_other _ _ _ _ (Ne.symm hk), hn hr]; rfl
    · show getV (putV u.force (okey i j) v) k = _
      rw [getV_putV_other _ _ _ _ hk, hf]
  · rw [if_neg hl]
    refine ⟨rfl, getV_putV_self _ _ h1', ?_, fun hr hk => ?_, key, fun k hk => ?_, hp⟩
    · rw [if_neg hl]
      refine ⟨hf, ?_⟩
      show u.acc.fresh ++ [⟨okey i j, v, (if r.loc = true then u.nextF0 else u.sharedDue)⟩] = _
      rw [ha, hd]
    · show (getV (putV u.obj (okey i j) v) (okey 0x2011 3)).asNat = 1
      rw [getV_putV_other _ _ _ _ (Ne.symm hk), hn hr]; rfl
    · show getV u.force k = _
      rw [hf]

/-- Some index of a row lies on a page. -/
def onPage (p : Nat) (r : Row) : Bool := Nat.ble (r.base / 256) p && Nat.blt (p * 256) (r.base + r.count)

theorem holds_onPage {r : Row} {i j : Nat} (h : r.holds i j = true) : onPage (i / 256) r = true := by
  simp only [Row.holds, onPage, Bool.and_eq_true, Nat.ble_eq, Nat.blt_eq] at *
  omega

theorem find_onPage (l : List Row) (i j : Nat) :
    (l.filter (onPage (i / 256))).find? (·.holds i j) = l.find? (·.holds i j) := by
  induction l with
  | nil => rfl
  | cons r l ih =>
    rw [List.filter_cons]
    by_cases h : r.holds i j = true
    · simp [holds_onPage h, h]
    · split <;> simp [h, ih]

theorem pageRows_filter : ∀ p < 0x50, rows.filter (onPage p) = (pageRows p).filter (onPage p) := by decide +kernel

theorem rows_pages : ∀ r ∈ rows, r.base + r.count ≤ 0x5000 := by decide +kernel
theorem rows21_pages : ∀ r ∈ rows21a, r.base + r.count ≤ 0x5000 := by decide +kernel

/-- The search of a page finds what a search of the whole table finds. -/
theorem findRow_rows (i j : Nat) : findRow i j = rows.find? (fun r => r.holds i j) := by
  unfold findRow
  by_cases h : i / 256 < 0x50
  · rw [← find_onPage rows, pageRows_filter _ h, find_onPage]
  · have e : pageRows (i / 256) = rows21a := by unfold pageRows; repeat (rw [if_neg (by omega)])
    have key : ∀ l : List Row, (∀ r ∈ l, r.base + r.count ≤ 0x5000) → l.find? (·.holds i j) = none := by
      intro l hl
      refine List.find?_eq_none.2 fun r hr hh => ?_
      have := hl r hr
      simp only [Row.holds, Bool.and_eq_true, Nat.ble_eq, Nat.blt_eq] at hh
      omega
    rw [e, key _ rows21_pages, key _ rows_pages]

/-- Subindices end at FFh. -/
theorem row_subs_le : ∀ r ∈ rows, r.sub0 + r.subs ≤ 256 := by decide +kernel

/-- The object of a passing write is not the count of discarded records. -/
theorem okey_ne_lost {i j : Nat} {r : Row} (h : findRow i j = some r) (hr : r.acc ≠ .ro) (hk : okey i j = okey 0x4601 4) : False := by
  have hm := List.mem_of_find?_eq_some (findRow_rows i j ▸ h)
  have hh := List.find?_some h
  have hs := row_subs_le r hm
  simp only [Row.holds, Bool.and_eq_true, Nat.ble_eq, Nat.blt_eq] at hh
  have hj : j < 256 := by omega
  have hi : i = 0x4601 ∧ j = 4 := by unfold okey at hk; omega
  obtain ⟨rfl, rfl⟩ := hi
  have : (findRow 0x4601 4).all (fun r => decide (r.acc = .ro)) = true := by decide +kernel
  rw [h] at this
  simp at this
  exact hr this

/-- The work after a write leaves it taken. -/
theorem taken_afterWrite {s t : State} {r i j v p b} (ht : s.Taken t r i j v) (hk : okey i j ≠ okey 0x4601 4) :
    s.Taken (t.afterWrite p i j b) r i j v := by
  obtain ⟨ho, hf, hp, hfr, ha⟩ := afterWrite_frame t p i j b
  refine ⟨ha.trans ht.answer, (ho _ hk).trans ht.value, ?_, fun h1 h2 => ?_, fun k a b c => (ho k c).trans (ht.others k a b c),
    fun k hk => by rw [hf]; exact ht.forces k hk, hp.trans ht.queue⟩
  · have := ht.force
    unfold State.cfgV at *
    rw [hf, hfr]; exact this
  · have := ht.changed h1 h2
    unfold State.objU State.objV at *
    rw [ho _ (by unfold okey; omega)]; exact this

/-- Step 1 of R577. -/
theorem writeTests_absent {s : State} {p i j b} (h : s.existsAbort i j ≠ 0) : s.writeTests p i j b = .error (s.existsAbort i j, s) := by
  unfold State.writeTests; dsimp only; rw [if_pos h]

/-- Step 2 of R577. -/
theorem writeTests_readOnly {s : State} {p i j b} (h : s.existsAbort i j = 0) (hr : ∀ r, findRow i j = some r → State.rowWrites r = false) :
    s.writeTests p i j b = .error (abReadOnly, s) := by
  unfold State.writeTests; dsimp only; rw [if_neg (by simp [h])]
  cases hf : findRow i j with
  | none => rfl
  | some r =>
    have := hr r hf
    dsimp only
    rw [if_pos]
    simp only [State.rowWrites, Bool.and_eq_false_iff, decide_eq_false_iff_not, ne_eq, Decidable.not_not] at this
    exact or_assoc.1 this

/-- Step 3 of R577. -/
theorem writeTests_forbidden {s : State} {p i j b r} (h : s.existsAbort i j = 0) (hr : findRow i j = some r) (hw : State.rowWrites r = true) (hp : s.permits p i j r = false) :
    s.writeTests p i j b = .error (s.accessAbort p i j, s) := by
  unfold State.accessAbort
  unfold State.writeTests; dsimp only; rw [if_neg (by simp [h]), hr]
  dsimp only
  simp only [State.rowWrites, Bool.and_eq_true, decide_eq_true_eq] at hw
  rw [if_neg (by rintro (h1|h1|h1) <;> simp_all)]
  unfold State.permits at hp
  cases p <;> dsimp only at hp ⊢
  case mirror => rfl
  all_goals
    generalize s.roleOf _ = ro at *
    by_cases h1 : State.mayWrite ro i j = true
    · by_cases h2 : (s.husk.limited && !(ro == .auditor || ro == .service)) = true
      · rw [if_neg (by simp [h1]), if_pos h2, if_neg]
        · rfl
        · simp_all
      · rw [if_neg (by simp [h1]), if_neg h2, if_pos, if_pos]
        · rfl
        · simp only [Bool.not_eq_true, Bool.and_eq_false_iff] at *
          cases hL : s.husk.limited <;> cases ro <;> simp_all <;> decide
        · cases hL : s.husk.limited <;> cases ro <;> simp_all
    · rw [if_pos (by simpa using h1), if_neg (by simp [h1])]
      rfl

/-- A write that has passed steps 1 to 3 of R577. -/
theorem writeTests_reaches {s : State} {p i j b r} (h : s.reaches p i j r) : s.writeTests p i j b =
      if lengthAbort r b ≠ 0 then .error (lengthAbort r b, s) else
      let v := decodeVal r.ty b
      let a := if rangeAbort r v ≠ 0 then rangeAbort r v
        else if i = 0x2201 then
          (if v.asNat / 512 % 128 ≠ 0 ∨ v.asNat / 8 % 32 ≠ 0 ∨ (bit v.asNat 8 ∧ v.asNat % 8 ≠ 2) then abValue else 0)
        else if i = 0x2203 then
          (if v.asNat / 256 % 256 ≠ 0 ∨ v.asNat % 256 = 0 ∨ 4 < v.asNat % 256 then abValue else 0)
        else 0
      if a ≠ 0 then .error (a, s)
      else if r.acc = .rwm ∧ !bit r.modes s.mode.mode then
        .error (abMode, s.note 0x0102 [i * 256 + j, s.mode.mode, (s.roleOf p).code,
          if i = 0x2201 ∨ i = 0x2203 then v.asNat / 65536 else 0])
      else if s.storing && (i = 0x1010 || i = 0x1011 || i = 0x2010) then .error (abBusy, s)
      else .ok (r, v) := by
  obtain ⟨h, hr, hw, hp⟩ := h
  unfold State.writeTests; dsimp only; rw [if_neg (by simp [h]), hr]
  dsimp only
  simp only [State.rowWrites, Bool.and_eq_true, decide_eq_true_eq] at hw
  rw [if_neg (by rintro (h1|h1|h1) <;> simp_all)]
  unfold State.permits at hp
  cases p <;> dsimp only at hp ⊢
  case mirror => simp at hp
  all_goals
    simp only [Bool.and_eq_true, Bool.or_eq_true, Bool.not_eq_true', beq_iff_eq, decide_eq_true_eq] at hp
    rw [if_neg (by simp [hp.1.1.1]), if_neg, if_neg]
    · rcases hp.1.2 with h1 | h1 <;> simp [h1]
    · rcases hp.1.1.2 with (h1 | h1) | h1 <;> simp [h1]

/-- What a write that passes its tests does, by the verdict of its own rules. -/
theorem exec_passes {c : Instr} {p : Path} {i j : Nat} {b : List Byte} {r : Row} {v : Val} {s : State}
    (hc : writeOf c = some (p, i, j, b)) (hu : s.up = true) (hw : s.writeTests p i j b = .ok (r, v))
    (ht : ¬(0x4200 ≤ i ∧ i ≤ 0x4203 ∧ 3 ≤ j ∧ j ≤ 0x0A)) :
    exec c s = .next (let t := match s.ruleAll p i j v with
      | .refuse a s' => s'.answer a
      | .done s' => s'.answer 0
      | .store => if s.needsBulk r then s.queueBulk p i j v.asBytes else (s.acceptVal r i j v).answer 0
      if t.acc.answer.code = 0 then t.afterWrite p i j b else t) := by
  rw [exec_write c p i j b s hc hu]
  unfold State.writeAny State.writeWith
  rw [if_neg ht, hw]
  try rfl

/-- A command carried out by its own rules, that brings no further work. -/
theorem exec_done {c : Instr} {p : Path} {i j : Nat} {b : List Byte} {r : Row} {v : Val} {s u : State}
    (hc : writeOf c = some (p, i, j, b)) (hu : s.up = true) (hw : s.writeTests p i j b = .ok (r, v))
    (ht : ¬(0x4200 ≤ i ∧ i ≤ 0x4203 ∧ 3 ≤ j ∧ j ≤ 0x0A)) (hv : s.ruleAll p i j v = .done u)
    (ha : ∀ t : State, t.afterWrite p i j b = t) : exec c s = .next (u.answer 0) := by
  rw [exec_passes hc hu hw ht, hv]
  simp only [ha, ite_self]

/-- A command that its own rules refuse. -/
theorem exec_refuse {c : Instr} {p : Path} {i j : Nat} {b : List Byte} {r : Row} {v : Val} {s u : State} {a : Nat}
    (hc : writeOf c = some (p, i, j, b)) (hu : s.up = true) (hw : s.writeTests p i j b = .ok (r, v))
    (ht : ¬(0x4200 ≤ i ∧ i ≤ 0x4203 ∧ 3 ≤ j ∧ j ≤ 0x0A)) (hv : s.ruleAll p i j v = .refuse a u) (ha : a ≠ 0) :
    exec c s = .next (u.answer a) := by
  rw [exec_passes hc hu hw ht, hv]
  exact congrArg _ (if_neg ha)

/-- The objects whose write brings no further work with it. -/
theorem afterWrite_none (p : Path) (i j : Nat) (b : List Byte) (h : i < 0x2030 ∨ (0x2030 < i ∧ i < 0x3601) ∨ (0x3601 < i ∧ i < 0x3C01) ∨
    (0x3C01 < i ∧ i < 0x3C10) ∨ (0x3C10 < i ∧ i < 0x4200) ∨ (0x4203 < i ∧ i < 0x4C00) ∨ (i ≤ 0x4203 ∧ 0x4200 ≤ i ∧ 3 ≤ j)) (t : State) : t.afterWrite p i j b = t := by
  unfold State.afterWrite
  simp (disch := omega) only [if_neg]

end Sys2Proof.Machine
end

