-- ==== Sys2Proof/Laws/Facts.lean ====
section
/-! SUPPORT. What the shared operations leave of the parts that a statement reads: objects, event store, CAN controllers. -/
namespace Sys2Proof.Machine

/-- The object store of a state in canonical form. -/
theorem storesObj {s : State} (h : s.storesOk = true) : storeOk s.obj = true := by
  unfold State.storesOk at h; rw [Bool.and_eq_true] at h; exact h.1

theorem storesForce {s : State} (h : s.storesOk = true) : storeOk s.force = true := by
  unfold State.storesOk at h; rw [Bool.and_eq_true] at h; exact h.2

/-- Recording an event leaves every object but the count 4601h:04h. -/
theorem noted_objV {s t : State} {c k l} (h : s.Noted t c k l) (i j : Nat) (hk : okey i j ≠ okey 0x4601 4) :
    t.objV i j = s.objV i j := h.objects _ hk

/-- An accepted value is what the object reads. -/
theorem acceptVal_objV {s : State} {r i j v} (hs : storeOk s.obj = true) : (s.acceptVal r i j v).objV i j = v := by
  have : storeOk (if r.per = Per.nv then s.putU 0x2011 3 1 else s).obj = true := by
    split
    · rw [State.putU_obj]; exact storeOk_putV _ _ hs
    · exact hs
  unfold State.acceptVal
  dsimp only
  split <;> exact getV_putV_self _ _ this

/-- Recording an event touches the queue, the numbers and the signature job of the event store alone. -/
theorem record_gran (s : State) (c k : Nat) (l : List Nat) : (s.record c k l).gran.reg = s.gran.reg ∧
    (s.record c k l).gran.challenge = s.gran.challenge ∧ (s.record c k l).gran.clearing = s.gran.clearing ∧
    (s.record c k l).gran.held = s.gran.held ∧ (s.record c k l).gran.lastCrc = s.gran.lastCrc ∧
    (s.record c k l).gran.erases = s.gran.erases := by
  have h1 : ∀ u : State, u.reserveSig.gran.reg = u.gran.reg ∧ u.reserveSig.gran.challenge = u.gran.challenge ∧
      u.reserveSig.gran.clearing = u.gran.clearing ∧
      u.reserveSig.gran.held = u.gran.held ∧ u.reserveSig.gran.lastCrc = u.gran.lastCrc ∧
      u.reserveSig.gran.erases = u.gran.erases := by
    intro u; unfold State.reserveSig; split <;> exact ⟨rfl, rfl, rfl, rfl, rfl, rfl⟩
  have h2 : ∀ (u : State) (c k : Nat) (l : List Nat), (u.pushRec c k l).gran.reg = u.gran.reg ∧
      (u.pushRec c k l).gran.challenge = u.gran.challenge ∧ (u.pushRec c k l).gran.clearing = u.gran.clearing ∧
      (u.pushRec c k l).gran.held = u.gran.held ∧ (u.pushRec c k l).gran.lastCrc = u.gran.lastCrc ∧
      (u.pushRec c k l).gran.erases = u.gran.erases := by
    intro u c k l; unfold State.pushRec; dsimp only; split
    · exact h1 _
    · exact ⟨rfl, rfl, rfl, rfl, rfl, rfl⟩
  have h3 : ∀ u : State, u.reportLost.gran.reg = u.gran.reg ∧ u.reportLost.gran.challenge = u.gran.challenge ∧
      u.reportLost.gran.clearing = u.gran.clearing ∧
      u.reportLost.gran.held = u.gran.held ∧ u.reportLost.gran.lastCrc = u.gran.lastCrc ∧
      u.reportLost.gran.erases = u.gran.erases := by
    intro u; unfold State.reportLost; split
    · exact ⟨rfl, rfl, rfl, rfl, rfl, rfl⟩
    · exact h2 u _ _ _
  unfold State.record
  split
  · exact ⟨rfl, rfl, rfl, rfl, rfl, rfl⟩
  split
  · obtain ⟨a1, a2, a3, a4, a5, a6⟩ := h2 s.reportLost c k l
    obtain ⟨b1, b2, b3, b4, b5, b6⟩ := h3 s
    exact ⟨a1.trans b1, a2.trans b2, a3.trans b3, a4.trans b4, a5.trans b5, a6.trans b6⟩
  · exact ⟨rfl, rfl, rfl, rfl, rfl, rfl⟩

/-- What is newest stays so while queue and clock stay. -/
theorem newest_congr {s t : State} (h : t.gran.queue = s.gran.queue) (hc : t.clk = s.clk) {c k l} :
    s.newest c k l → t.newest c k l := by
  unfold State.newest; rw [h, hc]; exact id

/-- Choosing among the time sources changes none of them. -/
theorem reselect_srcs (s : State) : s.reselect.tb.srcs = s.tb.srcs := by
  unfold State.reselect State.useSrc
  dsimp only
  split
  · rfl
  · split <;> simp [State.setTb]

/-- Writing the retained memory touches the retained copies alone. -/
theorem writeRetain_frame (s : State) : s.writeRetain.st = s.st ∧ s.writeRetain.acc = s.acc ∧
    s.writeRetain.gran.queue = s.gran.queue ∧ s.writeRetain.clk = s.clk := by
  unfold State.writeRetain
  split
  · exact ⟨rfl, rfl, rfl, rfl⟩
  · dsimp only
    refine ⟨?_, ?_, ?_, ?_⟩ <;> simp [State.setPan]

/-- A queued message changes the send queue of a controller alone. -/
theorem canQueue_canC (s : State) (d : Nat) (m : CanMsg) (c : Nat) :
    ∃ tx, (s.canQueue d m).canC c = { s.canC c with tx := tx } := by
  unfold State.canQueue
  dsimp only
  split
  · by_cases h : c = d
    · subst h; rw [State.canC_setCanC]; exact ⟨_, rfl⟩
    · exact ⟨_, tget_tset_other _ _ _ _ _ h⟩
  · exact ⟨_, rfl⟩

theorem canQueues_canC (m : CanMsg) (c : Nat) (l : List Nat) (s : State) :
    ∃ tx, (foldS s l (fun s d => s.canQueue d m)).canC c = { s.canC c with tx := tx } := by
  unfold foldS
  induction l generalizing s with
  | nil => exact ⟨_, rfl⟩
  | cons d l ih =>
    obtain ⟨a, ha⟩ := canQueue_canC s d m c
    obtain ⟨b, hb⟩ := ih (s.canQueue d m)
    exact ⟨b, by rw [List.foldl_cons, hb, ha]⟩

theorem emcy_canC (s : State) (k c : Nat) : ∃ tx, (s.emcy k).canC c = { s.canC c with tx := tx } := by
  unfold State.emcy
  dsimp only
  split
  · exact ⟨_, rfl⟩
  · exact canQueues_canC _ c _ s

/-- Ending a fault changes no CAN controller but in its send queue. -/
theorem lower_canC (s : State) (k i c : Nat) : ∃ tx, (s.lower k i).canC c = { s.canC c with tx := tx } := by
  unfold State.lower
  split
  · exact emcy_canC (s.dropFault k i) k c
  · exact ⟨_, rfl⟩

/-- Ending one fault brings no other into force. -/
theorem cleared_false {s t : State} {k i k' i' : Nat} (h : s.Cleared t k i) (hf : s.faultIs k' i' = false) :
    t.faultIs k' i' = false := by
  by_cases e : k' = k ∧ i' = i
  · obtain ⟨rfl, rfl⟩ := e; exact h.gone
  · rw [Bool.eq_false_iff] at *
    intro hx
    apply hf
    simp only [State.faultIs, List.any_eq_true, Bool.and_eq_true, beq_iff_eq] at *
    obtain ⟨f, hm, h1, h2⟩ := hx
    exact ⟨f, (h.others f (by rintro ⟨a, b⟩; exact e ⟨by omega, by omega⟩)).1 hm, h1, h2⟩

theorem countHeld_gran (s : State) : s.countHeld.gran = s.gran := by simp [State.countHeld]

/-- An event waits behind what waits already. -/
theorem record_queue (s : State) (c k : Nat) (l : List Nat) : ∃ m, (s.record c k l).gran.queue = s.gran.queue ++ m := by
  have h1 : ∀ u : State, u.reserveSig.gran.queue = u.gran.queue := by
    intro u; unfold State.reserveSig; split <;> rfl
  have h2 : ∀ (u : State) (c k : Nat) (l : List Nat), ∃ m, (u.pushRec c k l).gran.queue = u.gran.queue ++ m := by
    intro u c k l; unfold State.pushRec; dsimp only; split
    · rw [h1]; exact ⟨_, rfl⟩
    · exact ⟨_, rfl⟩
  unfold State.record
  split
  · exact ⟨[], by simp⟩
  split
  · obtain ⟨a, ha⟩ := h2 s.reportLost c k l
    have : ∃ m, s.reportLost.gran.queue = s.gran.queue ++ m := by
      unfold State.reportLost; split
      · exact ⟨[], by simp⟩
      · exact h2 s _ _ _
    obtain ⟨b, hb⟩ := this
    exact ⟨b ++ a, by rw [ha, hb, List.append_assoc]⟩
  · exact ⟨[], by simp [State.discardRec]⟩

/-- A page written to NAND with room for it stands behind what NAND holds, linked in order. -/
theorem storeRec_fold (l : List Rec) (s : State) (h : s.gran.held.length + l.length ≤ State.storeSize) :
    (foldS s l State.storeRec).gran.queue = s.gran.queue ∧
    (foldS s l State.storeRec).gran.held.map (fun r => { r with blk := 0 }) = (s.gran.held ++ State.sealed s.gran.lastCrc l).map (fun r => { r with blk := 0 }) := by
  unfold foldS
  induction l generalizing s with
  | nil => simp [State.sealed]
  | cons r l ih =>
    rw [List.length_cons] at h
    have hs : s.storeRec r = (s.setGran { s.gran with held := s.gran.held ++ [{ r.seal s.gran.lastCrc with blk := s.objU 0x4601 6 / blockSize }], lastCrc := (r.seal s.gran.lastCrc).crc }).addU 0x4601 6 1 := by
      unfold State.storeRec; rw [if_neg (by omega)]
    have hg : (s.storeRec r).gran = { s.gran with held := s.gran.held ++ [{ r.seal s.gran.lastCrc with blk := s.objU 0x4601 6 / blockSize }], lastCrc := (r.seal s.gran.lastCrc).crc } := by
      rw [hs]; simp [State.setGran]
    obtain ⟨a, b⟩ := ih (s.storeRec r) (by rw [hg]; simp; omega)
    rw [List.foldl_cons]
    refine ⟨by rw [a, hg], ?_⟩
    rw [b, hg]
    simp [State.sealed, Rec.seal, Rec.body]

/-- 4630h:01h reads the challenge. -/
theorem challenge_reads (s : State) (h : storeOk s.obj = true) : s.newChallenge.objU 0x4630 1 = s.newChallenge.gran.challenge := by
  unfold State.newChallenge
  dsimp only
  show (getV (State.putU _ _ _ _).obj _).asNat = _
  rw [State.putU_obj, getV_putV_self _ _ (by exact h)]; rfl

/-- Checking a certificate touches no part of the register or of a clear. -/
theorem certOk_frame (s : State) (k : Nat) (c : List Byte) : (s.certOk k c).2.gran.reg = s.gran.reg ∧ (s.certOk k c).2.gran.clearing = s.gran.clearing ∧ ((s.certOk k c).2.clk = s.clk) ∧ (storeOk s.obj = true → storeOk s.force = true → storeOk (s.certOk k c).2.obj = true) := by
  have h : ∀ (u : State) (a : Nat) (l : List Nat), (u.note a l).gran.reg = u.gran.reg ∧ (u.note a l).gran.clearing = u.gran.clearing ∧ (u.note a l).clk = u.clk ∧ Keeps 0x208 u (u.note a l) :=
    fun u a l => ⟨(record_gran u a 0 l).1, (record_gran u a 0 l).2.2.1, (State.note_noted u a l).keeps_clk, State.note_keeps ..⟩
  unfold State.certOk
  dsimp only
  have h1 : (if s.timeQuality = 3 then s.note 0x140A [] else s).gran.reg = s.gran.reg ∧ (if s.timeQuality = 3 then s.note 0x140A [] else s).gran.clearing = s.gran.clearing ∧ (if s.timeQuality = 3 then s.note 0x140A [] else s).clk = s.clk ∧ Keeps 0x208 s (if s.timeQuality = 3 then s.note 0x140A [] else s) := by
    split
    · exact h _ _ _
    · exact ⟨rfl, rfl, rfl, Keeps.refl s⟩
  generalize (if s.timeQuality = 3 then s.note 0x140A [] else s) = u at *
  obtain ⟨a, b, c, d⟩ := h1
  have e : ∀ l, (u.note 0x1403 l).gran.reg = s.gran.reg ∧ (u.note 0x1403 l).gran.clearing = s.gran.clearing ∧ (u.note 0x1403 l).clk = s.clk ∧ (storeOk s.obj = true → storeOk s.force = true → storeOk (u.note 0x1403 l).obj = true) := by
    intro l
    obtain ⟨a1, b1, c1, d1⟩ := h u 0x1403 l
    exact ⟨a1.trans a, b1.trans b, c1.trans c, fun x y => d1.obj (d.obj x y) (d.force x y)⟩
  split
  · exact e _
  split
  · exact e _
  · exact ⟨a, b, c, d.obj⟩

end Sys2Proof.Machine
end

