-- ==== Sys2Proof/Tests/Slice0.lean ====
section
/-! SUPPORT. Tests: an ill-formed command for each check of `Instr.wf`, and for each hypothesis of the obligations a small
state and operands that meet it. -/
open Sys2Proof Sys2Proof.Machine

namespace Sys2Proof.Tests
set_option Elab.async false
set_option linter.unusedVariables false

/-- A Lead of one unit that runs in Standby. -/
def lead : State := { State.reset with st := { State.reset.st with power := .running, role := 0 } }
/-- The Lead at frame k of a sample of 16. -/
def leadAt (k : Nat) : State := { lead with clk := { lead.clk with frame := 160 + k, f0 := 160, sample := 9, time := 200000000 + k * 1250000, bound := 200000000 + k * 1250000 } }
/-- A state with objects set, as read and as used. -/
def withObjs (s : State) (l : List (Nat × Nat × Val)) : State := l.foldl (fun s x => s.putBoth x.1 x.2.1 x.2.2) s
/-- A session of a role on KDP session 1. -/
def withRole (s : State) (r : Role) : State := { s with acc := { s.acc with sessions := [(17, { role := r })] } }
/-- An octet string of numbers. -/
def octets (l : List Nat) : List Byte := l.map (BitVec.ofNat 8)

/-- The row of an object. -/
def rowOf (i j : Nat) : Row := (findRow i j).getD ⟨0, 0, 0, 0, .u8, .ro, 0, .vol, .u 0, .any, false, ""⟩

/-- The Lead with a session of an Auditor, and with one of Service. -/
def audited : State := withRole lead .auditor
def serviced : State := withRole lead .service
/-- The Lead in Lever, Joystick and Auto-position. -/
def inMode (m : Nat) (s : State) : State := { s with mode := { s.mode with mode := m } }
/-- A command was accepted before: number 5, its word 50001h. -/
def commanded : State := { withObjs lead [(0x2202, 1, .u 5), (0x2202, 5, .u 1)] with mode := { lead.mode with lastWord := 0x50000, lastIsMode := true } }

/-- The Lead while a store of area 1 is in progress. -/
def storing : State := { lead with acc := { lead.acc with store := some (1, 0) } }
/-- A session that holds a latch. -/
def latched : State := { lead with acc := { lead.acc with sessions := [(17, { latch := some (0x2A41, {}, 0) })] } }

/-- Unit 1 is joined as Shadow under this Lead. -/
def paired : State := { lead with hal := { lead.hal with units := [(1, { joined := true, role := 1, heard := some 0, prio := 3 })] } }
def noSnap : Snap := { seq := 0, cause := 2, ms := 5, trigger := 0, ports := 1, tail := [] }
/-- A refused time source, a serial port that transmits, a controller off the bus. -/
def refused : State := { withObjs lead [(0x3800, 2, .u 1), (0x3800, 1, .u 1), (0x3801, 1, .u 1)] with tb := { lead.tb with srcs := [(0, { refused := true })] } }
def portUp : State := withObjs lead [(0x4402, 1, .u 1), (0x4402, 4, .u 1)]
def busOff : State := { lead with can := { lead.can with ctls := [(1, { off := true, tec := 200, passive := true })] }, faults := [⟨0x1103, 1, 2⟩, ⟨0x1102, 1, 1⟩] }
def rec0 : Rec := { code := 0x1309, cls := 0, source := 0, seq := 0, time := 0, sample := 0, status := 0, params := [0, 0, 0, 0] }
/-- 32 records wait in DRAM. -/
def page32 : State := { lead with gran := { lead.gran with isOpen := true, next := 32, queue := (List.range 32).map fun k => { rec0 with seq := k } } }

/-- Descriptors of a vessel: two azimuth thrusters and a tunnel one on two sections with a generator and a breaker each and a
tie, a position stream from a node, a case for each thruster and a section. -/
def vesselObjs : List (Nat × Nat × Val) :=
  [(0x2E80, 1, .u 1), (0x2E80, 2, rv (-58)), (0x2E80, 3, rv (-6)), (0x2E80, 4, rv 560), (0x2E80, 5, rv 560), (0x2E80, 6, rv 3500),
   (0x2E81, 1, .u 1), (0x2E81, 2, rv (-58)), (0x2E81, 3, rv 6), (0x2E81, 4, rv 560), (0x2E81, 5, rv 560), (0x2E81, 6, rv 3500),
   (0x2E82, 1, .u 2), (0x2E82, 2, rv 50), (0x2E82, 4, rv 250), (0x2E82, 5, rv 250), (0x2E82, 6, rv 1800), (0x2E82, 0x0B, rv 90),
   (0x3480, 1, .u 0), (0x3480, 2, rv 4000), (0x3480, 4, .u 0x01000000), (0x3480, 5, .u 0x01000001),
   (0x3481, 1, .u 1), (0x3481, 2, rv 4000), (0x3481, 4, .u 0x02050007),
   (0x34A0, 1, .u 1), (0x34A1, 1, .u 1), (0x34B0, 1, .u 0), (0x34B0, 2, .u 1), (0x34B0, 3, .u 0x01000002),
   (0x34C0, 1, .u 0), (0x34C1, 1, .u 1), (0x34C2, 1, .u 0),
   (0x3080, 1, .u 1), (0x3080, 2, .u 1), (0x3081, 1, .u 1), (0x3081, 2, .u 2), (0x3082, 1, .u 3), (0x3082, 4, .u 1),
   (0x3083, 1, .u 5), (0x3083, 6, .u 1)]
def vesselAt (k : Nat) : State := withObjs (leadAt k) vesselObjs

def vesselIn (k m : Nat) : State := inMode m (vesselAt k)
def withPlant (s : State) (p : Plant) : State := { s with ctl := { s.ctl with plant := p } }
def withStook (s : State) (p : Stook) : State := { s with ctl := { s.ctl with stook := p } }
def withTill (s : State) (p : Tiller) : State := { s with ctl := { s.ctl with till := p } }
def withStub (s : State) (p : Stubble) : State := { s with ctl := { s.ctl with stub := p } }
/-- A breaker of generator 0 that has read closed long enough, one whose contacts read alike, an LR line due for release. -/
def contactDue : State := withPlant (vesselAt 3) { contacts := [(0, { cand := some true, count := 2 })] }
def contactAlike : State := withPlant (vesselAt 3) { contacts := [(0, { alike := 2 })] }
def lrDue : State := withPlant (leadAt 3) { core := { lr := [(1, 0)], calm := [(1, 0)] } }
def lrDueLate : State := { lrDue with clk := { lrDue.clk with time := 2000000000 } }
/-- Overruns twice before, in the samples and in the frames just past. -/
def overBefore (k : Nat) : State := let s := vesselAt k
  { s with
    sheaf := { s.sheaf with overs := [7, 8] }, win := { s.win with overs := [7, 8] }, obs := { s.obs with overs := [7, 8] }, chaff := { s.chaff with overs := [150, 151] },
    ctl := { s.ctl with culm := { s.ctl.culm with overs := [5, 6, 7, 8] }, innerOver := [150, 151], till := { s.ctl.till with overs := [5, 6, 7, 8] },
                        plant := { s.ctl.plant with overs := [150, 151] } } }

/-- A lane has failed before in this sample; the inner loops have overrun in this frame. -/
def residual (s : State) : State := { s with ctl := { s.ctl with culm := { s.ctl.culm with residue := true } } }
def innerOver (s : State) : State := { s with ctl := { s.ctl with innerOver := [s.clk.frame] } }
/-- One tunnel thruster, and a case of it. -/
def smallObjs : List (Nat × Nat × Val) :=
  [(0x2E80, 1, .u 2), (0x2E80, 4, rv 250), (0x2E80, 5, rv 250), (0x2E80, 0x0B, rv 90), (0x3080, 1, .u 1), (0x3080, 2, .u 1)]
def smallIn (k m : Nat) : State := inMode m (withObjs (leadAt k) smallObjs)

/-- Cases wait for the end of the fast cap; a drive has been silent long enough. -/
def sweepWaits (cap : Bool) : State := let s := withStook (smallIn 5 4) { waiting := [0], swept := 1 }
  { s with therm := { s.therm with cap := cap } }
def silentNow : State := let s := vesselIn 4 4
  { s with clk := { s.clk with frame := 100000 } }
/-- A sentence line. -/
def line (t : String) : List Byte := ascii t ++ [0x0D#8, 0x0A#8]
/-- Port P2 takes sentences and port P3 raw frames; stream 3 takes headings of port P2. -/
def listening : State :=
  let s := withObjs (leadAt 3) [(0x4402, 1, .u 1), (0x4403, 1, .u 2), (0x4403, 0x0F, .u 0)]
  { s with sheaf := { s.sheaf with streams := [(3, { cfg := some (5, 1, 0x402, 0xFF) })] } }
def sending : State := { lead with io := { lead.io with serial := [(2, { tx := some [65#8] })] } }
/-- Intake entry 1 takes datagrams of port N0. -/
def intakeOn : State := withObjs (leadAt 3) [(0x4431, 1, .u 1), (0x4431, 4, .u 1)]
/-- IMU port 1 is enabled; it reads; it has failed. -/
def imuOn : State := withObjs (leadAt 3) [(0x4471, 1, .u 1), (0x4471, 8, .u 4)]
def imuReads : State := { imuOn with io := { imuOn.io with imu := [(1, { reading := some 500000000 })] } }
def imuBad : State := { imuOn with io := { imuOn.io with imu := [(1, { bad := 8 })] } }
def arefLow : State := { lead with io := { lead.io with aref := true, arefV := 0 }, faults := [⟨0x1204, 0, 1⟩] }
def imuFailed (good : Nat) : State := { imuReads with io := { imuReads.io with imu := [(1, { reading := some 500000000, fault := true, good := good })] }, faults := [⟨0x1202, 1, 1⟩] }
/-- Input 3 is ratiometric. -/
def ratiometric (low : Bool) : State := { lead with io := { lead.io with ranges := [(3, 3)], aref := low, arefV := if low then 0 else 1 }, faults := if low then [⟨0x1204, 0, 1⟩] else [] }
/-- SAFE1 is high; SAFE1 is in overcurrent; LR2 is asserted; a compare pulse runs. -/
def safeHigh : State := { lead with io := { lead.io with safe := 2 } }
def safeOver : State := { lead with io := { lead.io with overs := 2 }, clk := { lead.clk with time := 1000000000 }, faults := [⟨0x1702, 1, 1⟩] }
def lrHigh : State := withPlant lead { core := { lr := [(2, 0)] } }
def pulsing : State := { lead with io := { lead.io with pulses := [(4, 0)] } }

def withEnc (n : Nat) (e : Enc) (s : State) : State := { s with fb := { s.fb with enc := [(n, e)] } }
/-- Channel 2 counts quadrature, is modulo, has narrow limits; channel 3 reads SSI. -/
def quad : State := withObjs (leadAt 3) [(0x3A02, 1, .u 1)]
def quadMod : State := withObjs quad [(0x3A02, 0x0D, .u 1)]
def quadTight : State := withObjs quad [(0x3A02, 0x11, .i 0), (0x3A02, 0x12, .i 0)]
def quadSick : State := withEnc 2 { illegal := (List.range 100).map (· + 500), lastIllegal := 600 } quad
def quadFault : State := { withEnc 2 { fault := true } quad with clk := { quad.clk with time := 10000000000 }, faults := [⟨0x0D02, 2, 1⟩] }
def quadHome : State := withEnc 2 { armed := true, lv := [false, false, true], count := 50, p := 51, referenced := false } (withObjs quad [(0x3A02, 0x13, .u 1), (0x3A02, 0x15, .i 7)])
def quadHomed : State := withEnc 2 { armed := true, homed := true, count := 50, p := 51, v := 2 } (withObjs quad [(0x3A02, 0x13, .u 1), (0x3A02, 0x15, .i 7)])
def magArmed : State := withEnc 2 { armed := true } (withObjs quad [(0x3A02, 0x13, .u 2), (0x3A02, 0x14, .u 4), (0x3A44, 2, .u 1)])
def ssiUpdated (bad : Bool) : State := withEnc 3 { begun := true, tu := 400000000, count := 50, p := 49, v := 1, a := 1, upd := some (500000000, bad) } (withObjs (leadAt 3) [(0x3A03, 1, .u 3)])
/-- Channel 2 counts steps and a direction. -/
def stepDir : State := withObjs (leadAt 3) [(0x3A02, 1, .u 2)]
def quadRuns : State := withEnc 2 { begun := true, count := 50, p := 49, v := 1, a := 1 } quad
def quadBad : State := withEnc 2 { begun := true, count := 50, p := 49, v := 1, a := 1, bad := true } quad
def ssi : State := withObjs (leadAt 3) [(0x3A03, 1, .u 3)]
def ssiReads : State := withEnc 3 { reading := some 500000000, miss := 7 } ssi
def ssiReadsG : State := withObjs ssiReads [(0x3A03, 7, .u 1), (0x3A03, 4, .u 1)]
def ssiDrives : State := withEnc 3 { driving := true } ssi
def compares : State := withEnc 2 { compares := [{ fired := true }, {}, {}, {}] } quad
/-- A Chaff channel without a source, an analog one, one at an encoder. -/
def chanOf (c : Chan) : State := let s := leadAt 3
  { s with chaff := { s.chaff with chans := [(5, c)] }, io := { s.io with ranges := (List.range 16).map fun a => (a, 1) } }
def streamQuiet : State := let s := leadAt 3
  { s with clk := { s.clk with time := 20000000000 }, sheaf := { s.sheaf with streams := [(3, { cfg := some (5, 1, 0x402, 0xFF) })] } }

def withGn (g : Gnss) (s : State) : State := { s with gn := g }
def portSick : State := withGn { ports := [(2, { fault := true, okFrom := some 0 })] } (leadAt 3)
def scriptOf (l : List Nat) : State := withObjs (leadAt 3) [(0x3601, 2, .d (octets l))]
def tracked (x : GChan) : State := withGn { chans := [(4, x)] } (leadAt 3)
def nav0 : NavRec := { seq := 0, sys := 0, sat := 5, sig := 1, msg := 2, first := 0, bits := 10, check := 0, ant := 0, bytes := [] }
def sol0 : GSol := { sats := [1, 2, 3, 4], stat := 0, worst := 1, lat := 50000000000, lon := 1000000000, h := 10, vel := [0, 0, 0], sH := 1, sV := 1, sVel := 1, pdop := 1, clock := 5, drift := 1 }
def epoch0 : GEpoch := { t := 1000000000, meas := [], sols := [], bases := [], rot := [], rotSd := [], heave := 0, dirs := [], duty := [] }
def jamRise : State := withGn { ports := [(0, { power := true, cn0 := true }), (2, { power := true, cn0 := true })] } (leadAt 3)
def jamCalm : State := { withGn { jammed := 1, calmFrom := [(0, 0)] } lead with clk := { lead.clk with time := 10000000000 }, faults := [⟨0x0B08, 0, 1⟩] }
def dormant : State := { withGn { dormPos := some (0, 0, 0), eph := [(3, 600000000000, [])] } lead with st := { lead.st with power := .dormant, dormantAt := some 0 }, clk := { lead.clk with time := 600000000000 } }

/-- Entry 2 of the sources is PTP, in use, with the initial set done; its step and jump thresholds are 1 us and 1 ms. -/
def timeObjs : List (Nat × Nat × Val) :=
  [(0x3812, 1, .u 4), (0x3812, 6, .u 1), (0x3812, 4, rv (1/10)), (0x3812, 5, rv (1/100)), (0x3813, 1, .u 3), (0x3813, 6, .u 1), (0x3813, 3, rv 20),
   (0x3800, 2, rv 1), (0x3800, 3, rv 1), (0x3800, 6, rv 100), (0x3800, 5, rv 60), (0x3830, 1, .u 1), (0x3830, 3, .u 0)]
def withTb (t : TimeB) (s : State) : State := { s with tb := t }
def timed (theta : Rat) (dec : List (Nat × Rat)) : State :=
  withTb { srcs := [(2, { qualified := true, next := some theta })], use := some 2, initial := true, dec := dec, last := some 199000000 } (withObjs (leadAt 3) timeObjs)
/-- The measurements before the one that is ready. -/
def timedAfter (theta : Rat) (meas dec : List (Nat × Rat)) : State := let s := timed theta dec
  { s with tb := { s.tb with srcs := [(2, { qualified := true, next := some theta, meas := meas })] } }
def timedFirst (theta : Rat) (step : Option (Nat × Int × Bool)) : State := let s := timed theta []
  { s with tb := { s.tb with initial := false, step := step } }
def stepDue (init : Bool) : State := withTb { step := some (1000000000, -5, init), next := 205000000 } (withObjs (leadAt 3) timeObjs)
def lostSrc : State := withTb { lost := true, r := 5 } (leadAt 3)
def held (q : Nat) : State := withTb { quality := q, holdFrom := some 0 } (withObjs (leadAt 3) timeObjs)
def follower (ths : List Rat) : State := let s := withObjs (leadAt 3) timeObjs
  { s with st := { s.st with role := 1 }, hal := { s.hal with thetas := ths }, tb := { s.tb with initial := true, use := some 8 } }
def followerFirst (ths : List Rat) (step : Option (Nat × Int × Bool)) : State := let s := follower ths
  { s with tb := { s.tb with initial := false, step := step } }
def joins : State := let s := leadAt 3
  { s with st := { s.st with role := 3 }, hal := { s.hal with thetas := [7], joinTime := true } }
def leaping : State := withTb { leap := some (100000000, 38) } (leadAt 3)
def ds (i p : Nat) : Dataset := ⟨p, 6, 0x21, 0, 0, i, 0, 0x20⟩
def mastered (p : Ptp) : State := withTb { ptp := p, srcs := [(2, { qualified := true })] } (withObjs (leadAt 3) timeObjs)

/-- A program of one addition: a (input, an object), b (kept) and their sum c, which an output may bind. -/
def progOf (binds : List PBind) : Prog :=
  { version := 1, pid := 5, nT := 0, nC := 0, nE := 0, vars := [⟨11, 6, 0, 3⟩, ⟨12, 6, 1, 4⟩, ⟨13, 6, 0, 0⟩], insts := [],
    ins := [⟨0x0C, 0, 0xFFFF, [0, 1, 0xFFFF, 0xFFFF, 0xFFFF], [2, 0xFFFF, 0xFFFF]⟩], binds := binds }
def bindInput : PBind := ⟨0, 1, 1, 0x3C00, 1, 0xFF, 0⟩
def bindOutput (i j : Nat) : PBind := ⟨2, 2, 1, i, j, 0xFF, 0⟩
def panicle (k : Nat) (binds : List PBind) (p : Panicle → Panicle) : State :=
  let s := withObjs (leadAt k) [(0x3C00, 2, .u 1)]
  { s with pan := p { s.pan with prog := some (progOf binds), vals := [.u 3, .u 4, .u 0], start := 160 } }
def warm (copy : Option Nat) : State := panicle 0 [bindInput] fun p =>
  { p with restart := some (1, 2), copyA := match copy with
    | some n => { serial := n, valid := true, vars := [(12 * 256 + 6, .u 9)] }
    | none => {} }
def retained : State := let s := panicle 3 [] fun p => { p with copyA := { serial := 7, valid := true } }
  { s with clk := { s.clk with time := 100000000000 } }

/-- A unit of a pair, of a role, with what it holds of its partner, unit 1. -/
def pairObjs : List (Nat × Nat × Val) := [(0x3E00, 2, .u 2), (0x3E00, 1, .u 2), (0x3E00, 3, .u 800), (0x3E00, 5, .u 8)]
def pairAt (k role : Nat) (p : Partner) (h : Halur → Halur) : State :=
  let s := withObjs (leadAt k) pairObjs
  { s with st := { s.st with role := role }, hal := h { s.hal with units := [(1, p)] } }
/-- The pair's own Lead; a Shadow that hears unit 1 as its Lead. -/
def pairLead : State := pairAt 3 0 { heard := some 162, role := 1, joined := true } id
def pairShadow : State := pairAt 3 1 { heard := some 162, role := 0, epoch := 0, prio := 1 } id
/-- The header of a frame of unit 1. -/
def head (role : Nat) (us : Nat) : HHead := ⟨1, role, 0, 163, 9, 5, 0, true, us, 0⟩
def beat0 : Beat := ⟨0, 1, 0, 0, 0, [], 0, 5, 16⟩
def fastLead0 : FastLead := { State.fastLead pairLead with lastSeq := 9, seqSet := true, cmds := [⟨0x90001, true, 160, false⟩] }
def fullLead0 : FullLead := State.fullLead pairLead
def claiming : State := pairAt 6 1 { heard := some 162, role := 0, prio := 9 } fun h => { h with claim := some (161, 3), lostLead := some 1 }
def leadGone : State := pairAt 6 1 { heard := some 160, role := 0, silentH := 3, silentF := 3 } id
def loner (u : Nat) (p : Partner) : State :=
  let s := withObjs (pairAt 6 3 p fun h => { h with waited := 800 }) [(0x3E00, 2, .u u)]
  { s with hal := { s.hal with units := if u = 1 then [] else s.hal.units } }
def bulk0 (key : Nat) (opened : List (Nat × List Nat)) : Bulk := ⟨key, octets [1,2,3], .kdp 1, some 100, opened, 99, []⟩
def bulkOn (key : Nat) (l : List (Nat × List Nat)) : State := { pairLead with acc := { pairLead.acc with bulk := [bulk0 key l] } }

/-- A node table of one data node, 20, that both networks watch, its loss F1. -/
def lossOf (cls : Nat) : List Byte := natLe 2 20 ++ natLe 1 2 ++ natLe 1 3 ++ List.replicate 6 0 ++ natLe 1 0 ++ natLe 1 2 ++ natLe 8 0 ++ natLe 2 3 ++ natLe 1 cls ++ natLe 1 0 ++ natLe 2 0 ++ List.replicate 6 0
def nodeBytes : List Byte := lossOf 1
def noded (x : NodeSt) (n : Net → Net) : State :=
  let s := withObjs (leadAt 3) ([(0x4020, 0, .d nodeBytes), (0x4000, 0x0C, .u 8), (0x4001, 1, .u 1), (0x4002, 1, .u 1), (0x4003, 1, .u 1), (0x4003, 2, .u 1)] ++ pairObjs)
  { s with net := n { s.net with nodes := [(20, x)], ports := [(1, ⟨true, 1000⟩), (2, ⟨true, 1000⟩)] } }
/-- A KPP payload of node 20 with a sequence and records, and its CRC. -/
def kppOf (q : Nat) (n : Nat) (recs : List Byte) : List Byte :=
  let b := natLe 2 0x504B ++ natLe 1 1 ++ natLe 1 0 ++ natLe 2 20 ++ natLe 2 n ++ natLe 4 q ++ natLe 4 0 ++ natLe 8 0 ++ recs
  b ++ natLe 4 (crc32c b)
def kppRec0 : List Byte := natLe 1 3 ++ natLe 1 2 ++ natLe 2 20 ++ natLe 8 5 ++ natLe 4 77 ++ natLe 4 78
def mapped : State := let s := withObjs (leadAt 0) [(0x4030, 0, .d (octets [1, 0x20, 1, 2, 0, 0, 0, 0])), (0x4031, 3, .u 1)]
  s
def offPath : State := { pairAt 3 0 { heard := some 162, field := some 162, role := 1, joined := true } id with net := { lead.net with offPath := false } }
def offPath16 (deg : Bool) : State := let s := pairAt 3 0 { heard := some 162, role := 1, joined := true, mirrorDeg := deg } id
  { s with hal := { s.hal with offField := 16 } }

/-- A unit that joins holds the pair-shared values but their last fragment; a Shadow holds a DOMAIN but its last. -/
def joining : State := { pairAt 3 3 { heard := some 162, role := 0, epoch := 0, prio := 1 } id with acc := { lead.acc with bulkIn := some ⟨0, 3, []⟩ } }
def rep0 : Report := ⟨[(okey 0x2200 2, .u 5)], [], false⟩
def offAlone : State := { withObjs (leadAt 3) pairObjs with hal := { lead.hal with offField := 16 } }
/-- A KDP session 1 of a role, that has answered requests. -/
def sessionOf (r : Role) (replay : List Reply) (s : State) : State :=
  let s := withObjs s [(0x4000, 1, .u 1)]
  { s with acc := { s.acc with sessions := [(17, { role := r, replay := replay })] } }
/-- A request's octets from its unit on: this unit, an object, three octets of no meaning, a value. -/
def req (i j : Nat) (v : List Nat) : List Byte := natLe 1 0xFF ++ natLe 2 i ++ natLe 1 j ++ natLe 3 0 ++ octets v

/-- Controller 0 is enabled with FD, of node 5. -/
def canObjs : List (Nat × Nat × Val) := [(0x4200, 1, .u 1), (0x4200, 0x0B, .u 1), (0x1F00, 0, .u 5), (0x4220, 1, .u 0x100), (0x4220, 2, .u 0x80), (0x4220, 3, .u 4)]
def withCan (l : List (Nat × Nat × Val)) (x : CanCtl) (s : State) : State :=
  let s := withObjs s (canObjs ++ l)
  { s with can := { s.can with ctls := [(0, x)] } }
def rx0 : CanRx := ⟨0x605, octets [1,2], 7, 5⟩
def msg0 : CanMsg := { id := 0x120, kind := .heartbeat, fd := false, data := [1] }
/-- An RPDO and a TPDO on identifier 305h and 185h. -/
def rpdoObjs : List (Nat × Nat × Val) := [(0x1401, 1, .u 0x305)]
def tpdoObjs : List (Nat × Nat × Val) := [(0x1801, 1, .u 0x185), (0x1801, 5, .u 10), (0x1A01, 0, .u 1), (0x1A01, 1, .u 0x22000120)]
def driveObjs : List (Nat × Nat × Val) := [(0x4240, 1, .u 1), (0x4240, 2, .u 0x200), (0x4240, 3, .u 0x280), (0x4240, 4, .u 30)]
def sdo0 (k : SdoKind) (buf : List Nat) : Sdo := ⟨k, 0x3E00, 5, octets buf, 0, false, none, 127, false, 0, 0, false, 0⟩
def asked (x : Option Sdo) (b : List Nat) : State := withCan [] { sdo := x, sdoIn := [(5, octets b)] } (leadAt 3)
def served (x : Option Sdo) : State := withCan [] { sdo := x, sdoIn := [], sdoNode := 5 } (leadAt 3)

/-- Heat and monitors. -/
def hot (l : Nat) (due : Option Nat) : State := { lead with therm := { lead.therm with level := l, riseDue := due }, mons := [(2, { win := { live := true } })] }
def cooler (l : Nat) : State := { lead with therm := { lead.therm with level := l, fallDue := true }, faults := [⟨0x1501, 0, 1⟩] }
def restoring (f : Nat) : State := { lead with therm := { lead.therm with excluded := 4, inBand := [(2, f)] }, clk := { lead.clk with frame := 8000 }, faults := [⟨0x1507, 2, 1⟩] }
def monDue (p o : Bool) : State := { withObjs lead [(0x4C40, 0, .u 3), (0x4C03, 4, rv 1)] with mons := [(3, { win := { live := true, count := 4, overs := o }, paused := p })], clk := { lead.clk with time := 2000000000 }, faults := [⟨0x1601, 3, 1⟩] }

def powered (p : Power) (f : Start → Start) : State := { State.reset with st := f { State.reset.st with power := p } }
def sleeping (b : Nat) : State :=
  let s := withObjs (powered .dormant fun x => { x with dormantAt := some 0 }) [(0x4A10, 1, rv 60), (0x4A10, 2, .u 7)]
  { s with gn := { s.gn with moved := b == 2 }, clk := { s.clk with time := 60000000000 } }
def wakes (k : Nat) : State := let s := powered .waking fun x => { x with wake := some (1000, 0) }
  { s with clk := { s.clk with frame := 1000 + k } }
def queued3 : State := { page32 with gran := { page32.gran with queue := [rec0] } }

def refusedSrc : State := withObjs refused [(0x3810, 1, .u 4)]
def reads0 : Readings := { p := 5, vin := 12, case4 := [20, 20, 20, 20], die3 := [30, 30, 30], predicted := 6 }
def res0 : ResRow := (findRes 0x2A41).getD ⟨0, [], ""⟩
/-- A solve of the Tiller with an empty plan. -/
def sol1 : Solve :=
  { sample := 9, plan := [], rp := 0, rd := 0, merit := 0, it := 3, cold := false, promoted := false, lifted := 0, short := 0,
    bounds := [], groups := [], avail := 0, tau := [], stage0 := [], refs := [], plant := 0 }
/-- A program that divides by zero. -/
def divProg : Prog := { progOf [] with ins := [⟨0x0F, 0, 0xFFFF, [0, 1, 0xFFFF, 0xFFFF, 0xFFFF], [2, 0xFFFF, 0xFFFF]⟩] }
def divides : State := panicle 2 [] fun p => { p with latched := true, vals := [.u 3, .u 0, .u 0], prog := some divProg }
/-- A clearing token of a challenge, without a signature. -/
def token (ch : Nat) : List Byte :=
  ascii "KGCT" ++ natLe 2 1 ++ natLe 2 0 ++ natLe 4 (lead.objU 0x1018 2) ++ natLe 4 (lead.objU 0x1018 4) ++ natLe 8 ch ++
    natLe 4 0 ++ natLe 8 0 ++ List.replicate 20 0 ++ natLe 2 0

/-- What a write that passes R577 shows, as a test. -/
def passesB (s : State) (c : Instr) (i j : Nat) (v : Val) : Bool :=
  match writeOf c with
  | some (p, i', j', b) => i' == i && j' == j && s.up && match s.writeTests p i j b with
    | .ok (_, v') => v' == v
    | .error _ => false
  | none => false
theorem passes_of {s : State} {c : Instr} {i j : Nat} {v : Val} (h : passesB s c i j v = true) : s.passes c i j v := by
  unfold passesB at h
  split at h
  · rename_i p i' j' b hw
    simp only [Bool.and_eq_true, beq_iff_eq] at h
    obtain ⟨⟨⟨rfl, rfl⟩, hu⟩, h⟩ := h
    split at h
    · rename_i r v' ht
      exact ⟨p, b, r, hw, hu, by rw [ht]; simp_all⟩
    · cases h
  · cases h
/-- A request of controller c's client with node 5, as a test. -/
theorem serves_of {s u : State} {c t0 cls : Nat} {b : List Byte} (h : s.canHears c = true ∧ State.sdoClass (s.canC c).sdo b = cls ∧
    (s.canC c).sdoIn.head? = some (5, b) ∧ u = (s.at' t0).setCanC c { s.canC c with sdoIn := (s.canC c).sdoIn.drop 1, sdoNode := 5 }) :
    s.Serves u c t0 cls b := ⟨h.1, h.2.1, 5, h.2.2⟩
/-- A new request of a session, as a test. -/
theorem fresh_of {s : State} {id req : Nat} (h : s.up = true ∧ s.kdpOpen id = true ∧ (s.session (.kdp id)).wait = [] ∧
    (∀ r ∈ (s.session (.kdp id)).replay, r.code ≠ State.noAnswer ∧ r.id ≠ req) ∧
    (match (s.session (.kdp id)).replay with
      | r :: l => newerMod (2 ^ 32) (State.oldestId r.id (l.map (·.id))) req
      | [] => false) = false) : s.FreshRequest id req :=
  ⟨h.1, h.2.1, h.2.2.1, h.2.2.2.1, fun r l e => by have := h.2.2.2.2; rw [e] at this; exact this⟩
def okB {ε α : Type} [DecidableEq α] (e : Except ε α) (a : α) : Bool := match e with
  | .ok x => decide (x = a)
  | .error _ => false
theorem ok_of {ε α : Type} [DecidableEq α] {e : Except ε α} {a : α} (h : okB e a = true) : e = .ok a := by
  cases e <;> simp_all [okB]
def errorB {ε α : Type} [DecidableEq ε] (e : Except ε α) (a : ε) : Bool := match e with
  | .ok _ => false
  | .error x => decide (x = a)
theorem error_of {ε α : Type} [DecidableEq ε] {e : Except ε α} {a : ε} (h : errorB e a = true) : e = .error a := by
  cases e <;> simp_all [errorB]
def head0 : HHead := ⟨1, 0, 0, 163, 9, 5, 0, true, 0, 0⟩

/-- The distance between two positions of the dormant check. -/
def apart (p q : Int × Int × Rat) : Rat :=
  let xyz := fun (a : Int × Int × Rat) => State.ecef ((a.1 : Rat) / 1000000000) ((a.2.1 : Rat) / 1000000000) a.2.2
  rsqrt (rsq ((xyz p).1 - (xyz q).1) + rsq ((xyz p).2.1 - (xyz q).2.1) + rsq ((xyz p).2.2 - (xyz q).2.2))
theorem threshold (z : Int) : (withObjs dormant [(0x3620, 8, .i z)]).cfgR 0x3620 8 = z := by
  have h : storeOk dormant.force = true := by decide +kernel
  simp [withObjs, State.cfgR, State.cfgV, State.putBoth, getV_putV_self _ _ h, Val.asRat]

/-! Ill-formed commands: one operand of each is outside what the spec gives it. -/

theorem test_illFormed_1 : (([
    .frameBoundary { reads0 with die3 := [] }, .chaffSlot 256 (List.replicate 10 0), .chaffSlot 0 (List.replicate 9 0),
    .chaffSlotOverrun 256, .breakerStateConfirmed 48, .lrRelease 4, .breakerDiscrepancy 56, .streamSilent 256,
    .driveSilenceDetection 32, .sharedValueDigestMismatch 4, .panicleRetainWrite (2 ^ 64), .genericWrite (.can 4) 0 0 [],
    .genericWrite .panicle 65536 0 [], .genericWrite .panicle 0 256 [], .resultSampleRead (.can 4) 0,
    .resultSampleRead .panicle 65536, .resultLatchTimeout (.can 4) 0, .resultLatchTimeout .panicle (2 ^ 64),
    .storeParameters (.can 4) 0 [], .storeParameters .panicle 256 [], .restoreDefaults (.can 4) 0 [],
    .restoreDefaults .panicle 256 [], .configurationSetLoad (.can 4) [], .sampleLengthWrite (.can 4) []] : List Instr).all fun c => !c.wf) = true := by decide +kernel
theorem test_illFormed_2 : (([
    .modeCommandStandby (.can 4) 0, .modeCommandStandby .panicle (2 ^ 29), .modeCommandLever (.can 4) 0,
    .modeCommandLever .panicle (2 ^ 29), .modeCommandJoystick (.can 4) 0, .modeCommandJoystick .panicle (2 ^ 29),
    .modeCommandAutoHeading (.can 4) 0, .modeCommandAutoHeading .panicle (2 ^ 29), .modeCommandAutoPosition (.can 4) 0,
    .modeCommandAutoPosition .panicle (2 ^ 29), .modeCommandTrack (.can 4) 0, .modeCommandTrack .panicle (2 ^ 29),
    .modeCommandMaintenance (.can 4) 0, .modeCommandMaintenance .panicle (2 ^ 29), .modeCommandDormancy (.can 4) 0,
    .modeCommandDormancy .panicle (2 ^ 29), .actionCapturePosition (.can 4) 0, .actionCapturePosition .panicle (2 ^ 24),
    .actionCaptureHeading (.can 4) 0, .actionCaptureHeading .panicle (2 ^ 24), .actionHoldRamps (.can 4) 0,
    .actionHoldRamps .panicle (2 ^ 24), .actionReleaseRamps (.can 4) 0, .actionReleaseRamps .panicle (2 ^ 24)] : List Instr).all fun c => !c.wf) = true := by decide +kernel
theorem test_illFormed_3 : (([
    .streamDescriptorWrite (.can 4) 0 0 [], .streamDescriptorWrite .panicle 256 0 [], .streamDescriptorWrite .panicle 0 256 [],
    .clockSlotReset (.can 4) 0 [], .clockSlotReset .panicle 64 [], .groupMembershipWrite (.can 4) 0 [],
    .groupMembershipWrite .panicle 256 [], .referenceSelection (.can 4) 0 [], .referenceSelection .panicle 256 [],
    .chaffCoefficientSet (.can 4) [], .chaffStickyRead (.can 4) true 0, .chaffStickyRead .panicle true 256,
    .observerReset (.can 4) [], .gainSetSelection (.can 4) [], .culmCoefficientSet (.can 4) [], .culmStickyRead (.can 4) 0,
    .culmStickyRead .panicle 256, .thrusterDescriptorWrite (.can 4) 0 0 [], .thrusterDescriptorWrite .panicle 65536 0 [],
    .thrusterDescriptorWrite .panicle 0 256 [], .caseDescriptorWrite (.can 4) 0 0 [], .caseDescriptorWrite .panicle 128 0 [],
    .caseDescriptorWrite .panicle 0 256 [], .clearMismatchRemovals (.can 4) []] : List Instr).all fun c => !c.wf) = true := by decide +kernel
theorem test_illFormed_4 : (([
    .stubbleSet (.can 4) [], .returnRequest (.can 4) [], .stubbleStickyRead (.can 4) 0, .stubbleStickyRead .panicle 256,
    .plantDescriptorWrite (.can 4) 0 0 [], .plantDescriptorWrite .panicle 65536 0 [], .plantDescriptorWrite .panicle 0 256 [],
    .frontEndScriptWrite (.can 4) [], .spoofingClear (.can 4) [], .snapshotCaptureCommand (.can 4) [],
    .archiveSelected (.can 4) [], .keepSelected (.can 4) [], .navigationRecordsRead (.can 4), .acceptJump (.can 4) [],
    .queueOverflowRead (.can 4) 0, .queueOverflowRead .panicle 256, .channelDescriptorWrite (.can 4) 0 0 [],
    .channelDescriptorWrite .panicle 32 0 [], .channelDescriptorWrite .panicle 0 256 [], .comparePositionWrite (.can 4) 0 0 [],
    .comparePositionWrite .panicle 32 0 [], .comparePositionWrite .panicle 0 256 [], .feedbackStickyRead (.can 4) 0,
    .feedbackStickyRead .panicle 256] : List Instr).all fun c => !c.wf) = true := by decide +kernel
theorem test_illFormed_5 : (([
    .compareStatusRead (.can 4) 0, .compareStatusRead .panicle 256, .serialTransmit (.can 4) 0 [], .serialTransmit .panicle 16 [],
    .imuDescriptorWrite (.can 4) 0 0 [], .imuDescriptorWrite .panicle 2 0 [], .imuDescriptorWrite .panicle 0 256 [],
    .programImageLoad (.can 4) [], .panicleRestartWarm (.can 4), .panicleRestartCold (.can 4), .panicleRunWrite (.can 4) [],
    .scanLengthWrite (.can 4) [], .forceListWrite (.can 4) [], .arithmeticStickyRead (.can 4), .handLeadToUnit (.can 4) [],
    .gateControlListWrite (.can 4) [], .nodeTableWrite (.can 4) [], .processMapWrite (.can 4) true [],
    .canTimingWrite (.can 4) 0 0 [], .canTimingWrite .panicle 4 0 [], .canTimingWrite .panicle 0 256 [],
    .filterListWrite (.can 4) 0 [], .filterListWrite .panicle 4 [], .canRestart (.can 4) 0 []] : List Instr).all fun c => !c.wf) = true := by decide +kernel
theorem test_illFormed_6 : (([
    .canRestart .panicle 4 [], .granaryRead (.can 4), .clearingToken (.can 4) [], .ownerCaEnrolment (.can 4) [],
    .revocationListLoad (.can 4) [], .firmwareSlotWrite (.can 4) 0 [], .firmwareSlotWrite .panicle 2 [],
    .antiRollbackCommit (.can 4) [], .tamperClear (.can 4) [], .restartWarmCommand (.can 4), .restartColdCommand (.can 4),
    .serialCharacterError 16, .sentenceReceived 16 0 [], .sentenceReceived 0 (2 ^ 64) [], .rawFrameReceived 16 0 [],
    .rawFrameReceived 0 (2 ^ 64) [], .serialTransmitComplete 16, .intakeDatagram 64 0 0 [], .intakeDatagram 0 4 0 [],
    .intakeDatagram 0 0 (2 ^ 64) [], .imuDrdy 2 0, .imuDrdy 0 (2 ^ 64), .imuReadComplete 2 [], .imuPortFault 2] : List Instr).all fun c => !c.wf) = true := by decide +kernel
theorem test_illFormed_7 : (([
    .dioLevelChange 24 0 true, .dioLevelChange 0 (2 ^ 64) true, .comparePulseEnd 24, .safeOvercurrent 8,
    .safeOvercurrentRetry 8 true, .lrOvercurrent 4, .quadratureEdge 32 0 true true true,
    .quadratureEdge 0 (2 ^ 64) true true true, .channelFaultClear 32, .homeEvent 32, .trackingObserverUpdate 32,
    .ssiReadStart 32 0, .ssiReadStart 0 (2 ^ 64), .ssiReadComplete 32 true 0, .ssiClockTaken 32, .ssiClockYielded 32,
    .magneticInputChange 16 0 true, .magneticInputChange 0 (2 ^ 64) true, .gnssPortFault 8 0 true 0 0,
    .gnssPortFault 0 (2 ^ 64) true 0 0, .gnssPortFaultClear 8 0, .gnssPortFaultClear 0 (2 ^ 64), .frontEndEnable 2,
    .frontEndScriptRun (2 ^ 64) []] : List Instr).all fun c => !c.wf) = true := by decide +kernel
theorem test_illFormed_8 : (([
    .frontEndAttention (2 ^ 64) [], .frontEndScriptRetry (2 ^ 64) [], .acquisitionSearch 8 0 0 0 0 0 0 0,
    .acquisitionSearch 0 0 0 0 0 (2 ^ 64) 0 0, .acquisitionLockTimeout 8 0 0 0 0, .acquisitionLockTimeout 0 0 0 0 (2 ^ 64),
    .channelFade 0 (2 ^ 64) 0, .coastExpiry 0 (2 ^ 64), .jamming 2 0, .jamming 0 (2 ^ 64), .jammingEnded 2 0,
    .jammingEnded 0 (2 ^ 64), .timeOffer (2 ^ 64), .lossAidedSearch (2 ^ 64), .dormancyGnssCheck (2 ^ 64) none,
    .timeMeasurement 8 0, .timeMeasurement 0 (2 ^ 64), .timeStep (2 ^ 64), .sourceLost 8 0, .sourceLost 0 (2 ^ 64),
    .holdoverLimit (2 ^ 64), .ppsInEdge 0 (2 ^ 64), .ppsOutPulse 0 (2 ^ 64), .leapSecondChange (2 ^ 64)] : List Instr).all fun c => !c.wf) = true := by decide +kernel
theorem test_illFormed_9 : (([
    .ptpSync 256 0 0 0 0 0 none, .ptpSync 0 0 (2 ^ 64) 0 0 0 none, .ptpAnnounce 256 0 0 (ds 0 0),
    .ptpAnnounce 0 0 (2 ^ 64) (ds 0 0), .announceReceiptTimeout (2 ^ 64), .halurTimeMeasurement (2 ^ 64), .canReferenceMessage 4,
    .halurFastFrame { head0 with sender := 4 } beat0 none, .halurFullFrame { head0 with sender := 4 } none ⟨[], [], false⟩,
    .halurFullFrame head0 (some { fullLead0 with mode := { lead.mode with mode := 8 } }) ⟨[], [], false⟩,
    .claim { head0 with sender := 4 } 0 0, .claim head0 65536 0, .claim head0 0 256, .yield { head0 with sender := 4 } 0,
    .yield head0 256, .stopNotice { head0 with sender := 4 } 0, .stopNotice head0 65536,
    .joinRequest { head0 with sender := 4 } 0 0, .joinRequest head0 256 0, .joinRequest head0 0 65536,
    .bulkFrame { head0 with sender := 4 } 0 0 0 [], .bulkFrame head0 (2 ^ 24) 0 0 [], .bulkFrame head0 0 16777217 0 [],
    .bulkAcknowledgement { head0 with sender := 4 } 0 []] : List Instr).all fun c => !c.wf) = true := by decide +kernel
theorem test_illFormed_10 : (([
    .bulkAcknowledgement head0 (2 ^ 24) [], .panicleRequest { head0 with sender := 4 }, .halurPortChange 2 true,
    .phyLinkChange 4 true 0 true, .kppFrame 4 0 none 0 [], .kppFrame 0 (2 ^ 48) none 0 [], .kppFrame 0 0 none (2 ^ 64) [],
    .publishedRecordSend 8, .networkLost 2, .networkRestored 2, .nodeLost 4096, .kdpConnection 0 (2 ^ 64) 0 0 [] true,
    .kdpConnection 0 0 0 2 [] true, .kdpIdleTimeout 0 (2 ^ 64), .kdpRead 0 (2 ^ 64) 0 [], .kdpRead 0 0 (2 ^ 32) [],
    .kdpWrite 0 (2 ^ 64) 0 [], .kdpWrite 0 0 (2 ^ 32) [], .kdpWholeRecordRead 0 (2 ^ 64) 0 [],
    .kdpWholeRecordRead 0 0 (2 ^ 32) [], .kdpKeepalive 0 (2 ^ 64) 0 0 [], .kdpKeepalive 0 0 (2 ^ 32) 0 [],
    .canFrameReceived 4 0 true [] 0 true, .canFrameReceived 0 (2 ^ 32) true [] 0 true] : List Instr).all fun c => !c.wf) = true := by decide +kernel
theorem test_illFormed_11 : (([
    .canFrameReceived 0 0 false (List.replicate 9 0) 0 true, .canFrameReceived 0 0 true [] (2 ^ 64) true, .canTransmitDone 4 0 0,
    .canTransmitDone 0 3 0, .canTransmitDone 0 0 (2 ^ 64), .canErrorStateChange 4 0 0, .busOffRecoveryStart 4, .busOffRecovered 4,
    .controllerAlone 4, .bitRateCandidate 4, .sdoInitiate 4 0, .sdoInitiate 0 (2 ^ 64), .sdoSegment 4 0, .sdoSegment 0 (2 ^ 64),
    .sdoBlockSegment 4 0, .sdoBlockSegment 0 (2 ^ 64), .sdoTransferTimeout 4 0, .sdoTransferTimeout 0 (2 ^ 64),
    .rpdoReceived 4 0 true [] 0, .rpdoReceived 0 (2 ^ 32) true [] 0, .rpdoReceived 0 0 false (List.replicate 9 0) 0,
    .rpdoReceived 0 0 true [] (2 ^ 64), .tpdoEventTimer 512 0, .tpdoEventTimer 0 (2 ^ 64)] : List Instr).all fun c => !c.wf) = true := by decide +kernel
theorem test_illFormed_12 : (([
    .producerHeartbeat (2 ^ 64), .consumerHeartbeatLoss 4 0, .consumerHeartbeatLoss 0 128, .nmtCommand 4 0 0, .nmtCommand 0 256 0,
    .nmtCommand 0 0 128, .caseSensorRestore 4, .monitorWindowEnd 64, .wakeSource 3, .vinApplied (2 ^ 64),
    .startUpStage { t := 0, boot := 8 }, .bootWatchdog (2 ^ 64), .selfTestHaltRetry (2 ^ 64), .supervisorReset 0 (2 ^ 64),
    .automaticRestart (2 ^ 64) true, .strapCheck 8 0, .strapCheck 0 4, .resetNRelease (2 ^ 64), .romRetry (2 ^ 64),
    .kdpConnectionClosed 0 (2 ^ 64)] : List Instr).all fun c => !c.wf) = true := by decide +kernel

/-! Witnesses: `test_<obligation>_<clause>` meets every hypothesis of that clause. -/

theorem test_StepTakesFrontCommand_1 : ∃ (s : State) (c : Instr) (rest : List Instr), s.pending = c :: rest :=
  ⟨{ lead with pending := [.sampleBoundary] }, .sampleBoundary, [], by decide +kernel⟩
theorem test_StepTakesFrontCommand_2 : ∃ (s : State), s.pending = [] :=
  ⟨lead, by decide +kernel⟩
theorem test_StepKeepsInvariant_1 : ∃ (s t : State), s.Inv ∧ step s = .next t :=
  ⟨powered .reset id, powered .reset id, ⟨by decide +kernel, by decide +kernel, by decide +kernel⟩, rfl⟩
theorem test_EveryCommandCompletes_1 : ∃ (c : Instr) (s : State), c.wf = true :=
  ⟨(.canRestart .panicle 1 [1#8]), lead, by decide +kernel⟩
theorem test_FrameOfEveryCommand_2 : ∃ (c : Instr) (s t : State) (p : Part), c.wf = true ∧ exec c s = .next t ∧ p ∉ touches c :=
  ⟨.frameBoundary reads0, powered .reset id, powered .reset id, .win, by decide +kernel, rfl, by decide +kernel⟩
theorem test_ObjectReadsWhatWasWritten_4 : ∃ (s : State) (i : Nat) (j : Nat) (v : Val) (i' : _) (j' : _), s.storesOk = true ∧ okey i' j' ≠ okey i j :=
  ⟨lead, 0x2E80, 4, (.u 3), 0x2E80, 5, by decide +kernel⟩
theorem test_WriteAnswersFirstFailingTest_1 : ∃ (c : Instr) (p : Path) (i : Nat) (j : Nat) (b : List Byte) (s : State) (a : _), writeOf c = some (p, i, j, b) ∧ s.up = true ∧ s.existsAbort i j = a ∧ a ≠ 0 :=
  ⟨(.genericWrite .panicle 0x1234 0 []), .panicle, 0x1234, 0, [], lead, 0x06020000, by decide +kernel⟩
theorem test_WriteAnswersFirstFailingTest_2 : ∃ (c : Instr) (p : Path) (i : Nat) (j : Nat) (b : List Byte) (s : State), writeOf c = some (p, i, j, b) ∧ s.up = true ∧ s.existsAbort i j = 0 ∧ (∀ r, findRow i j = some r → State.rowWrites r = false) :=
  ⟨(.genericWrite .panicle 0x2200 1 []), .panicle, 0x2200, 1, [], lead, by decide +kernel⟩
theorem test_WriteAnswersFirstFailingTest_3 : ∃ (c : Instr) (p : Path) (i : Nat) (j : Nat) (b : List Byte) (s : State) (r : _), writeOf c = some (p, i, j, b) ∧ s.up = true ∧ s.existsAbort i j = 0 ∧ findRow i j = some r ∧ State.rowWrites r = true ∧ s.permits p i j r = false :=
  ⟨(.tamperClear .panicle [1#8]), .panicle, 0x4830, 2, [1#8], lead, (rowOf 0x4830 2), by decide +kernel⟩
theorem test_WriteAnswersFirstFailingTest_4 : ∃ (c : Instr) (p : Path) (i : Nat) (j : Nat) (b : List Byte) (s : State) (r : _), writeOf c = some (p, i, j, b) ∧ s.up = true ∧ s.reaches p i j r ∧ lengthAbort r b ≠ 0 :=
  ⟨(.storeParameters .panicle 1 []), .panicle, 0x1010, 1, [], lead, (rowOf 0x1010 1), by decide +kernel⟩
theorem test_WriteAnswersFirstFailingTest_5 : ∃ (c : Instr) (p : Path) (i : Nat) (j : Nat) (b : List Byte) (s : State) (r : _), writeOf c = some (p, i, j, b) ∧ s.up = true ∧ s.reaches p i j r ∧ lengthAbort r b = 0 ∧ rangeAbort r (decodeVal r.ty b) ≠ 0 ∧ ¬(0x4200 ≤ i ∧ i ≤ 0x4203 ∧ 3 ≤ j ∧ j ≤ 0x0A) :=
  ⟨(.panicleRunWrite .panicle [9#8]), .panicle, 0x3C00, 2, [9#8], lead, (rowOf 0x3C00 2), by decide +kernel⟩
theorem test_WriteAnswersFirstFailingTest_61 : ∃ (c : Instr) (p : Path) (i : Nat) (j : Nat) (b : List Byte) (s : State) (r : _), writeOf c = some (p, i, j, b) ∧ s.up = true ∧ s.reaches p i j r ∧ lengthAbort r b = 0 ∧ rangeAbort r (decodeVal r.ty b) = 0 ∧ State.isCommand i = false ∧ r.acc = .rwm ∧ bit r.modes s.mode.mode = false :=
  ⟨(.sampleLengthWrite .panicle [16#8]), .panicle, 0x2030, 1, [16#8], (inMode 4 lead), (rowOf 0x2030 1), by decide +kernel⟩
theorem test_WriteAnswersFirstFailingTest_7 : ∃ (c : Instr) (p : Path) (i : Nat) (j : Nat) (b : List Byte) (s : State) (r : _), writeOf c = some (p, i, j, b) ∧ s.up = true ∧ s.reaches p i j r ∧ lengthAbort r b = 0 ∧ rangeAbort r (decodeVal r.ty b) = 0 ∧ (r.acc = .rwm → bit r.modes s.mode.mode = true) ∧ s.storing = true ∧ (i = 0x1010 ∨ i = 0x1011 ∨ i = 0x2010) :=
  ⟨(.storeParameters .panicle 1 (ascii "save")), .panicle, 0x1010, 1, (ascii "save"), storing, (rowOf 0x1010 1), by decide +kernel⟩
theorem test_SharedWriteOnlyOnLead_2 : ∃ (c : Instr) (p : Path) (i : Nat) (j : Nat) (b : List Byte) (r : Row) (s : State), writeOf c = some (p, i, j, b) ∧ s.up = true ∧ s.st.role ≠ 0 ∧ findRow i j = some r ∧ r.loc = false ∧ s.existsAbort i j = 0 ∧ State.rowWrites r = true ∧ State.mayWrite (s.roleOf p) i j = true ∧ s.husk.limited = false ∧ ∀ k u, p ≠ .mirror k u :=
  ⟨.genericWrite (.kdp 1) 0x2E80 4 [0, 0, 0, 0], .kdp 1, 0x2E80, 4, [0, 0, 0, 0], rowOf 0x2E80 4, { withRole lead .engineer with st := { lead.st with role := 1 } },
    by decide +kernel, by decide +kernel, by decide +kernel, by decide +kernel, by decide +kernel, by decide +kernel, by decide +kernel, by decide +kernel,
    by decide +kernel, by simp⟩
theorem test_AcceptedWriteTakesValue_11 : ∃ (c : Instr) (p : Path) (i : Nat) (j : Nat) (b : List Byte) (s : State) (r : Row) (v : Val), writeOf c = some (p, i, j, b) ∧ s.up = true ∧ s.storesOk = true ∧ s.writeTests p i j b = .ok (r, v) ∧ s.ruleAll p i j v = .store ∧ s.needsBulk r = false :=
  ⟨(.genericWrite .panicle 0x3400 1 (octets [3])), .panicle, 0x3400, 1, (octets [3]), lead, (rowOf 0x3400 1), (.u 3), by decide +kernel, by decide +kernel, by decide +kernel, ok_of (by decide +kernel), by decide +kernel⟩
theorem test_AcceptedWriteTakesValue_21 : ∃ (c : Instr) (p : Path) (i : Nat) (j : Nat) (b : List Byte) (s : State) (r : Row) (v : Val), writeOf c = some (p, i, j, b) ∧ s.up = true ∧ s.storesOk = true ∧ s.writeTests p i j b = .ok (r, v) ∧ s.ruleAll p i j v = .store ∧ s.needsBulk r = true :=
  ⟨.genericWrite (.kdp 1) 0x2EC0 0 loss1, .kdp 1, 0x2EC0, 0, loss1, withRole paired .engineer, rowOf 0x2EC0 0, .d loss1,
    by decide +kernel, by decide +kernel, by decide +kernel, ok_of (by decide +kernel), by decide +kernel⟩
theorem test_CommandSequenceRule_11 : ∃ (c : Instr) (i : Nat) (v : Val) (s : State), s.passes c i 0 v ∧ State.isCommand i = true ∧ s.storesOk = true ∧ (let w := v.asNat; let seq := w / 65536; let isMode := i == 0x2201; let last := s.objU 0x2202 1; let unset := bit (s.objU 0x2202 5) 0 = false; let d := (seq + 65536 - last) % 65536; let reason := if isMode then s.modeReason (w % 8) (bit w 8) else 0; (unset ∨ (1 ≤ d ∧ d ≤ 32767)) ∧ reason = 0) :=
  ⟨(.modeCommandStandby .panicle (8192*6)), 0x2201, (.u 0x60000), commanded, passes_of (by decide +kernel), by decide +kernel⟩
theorem test_CommandSequenceRule_27 : ∃ (c : Instr) (i : Nat) (v : Val) (s : State), s.passes c i 0 v ∧ State.isCommand i = true ∧ s.storesOk = true ∧ (let w := v.asNat; let seq := w / 65536; let isMode := i == 0x2201; let last := s.objU 0x2202 1; let unset := bit (s.objU 0x2202 5) 0 = false; let d := (seq + 65536 - last) % 65536; let reason := if isMode then s.modeReason (w % 8) (bit w 8) else 0; (unset ∨ (1 ≤ d ∧ d ≤ 32767)) ∧ reason ≠ 0 ∧ s.records = true) :=
  ⟨(.modeCommandTrack .panicle (8192*7)), 0x2201, (.u 0x70005), lead, passes_of (by decide +kernel), by decide +kernel⟩
theorem test_CommandSequenceRule_31 : ∃ (c : Instr) (i : Nat) (v : Val) (s : State), s.passes c i 0 v ∧ State.isCommand i = true ∧ s.storesOk = true ∧ (let w := v.asNat; let seq := w / 65536; let isMode := i == 0x2201; let last := s.objU 0x2202 1; let unset := bit (s.objU 0x2202 5) 0 = false; let d := (seq + 65536 - last) % 65536; ¬unset ∧ d = 0 ∧ w = s.mode.lastWord ∧ isMode = s.mode.lastIsMode) :=
  ⟨(.modeCommandStandby .panicle (8192*5)), 0x2201, (.u 0x50000), commanded, passes_of (by decide +kernel), by decide +kernel⟩
theorem test_CommandSequenceRule_4 : ∃ (c : Instr) (i : Nat) (v : Val) (s : State), s.passes c i 0 v ∧ State.isCommand i = true ∧ s.storesOk = true ∧ (let w := v.asNat; let seq := w / 65536; let isMode := i == 0x2201; let last := s.objU 0x2202 1; let unset := bit (s.objU 0x2202 5) 0 = false; let d := (seq + 65536 - last) % 65536; ¬unset ∧ d = 0 ∧ ¬(w = s.mode.lastWord ∧ isMode = s.mode.lastIsMode)) :=
  ⟨(.actionHoldRamps .panicle (256*5)), 0x2203, (.u 0x50003), (inMode 4 commanded), passes_of (by decide +kernel), by decide +kernel⟩
theorem test_CommandSequenceRule_51 : ∃ (c : Instr) (i : Nat) (v : Val) (s : State), s.passes c i 0 v ∧ State.isCommand i = true ∧ s.storesOk = true ∧ (let w := v.asNat; let seq := w / 65536; let isMode := i == 0x2201; let last := s.objU 0x2202 1; let unset := bit (s.objU 0x2202 5) 0 = false; let d := (seq + 65536 - last) % 65536; ¬unset ∧ 32767 < d) :=
  ⟨(.modeCommandStandby .panicle (8192*4)), 0x2201, (.u 0x40000), commanded, passes_of (by decide +kernel), by decide +kernel⟩
theorem test_RefusedModeCommandAnswers_6 : ∃ (c : Instr) (v : Val) (s : State), s.passes c 0x2201 0 v ∧ s.storesOk = true ∧ (let seq := v.asNat / 65536; let d := (seq + 65536 - s.objU 0x2202 1) % 65536; let reason := s.modeReason (v.asNat % 8) (bit v.asNat 8); (bit (s.objU 0x2202 5) 0 = false ∨ (1 ≤ d ∧ d ≤ 32767)) ∧ reason ≠ 0 ∧ s.records = true) :=
  ⟨(.genericWrite (.kdp 1) 0x2201 0 [1,0,5,0]), (.u 0x50001), (withRole lead .operator), passes_of (by decide +kernel), by decide +kernel⟩
theorem test_StoresAndRestores_111 : ∃ (p : Path) (j : Nat) (b : List Byte) (v : Val) (s : State), s.passes (.storeParameters p j b) 0x1010 j v ∧ v.asNat = 0x65766173 :=
  ⟨.panicle, 1, (ascii "save"), (.u 0x65766173), lead, passes_of (by decide +kernel), by decide +kernel⟩
theorem test_StoresAndRestores_12 : ∃ (p : Path) (j : Nat) (b : List Byte) (v : Val) (s : State), s.passes (.storeParameters p j b) 0x1010 j v ∧ v.asNat ≠ 0x65766173 :=
  ⟨.panicle, 1, (ascii "sava"), (.u 0x61766173), lead, passes_of (by decide +kernel), by decide +kernel⟩
theorem test_StoresAndRestores_21 : ∃ (p : Path) (j : Nat) (b : List Byte) (v : Val) (s : State), s.passes (.restoreDefaults p j b) 0x1011 j v ∧ v.asNat = 0x64616F6C :=
  ⟨.panicle, 3, (ascii "load"), (.u 0x64616F6C), lead, passes_of (by decide +kernel), by decide +kernel⟩
theorem test_StoresAndRestores_22 : ∃ (p : Path) (j : Nat) (b : List Byte) (v : Val) (s : State), s.passes (.restoreDefaults p j b) 0x1011 j v ∧ v.asNat ≠ 0x64616F6C :=
  ⟨.panicle, 3, (ascii "sava"), (.u 0x61766173), lead, passes_of (by decide +kernel), by decide +kernel⟩
theorem test_StoresAndRestores_31 : ∃ (s : State) (area : Nat) (start : Nat), s.acc.store = some (area, start) ∧ (∀ c, s.newestCopy = some c → storeOk c.vals = true) :=
  ⟨storing, 1, 0, by decide +kernel⟩
theorem test_StoresAndRestores_4 : ∃ (s : State), s.acc.store = none :=
  ⟨lead, by decide +kernel⟩
theorem test_ResultReadLatches_13 : ∃ (i : Nat) (l : List Val) (s : State) (j : _), j ≠ i :=
  ⟨0x2A41, [.u 3], lead, 0x2A42, by decide +kernel⟩
theorem test_ResultReadLatches_2 : ∃ (i : Nat) (s : State), (tget {} s.res i).back = none :=
  ⟨0x2A41, lead, by decide +kernel⟩
theorem test_ResultReadLatches_31 : ∃ (p : Path) (i : Nat) (r : ResRow) (s : State), s.up = true ∧ findRes i = some r ∧ s.existsAbort i 1 = 0 :=
  ⟨.panicle, 0x2A41, ((findRes 0x2A41).getD ⟨0,[],""⟩), lead, by decide +kernel⟩
theorem test_ResultReadLatches_43 : ∃ (p : Path) (now : Nat) (i : Nat) (t0 : Nat) (x : ResBuf) (s : State), (s.session p).latch = some (i, x, t0) ∧ t0 + 2000000000 ≤ max s.clk.time now :=
  ⟨(.kdp 1), 2000000000, 0x2A41, 0, ({} : ResBuf), latched, by decide +kernel⟩
theorem test_ResultReadLatches_44 : ∃ (p : Path) (now : Nat) (i : Nat) (t0 : Nat) (x : ResBuf) (s : State), (s.session p).latch = some (i, x, t0) ∧ max s.clk.time now < t0 + 2000000000 :=
  ⟨(.kdp 1), 1999999999, 0x2A41, 0, ({} : ResBuf), latched, by decide +kernel⟩
theorem test_StickyReadClears_11 : ∃ (c : Instr) (p : Path) (i : Nat) (j : Nat) (s : State) (r : _), stickyOf c = some (p, i, j) ∧ s.up = true ∧ s.existsAbort i j = 0 ∧ findRow i j = some r ∧ s.storesOk = true :=
  ⟨(.culmStickyRead .panicle 1), .panicle, 0x2C50, 1, (withObjs lead [(0x2C50, 1, .u 3)]), (rowOf 0x2C50 1), by decide +kernel⟩
theorem test_StickyReadClears_2 : ∃ (c : Instr) (p : Path) (i : Nat) (j : Nat) (s : State), stickyOf c = some (p, i, j) ∧ s.up = true ∧ s.existsAbort i j = 0 ∧ findRow i j = none :=
  ⟨(.culmStickyRead .panicle 0), .panicle, 0x2C50, 0, lead, by decide +kernel⟩
theorem test_StickyReadClears_3 : ∃ (c : Instr) (p : Path) (i : Nat) (j : Nat) (s : State), stickyOf c = some (p, i, j) ∧ s.up = true ∧ s.existsAbort i j ≠ 0 :=
  ⟨(.culmStickyRead .panicle 200), .panicle, 0x2C50, 200, lead, by decide +kernel⟩
theorem test_RestartAndHandOverCommands_14 : ∃ (p : Path) (v : Val) (s : State), s.passes (.restartWarmCommand p) 0x2020 0 v ∧ s.records = true :=
  ⟨.panicle, (.u 1), lead, passes_of (by decide +kernel), by decide +kernel⟩
theorem test_RestartAndHandOverCommands_24 : ∃ (p : Path) (v : Val) (s : State), s.passes (.restartColdCommand p) 0x2020 0 v ∧ s.records = true :=
  ⟨.panicle, (.u 2), lead, passes_of (by decide +kernel), by decide +kernel⟩
theorem test_RestartAndHandOverCommands_31 : ∃ (p : Path) (v : Val) (s : State), s.passes (.panicleRestartWarm p) 0x3C03 0 v :=
  ⟨.panicle, (.u 1), lead, passes_of (by decide +kernel)⟩
theorem test_RestartAndHandOverCommands_41 : ∃ (p : Path) (v : Val) (s : State), s.passes (.panicleRestartCold p) 0x3C03 0 v :=
  ⟨.panicle, (.u 2), lead, passes_of (by decide +kernel)⟩
theorem test_RestartAndHandOverCommands_51 : ∃ (p : Path) (b : List Byte) (v : Val) (s : State), s.passes (.handLeadToUnit p b) 0x3E20 0 v ∧ (let u := v.asNat; let can := u ≠ s.st.unitId ∧ (s.unit u).joined = true ∧ s.gone u = false ∧ (s.unit u).mirrorDeg = false; can) :=
  ⟨.panicle, [1#8], (.u 1), paired, passes_of (by decide +kernel), by decide +kernel⟩
theorem test_RestartAndHandOverCommands_52 : ∃ (p : Path) (b : List Byte) (v : Val) (s : State), s.passes (.handLeadToUnit p b) 0x3E20 0 v ∧ (let u := v.asNat; let can := u ≠ s.st.unitId ∧ (s.unit u).joined = true ∧ s.gone u = false ∧ (s.unit u).mirrorDeg = false; ¬can) :=
  ⟨.panicle, [2#8], (.u 2), paired, passes_of (by decide +kernel), by decide +kernel⟩
theorem test_ActingWrites_1 : ∃ (p : Path) (b : List Byte) (v : Val) (s : State), s.passes (.observerReset p b) 0x2A10 1 v ∧ v.asNat = 1 :=
  ⟨.panicle, [1#8], (.u 1), lead, passes_of (by decide +kernel), by decide +kernel⟩
theorem test_ActingWrites_21 : ∃ (p : Path) (j : Nat) (b : List Byte) (v : Val) (s : State), s.passes (.referenceSelection p j b) 0x2240 j v ∧ s.storesOk = true :=
  ⟨.panicle, 1, (octets [1,0,0,0]), (.u 1), lead, passes_of (by decide +kernel), by decide +kernel⟩
theorem test_ActingWrites_31 : ∃ (p : Path) (b : List Byte) (v : Val) (s : State), s.passes (.spoofingClear p b) 0x3611 0 v ∧ v.asNat = 1 ∧ (let early := s.clk.time < s.gn.lastPair + State.ns (s.cfgR 0x3610 0x0D) ∧ s.gn.lastPair ≠ 0; ¬early) :=
  ⟨.panicle, [1#8], (.u 1), lead, passes_of (by decide +kernel), by decide +kernel⟩
theorem test_ActingWrites_32 : ∃ (p : Path) (b : List Byte) (v : Val) (s : State), s.passes (.spoofingClear p b) 0x3611 0 v ∧ v.asNat = 1 ∧ (let early := s.clk.time < s.gn.lastPair + State.ns (s.cfgR 0x3610 0x0D) ∧ s.gn.lastPair ≠ 0; early) :=
  ⟨.panicle, [1#8], (.u 1), { lead with gn := { lead.gn with lastPair := 1 } }, passes_of (by decide +kernel), by decide +kernel⟩
theorem test_ActingWrites_4 : ∃ (p : Path) (b : List Byte) (v : Val) (x : Snap) (s : State), s.passes (.archiveSelected p b) 0x3621 3 v ∧ tfind s.gn.snaps (s.cfgU 0x3621 1) = some x :=
  ⟨.panicle, [1#8], (.u 1), noSnap, { lead with gn := { lead.gn with snaps := [(0, noSnap)] } }, passes_of (by decide +kernel), by decide +kernel⟩
theorem test_ActingWrites_5 : ∃ (p : Path) (b : List Byte) (v : Val) (x : Snap) (s : State), s.passes (.keepSelected p b) 0x3621 4 v ∧ tfind s.gn.snaps (s.cfgU 0x3621 1) = some x :=
  ⟨.panicle, [1#8], (.u 1), noSnap, { lead with gn := { lead.gn with snaps := [(0, noSnap)] } }, passes_of (by decide +kernel), by decide +kernel⟩
theorem test_ActingWrites_610 : ∃ (p : Path) (b : List Byte) (v : Val) (k : Nat) (s : State), s.passes (.snapshotCaptureCommand p b) 0x3620 1 v ∧ v.asNat = 1 ∧ s.gnOn = true ∧ (List.range 64).find? (fun k => (tfind s.gn.snaps k).isNone) = some k ∧ s.records = true :=
  ⟨.panicle, [1#8], (.u 1), 0, lead, passes_of (by decide +kernel), by decide +kernel⟩
theorem test_ActingWrites_711 : ∃ (p : Path) (b : List Byte) (v : Val) (s : State) (e : _), s.passes (.acceptJump p b) 0x3802 0 v ∧ v.asNat = 1 ∧ (List.range 8).find? (fun e => s.srcOn e && (s.src e).refused) = some e :=
  ⟨.panicle, [1#8], (.u 1), refusedSrc, 0, passes_of (by decide +kernel), by decide +kernel⟩
theorem test_ActingWrites_72 : ∃ (p : Path) (b : List Byte) (v : Val) (s : State), s.passes (.acceptJump p b) 0x3802 0 v ∧ v.asNat = 1 ∧ (List.range 8).find? (fun e => s.srcOn e && (s.src e).refused) = none :=
  ⟨.panicle, [1#8], (.u 1), refused, passes_of (by decide +kernel), by decide +kernel⟩
theorem test_ActingWrites_81 : ∃ (p : Path) (n : Nat) (b : List Byte) (v : Val) (s : State), s.passes (.serialTransmit p n b) (0x4420 + n) 0 v ∧ (let can := s.cfgU (0x4400 + n) 1 ≠ 0 ∧ s.cfgU (0x4400 + n) 4 ≠ 0 ∧ (s.serial n).tx = none; can) :=
  ⟨.panicle, 2, [65#8], (.d [65#8]), portUp, passes_of (by decide +kernel), by decide +kernel⟩
theorem test_ActingWrites_82 : ∃ (p : Path) (n : Nat) (b : List Byte) (v : Val) (s : State), s.passes (.serialTransmit p n b) (0x4420 + n) 0 v ∧ (let can := s.cfgU (0x4400 + n) 1 ≠ 0 ∧ s.cfgU (0x4400 + n) 4 ≠ 0 ∧ (s.serial n).tx = none; ¬can) :=
  ⟨.panicle, 2, [65#8], (.d [65#8]), lead, passes_of (by decide +kernel), by decide +kernel⟩
theorem test_ActingWrites_91 : ∃ (p : Path) (c : Nat) (b : List Byte) (v : Val) (s : State), s.passes (.canRestart p c b) (0x4200 + c) 0x0D v ∧ v.asNat = 1 :=
  ⟨.panicle, 1, [1#8], (.u 1), busOff, passes_of (by decide +kernel), by decide +kernel⟩
theorem test_IdentityAndFirmwareWrites_111 : ∃ (p : Path) (b : List Byte) (v : Val) (s : State), s.passes (.ownerCaEnrolment p b) 0x4810 0 v ∧ s.storesOk = true ∧ (s.objD 0x4810 0 = [] ∨ (s.session p).owner = true) :=
  ⟨(.kdp 1), [1#8], (.d [1#8]), serviced, passes_of (by decide +kernel), by decide +kernel⟩
theorem test_IdentityAndFirmwareWrites_12 : ∃ (p : Path) (b : List Byte) (v : Val) (s : State), s.passes (.ownerCaEnrolment p b) 0x4810 0 v ∧ s.storesOk = true ∧ s.objD 0x4810 0 ≠ [] ∧ (s.session p).owner = false :=
  ⟨(.kdp 1), [1#8], (.d [1#8]), (withObjs serviced [(0x4810, 0, .d [2#8])]), passes_of (by decide +kernel), by decide +kernel⟩
theorem test_IdentityAndFirmwareWrites_2 : ∃ (p : Path) (b : List Byte) (v : Val) (s : State), s.passes (.revocationListLoad p b) 0x4811 0 v ∧ s.storesOk = true ∧ s.objD 0x4810 0 ≠ [] :=
  ⟨.kdp 1, [1#8], .d [1#8], withObjs serviced [(0x4810, 0, .d [1#8])], passes_of (by decide +kernel), by decide +kernel⟩
theorem test_IdentityAndFirmwareWrites_23 : ∃ (p : Path) (b : List Byte) (v : Val) (s : State), s.passes (.revocationListLoad p b) 0x4811 0 v ∧ s.storesOk = true ∧ ¬(s.objD 0x4810 0 ≠ [] ∧ Config.crlSignedBy v.asBytes (s.objD 0x4810 0) = true) :=
  ⟨(.kdp 1), [1#8], (.d [1#8]), serviced, passes_of (by decide +kernel), by decide +kernel⟩
theorem test_IdentityAndFirmwareWrites_3 : ∃ (p : Path) (k : Nat) (b : List Byte) (v : Val) (s : State), s.passes (.firmwareSlotWrite p k b) 0x4821 (k + 1) v ∧ k ≠ s.st.slot ∧ s.records = true :=
  ⟨.kdp 1, 1, [1#8], .d [1#8], serviced, passes_of (by decide +kernel), by decide +kernel⟩
theorem test_IdentityAndFirmwareWrites_331 : ∃ (p : Path) (k : Nat) (b : List Byte) (v : Val) (s : State), s.passes (.firmwareSlotWrite p k b) 0x4821 (k + 1) v ∧ ¬(k ≠ s.st.slot ∧ s.imageBad v.asBytes = 0) :=
  ⟨(.kdp 1), 1, [1#8], (.d [1#8]), serviced, passes_of (by decide +kernel), by decide +kernel⟩
theorem test_IdentityAndFirmwareWrites_44 : ∃ (p : Path) (b : List Byte) (v : Val) (s : State), s.passes (.antiRollbackCommit p b) 0x4820 4 v ∧ s.storesOk = true ∧ s.records = true :=
  ⟨(.kdp 1), [1#8], (.u 1), serviced, passes_of (by decide +kernel), by decide +kernel⟩
theorem test_IdentityAndFirmwareWrites_56 : ∃ (p : Path) (b : List Byte) (v : Val) (s : State), s.passes (.tamperClear p b) 0x4830 2 v ∧ v.asNat = 1 ∧ s.records = true :=
  ⟨(.kdp 1), [1#8], (.u 1), audited, passes_of (by decide +kernel), by decide +kernel⟩
theorem test_IdentityAndFirmwareWrites_63 : ∃ (s : State), (s.st.power = .off ∨ s.st.power = .reset) :=
  ⟨{ lead with st := { lead.st with power := .off } }, by decide +kernel⟩
theorem test_IdentityAndFirmwareWrites_643 : ∃ (s : State), s.st.power ≠ .off ∧ s.st.power ≠ .reset ∧ s.records = true :=
  ⟨lead, by decide +kernel⟩
theorem test_ClearingTokenRule_2 : ∃ (p : Path) (b : List Byte) (v : Val) (s : State), s.passes (.clearingToken p b) 0x4630 2 v ∧ s.storesOk = true ∧ leAt v.asBytes 16 8 = s.gran.challenge ∧ 58 ≤ v.asBytes.length ∧ s.gran.reg.length < 256 :=
  ⟨.kdp 1, token 0, .d (token 0), audited, passes_of (by decide +kernel), by decide +kernel⟩
theorem test_ClearingTokenRule_41 : ∃ (p : Path) (b : List Byte) (v : Val) (s : State), s.passes (.clearingToken p b) 0x4630 2 v ∧ s.storesOk = true ∧ (let k := v.asBytes; let n := leAt k 56 2; let q := leAt k 24 4; let kid := slice k 36 20; let fits := 58 ≤ k.length ∧ slice k 0 4 = ascii "KGCT" ∧ leAt k 4 2 = 1 ∧ leAt k 6 2 = 0 ∧ leAt k 8 4 = s.objU 0x1018 2 ∧ leAt k 12 4 = s.objU 0x1018 4; let fresh := leAt k 16 8 = s.gran.challenge; let c := s.certOk 3 kid; let signed := c.1 = true ∧ n ≤ 104 ∧ k.length = 58 + n ∧ Config.ecdsaVerify (Config.publicKey kid) (k.take 56) (slice k 58 n) = true; let reached := State.notAfter q ((c.2.gran.next + 2 ^ 32 - 1) % 2 ^ 32) = true; let room := s.gran.reg.length < 256; ¬(fits ∧ fresh ∧ signed ∧ reached ∧ room)) :=
  ⟨(.kdp 1), [1#8], (.d [1#8]), audited, passes_of (by decide +kernel), by decide +kernel⟩
theorem test_ClearingTokenRule_5 : ∃ (p : Path) (b : List Byte) (v : Val) (s : State), s.passes (.clearingToken p b) 0x4630 2 v ∧ s.storesOk = true ∧ (let k := v.asBytes; let n := leAt k 56 2; let q := leAt k 24 4; let kid := slice k 36 20; let fits := 58 ≤ k.length ∧ slice k 0 4 = ascii "KGCT" ∧ leAt k 4 2 = 1 ∧ leAt k 6 2 = 0 ∧ leAt k 8 4 = s.objU 0x1018 2 ∧ leAt k 12 4 = s.objU 0x1018 4; let c := s.certOk 3 kid; s.records = true ∧ ¬fits) :=
  ⟨(.kdp 1), [1#8], (.d [1#8]), audited, passes_of (by decide +kernel), by decide +kernel⟩
theorem test_ClearingTokenRule_6 : ∃ (p : Path) (b : List Byte) (v : Val) (s : State), s.passes (.clearingToken p b) 0x4630 2 v ∧ s.storesOk = true ∧ (let k := v.asBytes; let n := leAt k 56 2; let q := leAt k 24 4; let kid := slice k 36 20; let fits := 58 ≤ k.length ∧ slice k 0 4 = ascii "KGCT" ∧ leAt k 4 2 = 1 ∧ leAt k 6 2 = 0 ∧ leAt k 8 4 = s.objU 0x1018 2 ∧ leAt k 12 4 = s.objU 0x1018 4; let fresh := leAt k 16 8 = s.gran.challenge; let c := s.certOk 3 kid; s.records = true ∧ fits ∧ ¬fresh) :=
  ⟨(.kdp 1), (token 1), (.d (token 1)), audited, passes_of (by decide +kernel), by decide +kernel⟩
theorem test_EventStoreKeepsOrder_11 : ∃ (worn : Option Nat) (s : State), s.st.power ≠ .off ∧ s.st.power ≠ .reset ∧ s.pageDue = true ∧ s.gran.held.length + 32 ≤ State.storeSize :=
  ⟨none, page32, by decide +kernel⟩
theorem test_EventStoreKeepsOrder_21 : ∃ (j : SigJob) (s : State), s.st.power ≠ .off ∧ s.st.power ≠ .reset ∧ s.gran.sig = some j ∧ s.gran.clearing = none :=
  ⟨⟨5, 0⟩, { page32 with gran := { page32.gran with sig := some ⟨5, 0⟩ } }, by decide +kernel⟩
theorem test_EventStoreKeepsOrder_3 : ∃ (p : Path) (s : State), s.up = true :=
  ⟨(.kdp 1), { page32 with gran := { page32.gran with held := page32.gran.queue } }, by decide +kernel⟩
theorem test_StagesPublish_1 : ∃ (s : State), s.up = true ∧ s.fOff = 1 :=
  ⟨(leadAt 1), by decide +kernel⟩
theorem test_StagesPublish_3 : ∃ (s : State), s.up = true ∧ s.fOff = 2 :=
  ⟨(leadAt 2), by decide +kernel⟩
theorem test_StagesPublish_4 : ∃ (s : State), s.up = true ∧ s.fOff = 3 :=
  ⟨(leadAt 3), by decide +kernel⟩
theorem test_StagesPublish_6 : ∃ (s : State) (sol : _), s.up = true ∧ s.fOff = 7 ∧ s.ctl.till.sol = some sol :=
  ⟨{ leadAt 7 with ctl := { lead.ctl with till := { lead.ctl.till with sol := some sol1 } } }, sol1, by decide +kernel⟩
theorem test_StagesPublish_7 : ∃ (s : State), s.up = true ∧ s.fOff + 1 = s.clk.n :=
  ⟨(leadAt 15), by decide +kernel⟩
theorem test_StageOverruns_1 : ∃ (s : State), s.up = true ∧ s.storesOk = true ∧ s.fOff = 1 :=
  ⟨(leadAt 1), by decide +kernel⟩
theorem test_StageOverruns_105 : ∃ (s : State) (lane : Nat × Nat), s.up = true ∧ s.storesOk = true ∧ s.ctl.innerOver.contains s.clk.frame = true ∧ s.records = true :=
  ⟨(innerOver (leadAt 3)), (1, 2), by decide +kernel⟩
theorem test_StageOverruns_11 : ∃ (s : State) (k : _), s.up = true ∧ s.storesOk = true ∧ k < 256 ∧ (s.chan k).ran = false :=
  ⟨(leadAt 3), 5, by decide +kernel⟩
theorem test_StageOverruns_3 : ∃ (s : State), s.up = true ∧ s.storesOk = true ∧ s.fOff = 2 :=
  ⟨(leadAt 2), by decide +kernel⟩
theorem test_StageOverruns_49 : ∃ (s : State) (lane : Option (Nat × Nat)), s.up = true ∧ s.storesOk = true ∧ s.fOff = 3 ∧ (lane.isSome ∨ s.ctl.culm.published = false) ∧ s.ctl.culm.residue = false ∧ (let n := (s.overruns100 s.ctl.culm.overs).length; 5 ≤ n) :=
  ⟨(overBefore 3), none, by decide +kernel⟩
theorem test_StageOverruns_56 : ∃ (s : State) (lane : Nat × Nat), s.up = true ∧ s.storesOk = true ∧ s.fOff = 3 ∧ s.ctl.culm.residue = true ∧ s.records = true :=
  ⟨(residual (leadAt 3)), (1, 2), by decide +kernel⟩
theorem test_StageOverruns_6 : ∃ (s : State), s.up = true ∧ s.storesOk = true ∧ s.fOff = 7 ∧ s.tillerDone = false :=
  ⟨(leadAt 7), by decide +kernel⟩
theorem test_StageOverruns_76 : ∃ (s : State) (residue : Bool), s.up = true ∧ s.storesOk = true ∧ s.fOff = 3 ∧ (residue = true ∨ s.ctl.stub.published = false) ∧ (s.ctl.stub.core.driving = true ∨ s.ctl.stub.core.cause.isSome) :=
  ⟨(withStub (leadAt 3) { core := { driving := true } }), false, by decide +kernel⟩
theorem test_StageOverruns_771 : ∃ (s : State) (residue : Bool), s.up = true ∧ s.storesOk = true ∧ s.fOff = 3 ∧ (residue = true ∨ s.ctl.stub.published = false) ∧ s.ctl.stub.core.driving = false ∧ s.ctl.stub.core.cause = none :=
  ⟨(leadAt 3), false, by decide +kernel⟩
theorem test_StageOverruns_810 : ∃ (s : State), s.up = true ∧ s.storesOk = true ∧ (let n := (s.ctl.plant.overs.filter fun f => s.clk.frame < f + 800).length + 1; n < 3) :=
  ⟨(leadAt 3), by decide +kernel⟩
theorem test_StageOverruns_84 : ∃ (s : State), s.up = true ∧ s.storesOk = true ∧ s.fOff = 3 :=
  ⟨(leadAt 3), by decide +kernel⟩
theorem test_StageOverruns_89 : ∃ (s : State), s.up = true ∧ s.storesOk = true ∧ (let n := (s.ctl.plant.overs.filter fun f => s.clk.frame < f + 800).length + 1; 3 ≤ n) :=
  ⟨(overBefore 3), by decide +kernel⟩
theorem test_StageOverruns_94 : ∃ (s : State) (lane : Option (Nat × Nat)), s.up = true ∧ s.storesOk = true ∧ s.ctl.innerOver.contains s.clk.frame = false ∧ (let n := (s.ctl.innerOver.filter fun f => s.clk.frame < f + 800).length + 1; 3 ≤ n) :=
  ⟨(overBefore 3), none, by decide +kernel⟩
theorem test_StageOverruns_95 : ∃ (s : State) (lane : Option (Nat × Nat)), s.up = true ∧ s.storesOk = true ∧ s.ctl.innerOver.contains s.clk.frame = false ∧ (let n := (s.ctl.innerOver.filter fun f => s.clk.frame < f + 800).length + 1; n < 3) :=
  ⟨(leadAt 3), none, by decide +kernel⟩
theorem test_FrameAndSampleBoundaries_1 : ∃ (r : Readings) (s : State), (s.st.power = .off ∨ s.st.power = .reset) :=
  ⟨reads0, (powered .reset id), by decide +kernel⟩
theorem test_FrameAndSampleBoundaries_241 : ∃ (r : Readings) (s : State), s.st.power ≠ .off ∧ s.st.power ≠ .reset ∧ (let clk := { s.clk with frame := s.clk.frame + 1, time := s.tb.next, bound := s.tb.next }; s.st.power = .stopped) :=
  ⟨reads0, { leadAt 3 with st := { lead.st with power := .stopped } }, by decide +kernel⟩
theorem test_FrameAndSampleBoundaries_25 : ∃ (r : Readings) (s : State), s.st.power ≠ .off ∧ s.st.power ≠ .reset ∧ (let clk := { s.clk with frame := s.clk.frame + 1, time := s.tb.next, bound := s.tb.next }; s.st.power ≠ .running ∧ s.st.power ≠ .stopped) :=
  ⟨reads0, (powered (.starting 5) id), by decide +kernel⟩
theorem test_FrameAndSampleBoundaries_31 : ∃ (s : State), s.atF0 = true ∧ s.st.ordered = none :=
  ⟨(leadAt 16), by decide +kernel⟩
theorem test_FrameAndSampleBoundaries_4 : ∃ (s : State), s.atF0 = false :=
  ⟨(leadAt 3), by decide +kernel⟩
theorem test_InnerLoops_3 : ∃ (s : State), s.up = true ∧ s.st.role = 0 ∧ s.mode.mode ≠ 7 :=
  ⟨(leadAt 0), by decide +kernel⟩
theorem test_InnerLoops_4 : ∃ (s : State), s.up = true ∧ (s.st.role ≠ 0 ∨ s.mode.mode = 7) :=
  ⟨(inMode 7 (leadAt 3)), by decide +kernel⟩
theorem test_InnerLoops_5 : ∃ s : State, s.up = true ∧ ∃ j ∈ s.thrusters, s.fOff % s.cfgU (0x2C80 + j) 1 = 0 ∧ (s.mode.mode = 0 ∨ s.mode.mode = 6) :=
  ⟨vesselIn 3 0, by decide +kernel, 1, by decide +kernel⟩
theorem test_InnerLoops_6 : ∃ (s : State) (i j : Nat), s.up = true ∧ s.mode.mode ≠ 0 ∧ s.mode.mode ≠ 6 ∧
    (s.thrusters.filter fun j => s.fOff % s.cfgU (0x2C80 + j) 1 == 0)[i]? = some j ∧ s.rampFree j = false ∧
    (match exec .innerLoopRun s with
      | .next t => t.rampFree j
      | _ => true) = false ∧ 0 ≤ (s.desc j).ramp :=
  ⟨vesselIn 0 4, 0, 0, by decide +kernel⟩
theorem test_InnerLoops_71 : ∃ s : State, s.up = true ∧ ∃ j ∈ s.thrusters, s.fOff % s.cfgU (0x2C80 + j) 1 ≠ 0 :=
  ⟨withObjs (vesselIn 3 1) [(0x2C82, 1, .u 4)], by decide +kernel, 2, by decide +kernel⟩
theorem test_PlantEvents_15 : ∃ (k : Nat) (x : Bool) (s : State), s.up = true ∧ k < 48 ∧ s.contactsOf.contains k = true ∧ (s.contact k).cand = some x ∧ x ≠ (s.contact k).closed ∧ s.cfgU 0x3400 1 ≤ (s.contact k).count ∧ s.fOff = 3 :=
  ⟨0, true, contactDue, by decide +kernel⟩
theorem test_PlantEvents_24 : ∃ (k : Nat) (a : Nat) (c : Nat) (s : State), s.up = true ∧ tfind s.ctl.plant.core.lr k = some a ∧ tfind s.ctl.plant.core.calm k = some c ∧ a + State.ns (s.cfgR 0x3400 7) ≤ s.clk.time ∧ c + State.ns (s.cfgR 0x3400 8) ≤ s.clk.time ∧ s.records = true :=
  ⟨1, 0, 0, lrDueLate, by decide +kernel⟩
theorem test_PlantEvents_31 : ∃ (k : Nat) (b : Nat) (s : State), s.up = true ∧ s.contactsOf.contains k = true ∧ s.lostBinding k = some b ∧ (s.contact k).lost = false :=
  ⟨1, 0x02050007, (vesselAt 3), by decide +kernel⟩
theorem test_PlantEvents_41 : ∃ (k : Nat) (s : State), s.up = true ∧ s.contactsOf.contains k = true ∧ (s.contactLost k = false ∨ (s.contact k).lost = true) ∧ s.cfgU 0x3400 1 ≤ (s.contact k).alike ∧ (s.contact k).disc = false :=
  ⟨0, contactAlike, by decide +kernel⟩
theorem test_SolveAndApply_16 : ∃ (forced : Option (Nat × Nat)) (s : State), s.up = true ∧ s.fOff = 4 ∧ forced ≠ none :=
  ⟨(some (1,1)), (vesselIn 4 4), by decide +kernel⟩
theorem test_SolveAndApply_2 : ∃ (s : State), s.up = true ∧ s.fOff = 8 :=
  ⟨(vesselIn 8 4), by decide +kernel⟩
theorem test_CasesAndAlarm_11 : ∃ (faults : List (Nat × Nat)) (s : State), s.up = true ∧ s.fOff = 4 :=
  ⟨[], (vesselIn 4 4), by decide +kernel⟩
theorem test_CasesAndAlarm_13 : ∃ (s : State) (c : Nat) (x : CaseSt), s.up = true ∧ s.fOff = 4 ∧ s.caseNums.contains c = true ∧ s.caseType c ≠ 5 ∧
    s.st.role ≠ 2 ∧ s.skippedCases.contains c = true ∧ tfind s.ctl.stook.cases c = some x :=
  ⟨{ withStook (smallIn 4 4) { ranking := (List.range 16).map (· + 1) ++ [0], cases := [(0, {})] } with therm := { lead.therm with steps := 100 } },
    0, {}, by decide +kernel⟩
theorem test_CasesAndAlarm_21 : ∃ (faults : List (Nat × Nat)) (s : State), s.up = true ∧ 4 < s.fOff ∧ s.therm.cap = true :=
  ⟨[], (sweepWaits true), by decide +kernel⟩
theorem test_CasesAndAlarm_221 : ∃ (faults : List (Nat × Nat)) (s : State), s.up = true ∧ 4 < s.fOff ∧ s.therm.cap = false :=
  ⟨[], (sweepWaits false), by decide +kernel⟩
theorem test_CasesAndAlarm_34 : ∃ (s : State), s.up = true ∧ s.fOff + 1 = s.clk.n ∧ s.ctl.stook.setDue = false ∧ s.alarmSets = true ∧ s.records = true :=
  ⟨(withStook (vesselIn 15 4) { below := 1000000, ranking := [0] }), by decide +kernel⟩
theorem test_CasesAndAlarm_44 : ∃ (s : State), s.up = true ∧ s.fOff + 1 = s.clk.n ∧ s.ctl.stook.setDue = false ∧ s.alarmSets = false ∧ s.alarmClears = true ∧ s.records = true :=
  ⟨(withStook (vesselIn 15 4) { full := 1000000, alarm := true }), by decide +kernel⟩
theorem test_CasesAndAlarm_51 : ∃ (j : Nat) (s : State), s.up = true ∧ s.driveSilent j = true :=
  ⟨1, (silentNow), by decide +kernel⟩
theorem test_SerialAndIntake_11 : ∃ (p : Nat) (s : State), s.storesOk = true ∧ (portOn s p 1 = true ∨ portOn s p 2 = true) ∧ portDeaf s p = false :=
  ⟨2, listening, by decide +kernel⟩
theorem test_SerialAndIntake_21 : ∃ (p : Nat) (arrival : Nat) (text : List Byte) (s : State), s.storesOk = true ∧ portOn s p 1 = true ∧ portDeaf s p = false :=
  ⟨2, 500000000, (line "$HEHDT,100.0,T*2E"), listening, by decide +kernel⟩
theorem test_SerialAndIntake_31 : ∃ (p : Nat) (arrival : Nat) (b : List Byte) (s : State), s.storesOk = true ∧ portOn s p 2 = true ∧ portDeaf s p = false ∧ s.delimited p b = false :=
  ⟨3, 500000000, (octets [1,2,3]), listening, by decide +kernel⟩
theorem test_SerialAndIntake_32 : ∃ (p : Nat) (arrival : Nat) (b : List Byte) (s : State), s.storesOk = true ∧ portOn s p 2 = true ∧ portDeaf s p = false ∧ s.delimited p b = true :=
  ⟨3, 500000000, (octets [1,2,3,4]), listening, by decide +kernel⟩
theorem test_SerialAndIntake_4 : ∃ (p : Nat) (s : State), s.up = true ∧ (s.serial p).tx.isSome :=
  ⟨2, sending, by decide +kernel⟩
theorem test_SerialAndIntake_521 : ∃ (e : Nat) (port : Nat) (arrival : Nat) (d : List Byte) (s : State), s.up = true ∧ s.storesOk = true ∧ e < 64 ∧ s.cfgB (0x4430 + e) 1 = true ∧ port < 4 ∧ bit (s.cfgU (0x4430 + e) 4) port = true ∧ (let head := d.take 6 = ascii "UdPbC" ++ [0#8]; let lines := ((splitAt' 0x0A#8 (d.drop 6)).filter (· != [])).map fun l => State.datagramLine (l ++ [0x0A#8]); ¬head) :=
  ⟨1, 0, 500000000, (octets [1,2,3]), intakeOn, by decide +kernel⟩
theorem test_SerialAndIntake_531 : ∃ (e : Nat) (port : Nat) (arrival : Nat) (d : List Byte) (s : State), s.up = true ∧ s.storesOk = true ∧ e < 64 ∧ s.cfgB (0x4430 + e) 1 = true ∧ port < 4 ∧ bit (s.cfgU (0x4430 + e) 4) port = true ∧ (let head := d.take 6 = ascii "UdPbC" ++ [0#8]; let lines := ((splitAt' 0x0A#8 (d.drop 6)).filter (· != [])).map fun l => State.datagramLine (l ++ [0x0A#8]); head ∧ lines.any (fun x => x.1.isNone) = true) :=
  ⟨1, 0, 500000000, (ascii "UdPbC" ++ [0#8] ++ line "\\s:GP0001,n:12*00\\$HEHDT"), intakeOn, by decide +kernel⟩
theorem test_SerialAndIntake_54 : ∃ (e : Nat) (port : Nat) (arrival : Nat) (d : List Byte) (s : State), s.up = true ∧ s.storesOk = true ∧ e < 64 ∧ s.cfgB (0x4430 + e) 1 = true ∧ port < 4 ∧ bit (s.cfgU (0x4430 + e) 4) port = true ∧ (let head := d.take 6 = ascii "UdPbC" ++ [0#8]; let lines := ((splitAt' 0x0A#8 (d.drop 6)).filter (· != [])).map fun l => State.datagramLine (l ++ [0x0A#8]); let tags := (lines.filterMap fun x => x.1.getD none).flatten; head ∧ lines.any (fun x => x.1.isNone) = false ∧ tags = [] ∧ s.cfgD (0x4430 + e) 5 = []) :=
  ⟨1, 0, 500000000, (ascii "UdPbC" ++ [0#8] ++ line "$HEHDT,100.0,T*2E"), intakeOn, by decide +kernel⟩
theorem test_ImuAndReference_11 : ∃ (i : Nat) (t0 : Nat) (s : State), s.up = true ∧ i < 2 ∧ s.cfgB (0x4470 + i) 1 = true ∧ (s.imu i).reading = none :=
  ⟨1, 500000000, imuOn, by decide +kernel⟩
theorem test_ImuAndReference_121 : ∃ (i : Nat) (t0 : Nat) (s : State) (t1 : _), s.up = true ∧ i < 2 ∧ s.cfgB (0x4470 + i) 1 = true ∧ (s.imu i).reading = some t1 ∧ s.storesOk = true :=
  ⟨1, 500000000, imuReads, 500000000, by decide +kernel⟩
theorem test_ImuAndReference_231 : ∃ (i : Nat) (t0 : Nat) (b : List Byte) (s : State), s.up = true ∧ i < 2 ∧ s.storesOk = true ∧ (s.imu i).reading = some t0 ∧ (let idx := 0x4470 + i; let field := fun k => if bit (s.cfgU idx (0x0B + k)) 31 then (rawField (s.cfgU idx (0x0B + k)) b).map fun r => (r.1 * s.cfgR idx (0x12 + k), r.2) else some (0, true); let good := b.length = s.cfgU idx 8 ∧ checkOk (s.cfgU idx 0x0A) 0 b = true ∧ ∀ k < 7, (field k).map (·.2) = some true; ¬good) :=
  ⟨1, 500000000, (octets [1,2,3]), imuReads, by decide +kernel⟩
theorem test_ImuAndReference_245 : ∃ (i : Nat) (t0 : Nat) (b : List Byte) (s : State), s.up = true ∧ i < 2 ∧ s.storesOk = true ∧ (s.imu i).reading = some t0 ∧ (let idx := 0x4470 + i; let field := fun k => if bit (s.cfgU idx (0x0B + k)) 31 then (rawField (s.cfgU idx (0x0B + k)) b).map fun r => (r.1 * s.cfgR idx (0x12 + k), r.2) else some (0, true); let good := b.length = s.cfgU idx 8 ∧ checkOk (s.cfgU idx 0x0A) 0 b = true ∧ ∀ k < 7, (field k).map (·.2) = some true; good ∧ (s.imu i).fault = false) :=
  ⟨1, 500000000, (octets [1,2,3,4]), imuReads, by decide +kernel⟩
theorem test_ImuAndReference_2461 : ∃ (i : Nat) (t0 : Nat) (b : List Byte) (s : State), s.up = true ∧ i < 2 ∧ s.storesOk = true ∧ (s.imu i).reading = some t0 ∧ (let idx := 0x4470 + i; let field := fun k => if bit (s.cfgU idx (0x0B + k)) 31 then (rawField (s.cfgU idx (0x0B + k)) b).map fun r => (r.1 * s.cfgR idx (0x12 + k), r.2) else some (0, true); let good := b.length = s.cfgU idx 8 ∧ checkOk (s.cfgU idx 0x0A) 0 b = true ∧ ∀ k < 7, (field k).map (·.2) = some true; good ∧ (s.imu i).fault = true ∧ (s.imu i).good < 99) :=
  ⟨1, 500000000, (octets [1,2,3,4]), (imuFailed 98), by decide +kernel⟩
theorem test_ImuAndReference_2471 : ∃ (i : Nat) (t0 : Nat) (b : List Byte) (s : State), s.up = true ∧ i < 2 ∧ s.storesOk = true ∧ (s.imu i).reading = some t0 ∧ (let idx := 0x4470 + i; let field := fun k => if bit (s.cfgU idx (0x0B + k)) 31 then (rawField (s.cfgU idx (0x0B + k)) b).map fun r => (r.1 * s.cfgR idx (0x12 + k), r.2) else some (0, true); let good := b.length = s.cfgU idx 8 ∧ checkOk (s.cfgU idx 0x0A) 0 b = true ∧ ∀ k < 7, (field k).map (·.2) = some true; good ∧ (s.imu i).fault = true ∧ 99 ≤ (s.imu i).good) :=
  ⟨1, 500000000, (octets [1,2,3,4]), (imuFailed 99), by decide +kernel⟩
theorem test_ImuAndReference_31 : ∃ (i : Nat) (s : State), s.up = true ∧ s.imuFaulty i ≠ 0 :=
  ⟨1, imuBad, by decide +kernel⟩
theorem test_ImuAndReference_4 : ∃ (v : Rat) (s : State), s.arefWatched = false :=
  ⟨0, lead, by decide +kernel⟩
theorem test_ImuAndReference_51 : ∃ (v : Rat) (s : State), s.up = true ∧ s.arefWatched = true ∧ v < 9 / 10 ∧ s.io.aref = false :=
  ⟨(1/2), (ratiometric false), by decide +kernel⟩
theorem test_ImuAndReference_64 : ∃ (v : Rat) (s : State), s.up = true ∧ 1 < v ∧ s.io.aref = true ∧ s.records = true :=
  ⟨2, (ratiometric true), by decide +kernel⟩
theorem test_DiscreteAndSafeLines_1 : ∃ (d : Nat) (t0 : Nat) (level : Bool) (s : State), (s.up = true ∨ s.st.power = .stopped) ∧ d < 24 ∧ bit s.io.dio d ≠ level :=
  ⟨4, 500, true, lead, by decide +kernel⟩
theorem test_DiscreteAndSafeLines_21 : ∃ (d : Nat) (a : Nat) (s : State), tfind s.io.pulses d = some a ∧ a ≤ s.clk.time :=
  ⟨4, 0, pulsing, by decide +kernel⟩
theorem test_DiscreteAndSafeLines_31 : ∃ (s : State), s.up = true :=
  ⟨safeHigh, by decide +kernel⟩
theorem test_DiscreteAndSafeLines_41 : ∃ (k : Nat) (s : State), s.up = true ∧ k < 8 ∧ bit s.io.safe k = true ∧ bit s.io.overs k = false :=
  ⟨1, safeHigh, by decide +kernel⟩
theorem test_DiscreteAndSafeLines_5 : ∃ (k : Nat) (s : State), s.up = true ∧ bit s.io.overs k = true ∧ tget 0 s.io.retry k + 1000000000 ≤ s.clk.time :=
  ⟨1, safeOver, by decide +kernel⟩
theorem test_DiscreteAndSafeLines_61 : ∃ (k : Nat) (s : State), s.up = true ∧ k < 8 ∧ bit s.io.overs k = true ∧ tget 0 s.io.retry k + 1000000000 ≤ s.clk.time :=
  ⟨1, safeOver, by decide +kernel⟩
theorem test_DiscreteAndSafeLines_71 : ∃ (k : Nat) (s : State), s.up = true ∧ k < 4 ∧ bit s.lrMask k = true ∧ bit s.io.overLr k = false :=
  ⟨2, lrHigh, by decide +kernel⟩
theorem test_DiscreteAndSafeLines_81 : ∃ (s : State), s.st.power ≠ .dormant ∧ s.st.power ≠ .off :=
  ⟨lead, by decide +kernel⟩
theorem test_EncoderChannels_15 : ∃ (n : Nat) (t0 : Nat) (a : Bool) (b : Bool) (z : Bool) (s : State), s.up = true ∧ n < 32 ∧ (let e := s.enc n; let a0 := nth false e.lv 0; let b0 := nth false e.lv 1; let sense : Int := if s.cfgB (0x3A00 + n) 4 then -1 else 1; let d : Int := if s.encMode n = 1 then sense * State.quadStep (s.cfgU (0x3A00 + n) 3) a0 b0 a b else if s.encMode n = 2 ∧ a = true ∧ a0 = false then sense * (if b then 1 else -1) else 0; let bad := (s.encMode n = 1 ∧ a ≠ a0 ∧ b ≠ b0) ∨ (s.encMode n = 2 ∧ a = true ∧ a0 = false ∧ b ≠ b0); ¬bad ∧ d = 0) :=
  ⟨2, 600, false, true, false, stepDir, by decide +kernel⟩
theorem test_EncoderChannels_161 : ∃ (n : Nat) (t0 : Nat) (a : Bool) (b : Bool) (z : Bool) (s : State), s.up = true ∧ n < 32 ∧ (let e := s.enc n; let a0 := nth false e.lv 0; let b0 := nth false e.lv 1; let sense : Int := if s.cfgB (0x3A00 + n) 4 then -1 else 1; let d : Int := if s.encMode n = 1 then sense * State.quadStep (s.cfgU (0x3A00 + n) 3) a0 b0 a b else if s.encMode n = 2 ∧ a = true ∧ a0 = false then sense * (if b then 1 else -1) else 0; let bad := (s.encMode n = 1 ∧ a ≠ a0 ∧ b ≠ b0) ∨ (s.encMode n = 2 ∧ a = true ∧ a0 = false ∧ b ≠ b0); ¬bad ∧ s.modulo n = true ∧ d ≠ 0) :=
  ⟨2, 600, true, false, false, quadMod, by decide +kernel⟩
theorem test_EncoderChannels_171 : ∃ (n : Nat) (t0 : Nat) (a : Bool) (b : Bool) (z : Bool) (s : State), s.up = true ∧ n < 32 ∧ (let e := s.enc n; let a0 := nth false e.lv 0; let b0 := nth false e.lv 1; let sense : Int := if s.cfgB (0x3A00 + n) 4 then -1 else 1; let d : Int := if s.encMode n = 1 then sense * State.quadStep (s.cfgU (0x3A00 + n) 3) a0 b0 a b else if s.encMode n = 2 ∧ a = true ∧ a0 = false then sense * (if b then 1 else -1) else 0; let bad := (s.encMode n = 1 ∧ a ≠ a0 ∧ b ≠ b0) ∨ (s.encMode n = 2 ∧ a = true ∧ a0 = false ∧ b ≠ b0); ¬bad ∧ s.modulo n = false ∧ d ≠ 0 ∧ s.softMin n ≤ e.count + d ∧ e.count + d ≤ s.softMax n) :=
  ⟨2, 600, true, false, false, quad, by decide +kernel⟩
theorem test_EncoderChannels_184 : ∃ (n : Nat) (t0 : Nat) (a : Bool) (b : Bool) (z : Bool) (s : State), s.up = true ∧ n < 32 ∧ (let e := s.enc n; let a0 := nth false e.lv 0; let b0 := nth false e.lv 1; let sense : Int := if s.cfgB (0x3A00 + n) 4 then -1 else 1; let d : Int := if s.encMode n = 1 then sense * State.quadStep (s.cfgU (0x3A00 + n) 3) a0 b0 a b else if s.encMode n = 2 ∧ a = true ∧ a0 = false then sense * (if b then 1 else -1) else 0; let bad := (s.encMode n = 1 ∧ a ≠ a0 ∧ b ≠ b0) ∨ (s.encMode n = 2 ∧ a = true ∧ a0 = false ∧ b ≠ b0); ¬bad ∧ s.modulo n = false ∧ d ≠ 0 ∧ (e.count + d < s.softMin n ∨ s.softMax n < e.count + d) ∧ s.records = true) :=
  ⟨2, 600, true, false, false, quadTight, by decide +kernel⟩
theorem test_EncoderChannels_1951 : ∃ (n : Nat) (t0 : Nat) (a : Bool) (b : Bool) (z : Bool) (s : State), s.up = true ∧ n < 32 ∧ (let e := s.enc n; let a0 := nth false e.lv 0; let b0 := nth false e.lv 1; let sense : Int := if s.cfgB (0x3A00 + n) 4 then -1 else 1; let bad := (s.encMode n = 1 ∧ a ≠ a0 ∧ b ≠ b0) ∨ (s.encMode n = 2 ∧ a = true ∧ a0 = false ∧ b ≠ b0); bad ∧ s.storesOk = true ∧ e.fault = false ∧ s.cfgU (0x3A00 + n) 0x1C < (e.illegal.filter fun x => t0 < x + 1000000000).length + 1) :=
  ⟨2, 600, true, true, false, quadSick, by decide +kernel⟩
theorem test_EncoderChannels_24 : ∃ (n : Nat) (s : State), s.up = true ∧ (s.enc n).fault = true ∧ s.encMode n ≠ 3 ∧ (s.enc n).lastIllegal + 10000000000 ≤ s.clk.time ∧ s.records = true :=
  ⟨2, quadFault, by decide +kernel⟩
theorem test_EncoderChannels_31 : ∃ (n : Nat) (s : State), s.up = true ∧ n < 32 ∧ s.homeDue n = false :=
  ⟨2, quad, by decide +kernel⟩
theorem test_EncoderChannels_32 : ∃ (n : Nat) (s : State), s.up = true ∧ n < 32 ∧ s.homeDue n = true :=
  ⟨2, quadHomed, by decide +kernel⟩
theorem test_EncoderChannels_471 : ∃ (n : Nat) (bad : Bool) (h tu : Rat) (s : State), s.up = true ∧ n < 32 ∧
    (((s.encMode n = 1 ∨ s.encMode n = 2) ∧ (s.enc n).upd = none ∧ ((s.enc n).begun = true → (s.enc n).tu + 25000 ≤ s.clk.time) ∧
        h = 25 / 1000000 ∧ (tu = if (s.enc n).begun then (s.enc n).tu + 25000 else (s.clk.time : Rat)) ∧ bad = (s.enc n).bad) ∨
      (s.encMode n = 3 ∧ ∃ t1 : Nat, (s.enc n).upd = some (t1, bad) ∧ h = ((t1 : Rat) - (s.enc n).tu) / 1000000000 ∧ tu = t1)) ∧
    (s.enc n).begun = true ∧ bad = false :=
  ⟨3, false, 1 / 10, 500000000, ssiUpdated false, by decide +kernel, by decide +kernel, .inr ⟨by decide +kernel, 500000000, by decide +kernel⟩, by decide +kernel⟩
theorem test_EncoderChannels_47b : ∃ (n : Nat) (bad : Bool) (h tu : Rat) (s : State), s.up = true ∧ n < 32 ∧
    (((s.encMode n = 1 ∨ s.encMode n = 2) ∧ (s.enc n).upd = none ∧ ((s.enc n).begun = true → (s.enc n).tu + 25000 ≤ s.clk.time) ∧
        h = 25 / 1000000 ∧ (tu = if (s.enc n).begun then (s.enc n).tu + 25000 else (s.clk.time : Rat)) ∧ bad = (s.enc n).bad) ∨
      (s.encMode n = 3 ∧ ∃ t1 : Nat, (s.enc n).upd = some (t1, bad) ∧ h = ((t1 : Rat) - (s.enc n).tu) / 1000000000 ∧ tu = t1)) ∧
    (s.enc n).begun = true ∧ bad = false :=
  ⟨2, false, 25 / 1000000, 25000, withEnc 2 { begun := true, count := 50, p := 49, v := 1, a := 1 } quad, by decide +kernel, by decide +kernel, .inl (by decide +kernel), by decide +kernel⟩
theorem test_EncoderChannels_481 : ∃ (n : Nat) (bad : Bool) (h tu : Rat) (s : State), s.up = true ∧ n < 32 ∧
    (((s.encMode n = 1 ∨ s.encMode n = 2) ∧ (s.enc n).upd = none ∧ ((s.enc n).begun = true → (s.enc n).tu + 25000 ≤ s.clk.time) ∧
        h = 25 / 1000000 ∧ (tu = if (s.enc n).begun then (s.enc n).tu + 25000 else (s.clk.time : Rat)) ∧ bad = (s.enc n).bad) ∨
      (s.encMode n = 3 ∧ ∃ t1 : Nat, (s.enc n).upd = some (t1, bad) ∧ h = ((t1 : Rat) - (s.enc n).tu) / 1000000000 ∧ tu = t1)) ∧
    (s.enc n).begun = true ∧ bad = true :=
  ⟨3, true, 1 / 10, 500000000, ssiUpdated true, by decide +kernel, by decide +kernel, .inr ⟨by decide +kernel, 500000000, by decide +kernel⟩, by decide +kernel⟩
theorem test_EncoderChannels_491 : ∃ (n : Nat) (bad : Bool) (h tu : Rat) (s : State), s.up = true ∧ n < 32 ∧
    (((s.encMode n = 1 ∨ s.encMode n = 2) ∧ (s.enc n).upd = none ∧ ((s.enc n).begun = true → (s.enc n).tu + 25000 ≤ s.clk.time) ∧
        h = 25 / 1000000 ∧ (tu = if (s.enc n).begun then (s.enc n).tu + 25000 else (s.clk.time : Rat)) ∧ bad = (s.enc n).bad) ∨
      (s.encMode n = 3 ∧ ∃ t1 : Nat, (s.enc n).upd = some (t1, bad) ∧ h = ((t1 : Rat) - (s.enc n).tu) / 1000000000 ∧ tu = t1)) ∧
    (s.enc n).begun = false ∧ bad = false :=
  ⟨2, false, 25 / 1000000, (withEnc 2 {} quad).clk.time, withEnc 2 {} quad, by decide +kernel, by decide +kernel, .inl (by decide +kernel), by decide +kernel⟩
theorem test_EncoderChannels_53 : ∃ (m : Nat) (t0 : Nat) (level : Bool) (s : State), s.up = true ∧ m < 16 ∧ (tget {} s.fb.mag m).level ≠ level ∧ s.storesOk = true :=
  ⟨4, 600, true, lead, by decide +kernel⟩
theorem test_IllegalTransitionFault_123 : ∃ (n : Nat) (t0 : Nat) (a : Bool) (b : Bool) (z : Bool) (s : State), s.up = true ∧ n < 32 ∧ s.storesOk = true ∧ (s.enc n).fault = false ∧ (let e := s.enc n; let a0 := nth false e.lv 0; let b0 := nth false e.lv 1; ((s.encMode n = 1 ∧ a ≠ a0 ∧ b ≠ b0) ∨ (s.encMode n = 2 ∧ a0 = false ∧ a = true ∧ b ≠ b0)) ∧ s.cfgU (0x3A00 + n) 0x1C < (e.illegal.filter fun x => t0 < x + 1000000000).length + 1 ∧ s.records = true) :=
  ⟨2, 600, true, true, false, (withEnc 2 { illegal := (List.range 100).map (· + 500), lastIllegal := 600 } quad), by decide +kernel⟩
theorem test_IllegalTransitionFault_131 : ∃ (n : Nat) (t0 : Nat) (a : Bool) (b : Bool) (z : Bool) (s : State), s.up = true ∧ n < 32 ∧ s.storesOk = true ∧ (s.enc n).fault = false ∧ (let e := s.enc n; let a0 := nth false e.lv 0; let b0 := nth false e.lv 1; ((s.encMode n = 1 ∧ a ≠ a0 ∧ b ≠ b0) ∨ (s.encMode n = 2 ∧ a0 = false ∧ a = true ∧ b ≠ b0)) ∧ (e.illegal.filter fun x => t0 < x + 1000000000).length + 1 ≤ s.cfgU (0x3A00 + n) 0x1C) :=
  ⟨2, 600, true, true, false, quad, by decide +kernel⟩
theorem test_IllegalTransitionFault_214 : ∃ (n : Nat) (s : State), s.up = true ∧ (s.enc n).fault = true ∧ s.encMode n ≠ 3 ∧ (s.enc n).lastIllegal + 10000000000 ≤ s.clk.time ∧ s.records = true :=
  ⟨2, quadFault, by decide +kernel⟩
theorem test_IllegalTransitionFault_22 : ∃ (n : Nat) (s : State), s.up = true ∧ (s.enc n).fault = true ∧ s.encMode n ≠ 3 ∧ s.clk.time < (s.enc n).lastIllegal + 10000000000 :=
  ⟨2, { quadFault with clk := { quadFault.clk with time := 1000000000 }, fb := { quadFault.fb with enc := [(2, { fault := true, lastIllegal := 900000000 })] } }, by decide +kernel⟩
theorem test_SsiAndCompares_1 : ∃ (n : Nat) (t0 : Nat) (s : State), s.up = true ∧ n < 32 ∧ s.encMode n = 3 :=
  ⟨3, 500000000, ssi, by decide +kernel⟩
theorem test_SsiAndCompares_271 : ∃ (n : Nat) (t0 : Nat) (word : Nat) (s : State), s.up = true ∧ n < 32 ∧ s.encMode n = 3 ∧ (s.enc n).reading = some t0 ∧ (s.enc n).miss = 7 ∧ (s.enc n).fault = false :=
  ⟨3, 500000000, 77, ssiReads, by decide +kernel⟩
theorem test_SsiAndCompares_31 : ∃ (n : Nat) (t0 : Nat) (word : Nat) (s : State), s.up = true ∧ n < 32 ∧ s.encMode n = 3 ∧ (s.enc n).reading = some t0 ∧ (s.enc n).fault = false ∧ s.modulo n = false ∧ (let i := 0x3A00 + n; let raw := word / 2 ^ s.cfgU i 6 % 2 ^ (s.cfgU i 5 - s.cfgU i 6); let pos := if s.cfgU i 7 = 1 then State.grayTo 5 raw else raw; let c : Int := if s.cfgB i 4 then -(pos : Int) else pos; (word % 2 ^ s.cfgU i 6) &&& s.cfgU i 0x0B = 0 ∧ s.softMin n ≤ c ∧ c ≤ s.softMax n ∧ ((s.enc n).begun = false ∨ rabs ((c : Rat) - (s.encAt n t0).1) ≤ (s.cfgU i 0x19 : Rat))) :=
  ⟨3, 500000000, 77, ssiReads, by decide +kernel⟩
theorem test_SsiAndCompares_411 : ∃ (n : Nat) (s : State), s.up = true ∧ n < 32 ∧ s.ssiQuiet n = true ∧ s.cfgU (0x3A00 + n) 0x0C = 1 :=
  ⟨3, (withObjs ssi [(0x3A03, 0x0C, .u 1)]), by decide +kernel⟩
theorem test_SsiAndCompares_42 : ∃ (n : Nat) (s : State), s.up = true ∧ n < 32 ∧ s.ssiQuiet n = true ∧ s.cfgU (0x3A00 + n) 0x0C ≠ 1 :=
  ⟨3, ssi, by decide +kernel⟩
theorem test_SsiAndCompares_51 : ∃ (n : Nat) (s : State), s.up = true ∧ n < 32 ∧ (s.enc n).driving = true :=
  ⟨3, ssiDrives, by decide +kernel⟩
theorem test_SsiAndCompares_66 : ∃ (p : Path) (n : Nat) (j : Nat) (b : List Byte) (v : Val) (s : State), s.passes (.comparePositionWrite p n j b) (0x3A20 + n) j v ∧ s.storesOk = true ∧ 1 ≤ j ∧ j ≤ 4 ∧ (let c := roundAway ((v.asRat - s.cfgR (0x3A00 + n) 0x10) / s.perCount n); (s.modulo n = true ∨ (s.softMin n ≤ c ∧ c ≤ s.softMax n)) ∧ j ≤ (s.enc n).compares.length) :=
  ⟨.panicle, 2, 1, (octets [0,0,0x20,0x41]), (.f 0x41200000), quad, passes_of (by decide +kernel), by decide +kernel⟩
theorem test_SsiAndCompares_71 : ∃ (p : Path) (j : Nat) (s : State), s.up = true ∧ s.existsAbort 0x3A93 j = 0 ∧ 1 ≤ j ∧ j ≤ 32 :=
  ⟨.panicle, 3, compares, by decide +kernel⟩
theorem test_SlotsAndSilence_171 : ∃ (n : Nat) (xs : List Rat) (s : State), s.up = true ∧ n < 256 ∧ (s.chan n).ran = false ∧ (let u := s.gridSamples n xs; u.slotInputs n xs = []) :=
  ⟨5, [], lead, by decide +kernel⟩
theorem test_SlotsAndSilence_21 : ∃ (n : Nat) (xs : List Rat) (s : State), s.up = true ∧ n < 256 ∧ (s.chan n).ran = false ∧ (s.chan n).stages = [] ∧ (s.chan n).due = [] ∧ (s.chan n).up = false ∧ (s.chan n).tunes = [] ∧ (let l := (s.gridSamples n xs).slotInputs n xs; (∀ i ∈ l, ((s.chan n).fromT : Rat) ≤ i.inst)) :=
  ⟨5, [1/2], (chanOf { src := 1, mark := true }), by decide +kernel⟩
theorem test_SlotsAndSilence_31 : ∃ (k : Nat) (s : State), s.up = true ∧ (s.stream k).cfg.isSome ∧ (s.stream k).silent = false ∧ 10 * s.periodNs k ≤ (s.clk.time : Rat) - (s.stream k).since :=
  ⟨3, streamQuiet, by decide +kernel⟩
theorem test_GnssPortsAndFrontEnds_17 : ∃ (p : Nat) (t0 : Nat) (hz : Rat) (duty : Rat) (s : State), s.gnOn = true ∧ s.storesOk = true ∧ p < 8 ∧ (s.gport p).fault = false ∧ s.records = true :=
  ⟨2, 600, 16000000, (1/3), lead, by decide +kernel⟩
theorem test_GnssPortsAndFrontEnds_21 : ∃ (p : Nat) (t0 : Nat) (a : Nat) (s : State), s.gnOn = true ∧ (s.gport p).fault = true ∧ (s.gport p).cond = 0 ∧ (s.gport p).okFrom = some a ∧ a + 1000000000 ≤ max s.clk.time t0 :=
  ⟨2, 1000000000, 0, portSick, by decide +kernel⟩
theorem test_GnssPortsAndFrontEnds_3 : ∃ (g : Nat) (s : State), s.feMaster = true ∧ g < 2 ∧ bit (s.cfgU 0x3600 3) g = true ∧ tfind s.gn.en g = none :=
  ⟨1, lead, by decide +kernel⟩
theorem test_GnssPortsAndFrontEnds_441 : ∃ (t0 : Nat) (reads : List Nat) (verify : Bool) (c : Instr) (s : State), s.feMaster = true ∧ s.storesOk = true ∧
    ((verify = true ∧ c = .frontEndAttention t0 reads) ∨
      (verify = false ∧ c = .frontEndScriptRun t0 reads ∧ ∃ d, s.gn.scriptDue = some d ∧ d ≤ max s.clk.time t0) ∨
      (verify = false ∧ c = .frontEndScriptRetry t0 reads ∧ ∃ d, s.gn.retry = some d ∧ d ≤ max s.clk.time t0)) ∧
    (let l := State.feUntilEnd (State.feScript (s.cfgD 0x3601 2))
     let q := (List.zip (List.range l.length) l).filter fun e => !verify || e.2.op == 2 || e.2.op == 4
     (State.feRun q reads []).2 = none ∧ verify = false) :=
  ⟨600, [9], false, .frontEndScriptRun 600 [9], withGn { scriptDue := some 0 } (scriptOf [1,1,0,0,5,0,0,0,255,0,0,0]), by decide +kernel, by decide +kernel,
    .inr (.inl ⟨rfl, rfl, 0, rfl, by decide +kernel⟩), by decide +kernel⟩
theorem test_GnssPortsAndFrontEnds_451 : ∃ (t0 : Nat) (reads : List Nat) (verify : Bool) (c : Instr) (s : State), s.feMaster = true ∧ s.storesOk = true ∧ ((verify = true ∧ c = .frontEndAttention t0 reads) ∨ (verify = false ∧ c = .frontEndScriptRun t0 reads ∧ ∃ d, s.gn.scriptDue = some d ∧ d ≤ max s.clk.time t0) ∨ (verify = false ∧ c = .frontEndScriptRetry t0 reads ∧ ∃ d, s.gn.retry = some d ∧ d ≤ max s.clk.time t0)) ∧ (let l := State.feUntilEnd (State.feScript (s.cfgD 0x3601 2)); let q := (List.zip (List.range l.length) l).filter fun e => !verify || e.2.op == 2 || e.2.op == 4; let x := State.feRun q reads []; x.2 = none ∧ verify = true) :=
  ⟨600, [], true, (.frontEndAttention 600 []), lead, by decide +kernel⟩
theorem test_GnssTracking_11 : ∃ (p : Nat) (sys : Nat) (sat : Nat) (sig : Nat) (kind : Nat) (t0 : Nat) (peak : Rat) (noise : Rat) (s : State), s.gnOn = true ∧ (let gps := (((s.gn.chans.filter fun q => q.2.sys == 0 && q.2.state == 2).map (·.2.sat)).eraseDups).length; let new' := ∀ q ∈ s.gn.chans, q.2.sys = sys → q.2.sat ≠ sat; let can := s.portOn p = true ∧ p = sigPort (s.cfgU 0x3608 1) sig ∧ (s.gport p).fault = false ∧ bit (s.cfgU 0x3600 2) sys = true ∧ noise + s.cfgR 0x3604 3 < peak ∧ (kind = 2 → (sig = 1 ∨ sig = 7 ∨ (sigGroup sig = 1 ∧ s.cfgB 0x3604 4 = true)) ∧ new' ∧ (s.gn.lossAt = none ∨ s.gn.cold = true)) ∧ (kind = 3 → (sig = 3 ∨ sig = 5) ∧ 3 ≤ gps); can) :=
  ⟨0, 0, 5, 1, 0, 700, 20, 1, lead, by decide +kernel⟩
theorem test_GnssTracking_12 : ∃ (p : Nat) (sys : Nat) (sat : Nat) (sig : Nat) (kind : Nat) (t0 : Nat) (peak : Rat) (noise : Rat) (s : State), s.gnOn = true ∧ (let gps := (((s.gn.chans.filter fun q => q.2.sys == 0 && q.2.state == 2).map (·.2.sat)).eraseDups).length; let new' := ∀ q ∈ s.gn.chans, q.2.sys = sys → q.2.sat ≠ sat; let can := s.portOn p = true ∧ p = sigPort (s.cfgU 0x3608 1) sig ∧ (s.gport p).fault = false ∧ bit (s.cfgU 0x3600 2) sys = true ∧ noise + s.cfgR 0x3604 3 < peak ∧ (kind = 2 → (sig = 1 ∨ sig = 7 ∨ (sigGroup sig = 1 ∧ s.cfgB 0x3604 4 = true)) ∧ new' ∧ (s.gn.lossAt = none ∨ s.gn.cold = true)) ∧ (kind = 3 → (sig = 3 ∨ sig = 5) ∧ 3 ≤ gps); ¬can) :=
  ⟨0, 0, 5, 1, 0, 700, 2, 1, lead, by decide +kernel⟩
theorem test_GnssTracking_21 : ∃ (p : Nat) (sys : Nat) (sat : Nat) (sig : Nat) (t0 : Nat) (s : State), s.gnOn = true :=
  ⟨0, 0, 5, 1, 700000000, (withGn { dets := [⟨0,0,5,1,0⟩, ⟨0,0,6,1,0⟩] } lead), by decide +kernel⟩
theorem test_GnssTracking_31 : ∃ (c : Nat) (t0 : Nat) (cn0 : Nat) (x : GChan) (s : State), s.gnOn = true ∧ s.gchan c = some x ∧ x.state = 2 ∧ (cn0 : Rat) / 100 < s.lossAtCn0 x.sig :=
  ⟨4, 600, 5, ({ state := 2 } : GChan), (tracked { state := 2 }), by decide +kernel⟩
theorem test_GnssTracking_41 : ∃ (c : Nat) (t0 : Nat) (x : GChan) (s : State), s.gnOn = true ∧ s.storesOk = true ∧ s.gchan c = some x ∧ x.state = 3 ∧ x.coastAt + s.coastNs x.sig ≤ max s.clk.time t0 :=
  ⟨4, 60000000000, ({ state := 3 } : GChan), (tracked { state := 3 }), by decide +kernel⟩
theorem test_GnssTracking_51 : ∃ (c : Nat) (ve : Rat) (pr : Rat) (vl : Rat) (x : GChan) (s : State), s.gnOn = true ∧ s.gchan c = some x ∧ (x.sig = 3 ∨ x.sig = 5) ∧ (pr < ve ∨ pr < vl) ∧ x.side < 2 :=
  ⟨4, 3, 2, 1, ({ sig := 3, side := 1 } : GChan), (tracked { sig := 3, side := 1 }), by decide +kernel⟩
theorem test_GnssTracking_52 : ∃ (c : Nat) (ve : Rat) (pr : Rat) (vl : Rat) (x : GChan) (s : State), s.gnOn = true ∧ s.gchan c = some x ∧ (x.sig = 3 ∨ x.sig = 5) ∧ (pr < ve ∨ pr < vl) ∧ 2 ≤ x.side :=
  ⟨4, 3, 2, 1, ({ sig := 5, side := 2 } : GChan), (tracked { sig := 5, side := 2 }), by decide +kernel⟩
theorem test_GnssTracking_53 : ∃ (c : Nat) (ve : Rat) (pr : Rat) (vl : Rat) (x : GChan) (s : State), s.gnOn = true ∧ s.gchan c = some x ∧ (x.sig = 3 ∨ x.sig = 5) ∧ ve ≤ pr ∧ vl ≤ pr :=
  ⟨4, 2, 2, 2, ({ sig := 5, side := 2 } : GChan), (tracked { sig := 5, side := 2 }), by decide +kernel⟩
theorem test_GnssTracking_6 : ∃ (t0 : Nat) (a : Nat) (s : State), s.gnOn = true ∧ s.gn.offered = false ∧ s.gn.field = 0 ∧ s.gn.nominalFrom = some a ∧ a + State.ns (s.cfgR 0x3600 8) ≤ max s.clk.time t0 :=
  ⟨10000000000, 0, (withGn { field := 0, nominalFrom := some 0 } lead), by decide +kernel⟩
theorem test_GnssTracking_7 : ∃ (t0 : Nat) (a : Nat) (s : State), s.gnOn = true ∧ s.gn.lossAt = some a ∧ s.gn.lastSearch + 1000000000 ≤ max s.clk.time t0 :=
  ⟨600000000000, 0, (withGn { lossAt := some 0 } lead), by decide +kernel⟩
theorem test_GnssTracking_841 : ∃ (r : NavRec) (s : State), s.gnOn = true ∧ State.NavRec.passed r = false :=
  ⟨{ nav0 with check := 2 }, lead, by decide +kernel⟩
theorem test_GnssTracking_851 : ∃ (r : NavRec) (s : State), s.gnOn = true ∧ State.NavRec.passed r = true :=
  ⟨{ nav0 with check := 1 }, lead, by decide +kernel⟩
theorem test_GnssTracking_91 : ∃ (p : Path) (s : State), s.up = true ∧ s.existsAbort 0x3645 0 = 0 ∧ s.gn.nav = [] :=
  ⟨.panicle, lead, by decide +kernel⟩
theorem test_GnssTracking_921 : ∃ (p : Path) (s : State) (old : _) (rest : _), s.up = true ∧ s.existsAbort 0x3645 0 = 0 ∧ s.gn.nav = old :: rest ∧ (s.session p).nav = none :=
  ⟨(.kdp 1), (withGn { nav := [nav0, { nav0 with seq := 1 }] } lead), nav0, [{ nav0 with seq := 1 }], by decide +kernel⟩
theorem test_GnssEpochs_14 : ∃ (m : GEpoch) (s : State), s.gnOn = true ∧ s.gn.epoch < m.t ∧ m.t * s.cfgU 0x3600 4 % 1000000000 = 0 ∧ m.sols = [] :=
  ⟨epoch0, lead, by decide +kernel⟩
theorem test_GnssEpochs_161 : ∃ (m : GEpoch) (s : State), s.gnOn = true ∧ s.gn.epoch < m.t ∧ m.t * s.cfgU 0x3600 4 % 1000000000 = 0 ∧ 2 ≤ s.therm.level :=
  ⟨{ epoch0 with sols := [sol0] }, { lead with therm := { lead.therm with level := 2 } }, by decide +kernel⟩
theorem test_GnssEpochs_21 : ∃ (g : Nat) (t0 : Nat) (s : State), s.gnOn = true ∧ g < 2 ∧ bit s.gn.jammed g = false ∧ (let hit := ((s.groupPorts g).filter s.indicated).length; (2 ≤ hit ∨ ((s.groupPorts g).length = 1 ∧ hit = 1))) :=
  ⟨0, 600, jamRise, by decide +kernel⟩
theorem test_GnssEpochs_34 : ∃ (g : Nat) (t0 : Nat) (a : Nat) (s : State), s.gnOn = true ∧ bit s.gn.jammed g = true ∧ tfind s.gn.calmFrom g = some a ∧ a + State.ns (s.cfgR 0x3610 0x0B) ≤ max s.clk.time t0 ∧ s.records = true :=
  ⟨0, 10000000000, 0, jamCalm, by decide +kernel⟩
theorem test_GnssEpochs_45 : ∃ (k : Nat) (x : Snap) (s : State), s.up = true ∧ s.hasGnss = true ∧ tfind s.gn.snaps k = some x ∧ x.await = true ∧ s.therm.level = 0 ∧ nsum (s.gn.archive.map State.snapSize) + State.snapSize x ≤ 201326592 :=
  ⟨0, { noSnap with await := true }, (withGn { snaps := [(0, { noSnap with await := true })] } lead), by decide +kernel⟩
theorem test_GnssEpochs_523 : ∃ (t0 : Nat) (s : State) (p q : Int × Int × Rat), s.st.power = .dormant ∧ s.hasGnss = true ∧ s.cfgB 0x3600 1 = true ∧ s.cfgR 0x3620 7 ≠ 0 ∧ s.gn.dormCheck + State.ns (s.cfgR 0x3620 7) ≤ max s.clk.time t0 ∧ s.gn.dormPos = some q ∧ (s.gn.eph.any fun p => decide (max s.clk.time t0 < p.2.1 + 14400000000000)) = true ∧ s.cfgR 0x3620 8 < apart p q :=
  ⟨600000000000, withObjs dormant [(0x3620, 8, .i ((apart (5, 5, 100) (0, 0, 0)).floor - 1))], (5, 5, 100), (0, 0, 0), by decide +kernel, by decide +kernel, rfl, by decide +kernel, by decide +kernel, by decide +kernel, by decide +kernel,
    by rw [threshold]; have := Rat.floor_le (a := apart (5, 5, 100) (0, 0, 0)); grind⟩
theorem test_GnssEpochs_524 : ∃ (t0 : Nat) (s : State) (p q : Int × Int × Rat), s.st.power = .dormant ∧ s.hasGnss = true ∧ s.cfgB 0x3600 1 = true ∧ s.cfgR 0x3620 7 ≠ 0 ∧ s.gn.dormCheck + State.ns (s.cfgR 0x3620 7) ≤ max s.clk.time t0 ∧ s.gn.dormPos = some q ∧ (s.gn.eph.any fun p => decide (max s.clk.time t0 < p.2.1 + 14400000000000)) = true ∧ apart p q ≤ s.cfgR 0x3620 8 :=
  ⟨600000000000, withObjs dormant [(0x3620, 8, .i ((apart (5, 5, 100) (0, 0, 0)).floor + 1))], (5, 5, 100), (0, 0, 0), by decide +kernel, by decide +kernel, rfl, by decide +kernel, by decide +kernel, by decide +kernel, by decide +kernel,
    by rw [threshold]; have := Rat.lt_floor_add_one (apart (5, 5, 100) (0, 0, 0)); grind⟩
theorem test_GnssEpochs_55 : ∃ (t0 : Nat) (pos : Option (Int × Int × Rat)) (s : State), s.st.power = .dormant ∧ s.hasGnss = true ∧ s.cfgB 0x3600 1 = true ∧ s.cfgR 0x3620 7 ≠ 0 ∧ s.gn.dormCheck + State.ns (s.cfgR 0x3620 7) ≤ max s.clk.time t0 ∧ (let u := (s.at' t0).setGn { s.gn with dormCheck := max s.clk.time t0 }; let fresh := s.gn.eph.any fun p => decide (max s.clk.time t0 < p.2.1 + 14400000000000); (pos = none ∨ s.gn.dormPos = none ∨ fresh = false)) :=
  ⟨600000000000, none, dormant, by decide +kernel⟩
theorem test_SourcesAndServo_111 : ∃ (e : Nat) (t0 : Nat) (theta : Rat) (s : State), s.up = true ∧ e < 8 ∧ s.srcOn e = true ∧ s.follower = false ∧ s.ready' e = some theta ∧ s.tb.use = some e ∧ s.bestSrc = some e ∧ (let now := max s.clk.time t0; let meas := (s.src e).meas; let beyond := s.jumpThr < rabs theta; let before := ∃ p, meas.getLast? = some p ∧ s.jumpThr < rabs p.2; let plan := fun (l : List (Nat × Rat)) (initial : Bool) => (State.nextSecond now, -(roundEven (rsum (l.map (·.2)) / (l.length : Rat) + State.rateOf l * ((State.nextSecond now : Rat) - rsum (l.map fun p => (p.1 : Rat)) / (l.length : Rat)) / 1000000000)), initial); let l := lastN 3 (s.tb.dec ++ [(now, theta)]); s.tb.initial = true ∧ beyond ∧ ¬before) :=
  ⟨2, 600000000, 5000000, (timed 5000000 []), by decide +kernel⟩
theorem test_SourcesAndServo_121 : ∃ (e : Nat) (t0 : Nat) (theta : Rat) (s : State), s.up = true ∧ e < 8 ∧ s.srcOn e = true ∧ s.follower = false ∧ s.ready' e = some theta ∧ s.tb.use = some e ∧ s.bestSrc = some e ∧ (let now := max s.clk.time t0; let meas := (s.src e).meas; let beyond := s.jumpThr < rabs theta; let before := ∃ p, meas.getLast? = some p ∧ s.jumpThr < rabs p.2; let single := before ∧ ¬beyond ∧ ∀ q, meas.dropLast.getLast? = some q → rabs q.2 ≤ s.jumpThr; let plan := fun (l : List (Nat × Rat)) (initial : Bool) => (State.nextSecond now, -(roundEven (rsum (l.map (·.2)) / (l.length : Rat) + State.rateOf l * ((State.nextSecond now : Rat) - rsum (l.map fun p => (p.1 : Rat)) / (l.length : Rat)) / 1000000000)), initial); let l := lastN 3 (s.tb.dec ++ [(now, theta)]); s.tb.initial = true ∧ single) :=
  ⟨2, 600000000, 50, (timedAfter 50 [(100, 5), (200, 50000000)] [(100, 5), (200, 50000000)]), by decide +kernel⟩
theorem test_SourcesAndServo_13 : ∃ (e : Nat) (t0 : Nat) (theta : Rat) (s : State), s.up = true ∧ e < 8 ∧ s.srcOn e = true ∧ s.follower = false ∧ s.ready' e = some theta ∧ s.tb.use = some e ∧ s.bestSrc = some e ∧ (let now := max s.clk.time t0; let meas := (s.src e).meas; let beyond := s.jumpThr < rabs theta; let before := ∃ p, meas.getLast? = some p ∧ s.jumpThr < rabs p.2; let single := before ∧ ¬beyond ∧ ∀ q, meas.dropLast.getLast? = some q → rabs q.2 ≤ s.jumpThr; let plan := fun (l : List (Nat × Rat)) (initial : Bool) => (State.nextSecond now, -(roundEven (rsum (l.map (·.2)) / (l.length : Rat) + State.rateOf l * ((State.nextSecond now : Rat) - rsum (l.map fun p => (p.1 : Rat)) / (l.length : Rat)) / 1000000000)), initial); let l := lastN 3 (s.tb.dec ++ [(now, theta)]); s.tb.initial = true ∧ ¬single ∧ ¬(beyond ∧ ¬before)) :=
  ⟨2, 600000000, 50, (timed 50 []), by decide +kernel⟩
theorem test_SourcesAndServo_13b : ∃ (e t0 : Nat) (theta : Rat) (s : State), s.up = true ∧ e < 8 ∧ s.srcOn e = true ∧ s.follower = false ∧
    s.ready' e = some theta ∧ s.tb.use = some e ∧ s.bestSrc = some e ∧ s.tb.initial = true ∧
    (∀ p, (s.src e).meas.getLast? = some p → rabs p.2 ≤ s.jumpThr) ∧
    (let l := lastN 3 (s.tb.dec ++ [(max s.clk.time t0, theta)]); let mean := rsum (l.map (·.2)) / 3
     l.length = 3 ∧ s.tb.step = none ∧ s.stepThr < rabs mean ∧ rabs mean ≤ s.jumpThr) :=
  ⟨2, 600000000, 50000, timedAfter 50000 [(100, 50000), (200, 50000)] [(100, 50000), (200, 50000)], by decide +kernel⟩
theorem test_SourcesAndServo_13c : ∃ (e t0 : Nat) (theta : Rat) (s : State), s.up = true ∧ e < 8 ∧ s.srcOn e = true ∧ s.follower = false ∧
    s.ready' e = some theta ∧ s.tb.use = some e ∧ s.bestSrc = some e ∧ s.tb.initial = true ∧
    (∀ p, (s.src e).meas.getLast? = some p → s.jumpThr < rabs p.2 ∧ s.jumpThr < rabs theta) ∧
    (let l := lastN 3 (s.tb.dec ++ [(max s.clk.time t0, theta)]); let mean := rsum (l.map (·.2)) / 3
     l.length = 3 ∧ s.tb.step = none ∧ s.stepThr < rabs mean ∧ s.jumpThr < rabs mean) :=
  ⟨2, 600000000, 50000000, timedAfter 50000000 [(100, 50000000), (200, 50000000)] [(100, 50000000), (200, 50000000)], by decide +kernel⟩
theorem test_SourcesAndServo_14 : ∃ (e : Nat) (t0 : Nat) (theta : Rat) (s : State), s.up = true ∧ e < 8 ∧ s.srcOn e = true ∧ s.follower = false ∧ s.ready' e = some theta ∧ s.tb.use = some e ∧ s.bestSrc = some e ∧ (let now := max s.clk.time t0; let meas := (s.src e).meas; let beyond := s.jumpThr < rabs theta; let before := ∃ p, meas.getLast? = some p ∧ s.jumpThr < rabs p.2; let plan := fun (l : List (Nat × Rat)) (initial : Bool) => (State.nextSecond now, -(roundEven (rsum (l.map (·.2)) / (l.length : Rat) + State.rateOf l * ((State.nextSecond now : Rat) - rsum (l.map fun p => (p.1 : Rat)) / (l.length : Rat)) / 1000000000)), initial); let l := lastN 3 (s.tb.dec ++ [(now, theta)]); s.tb.initial = false ∧ s.tb.step.isSome) :=
  ⟨2, 600000000, 50, (timedFirst 50 (some (1000000000, 5, true))), by decide +kernel⟩
theorem test_SourcesAndServo_151 : ∃ (e : Nat) (t0 : Nat) (theta : Rat) (s : State), s.up = true ∧ e < 8 ∧ s.srcOn e = true ∧ s.follower = false ∧ s.ready' e = some theta ∧ s.tb.use = some e ∧ s.bestSrc = some e ∧ (let now := max s.clk.time t0; let meas := (s.src e).meas; let beyond := s.jumpThr < rabs theta; let before := ∃ p, meas.getLast? = some p ∧ s.jumpThr < rabs p.2; let plan := fun (l : List (Nat × Rat)) (initial : Bool) => (State.nextSecond now, -(roundEven (rsum (l.map (·.2)) / (l.length : Rat) + State.rateOf l * ((State.nextSecond now : Rat) - rsum (l.map fun p => (p.1 : Rat)) / (l.length : Rat)) / 1000000000)), initial); let l := lastN 3 (s.tb.dec ++ [(now, theta)]); s.tb.initial = false ∧ s.tb.step = none) :=
  ⟨2, 600000000, 50, (timedFirst 50 none), by decide +kernel⟩
theorem test_SourcesAndServo_271 : ∃ (t0 : Nat) (S : Nat) (d : Int) (init : Bool) (s : State), s.up = true ∧ s.storesOk = true ∧ s.tb.step = some (S, d, init) ∧ S ≤ t0 ∧ init = false :=
  ⟨1000000000, 1000000000, (-5), false, (stepDue false), by decide +kernel⟩
theorem test_SourcesAndServo_281 : ∃ (t0 : Nat) (S : Nat) (d : Int) (init : Bool) (s : State), s.up = true ∧ s.storesOk = true ∧ s.tb.step = some (S, d, init) ∧ S ≤ t0 ∧ init = true :=
  ⟨1000000005, 1000000000, (-5), true, (stepDue true), by decide +kernel⟩
theorem test_SourcesAndServo_31 : ∃ (e : Nat) (t0 : Nat) (s : State), s.up = true ∧ s.storesOk = true ∧ e < 8 ∧ (s.src e).qualified = true ∧ (let k := s.srcKind e; let now := max s.clk.time t0; ((k = 1 ∧ s.gn.offered = false) ∨ (k = 4 ∧ s.tb.ptp.gm = none) ∨ ((k = 2 ∨ k = 3) ∧ ((s.src e).off = true ∨ (s.src e).labelled + 3000000000 ≤ now ∨ (s.src e).edges = [] ∨ ∃ a, (s.src e).edges.getLast? = some a ∧ a + 1250000000 ≤ (now : Rat))))) :=
  ⟨2, 1000000000, (timed 50 []), by decide +kernel⟩
theorem test_SourcesAndServo_41 : ∃ (s : State), s.up = true ∧ s.tb.lost = true ∧ s.tb.use = none ∧ s.tb.holdFrom = none :=
  ⟨lostSrc, by decide +kernel⟩
theorem test_SourcesAndServo_51 : ∃ (t0 : Nat) (a : Nat) (s : State), s.up = true ∧ s.tb.holdFrom = some a ∧ s.tb.quality = 2 ∧ a + State.ns (s.cfgR 0x3800 5) ≤ max s.clk.time t0 :=
  ⟨60000000000, 0, (held 2), by decide +kernel⟩
theorem test_SourcesAndServo_611 : ∃ (t0 : Nat) (s : State), s.up = true ∧ s.follower = true ∧ s.hal.thetas ≠ [] ∧ (let theta := rsum s.hal.thetas / (s.hal.thetas.length : Rat); s.tb.initial = true ∧ s.jumpThr < rabs theta) :=
  ⟨1000000000, (follower [50000000, 6]), by decide +kernel⟩
theorem test_SourcesAndServo_621 : ∃ (t0 : Nat) (s : State), s.up = true ∧ s.follower = true ∧ s.hal.thetas ≠ [] ∧ (let theta := rsum s.hal.thetas / (s.hal.thetas.length : Rat); (s.tb.initial = true ∧ rabs theta ≤ s.jumpThr ∨ s.tb.initial = false ∧ s.tb.step.isSome)) :=
  ⟨1000000000, (follower [5, 6]), by decide +kernel⟩
theorem test_SourcesAndServo_631 : ∃ (t0 : Nat) (s : State), s.up = true ∧ s.follower = true ∧ s.hal.thetas ≠ [] ∧ s.tb.initial = false ∧ s.tb.step = none :=
  ⟨1000000000, (followerFirst [5, 6] none), by decide +kernel⟩
theorem test_SourcesAndServo_71 : ∃ (t0 : Nat) (s : State), s.up = true ∧ s.st.role = 3 ∧ s.hal.joinTime = true ∧ s.hal.thetas ≠ [] :=
  ⟨1000000000, joins, by decide +kernel⟩
theorem test_ReferenceAndPulses_11 : ∃ (present : Bool) (s : State), s.up = true ∧ (let use := (match s.cfgU 0x3800 1 with | 0 => present | 1 => false | _ => true); use = s.tb.onRef10) :=
  ⟨false, lead, by decide +kernel⟩
theorem test_ReferenceAndPulses_121 : ∃ (present : Bool) (s : State), s.up = true ∧ (let use := (match s.cfgU 0x3800 1 with | 0 => present | 1 => false | _ => true); use ≠ s.tb.onRef10) :=
  ⟨true, lead, by decide +kernel⟩
theorem test_ReferenceAndPulses_21 : ∃ (p : Nat) (t0 : Nat) (e : Nat) (s : State), s.up = true ∧ p < 2 ∧ e < 8 ∧ s.srcOn e = true ∧ s.srcKind e = 2 + p :=
  ⟨1, 600000000, 3, (withObjs lead timeObjs), by decide +kernel⟩
theorem test_ReferenceAndPulses_3 : ∃ (n : Nat) (t0 : Nat) (s : State), s.up = true ∧ n < 2 ∧ (t0 + (s.cfgR (0x3820 + n) 2).floor.toNat) % 1000000000 = 0 :=
  ⟨1, 2000000000, lead, by decide +kernel⟩
theorem test_ReferenceAndPulses_44 : ∃ (t0 : Nat) (d : Nat) (v : Int) (s : State), s.up = true ∧ s.storesOk = true ∧ s.tb.leap = some (d, v) ∧ d ≤ t0 ∧ s.records = true :=
  ⟨600000000, 100000000, 38, leaping, by decide +kernel⟩
theorem test_PtpEngine_11 : ∃ (domain : Nat) (port : Nat) (t0 : Nat) (capture : Rat) (t1 : Int) (corr : Int) (s : State), s.up = true ∧ s.cfgU 0x3830 1 ≠ 0 ∧ s.cfgU 0x3830 3 = domain ∧ s.tb.ptp.gm.isSome ∧ s.tb.ptp.port = port :=
  ⟨0, 1, 600000000, 600000000, 5, 65536, (mastered { gm := some (ds 7 1), port := 1 }), by decide +kernel⟩
theorem test_PtpEngine_23 : ∃ (domain : Nat) (port : Nat) (t0 : Nat) (seq : Nat) (type : Nat) (at' : Nat) (capture : Rat) (t1 : Int) (corr : Int) (t4 : Int) (rc : Int) (s : State), s.up = true ∧ s.cfgU 0x3830 1 ≠ 0 ∧ s.cfgU 0x3830 3 = domain ∧ s.tb.ptp.gm.isSome ∧ s.tb.ptp.port = port ∧ s.tb.ptp.times.find? (fun x => x.2.1 == seq && x.1 != 0) = some (type, seq, at') ∧ (let t2 := capture - 2128 / 10 - s.cfgR 0x3860 (port + 1); let there := t2 - t1 - (corr : Rat) / 65536; let back := (t4 : Rat) - at' - (rc : Rat) / 65536; s.cfgU 0x3830 1 ≠ 1) :=
  ⟨0, 1, 600, 3, 2, 400, 500, 100, 65536, 900, 131072, (withObjs (mastered { gm := some (ds 7 1), port := 1, times := [(2, 3, 400)] }) [(0x3830, 1, .u 2)]), by decide +kernel⟩
theorem test_PtpEngine_31 : ∃ (domain : Nat) (port : Nat) (t0 : Nat) (d : Dataset) (s : State) (g : _), s.up = true ∧ s.cfgU 0x3830 1 ≠ 0 ∧ s.cfgU 0x3830 3 = domain ∧ s.tb.ptp.gm = some g ∧ g.identity = d.identity :=
  ⟨0, 1, 600000000, (ds 7 1), (mastered { gm := some (ds 7 1), port := 1 }), (ds 7 1), by decide +kernel⟩
theorem test_PtpEngine_321 : ∃ (domain : Nat) (port : Nat) (t0 : Nat) (d : Dataset) (s : State), s.up = true ∧ s.cfgU 0x3830 1 ≠ 0 ∧ s.cfgU 0x3830 3 = domain ∧ (∀ g, s.tb.ptp.gm = some g → g.identity ≠ d.identity ∧ State.better d g = true) ∧ State.better d s.ownDataset = true :=
  ⟨0, 1, 600000000, (ds 9 0), (mastered { gm := some (ds 7 1), port := 1 }), by decide +kernel⟩
theorem test_PtpEngine_33 : ∃ (domain : Nat) (port : Nat) (t0 : Nat) (d : Dataset) (s : State), s.up = true ∧ s.cfgU 0x3830 1 ≠ 0 ∧ s.cfgU 0x3830 3 = domain ∧ (∀ g, s.tb.ptp.gm = some g → g.identity ≠ d.identity) ∧ (State.better d s.ownDataset = false ∨ (∃ g, s.tb.ptp.gm = some g ∧ State.better d g = false)) :=
  ⟨0, 1, 600000000, (ds 9 255), (mastered { gm := some (ds 7 1), port := 1 }), by decide +kernel⟩
theorem test_PtpEngine_41 : ∃ (t0 : Nat) (s : State), s.up = true ∧ s.tb.ptp.gm.isSome ∧ (let now := max s.clk.time t0; (s.tb.ptp.announced + 3 * State.logNs (s.cfgI 0x3830 9) ≤ now ∨ s.tb.ptp.synced + 3 * State.logNs (s.cfgI 0x3830 8) ≤ now)) :=
  ⟨60000000000, (mastered { gm := some (ds 7 1), port := 1 }), by decide +kernel⟩
theorem test_PtpEngine_5 : ∃ (a : Nat) (b : Nat) (type : Nat) (capIn : Rat) (capOut : Rat) (corr : Int) (s : State), s.up = true ∧ a ≠ b ∧ type < 4 ∧ s.cfgU (0x4001 + a) 2 = s.cfgU (0x4001 + b) 2 ∧ s.cfgU 0x3830 1 ≠ 0 ∧ ¬(s.cfgU 0x3830 2 = 1 ∧ bit (s.cfgU 0x3830 0x0B) a = true ∧ bit (s.cfgU 0x3830 0x0B) b = true) :=
  ⟨0, 1, 0, 600, 900, 65536, (mastered { link := [(0, 5)] }), by decide +kernel⟩
theorem test_PtpEngine_61 : ∃ (port : Nat) (type : Nat) (seq : Nat) (capture : Rat) (s : State), s.up = true ∧ port < 4 ∧ (let q := tget [] s.tb.ptp.queues port; q.length < 16) :=
  ⟨0, 1, 3, 600, (mastered { }), by decide +kernel⟩
theorem test_PtpEngine_621 : ∃ (port : Nat) (type : Nat) (seq : Nat) (capture : Rat) (s : State), s.up = true ∧ port < 4 ∧ (let q := tget [] s.tb.ptp.queues port; 16 ≤ q.length ∧ s.storesOk = true) :=
  ⟨0, 1, 3, 600, (mastered { queues := [(0, List.replicate 16 (1,1,1))] }), by decide +kernel⟩
theorem test_PtpEngine_7 : ∃ (a : Nat) (b : Nat) (type : Nat) (capIn : Rat) (capOut : Rat) (corr : Int) (s : State), s.cfgU 0x3830 1 = 0 :=
  ⟨0, 1, 0, 600, 900, 65536, (withObjs (mastered { }) [(0x3830, 1, .u 0)]), by decide +kernel⟩
theorem test_PtpEngine_8 : ∃ (port : Nat) (s : State), s.up = true ∧ s.cfgU 0x3830 1 ≠ 0 ∧ s.cfgB 0x3830 7 = false ∧ ((s.cfgU 0x3830 2 ≠ 1 ∧ s.tb.ptp.gm = none) ∨ (s.cfgU 0x3830 2 = 1 ∧ bit (s.cfgU 0x3830 0x0B) port = true ∧ (s.tb.ptp.gm = none ∨ s.tb.ptp.port ≠ port))) :=
  ⟨2, (mastered { }), by decide +kernel⟩
theorem test_PtpEngine_9 : ∃ (port : Nat) (s : State), s.up = true ∧ s.cfgU 0x3830 1 ≠ 0 ∧ (s.tb.ptp.gm.isSome ∨ s.cfgU 0x3830 1 ≠ 1) :=
  ⟨2, (mastered { gm := some (ds 7 1) }), by decide +kernel⟩
theorem test_PanicleScan_151 : ∃ (s : State), s.scans = true ∧ s.scanBoundary = true ∧ s.pan.latched = false ∧ s.pan.restart = none :=
  ⟨(panicle 0 [bindInput] id), by decide +kernel⟩
theorem test_PanicleScan_28 : ∃ (us : Rat) (p : Prog) (s : State), s.scans = true ∧ s.storesOk = true ∧ s.pan.latched = true ∧ s.pan.executed = false ∧ 1 ≤ s.clk.frame - s.pan.start ∧ s.clk.frame - s.pan.start < s.pan.len ∧ s.st.role ≠ 1 ∧ s.st.role ≠ 2 ∧ s.pan.prog = some p ∧ s.pan.old = none ∧ (let vals := foldS s.pan.vals s.pan.inputs fun l x => if (tfind s.forcedVals x.1).isSome then l else putNth l x.1 x.2; let m := Vm.run p s.forcedVals (5 * s.pan.len) ⟨vals, s.pan.sts, false, 0⟩; m.sticky = true) :=
  ⟨(5/2), divProg, divides, by decide +kernel⟩
theorem test_PanicleScan_29 : ∃ (us : Rat) (p : Prog) (s : State), s.scans = true ∧ s.storesOk = true ∧ s.pan.latched = true ∧ s.pan.executed = false ∧ 1 ≤ s.clk.frame - s.pan.start ∧ s.clk.frame - s.pan.start < s.pan.len ∧ s.st.role ≠ 1 ∧ s.st.role ≠ 2 ∧ s.pan.prog = some p ∧ s.pan.old = none ∧ (let vals := foldS s.pan.vals s.pan.inputs fun l x => if (tfind s.forcedVals x.1).isSome then l else putNth l x.1 x.2; let m := Vm.run p s.forcedVals (5 * s.pan.len) ⟨vals, s.pan.sts, false, 0⟩; m.sticky = false) :=
  ⟨(5/2), (progOf [bindInput]), (panicle 2 [bindInput] fun p => { p with latched := true, inputs := [(0, .u 8)] }), by decide +kernel⟩
theorem test_PanicleScan_311 : ∃ (p : Prog) (s : State), s.scans = true ∧ s.storesOk = true ∧ s.pan.latched = true ∧ s.pan.executed = true ∧ s.clk.frame - s.pan.start + 1 = s.pan.len ∧ s.pan.prog = some p ∧ State.outObjects p = [] :=
  ⟨(progOf []), (panicle 7 [] fun p => { p with latched := true, executed := true }), by decide +kernel⟩
theorem test_PanicleScan_321 : ∃ (p : Prog) (s : State) (i : _) (j : _) (r : _), s.scans = true ∧ s.storesOk = true ∧ s.pan.latched = true ∧ s.pan.executed = true ∧ s.clk.frame - s.pan.start + 1 = s.pan.len ∧ s.pan.prog = some p ∧ State.outObjects p = [(i, j)] ∧ findRow i j = some r ∧ (r.loc = true ∨ s.isFollower = false) ∧ (let v := s.outValue (State.outBinds p i j) i j; v ≠ s.presentV i j) :=
  ⟨(progOf [bindOutput 0x3E00 5]), (panicle 7 [bindOutput 0x3E00 5] fun p => { p with latched := true, executed := true, vals := [.u 3, .u 4, .u 12] }), 0x3E00, 5, (rowOf 0x3E00 5), by decide +kernel⟩
theorem test_PanicleScan_41 : ∃ (s : State), s.scans = true ∧ s.pan.latched = true ∧ s.pan.executed = false ∧ s.clk.frame - s.pan.start + 1 = s.pan.len :=
  ⟨(panicle 7 [] fun p => { p with latched := true }), by decide +kernel⟩
theorem test_PanicleScan_51 : ∃ (t0 : Nat) (p : Prog) (s : State), s.up = true ∧ s.pan.retainAt + State.ns (s.cfgR 0x3C00 4) ≤ max s.clk.time t0 ∧ s.pan.prog = some p :=
  ⟨600, (progOf []), retained, by decide +kernel⟩
theorem test_HalurSendingAndWatch_11 : ∃ (t0 : Int) (s : State), s.up = true ∧ s.units ≠ 1 ∧ s.hal.conflict = false ∧ s.st.unitId < s.units ∧ s.mode.mode ≠ 7 ∧ s.hal.fastSent ≠ some s.clk.frame :=
  ⟨205000000, pairLead, by decide +kernel⟩
theorem test_HalurSendingAndWatch_261 : ∃ (s : State), s.up = true ∧ s.units ≠ 1 ∧ s.st.role ≠ 3 ∧ s.fOff + 1 = s.clk.n ∧ s.hal.fullSent ≠ some s.clk.frame ∧ s.st.role = 0 :=
  ⟨(pairAt 15 0 { heard := some 162, role := 1, joined := true } id), by decide +kernel⟩
theorem test_HalurSendingAndWatch_31 : ∃ (u : Nat) (s : State), s.up = true ∧ 8 ≤ tget 0 s.acc.mismatch u ∧ s.faultIs 0x0003 u = false :=
  ⟨1, { pairLead with acc := { pairLead.acc with mismatch := [(1, 8)] } }, by decide +kernel⟩
theorem test_HalurSendingAndWatch_41 : ∃ (s : State), s.up = true ∧ s.isFollower = true ∧ s.hal.mirrorDeg = false ∧ s.cfgU 0x3E00 5 ≤ s.hal.missed :=
  ⟨{ pairShadow with hal := { pairShadow.hal with missed := 8 } }, by decide +kernel⟩
theorem test_HalurSendingAndWatch_51 : ∃ (u : Nat) (s : State), s.up = true ∧ s.st.role ≠ 3 ∧ s.hal.degraded = false ∧ u ∈ s.others ∧ 3 ≤ (s.unit u).silentH ∧ (s.unit u).silentF = 0 ∧ (s.unit u).role ≠ 3 :=
  ⟨1, (pairAt 3 1 { heard := some 150, role := 0, silentH := 3 } id), by decide +kernel⟩
theorem test_HalurSendingAndWatch_61 : ∃ (port : Nat) (b : Bool) (s : State), s.up = true ∧ port < 2 ∧ (if port = 0 then s.hal.h0 else s.hal.h1) ≠ b :=
  ⟨1, true, lead, by decide +kernel⟩
theorem test_HalurMessages_11 : ∃ (h : HHead) (b : Beat) (s : State), s.up = true ∧ s.Hears h 1 ∧ h.role ≠ 0 :=
  ⟨(head 1 100), beat0, pairLead, by decide +kernel⟩
theorem test_HalurMessages_24 : ∃ (h : HHead) (b : Beat) (s : State), s.up = true ∧ s.Hears h 1 ∧ h.role = 0 ∧ s.st.role = 0 ∧ s.hal.degraded = false ∧ s.outranked h.sender = true :=
  ⟨(head 0 100), beat0, pairLead, by decide +kernel⟩
theorem test_HalurMessages_3181 : ∃ (h : HHead) (b : Beat) (f : FastLead) (s : State), s.up = true ∧ s.storesOk = true ∧ s.Hears h 1 ∧ s.isFollower = true ∧ s.hal.degraded = false ∧ h.role = 0 ∧ h.epoch = s.leadEpoch ∧ h.frame = s.clk.frame ∧ h.sample = s.clk.sample ∧ h.us ≤ 450 ∧ f.seqSet = true :=
  ⟨(head 0 450), beat0, fastLead0, pairShadow, by decide +kernel⟩
theorem test_HalurMessages_321 : ∃ (h : HHead) (b : Beat) (f : FastLead) (s : State), s.up = true ∧ s.storesOk = true ∧ s.Hears h 1 ∧ s.isFollower = true ∧ s.hal.degraded = false ∧ h.role = 0 ∧ h.epoch = s.leadEpoch ∧ h.frame = s.clk.frame ∧ h.sample = s.clk.sample ∧ 450 < h.us :=
  ⟨(head 0 451), beat0, fastLead0, pairShadow, by decide +kernel⟩
theorem test_HalurMessages_411 : ∃ (h : HHead) (m : FullLead) (r : Report) (s : State), s.up = true ∧ s.storesOk = true ∧ s.Hears h 2 ∧ s.isFollower = true ∧ s.hal.degraded = false ∧ h.role = 0 ∧ h.epoch = s.leadEpoch ∧ h.frame = s.clk.frame ∧ h.sample = s.clk.sample ∧ h.us ≤ 1200 :=
  ⟨(head 0 1200), fullLead0, (⟨[], [], false⟩ : Report), pairShadow, by decide +kernel⟩
theorem test_HalurMessages_421 : ∃ (h : HHead) (m : FullLead) (r : Report) (s : State), s.up = true ∧ s.storesOk = true ∧ s.Hears h 2 ∧ s.isFollower = true ∧ s.hal.degraded = false ∧ h.role = 0 ∧ h.epoch = s.leadEpoch ∧ h.frame = s.clk.frame ∧ h.sample = s.clk.sample ∧ 1200 < h.us :=
  ⟨(head 0 1201), fullLead0, (⟨[], [], false⟩ : Report), pairShadow, by decide +kernel⟩
theorem test_HalurMessages_51 : ∃ (h : HHead) (r : Report) (s : State), s.up = true ∧ s.Hears h 2 ∧ (h.role = 1 ∨ h.role = 2) :=
  ⟨(head 1 1201), rep0, pairLead, by decide +kernel⟩
theorem test_HalurMessages_61 : ∃ (h : HHead) (s : State), s.up = true ∧ s.Hears h 9 ∧ s.st.role = 0 :=
  ⟨(head 1 1201), pairLead, by decide +kernel⟩
theorem test_LeadChanges_11 : ∃ (u : Nat) (s : State), s.up = true ∧ s.lossDue = some u :=
  ⟨1, leadGone, by decide +kernel⟩
theorem test_LeadChanges_232 : ∃ (h : HHead) (epoch : Nat) (prio : Nat) (s : State), s.up = true ∧ s.storesOk = true ∧ s.Hears h 3 ∧ h.role ≠ 0 ∧ (let wins := State.before prio h.sender (s.cfgU 0x3E00 1) s.st.unitId; wins = true ∧ s.hal.claim.isSome) :=
  ⟨(head 3 5), 3, 1, claiming, by decide +kernel⟩
theorem test_LeadChanges_24 : ∃ (h : HHead) (epoch : Nat) (prio : Nat) (s : State), s.up = true ∧ s.storesOk = true ∧ s.Hears h 3 ∧ h.role ≠ 0 ∧ (let wins := State.before prio h.sender (s.cfgU 0x3E00 1) s.st.unitId; wins = false) :=
  ⟨(head 3 5), 3, 9, claiming, by decide +kernel⟩
theorem test_LeadChanges_31 : ∃ (fd : Nat) (e : Nat) (s : State), s.up = true ∧ s.storesOk = true ∧ s.hal.claim = some (fd, e) ∧ fd + 5 ≤ s.clk.frame :=
  ⟨161, 3, claiming, by decide +kernel⟩
theorem test_LeadChanges_42 : ∃ (h : HHead) (target : Nat) (s : State), s.up = true ∧ s.Hears h 4 ∧ target ≠ 0xFF :=
  ⟨(head 3 5), 0, pairShadow, by decide +kernel⟩
theorem test_LeadChanges_431 : ∃ (h : HHead) (target : Nat) (s : State), s.up = true ∧ s.Hears h 4 ∧ target = 0xFF :=
  ⟨(head 3 5), 0xFF, pairShadow, by decide +kernel⟩
theorem test_LeadChanges_51 : ∃ (h : HHead) (code : Nat) (s : State), s.up = true ∧ s.Hears h 5 :=
  ⟨(head 3 5), 0, pairShadow, by decide +kernel⟩
theorem test_LeadChanges_611 : ∃ (s : State), s.up = true ∧ s.storesOk = true ∧ s.st.role = 3 ∧ s.hal.conflict = false ∧ s.st.unitId < s.units ∧ s.hal.claim = none ∧ s.cfgU 0x3E00 3 ≤ s.hal.waited ∧ (let heard := s.others.filter fun u => (s.unit u).role == 3 && (s.unit u).heard.isSome && !s.gone u; s.units = 1) :=
  ⟨(loner 1 {}), by decide +kernel⟩
theorem test_LeadChanges_621 : ∃ (s : State), s.up = true ∧ s.storesOk = true ∧ s.st.role = 3 ∧ s.hal.conflict = false ∧ s.st.unitId < s.units ∧ s.hal.claim = none ∧ s.cfgU 0x3E00 3 ≤ s.hal.waited ∧ (let heard := s.others.filter fun u => (s.unit u).role == 3 && (s.unit u).heard.isSome && !s.gone u; s.units ≠ 1 ∧ heard.any s.outranked = false) :=
  ⟨(loner 2 {heard := some 160, nvEpoch := 7, prio := 5}), by decide +kernel⟩
theorem test_LeadChanges_63 : ∃ (s : State), s.up = true ∧ s.storesOk = true ∧ s.st.role = 3 ∧ s.hal.conflict = false ∧ s.st.unitId < s.units ∧ s.hal.claim = none ∧ s.cfgU 0x3E00 3 ≤ s.hal.waited ∧ (let heard := s.others.filter fun u => (s.unit u).role == 3 && (s.unit u).heard.isSome && !s.gone u; s.units ≠ 1 ∧ heard.any s.outranked = true) :=
  ⟨(loner 2 {heard := some 160, nvEpoch := 7, prio := 1}), by decide +kernel⟩
theorem test_LargeWrites_11 : ∃ (h : HHead) (prio : Nat) (nvEpoch : Nat) (s : State), s.up = true ∧ s.Hears h 6 ∧ s.st.role = 0 ∧ s.hal.degraded = false ∧ h.role ≠ 0 ∧ (∀ b ∈ s.acc.bulk, b.key = 0 → ∀ p ∈ b.open', p.1 ≠ h.sender) :=
  ⟨(head 3 5), 1, 2, pairLead, by decide +kernel⟩
theorem test_LargeWrites_23 : ∃ (h : HHead) (key : Nat) (length : Nat) (k : Nat) (data : List Byte) (s : State), s.up = true ∧ s.Hears { h with seq := h.seq * 65536 + k } 7 ∧ s.st.role ≠ 0 ∧ h.role = 0 ∧ s.hal.degraded = false ∧ (let old := (match s.acc.bulkIn with | some y => if y.key = key ∧ y.length = length then y.frags else [] | none => []); let frags := tset old k data; let whole := ∀ j, j < State.fragCount length → (tfind frags j).isSome; (key ≠ 0 ∨ ¬whole)) :=
  ⟨(head 0 5), 0x3C0100, 1500, 1, [1,2,3], pairShadow, by decide +kernel⟩
theorem test_LargeWrites_24 : ∃ (h : HHead) (key : Nat) (length : Nat) (k : Nat) (data : List Byte) (s : State), s.up = true ∧ s.Hears { h with seq := h.seq * 65536 + k } 7 ∧ s.st.role ≠ 0 ∧ h.role = 0 ∧ s.hal.degraded = false ∧ (let old := (match s.acc.bulkIn with | some y => if y.key = key ∧ y.length = length then y.frags else [] | none => []); let frags := tset old k data; let whole := ∀ j, j < State.fragCount length → (tfind frags j).isSome; key ≠ 0 ∧ whole) :=
  ⟨(head 0 5), 0x3C0100, 1500, 1, [1,2,3], { pairShadow with acc := { pairShadow.acc with bulkIn := some ⟨0x3C0100, 1500, [(0, [7,8])]⟩ } }, by decide +kernel⟩
theorem test_LargeWrites_251 : ∃ (h : HHead) (key : Nat) (length : Nat) (k : Nat) (data : List Byte) (s : State), s.up = true ∧ s.Hears { h with seq := h.seq * 65536 + k } 7 ∧ s.st.role ≠ 0 ∧ h.role = 0 ∧ s.hal.degraded = false ∧ (let old := (match s.acc.bulkIn with | some y => if y.key = key ∧ y.length = length then y.frags else [] | none => []); let frags := tset old k data; let whole := ∀ j, j < State.fragCount length → (tfind frags j).isSome; key = 0 ∧ whole ∧ s.st.role = 3 ∧ s.hal.join < 2) :=
  ⟨(head 0 5), 0, 3, 0, [1,2,3], joining, by decide +kernel⟩
theorem test_LargeWrites_311 : ∃ (h : HHead) (frags : List Nat) (b : Bulk) (rest : List Bulk) (s : State), s.up = true ∧ s.storesOk = true ∧ s.Hears h 8 ∧ s.st.role = 0 ∧ h.role ≠ 0 ∧ s.acc.bulk = b :: rest ∧ b.start.isSome ∧ (let left := b.open'.map fun p => if p.1 = h.sender then (p.1, p.2.filter fun k => !frags.contains k) else p; left.all (fun p => p.2.isEmpty) = false) :=
  ⟨(head 1 5), [0,1], (bulk0 0x3C0100 [(1, [0,1,2])]), ([] : List Bulk), (bulkOn 0x3C0100 [(1, [0,1,2])]), by decide +kernel⟩
theorem test_LargeWrites_321 : ∃ (h : HHead) (frags : List Nat) (b : Bulk) (rest : List Bulk) (s : State) (r : _), s.up = true ∧ s.storesOk = true ∧ s.Hears h 8 ∧ s.st.role = 0 ∧ h.role ≠ 0 ∧ s.acc.bulk = b :: rest ∧ b.start.isSome ∧ (let left := b.open'.map fun p => if p.1 = h.sender then (p.1, p.2.filter fun k => !frags.contains k) else p; left.all (fun p => p.2.isEmpty) = true ∧ b.key ≠ 0 ∧ findRow (b.key / 256) (b.key % 256) = some r) :=
  ⟨(head 1 5), [0,1], (bulk0 0x3C0100 [(1, [0,1])]), ([] : List Bulk), (bulkOn 0x3C0100 [(1, [0,1])]), (rowOf 0x3C01 0), by decide +kernel⟩
theorem test_LargeWrites_41 : ∃ (f : Nat) (b : Bulk) (rest : List Bulk) (s : State), s.up = true ∧ s.acc.bulk = b :: rest ∧ b.start = some f ∧ f + 64 ≤ s.clk.frame :=
  ⟨100, (bulk0 0x3C0100 [(1, [0,1])]), ([] : List Bulk), { bulkOn 0x3C0100 [(1, [0,1])] with clk := { pairLead.clk with frame := 164 } }, by decide +kernel⟩
theorem test_FieldNetwork_101 : ∃ (x : Nat) (s : State), s.up = true ∧ x < 2 ∧ bit s.net.lostNets x = false ∧ s.judged x = true ∧ s.cfgU 0x4000 0x0C ≤ tget 0 s.net.quiet x :=
  ⟨1, (noded {} fun n => { n with quiet := [(1, 8)] }), by decide +kernel⟩
theorem test_FieldNetwork_111 : ∃ (n : Nat) (speed : Nat) (link : Bool) (full : Bool) (s : State), s.up = true ∧ n < 4 ∧ (let ok := link && !s.degraded 8 n && s.cfgB (0x4001 + n) 1 && full && (speed == 100 || speed == 1000); let new : NetPort := { up := ok, speed := if ok then speed else 0 }; (s.port n ≠ new ∨ (link = true ∧ ok = false))) :=
  ⟨0, 100, true, true, (noded {} id), by decide +kernel⟩
theorem test_FieldNetwork_114 : ∃ (x : Nat) (s : State), s.up = true ∧ x < 2 ∧ bit s.net.lostNets x = true ∧ 800 ≤ tget 0 s.net.good x ∧ s.records = true :=
  ⟨1, (noded {} fun n => { n with good := [(1, 800)], lostNets := 2 }), by decide +kernel⟩
theorem test_FieldNetwork_12 : ∃ (n : Nat) (speed : Nat) (link : Bool) (full : Bool) (s : State), s.up = true ∧ n < 4 ∧ (let ok := link && !s.degraded 8 n && s.cfgB (0x4001 + n) 1 && full && (speed == 100 || speed == 1000); let new : NetPort := { up := ok, speed := if ok then speed else 0 }; s.port n = new ∧ (link = true → ok = true)) :=
  ⟨0, 100, false, true, (noded {} id), by decide +kernel⟩
theorem test_FieldNetwork_122 : ∃ (id : Nat) (n : Node) (s : State), s.up = true ∧ s.node id = some n ∧ s.nodeLossDue n = true ∧ n.lossClass = 1 :=
  ⟨20, (parseNode nodeBytes), (noded { onA := some 150, seq := some 3 } id), by decide +kernel⟩
theorem test_FieldNetwork_123 : ∃ (id : Nat) (n : Node) (s : State), s.up = true ∧ s.node id = some n ∧ s.nodeLossDue n = true ∧ n.lossClass ≠ 1 :=
  ⟨20, (parseNode (lossOf 2)), (withObjs (noded { onA := some 150, seq := some 3 } id) [(0x4020, 0, .d (lossOf 2))]), by decide +kernel⟩
theorem test_FieldNetwork_134 : ∃ (u : Nat) (s : State), s.up = true ∧ s.st.role = 0 ∧ 16 ≤ s.hal.offField ∧ s.net.offPath = false ∧ (s.others.find? fun u => (s.unit u).role == 1 && (s.unit u).joined) = some u ∧ (let can := s.gone u = false ∧ (s.unit u).mirrorDeg = false ∧ u ≠ s.st.unitId; can) :=
  ⟨1, (offPath16 false), by decide +kernel⟩
theorem test_FieldNetwork_135 : ∃ (u : Nat) (s : State), s.up = true ∧ s.st.role = 0 ∧ 16 ≤ s.hal.offField ∧ s.net.offPath = false ∧ (s.others.find? fun u => (s.unit u).role == 1 && (s.unit u).joined) = some u ∧ (let can := s.gone u = false ∧ (s.unit u).mirrorDeg = false ∧ u ≠ s.st.unitId; ¬can) :=
  ⟨1, (offPath16 true), by decide +kernel⟩
theorem test_FieldNetwork_141 : ∃ (s : State), s.up = true ∧ s.st.role = 0 ∧ 16 ≤ s.hal.offField ∧ s.net.offPath = false ∧ (∀ u ∈ s.others, ¬((s.unit u).role = 1 ∧ (s.unit u).joined = true)) :=
  ⟨offAlone, by decide +kernel⟩
theorem test_FieldNetwork_21 : ∃ (p : Nat) (mac : Nat) (arrival : Nat) (e : Nat) (tag : Option Nat) (b : List Byte) (s : State), s.up = true ∧ s.storesOk = true ∧ p < 4 ∧ s.portUp p = true ∧ State.parseKpp b = .error e :=
  ⟨2, 5, 600, 3, none, [1,2,3], (noded {} id), by decide +kernel, by decide +kernel, by decide +kernel, by decide +kernel, error_of (by decide +kernel)⟩
theorem test_FieldNetwork_321 : ∃ (p : Nat) (mac : Nat) (arrival : Nat) (tag : Option Nat) (b : List Byte) (k : State.KppIn) (s : State), s.up = true ∧ s.storesOk = true ∧ p < 4 ∧ s.portUp p = true ∧ State.parseKpp b = .ok k ∧ s.knownNode k.source = true ∧ k.source ≠ 4092 + s.st.unitId ∧ (let net := s.cfgU (0x4001 + p) 2; let x := s.nodeSt k.source; let second := ∃ n, tag = some n ∧ (State.recoverTag (tfind s.net.recov mac) n arrival).1 = false; second) :=
  ⟨2, 9, 600, (some 7), (kppOf 5 0 []), (⟨20, 5, 0, []⟩ : State.KppIn), (noded { seq := some 4 } fun n => { n with recov := [(9, ([7], 500))] }), by decide +kernel, by decide +kernel, by decide +kernel, by decide +kernel, ok_of (by decide +kernel), by decide +kernel⟩
theorem test_FieldNetwork_331 : ∃ (p : Nat) (mac : Nat) (arrival : Nat) (tag : Option Nat) (b : List Byte) (k : State.KppIn) (s : State), s.up = true ∧ s.storesOk = true ∧ p < 4 ∧ s.portUp p = true ∧ State.parseKpp b = .ok k ∧ s.knownNode k.source = true ∧ k.source ≠ 4092 + s.st.unitId ∧ (let net := s.cfgU (0x4001 + p) 2; let x := s.nodeSt k.source; let newer := x.seq = none ∨ ∃ q, x.seq = some q ∧ newerMod (2 ^ 32) k.seq q = true; let second := ∃ n, tag = some n ∧ (State.recoverTag (tfind s.net.recov mac) n arrival).1 = false; ¬second ∧ ¬newer) :=
  ⟨2, 9, 600, none, (kppOf 5 0 []), (⟨20, 5, 0, []⟩ : State.KppIn), (noded { seq := some 5 } id), by decide +kernel, by decide +kernel, by decide +kernel, by decide +kernel, ok_of (by decide +kernel), by decide +kernel⟩
theorem test_FieldNetwork_341 : ∃ (p : Nat) (mac : Nat) (arrival : Nat) (tag : Option Nat) (b : List Byte) (k : State.KppIn) (s : State), s.up = true ∧ s.storesOk = true ∧ p < 4 ∧ s.portUp p = true ∧ State.parseKpp b = .ok k ∧ s.knownNode k.source = true ∧ k.source ≠ 4092 + s.st.unitId ∧ (let net := s.cfgU (0x4001 + p) 2; let x := s.nodeSt k.source; let newer := x.seq = none ∨ ∃ q, x.seq = some q ∧ newerMod (2 ^ 32) k.seq q = true; let second := ∃ n, tag = some n ∧ (State.recoverTag (tfind s.net.recov mac) n arrival).1 = false; ¬second ∧ newer) :=
  ⟨1, 9, 600, none, (kppOf 5 0 []), (⟨20, 5, 0, []⟩ : State.KppIn), (noded {} id), by decide +kernel, by decide +kernel, by decide +kernel, by decide +kernel, ok_of (by decide +kernel), by decide +kernel⟩
theorem test_FieldNetwork_41 : ∃ (p : Nat) (mac : Nat) (arrival : Nat) (b : List Byte) (k : State.KppIn) (s : State), s.up = true ∧ s.storesOk = true ∧ p < 4 ∧ s.portUp p = true ∧ State.parseKpp b = .ok k ∧ (s.knownNode k.source = false ∨ k.source = 4092 + s.st.unitId) :=
  ⟨2, 9, 600, (kppOf 5 0 []), (⟨20, 5, 0, []⟩ : State.KppIn), (withObjs (noded {} id) [(0x4020, 0, .d [])]), by decide +kernel, by decide +kernel, by decide +kernel, by decide +kernel, ok_of (by decide +kernel), by decide +kernel⟩
theorem test_FieldNetwork_51 : ∃ (p : Nat) (mac : Nat) (arrival : Nat) (b : List Byte) (k : State.KppIn) (n : Node) (r : KppRec) (s : State), s.up = true ∧ p < 4 ∧ s.portUp p = true ∧ s.cfgU (0x4001 + p) 2 = 1 ∧ State.parseKpp b = .ok k ∧ s.node k.source = some n ∧ n.kind = 2 ∧ k.source < 4092 ∧ (s.nodeSt k.source).seq = none ∧ k.recs = [r] ∧ r.type = 3 ∧ r.node = k.source ∧ r.words.length = n.fields :=
  ⟨2, 9, 600, (kppOf 5 1 kppRec0), (⟨20, 5, 0, [⟨3, 20, 5, [77, 78]⟩]⟩ : State.KppIn), (parseNode nodeBytes), (⟨3, 20, 5, [77, 78]⟩ : KppRec), (noded {} id), by decide +kernel, by decide +kernel, by decide +kernel, by decide +kernel, ok_of (by decide +kernel), by decide +kernel⟩
theorem test_FieldNetwork_6 : ∃ (s : State), s.up = true ∧ s.mode.mode ≠ 7 :=
  ⟨(noded {} fun n => { n with cmds := [⟨1, 20, 5, [7]⟩] }), by decide +kernel⟩
theorem test_FieldNetwork_71 : ∃ (k : Nat) (s : State), s.publishedDue k = true ∧ s.publishedWords k ≠ [] :=
  ⟨2, mapped, by decide +kernel⟩
theorem test_FieldNetwork_8 : ∃ (k : Nat) (s : State), (s.publishedDue k = false ∨ s.publishedWords k = []) :=
  ⟨0, mapped, by decide +kernel⟩
theorem test_FieldNetwork_96 : ∃ (k : Nat) (s : State), s.up = true ∧ s.storesOk = true ∧ 0 < k ∧ s.net.queued ≠ [] ∧ s.records = true :=
  ⟨3, (noded {} fun n => { n with queued := [{ seq := 0, rtag := 0, status := 0, frame := 0, recs := [] }, { seq := 1, rtag := 1, status := 0, frame := 0, recs := [] }] }), by decide +kernel⟩
theorem test_KdpSessions_1 : ∃ (id net : Nat) (s : State), s.up = true ∧ s.kdpOpen id = false ∧ net < 2 ∧ s.cfgU 0x4000 (if net = 0 then 1 else 3) ≠ 0 ∧ s.kdpCount < 8 :=
  ⟨1, 0, withObjs lead [(0x4000, 1, .u 1)], by decide +kernel⟩
theorem test_KdpSessions_21 : ∃ (id : Nat) (t0 : Nat) (peer : Nat) (net : Nat) (kid : List Byte) (s : State), s.up = true ∧ s.kdpOpen id = false ∧ net < 2 ∧ s.cfgU 0x4000 (if net = 0 then 1 else 3) ≠ 0 ∧ 8 ≤ s.kdpCount :=
  ⟨1, 600000000, 5, 0, [], { withObjs lead [(0x4000, 1, .u 1)] with acc := { lead.acc with sessions := (List.range 8).map fun k => (20 + k, {}) } }, by decide +kernel⟩
theorem test_KdpSessions_31 : ∃ (id : Nat) (t0 : Nat) (c : Instr) (s : State), s.up = true ∧ s.kdpOpen id = true ∧ (c = .kdpConnectionClosed id t0 ∨ (c = .kdpIdleTimeout id t0 ∧ (s.session (.kdp id)).last + State.ns (s.cfgR 0x4000 0x0A) ≤ max s.clk.time t0)) :=
  ⟨1, 600000000, (.kdpConnectionClosed 1 600000000), (sessionOf .operator [] lead), by decide +kernel⟩
theorem test_KdpSessions_411 : ∃ (id : Nat) (t0 : Nat) (req : Nat) (rest : List Byte) (s : State), s.FreshRequest id req ∧ 7 ≤ rest.length ∧ rest.length ≤ 16777223 ∧ (let i := leAt rest 1 2; let j := leAt rest 3 1; let own := leAt rest 0 1 = 0xFF; own ∧ s.existsAbort i j ≠ 0 ∧ i ≠ 0x4620) :=
  ⟨1, 600, 9, (req 0x3E00 0x55 []), (sessionOf .operator [] lead), fresh_of (by decide +kernel), by decide +kernel⟩
theorem test_KdpSessions_421 : ∃ (id : Nat) (t0 : Nat) (req : Nat) (rest : List Byte) (s : State) (r : _), s.FreshRequest id req ∧ 7 ≤ rest.length ∧ rest.length ≤ 16777223 ∧ (let i := leAt rest 1 2; let j := leAt rest 3 1; let own := leAt rest 0 1 = 0xFF; own ∧ s.existsAbort i j = 0 ∧ findRes i = some r ∧ (s.session (.kdp id)).latch = none) :=
  ⟨1, 600, 9, (req 0x2A41 4 []), (sessionOf .operator [⟨7, [], 0, []⟩] lead), res0, fresh_of (by decide +kernel), by decide +kernel⟩
theorem test_KdpSessions_431 : ∃ (id : Nat) (t0 : Nat) (req : Nat) (rest : List Byte) (s : State) (r : _), s.FreshRequest id req ∧ 7 ≤ rest.length ∧ rest.length ≤ 16777223 ∧ (let i := leAt rest 1 2; let j := leAt rest 3 1; let own := leAt rest 0 1 = 0xFF; own ∧ s.existsAbort i j = 0 ∧ findRes i = none ∧ findRow i j = some r ∧ r.acc ≠ .wo ∧ readsLive i j = false) :=
  ⟨1, 600, 9, (req 0x3E00 5 []), (sessionOf .operator [] lead), (rowOf 0x3E00 5), fresh_of (by decide +kernel), by decide +kernel⟩
theorem test_KdpSessions_451 : ∃ (id : Nat) (t0 : Nat) (req : Nat) (rest : List Byte) (s : State) (r : _), s.FreshRequest id req ∧ 7 ≤ rest.length ∧ rest.length ≤ 16777223 ∧ (let i := leAt rest 1 2; let own := leAt rest 0 1 = 0xFF; own ∧ findRes i = some r ∧ (∀ k ∈ 0 :: State.subsOf i, s.existsAbort i k = 0)) :=
  ⟨1, 600, 9, (req 0x2A41 0 []), (sessionOf .operator [⟨7, [], 0, []⟩] lead), res0, fresh_of (by decide +kernel), by decide +kernel⟩
theorem test_KdpSessions_471 : ∃ (id : Nat) (t0 : Nat) (req : Nat) (rest : List Byte) (s : State) (op : Byte), s.FreshRequest id req ∧ 7 ≤ rest.length ∧ rest.length ≤ 16777223 ∧ (op = 0 ∨ 4 < op) :=
  ⟨1, 600, 9, (req 0x2A41 0 []), (sessionOf .operator [⟨7, [], 0, []⟩] lead), 9#8, fresh_of (by decide +kernel), by decide +kernel⟩
theorem test_KdpSessions_55 : ∃ (id : Nat) (t0 : Nat) (req : Nat) (rest : List Byte) (r : Reply) (s : State), s.up = true ∧ s.kdpOpen id = true ∧ 7 ≤ rest.length ∧ rest.length ≤ 16777223 ∧ (s.session (.kdp id)).wait = [] ∧ s.kdpHeld id = false ∧ (s.session (.kdp id)).replay.find? (fun r => r.id == req) = some r ∧ r.body = 2 :: rest :=
  ⟨1, 600, 9, (req 0x3E00 5 [9, 0]), (⟨9, 2 :: req 0x3E00 5 [9, 0], 0, []⟩ : Reply), (sessionOf .engineer [⟨9, 2 :: req 0x3E00 5 [9, 0], 0, []⟩] lead), by decide +kernel⟩
theorem test_KdpSessions_56 : ∃ (id : Nat) (t0 : Nat) (req : Nat) (rest : List Byte) (r : Reply) (s : State), s.up = true ∧ s.kdpOpen id = true ∧ 7 ≤ rest.length ∧ rest.length ≤ 16777223 ∧ (s.session (.kdp id)).wait = [] ∧ s.kdpHeld id = false ∧ (s.session (.kdp id)).replay.find? (fun r => r.id == req) = some r ∧ r.body ≠ 2 :: rest :=
  ⟨1, 600, 9, (req 0x3E00 5 [9, 0]), (⟨9, [3], 0, []⟩ : Reply), (sessionOf .engineer [⟨9, [3], 0, []⟩] lead), by decide +kernel⟩
theorem test_OldRequestAborts_1 : ∃ (id t0 req : Nat) (rest : List Byte) (r : Reply) (c : Instr) (s : State), s.up = true ∧ s.kdpOpen id = true ∧
    7 ≤ rest.length ∧ rest.length ≤ 16777223 ∧ (s.session (.kdp id)).wait = [] ∧ s.kdpHeld id = false ∧
    (∃ l, (s.session (.kdp id)).replay = r :: l ∧ newerMod (2 ^ 32) (State.oldestId r.id (l.map (·.id))) req = true) ∧
    (∀ q ∈ (s.session (.kdp id)).replay, q.id ≠ req) ∧
    (c = .kdpRead id t0 req rest ∨ c = .kdpWrite id t0 req rest ∨ c = .kdpWholeRecordRead id t0 req rest ∨
      c = .kdpKeepalive id t0 req 4 rest) :=
  ⟨1, 600, 9, req 0x3E00 5 [9, 0], ⟨10, [3], 0, []⟩, .kdpWrite 1 600 9 (req 0x3E00 5 [9, 0]),
    sessionOf .engineer [⟨10, [3], 0, []⟩, ⟨12, [3], 0, []⟩] lead, by decide +kernel, by decide +kernel, by decide +kernel, by decide +kernel,
    by decide +kernel, by decide +kernel, ⟨[⟨12, [3], 0, []⟩], by decide +kernel, by decide +kernel⟩, by decide +kernel, .inr (.inl rfl)⟩
theorem test_CanMessages_151 : ∃ (c : Nat) (id : Nat) (sof : Nat) (fd : Bool) (data : List Byte) (cmd : Instr) (s : State), s.canHears c = true ∧ s.storesOk = true ∧ (cmd = .canFrameReceived c id fd data sof true ∨ (cmd = .rpdoReceived c id fd data sof ∧ ∃ n, n < 512 ∧ bit (s.cfgU (0x1400 + n) 1) 31 = false ∧ State.cobId (s.cfgU (0x1400 + n) 1) = id)) ∧ s.fifoOf c id = none :=
  ⟨0, 0x306, 7, false, (octets [1,2]), (.canFrameReceived 0 0x306 false (octets [1,2]) 7 true), (withCan rpdoObjs {} lead), by decide +kernel⟩
theorem test_CanMessages_162 : ∃ (c : Nat) (id : Nat) (sof : Nat) (fd : Bool) (data : List Byte) (cmd : Instr) (s : State), s.canHears c = true ∧ s.storesOk = true ∧ (cmd = .canFrameReceived c id fd data sof true ∨ (cmd = .rpdoReceived c id fd data sof ∧ ∃ n, n < 512 ∧ bit (s.cfgU (0x1400 + n) 1) 31 = false ∧ State.cobId (s.cfgU (0x1400 + n) 1) = id)) ∧ (let x := s.canC c; s.fifoOf c id = some 0 ∧ x.fifo0.length < 64) :=
  ⟨0, 0x305, 7, false, (octets [1,2]), (.rpdoReceived 0 0x305 false (octets [1,2]) 7), (withCan rpdoObjs {} lead), by decide +kernel⟩
theorem test_CanMessages_1631 : ∃ (c : Nat) (id : Nat) (sof : Nat) (fd : Bool) (data : List Byte) (cmd : Instr) (s : State), s.canHears c = true ∧ s.storesOk = true ∧ (cmd = .canFrameReceived c id fd data sof true ∨ (cmd = .rpdoReceived c id fd data sof ∧ ∃ n, n < 512 ∧ bit (s.cfgU (0x1400 + n) 1) 31 = false ∧ State.cobId (s.cfgU (0x1400 + n) 1) = id)) ∧ (let x := s.canC c; s.fifoOf c id = some 0 ∧ 64 ≤ x.fifo0.length) :=
  ⟨0, 0x305, 7, false, (octets [1,2]), (.rpdoReceived 0 0x305 false (octets [1,2]) 7), (withCan rpdoObjs { fifo0 := List.replicate 64 rx0 } lead), by decide +kernel⟩
theorem test_CanMessages_172 : ∃ (c : Nat) (id : Nat) (sof : Nat) (fd : Bool) (data : List Byte) (cmd : Instr) (s : State), s.canHears c = true ∧ s.storesOk = true ∧ (cmd = .canFrameReceived c id fd data sof true ∨ (cmd = .rpdoReceived c id fd data sof ∧ ∃ n, n < 512 ∧ bit (s.cfgU (0x1400 + n) 1) 31 = false ∧ State.cobId (s.cfgU (0x1400 + n) 1) = id)) ∧ (let x := s.canC c; s.fifoOf c id = some 1 ∧ x.fifo1.length < 64) :=
  ⟨0, 0x605, 7, false, (octets [1,2]), (.canFrameReceived 0 0x605 false (octets [1,2]) 7 true), (withCan [] {} lead), by decide +kernel⟩
theorem test_CanMessages_1731 : ∃ (c : Nat) (id : Nat) (sof : Nat) (fd : Bool) (data : List Byte) (cmd : Instr) (s : State), s.canHears c = true ∧ s.storesOk = true ∧ (cmd = .canFrameReceived c id fd data sof true ∨ (cmd = .rpdoReceived c id fd data sof ∧ ∃ n, n < 512 ∧ bit (s.cfgU (0x1400 + n) 1) 31 = false ∧ State.cobId (s.cfgU (0x1400 + n) 1) = id)) ∧ (let x := s.canC c; s.fifoOf c id = some 1 ∧ 64 ≤ x.fifo1.length) :=
  ⟨0, 0x605, 7, false, (octets [1,2]), (.canFrameReceived 0 0x605 false (octets [1,2]) 7 true), (withCan [] { fifo1 := List.replicate 64 rx0 } lead), by decide +kernel⟩
theorem test_CanMessages_21 : ∃ (c : Nat) (sof : Nat) (m : CanMsg) (s : State), s.canSends c = true ∧ s.storesOk = true ∧ State.nextTx (s.canC c) = some m ∧ (s.canC c).sdoOut = [] ∧ (s.canC c).tec ≤ 256 :=
  ⟨0, 7, msg0, (withCan [] { tx := [msg0], tec := 5 } lead), by decide +kernel⟩
theorem test_CanMessages_331 : ∃ (c : Nat) (j : Nat) (s : State), s.up = true ∧ s.mode.mode ≠ 7 ∧ c < 4 ∧ (∀ k, k < 4 → (s.canC k).tx = []) ∧ s.canSends c = true ∧ s.cfgU (State.canObj c) 0x0B ≠ 0 ∧ (let id := s.cfgU (0x4240 + j) 2; s.st.role ≠ 0) :=
  ⟨0, 40, (withCan driveObjs {} { leadAt 3 with st := { lead.st with role := 1 } }), by decide +kernel⟩
theorem test_CanMessages_3411 : ∃ (c : Nat) (j : Nat) (s : State), s.up = true ∧ s.mode.mode ≠ 7 ∧ c < 4 ∧ (∀ k, k < 4 → (s.canC k).tx = []) ∧ s.canSends c = true ∧ s.cfgU (State.canObj c) 0x0B ≠ 0 ∧ (let id := s.cfgU (0x4240 + j) 2; s.st.role = 0 ∧ j < 32 ∧ bit (s.cfgU (0x4240 + j) 1) c = true) :=
  ⟨0, 0, (withCan driveObjs {} (leadAt 3)), by decide +kernel⟩
theorem test_CanMessages_41 : ∃ (n : Nat) (t0 : Nat) (s : State), (s.at' t0).tpdoDue n ≠ 0 :=
  ⟨1, 600, (withCan tpdoObjs {} lead), by decide +kernel⟩
theorem test_CanMessages_51 : ∃ (t0 : Nat) (s : State), (s.at' t0).beatDue = true :=
  ⟨1000000000, (withCan [(0x1017, 0, .u 1000)] {} lead), by decide +kernel⟩
theorem test_CanMessages_61 : ∃ (c : Nat) (s : State), s.canSends c = true ∧ s.st.role = 0 ∧ bit (s.cfgU 0x3868 1) c = true ∧ s.clk.frame % s.cfgU 0x3868 3 = 0 ∧ (s.canC c).refAt ≠ some s.clk.frame ∧ (s.canC c).tx = [] :=
  ⟨0, (withCan [(0x3868, 1, .u 1), (0x3868, 3, .u 8)] {} (leadAt 0)), by decide +kernel⟩
theorem test_CanMessages_71 : ∃ (c : Nat) (node : Nat) (e : Nat) (t0 : Nat) (s : State), s.canHears c = true ∧ tfind (s.canC c).beats node = some (t0, false) ∧ s.watchedBeat node = some e ∧ t0 + e % 65536 * 1000000 ≤ s.clk.time :=
  ⟨0, 9, (9 * 65536 + 500), 0, { withCan [(0x1016, 1, .u (9 * 65536 + 500))] { beats := [(9, (0, false))] } lead with clk := { lead.clk with time := 500000000 } }, by decide +kernel⟩
theorem test_CanErrors_16 : ∃ (c : Nat) (tec : Nat) (rec' : Nat) (s : State), s.canHears c = true ∧ s.storesOk = true ∧ s.cfgU (State.canObj c) 2 = 0 ∧ tec ≤ 255 :=
  ⟨0, 128, 0, (withCan [] {} lead), by decide +kernel⟩
theorem test_CanErrors_17 : ∃ (c : Nat) (tec : Nat) (rec' : Nat) (s : State), s.canHears c = true ∧ s.storesOk = true ∧ s.cfgU (State.canObj c) 2 = 0 ∧ 128 ≤ tec ∧ (s.canC c).passive = false :=
  ⟨0, 300, 0, (withCan [] {} lead), by decide +kernel⟩
theorem test_CanErrors_18 : ∃ (c : Nat) (tec : Nat) (rec' : Nat) (s : State), s.canHears c = true ∧ s.storesOk = true ∧ s.cfgU (State.canObj c) 2 = 0 ∧ tec < 128 ∧ rec' < 128 ∧ (s.canC c).passive = true :=
  ⟨0, 96, 127, { withCan [] { passive := true, tec := 200 } lead with faults := [⟨0x1102, 0, 1⟩] }, by decide +kernel⟩
theorem test_CanErrors_191 : ∃ (c : Nat) (tec : Nat) (rec' : Nat) (s : State), s.canHears c = true ∧ s.storesOk = true ∧ s.cfgU (State.canObj c) 2 = 0 ∧ 255 < tec :=
  ⟨0, 300, 0, (withCan [] {} lead), by decide +kernel⟩
theorem test_CanErrors_2 : ∃ (c : Nat) (s : State), s.up = true ∧ c < 4 ∧ (s.canC c).off = true ∧ (s.canC c).held = false ∧ (s.canC c).recovering = false ∧ (s.canC c).offAt + State.ns (s.cfgR (State.canObj c) 0x0C / 1000) ≤ s.clk.time :=
  ⟨0, { withCan [(0x4200, 0x0C, rv 50)] { off := true } lead with clk := { lead.clk with time := 50000000 } }, by decide +kernel⟩
theorem test_CanErrors_383 : ∃ (c : Nat) (s : State), s.up = true ∧ c < 4 ∧ (s.canC c).recovering = true ∧ s.records = true ∧ s.gran.queue.length + 8 ≤ 4096 ∧ s.cfgU 0x4600 1 = 0 ∧ s.faultIs 0x1103 c = false :=
  ⟨0, { withCan [] { off := true, recovering := true, tec := 256 } lead with faults := [⟨0x1102, 0, 1⟩] }, by decide +kernel⟩
theorem test_CanErrors_41 : ∃ (c : Nat) (s : State), s.canSends c = true ∧ (s.canC c).alone = false ∧ (3 ≤ (s.canC c).aloneFrames ∨ ((s.canC c).aloneFrames = 2 ∧ State.loneFrame (s.canC c) = true)) :=
  ⟨0, (withCan [] { aloneFrames := 3 } lead), by decide +kernel⟩
theorem test_CanErrors_5 : ∃ (c : Nat) (s : State), s.canHears c = true ∧ s.cfgU (State.canObj c) 2 = 2 ∧ (s.canC c).locked = false ∧ (s.canC c).since + 100000000 ≤ s.clk.time :=
  ⟨0, { withCan [(0x4200, 2, .u 2)] { cand := 3 } lead with clk := { lead.clk with time := 100000000 } }, by decide +kernel⟩
theorem test_CanErrors_61 : ∃ (c : Nat) (sof : Nat) (m : CanMsg) (s : State), s.canSends c = true ∧ s.storesOk = true ∧ State.nextTx (s.canC c) = some m ∧ (s.canC c).tec + 8 ≤ 255 :=
  ⟨0, 7, msg0, (withCan [] { tx := [msg0], tec := 5 } lead), by decide +kernel⟩
theorem test_ThirdBusOffHolds_181 : ∃ (c : Nat) (tec : Nat) (rec' : Nat) (k : Nat) (sof : Nat) (cmd : Instr) (s : State), s.canHears c = true ∧ s.cfgU (State.canObj c) 2 = 0 ∧ ((cmd = .canErrorStateChange c tec rec' ∧ 255 < tec) ∨ (cmd = .canTransmitDone c k sof ∧ k ≠ 0 ∧ (k = 1 → (s.canC c).passive = false) ∧ (State.nextTx (s.canC c)).isSome = true ∧ 247 < (s.canC c).tec)) ∧ 2 ≤ ((s.canC c).offs.filter fun a => s.clk.time < a + 60000000000).length ∧ s.records = true ∧ s.gran.queue.length + 8 ≤ 4096 ∧ s.cfgU 0x4600 1 = 0 :=
  ⟨0, 256, 3, 0, 0, (.canErrorStateChange 0 256 3), (withCan [] { offs := [0, 0] } lead), by decide +kernel⟩
theorem test_ThirdBusOffHolds_21 : ∃ (cmd : Instr) (c : Nat) (v : Val) (s : State), c < 4 ∧ s.passes cmd (0x4200 + c) 0x0D v ∧ v.asNat = 1 :=
  ⟨(.genericWrite (.kdp 1) 0x4200 0x0D [1]), 0, (.u 1), (withRole (withCan [] { held := true, off := true, tec := 256 } lead) .engineer), by decide +kernel, passes_of (by decide +kernel), by decide +kernel⟩
theorem test_SdoServer_111 : ∃ (c : Nat) (t0 : Nat) (b : List Byte) (s : State) (u : State), s.Serves u c t0 0 b ∧ (let cmd := leAt b 0 1; cmd / 32 = 1 ∧ bit cmd 1 = true ∧ bit cmd 0 = true) :=
  ⟨0, 600, (octets [0x2B, 0, 0x3E, 5, 9, 0, 0, 0]), (asked none [0x2B, 0, 0x3E, 5, 9, 0, 0, 0]), (served none), serves_of (by decide +kernel), by decide +kernel⟩
theorem test_SdoServer_121 : ∃ (c : Nat) (t0 : Nat) (b : List Byte) (s : State) (u : State), s.Serves u c t0 0 b ∧ (let cmd := leAt b 0 1; cmd / 32 = 1 ∧ bit cmd 1 = false) :=
  ⟨0, 600, (octets [0x21, 0, 0x3E, 5, 2, 0, 0, 0]), (asked none [0x21, 0, 0x3E, 5, 2, 0, 0, 0]), (served none), serves_of (by decide +kernel), by decide +kernel⟩
theorem test_SdoServer_1311 : ∃ (c : Nat) (t0 : Nat) (b : List Byte) (s : State) (u : State) (r : _), s.Serves u c t0 0 b ∧ (let cmd := leAt b 0 1; let i := leAt b 1 2; let j := leAt b 3 1; cmd / 32 = 2 ∧ s.existsAbort i j = 0 ∧ findRes i = none ∧ findRow i j = some r ∧ r.acc ≠ .wo ∧ readsLive i j = false ∧ (let v := encodeVal r.ty (s.objV i j); 1 ≤ v.length ∧ v.length ≤ 4)) :=
  ⟨0, 600, (octets [0x40, 0, 0x3E, 5, 0, 0, 0, 0]), (asked none [0x40, 0, 0x3E, 5, 0, 0, 0, 0]), (served none), (rowOf 0x3E00 5), serves_of (by decide +kernel), by decide +kernel⟩
theorem test_SdoServer_1321 : ∃ (c : Nat) (t0 : Nat) (b : List Byte) (s : State) (u : State) (r : _), s.Serves u c t0 0 b ∧ (let cmd := leAt b 0 1; let i := leAt b 1 2; let j := leAt b 3 1; cmd / 32 = 2 ∧ s.existsAbort i j = 0 ∧ findRes i = none ∧ findRow i j = some r ∧ r.acc ≠ .wo ∧ readsLive i j = false ∧ (let v := encodeVal r.ty (s.objV i j); 4 < v.length)) :=
  ⟨0, 600, (octets [0x40, 0x20, 0x40, 0, 0, 0, 0, 0]), { asked none [0x40, 0x20, 0x40, 0, 0, 0, 0, 0] with obj := (noded {} id).obj }, { served none with obj := (noded {} id).obj }, (rowOf 0x4020 0), serves_of (by decide +kernel), by decide +kernel⟩
theorem test_SdoServer_14 : ∃ (c : Nat) (t0 : Nat) (b : List Byte) (s : State) (u : State), s.Serves u c t0 0 b ∧ (let cmd := leAt b 0 1; cmd / 32 = 4) :=
  ⟨0, 600, (octets [0x80, 0, 0x3E, 5, 0, 0, 0, 0]), (asked none [0x80, 0, 0x3E, 5, 0, 0, 0, 0]), (served none), serves_of (by decide +kernel), by decide +kernel⟩
theorem test_SdoServer_211 : ∃ (c : Nat) (t0 : Nat) (b : List Byte) (x : Sdo) (s : State) (u : State), s.Serves u c t0 1 b ∧ (s.canC c).sdo = some x ∧ x.ended = false ∧ (let cmd := leAt b 0 1; x.kind = .download ∧ cmd / 32 = 0 ∧ bit cmd 4 = x.toggle ∧ bit cmd 0 = false) :=
  ⟨0, 600, (octets [0x00, 1,2,3,4,5,6,7]), (sdo0 .download [9]), (asked (some (sdo0 .download [9])) [0x00, 1,2,3,4,5,6,7]), (served (some (sdo0 .download [9]))), serves_of (by decide +kernel), by decide +kernel⟩
theorem test_SdoServer_221 : ∃ (c : Nat) (t0 : Nat) (b : List Byte) (x : Sdo) (s : State) (u : State), s.Serves u c t0 1 b ∧ (s.canC c).sdo = some x ∧ x.ended = false ∧ (let cmd := leAt b 0 1; x.kind = .upload ∧ cmd / 32 = 3 ∧ bit cmd 4 = x.toggle) :=
  ⟨0, 600, (octets [0x60, 1,2,3,4,5,6,7]), (sdo0 .upload [9]), (asked (some (sdo0 .upload [9])) [0x60, 1,2,3,4,5,6,7]), (served (some (sdo0 .upload [9]))), serves_of (by decide +kernel), by decide +kernel⟩
theorem test_SdoServer_231 : ∃ (c : Nat) (t0 : Nat) (b : List Byte) (x : Sdo) (s : State) (u : State) (r : _), s.Serves u c t0 1 b ∧ (s.canC c).sdo = some x ∧ x.ended = false ∧ (let cmd := leAt b 0 1; ((x.kind = .download ∧ cmd / 32 = 0) ∨ (x.kind = .upload ∧ cmd / 32 = 3)) ∧ bit cmd 4 ≠ x.toggle ∧ x.last = some (b, r) ∧ r ≠ []) :=
  ⟨0, 600, (octets [0x10, 1,2,3,4,5,6,7]), ({ sdo0 .download [9] with last := some (octets [0x10, 1,2,3,4,5,6,7], [1]) }), (asked (some { sdo0 .download [9] with last := some (octets [0x10, 1,2,3,4,5,6,7], [1]) }) [0x10, 1,2,3,4,5,6,7]), (served (some { sdo0 .download [9] with last := some (octets [0x10, 1,2,3,4,5,6,7], [1]) })), [1], serves_of (by decide +kernel), by decide +kernel⟩
theorem test_SdoServer_35 : ∃ (c : Nat) (t0 : Nat) (b : List Byte) (x : Sdo) (s : State) (u : State), s.Serves u c t0 2 b ∧ (s.canC c).sdo = some x ∧ x.kind = .blockDown ∧ x.ended = false ∧ (let cmd := leAt b 0 1; cmd % 128 = x.seq + 1 ∧ cmd % 128 ≠ x.blk ∧ bit cmd 7 = false) :=
  ⟨0, 600, (octets [0x01, 1,2,3,4,5,6,7]), (sdo0 .blockDown [9]), (asked (some (sdo0 .blockDown [9])) [0x01, 1,2,3,4,5,6,7]), (served (some (sdo0 .blockDown [9]))), serves_of (by decide +kernel), by decide +kernel⟩
theorem test_SdoServer_361 : ∃ (c : Nat) (t0 : Nat) (b : List Byte) (x : Sdo) (s : State) (u : State), s.Serves u c t0 2 b ∧ (s.canC c).sdo = some x ∧ x.kind = .blockDown ∧ x.ended = false ∧ (let cmd := leAt b 0 1; cmd % 128 = x.seq + 1 ∧ (cmd % 128 = x.blk ∨ bit cmd 7 = true)) :=
  ⟨0, 600, (octets [0x81, 1,2,3,4,5,6,7]), (sdo0 .blockDown [9]), (asked (some (sdo0 .blockDown [9])) [0x81, 1,2,3,4,5,6,7]), (served (some (sdo0 .blockDown [9]))), serves_of (by decide +kernel), by decide +kernel⟩
theorem test_SdoServer_41 : ∃ (c : Nat) (t0 : Nat) (x : Sdo) (s : State), s.canHears c = true ∧ (s.canC c).sdo = some x ∧ State.Sdo.busy x = true ∧ x.at' + 1000000000 ≤ max s.clk.time t0 :=
  ⟨0, 1000000000, (sdo0 .download [9]), (served (some (sdo0 .download [9]))), by decide +kernel⟩
theorem test_HeatLevels_18 : ∃ (cause : Nat) (s : State), s.up = true ∧ s.storesOk = true ∧ s.therm.riseDue = some cause ∧ (let l := s.therm.level + 1; l = 3) :=
  ⟨1, (hot 2 (some 1)), by decide +kernel⟩
theorem test_HeatLevels_19 : ∃ (cause : Nat) (s : State), s.up = true ∧ s.storesOk = true ∧ s.therm.riseDue = some cause ∧ (let l := s.therm.level + 1; l ≠ 3) :=
  ⟨1, (hot 0 (some 1)), by decide +kernel⟩
theorem test_HeatLevels_2 : ∃ (s : State), s.therm.riseDue = none :=
  ⟨(hot 2 none), by decide +kernel⟩
theorem test_HeatLevels_31 : ∃ (s : State), s.up = true ∧ s.therm.fallDue = true ∧ s.therm.level ≠ 0 :=
  ⟨(cooler 3), by decide +kernel⟩
theorem test_HeatLevels_41 : ∃ (s : State), s.up = true ∧ 80 ≤ s.therm.heatFrames :=
  ⟨{ lead with therm := { lead.therm with heatFrames := 80 } }, by decide +kernel⟩
theorem test_HeatLevels_5 : ∃ (s : State), s.therm.heatFrames < 80 :=
  ⟨{ lead with therm := { lead.therm with heatFrames := 79 } }, by decide +kernel⟩
theorem test_CaseSensorsAndWindows_111 : ∃ (i : Nat) (f : Nat) (s : State), s.up = true ∧ tfind s.therm.inBand i = some f ∧ bit s.therm.excluded i = true ∧ s.degraded 11 i = false ∧ f + 8000 ≤ s.clk.frame :=
  ⟨2, 0, (restoring 0), by decide +kernel⟩
theorem test_CaseSensorsAndWindows_12 : ∃ (i : Nat) (f : Nat) (s : State), s.up = true ∧ tfind s.therm.inBand i = some f ∧ bit s.therm.excluded i = true ∧ s.degraded 11 i = false ∧ s.clk.frame < f + 8000 :=
  ⟨2, 1, (restoring 1), by decide +kernel⟩
theorem test_CaseSensorsAndWindows_27 : ∃ (m : Nat) (s : State), s.up = true ∧ m < 64 ∧ (s.monitor m).win.live = true ∧ (s.monitor m).paused = false ∧ s.windowEnd m ≤ s.clk.time ∧ (let w := (s.monitor m).win; w.overs = false) :=
  ⟨3, (monDue false false), by decide +kernel⟩
theorem test_CaseSensorsAndWindows_281 : ∃ (m : Nat) (s : State), s.up = true ∧ m < 64 ∧ (s.monitor m).win.live = true ∧ (s.monitor m).paused = false ∧ s.windowEnd m ≤ s.clk.time ∧ s.cfgU 0x4C40 0 = m :=
  ⟨3, (monDue false false), by decide +kernel⟩
theorem test_CaseSensorsAndWindows_29 : ∃ (m : Nat) (s : State), s.up = true ∧ m < 64 ∧ (s.monitor m).win.live = true ∧ (s.monitor m).paused = false ∧ s.windowEnd m ≤ s.clk.time ∧ s.cfgU 0x4C40 0 ≠ m :=
  ⟨3, (withObjs (monDue false true) [(0x4C40, 0, .u 2)]), by decide +kernel⟩
theorem test_CaseSensorsAndWindows_3 : ∃ (m : Nat) (s : State), (s.monitor m).paused = true :=
  ⟨3, (monDue true true), by decide +kernel⟩
theorem test_WakeAndLossOfPower_11 : ∃ (b : Nat) (s : State), s.st.power = .dormant ∧ bit (s.cfgU 0x4A10 2) b = true ∧ s.storesOk = true ∧ (b = 0 ∨ (b = 2 ∧ s.gn.moved = true) ∨ (b = 1 ∧ s.cfgR 0x4A10 1 ≠ 0 ∧ ∃ d, s.st.dormantAt = some d ∧ d + State.ns (s.cfgR 0x4A10 1) ≤ s.clk.time)) :=
  ⟨0, (sleeping 0), by decide +kernel⟩
theorem test_WakeAndLossOfPower_2 : ∃ (b : Nat) (s : State), s.st.power ≠ .dormant :=
  ⟨2, lead, by decide +kernel⟩
theorem test_WakeAndLossOfPower_311 : ∃ (w : Nat) (b : Nat) (s : State), s.st.power = .waking ∧ s.st.wake = some (w, b) ∧ s.clk.frame = w + 144 :=
  ⟨1000, 0, (wakes 144), by decide +kernel⟩
theorem test_WakeAndLossOfPower_32 : ∃ (w : Nat) (b : Nat) (s : State), s.st.power = .waking ∧ s.st.wake = some (w, b) ∧ s.clk.frame ≠ w + 144 :=
  ⟨1000, 0, (wakes 143), by decide +kernel⟩
theorem test_WakeAndLossOfPower_49 : ∃ (s : State), s.st.power ≠ .off ∧ s.granOpen = true ∧ s.gran.held.length + 257 < State.storeSize :=
  ⟨queued3, by decide +kernel⟩
theorem test_WakeAndLossOfPower_59 : ∃ (s : State), s.st.power ≠ .off ∧ s.st.power ≠ .reset ∧ s.granOpen = true ∧ s.gran.held.length + 257 < State.storeSize :=
  ⟨queued3, by decide +kernel⟩
theorem test_WakeAndLossOfPower_61 : ∃ (s : State), s.st.power = .off :=
  ⟨(powered .off id), by decide +kernel⟩
theorem test_StartsBegin_11 : ∃ (t0 : Nat) (s : State), s.st.power = .off :=
  ⟨500, (powered .off id), by decide +kernel⟩
theorem test_StartsBegin_2 : ∃ (t0 : Nat) (s : State), s.st.power ≠ .off :=
  ⟨500, (powered .reset id), by decide +kernel⟩
theorem test_StartsBegin_31 : ∃ (t0 : Nat) (s : State), s.st.power = .reset :=
  ⟨500, (powered .reset id), by decide +kernel⟩
theorem test_StartsBegin_411 : ∃ (frames : Nat) (t0 : Nat) (s : State), (s.up = true ∨ s.st.power = .stopped) ∧ 80 ≤ frames ∧ s.acc.store = none :=
  ⟨80, 500, lead, by decide +kernel⟩
theorem test_StartsBegin_421 : ∃ (frames : Nat) (t0 : Nat) (s : State), (s.up = true ∨ s.st.power = .stopped) ∧ 80 ≤ frames ∧ (s.acc.copyA.valid = true → s.acc.copyB.valid = true → s.acc.copyA.serial ≠ s.acc.copyB.serial) :=
  ⟨80, 500, lead, by decide +kernel⟩
theorem test_StartsBegin_43 : ∃ (frames : Nat) (t0 : Nat) (s : State), (s.up = true ∨ s.st.power = .stopped) ∧ frames < 80 :=
  ⟨79, 500, lead, by decide +kernel⟩
theorem test_StartsBegin_511 : ∃ (t0 : Nat) (d : Nat) (refresh : Bool) (s : State), s.st.power = .stopped ∧ s.st.restartDue = some d ∧ d ≤ t0 :=
  ⟨500, 500, true, (powered .stopped fun x => { x with restartDue := some 500, stops := [3] }), by decide +kernel⟩
theorem test_StartsBegin_52 : ∃ (t0 : Nat) (d : Nat) (refresh : Bool) (s : State), s.st.power = .stopped ∧ s.st.restartDue = some d ∧ t0 < d :=
  ⟨499, 500, false, (powered .stopped fun x => { x with restartDue := some 500, stops := [3] }), by decide +kernel⟩
theorem test_StartsBegin_6 : ∃ (t0 : Nat) (refresh : Bool) (s : State), s.st.restartDue = none :=
  ⟨499, true, (powered .stopped id), by decide +kernel⟩
theorem test_StartsBegin_711 : ∃ (k : Nat) (t0 : Nat) (s : State), s.st.power = .starting k ∧ 5 ≤ k ∧ s.st.began + 10000000000 ≤ t0 :=
  ⟨5, 10000000000, (powered (.starting 5) id), by decide +kernel⟩
theorem test_StartsBegin_72 : ∃ (k : Nat) (t0 : Nat) (s : State), s.st.power = .starting k ∧ 5 ≤ k ∧ t0 < s.st.began + 10000000000 :=
  ⟨7, 9999999999, (powered (.starting 7) id), by decide +kernel⟩
theorem test_StartsBegin_811 : ∃ (t0 : Nat) (s : State), s.st.power = .halted ∧ s.st.haltAt + 10000000000 ≤ t0 ∧ s.st.halts < 3 :=
  ⟨10000000000, (powered .halted fun x => { x with halts := 2 }), by decide +kernel⟩
theorem test_StartsBegin_82 : ∃ (t0 : Nat) (s : State), s.st.power = .halted ∧ s.st.haltAt + 10000000000 ≤ t0 ∧ 3 ≤ s.st.halts :=
  ⟨10000000000, (powered .halted fun x => { x with halts := 3 }), by decide +kernel⟩
theorem test_StartUpStages_1241 : ∃ (x : StageIn) (s : State), s.st.power = .starting 1 ∧ x.ok = true ∧ x.agree = true ∧ x.testLow = true ∧ x.boot % 8 = 3 ∧ s.st.kind = 2 :=
  ⟨({ t := 5, boot := 3 }), (powered (.starting 1) fun x => { x with kind := 2 }), by decide +kernel⟩
theorem test_StartUpStages_1251 : ∃ (x : StageIn) (s : State), s.st.power = .starting 1 ∧ x.ok = true ∧ x.agree = true ∧ x.testLow = true ∧ ¬(x.boot % 8 = 3 ∧ s.st.kind = 2) :=
  ⟨({ t := 5, vbat := 2499, boot := 5 }), (powered (.starting 1) id), by decide +kernel⟩
theorem test_StartUpStages_1261 : ∃ (x : StageIn) (s : State), s.st.power = .starting 1 ∧ x.ok = true ∧ x.agree = true ∧ x.testLow = true ∧ x.vbat < 2500 :=
  ⟨({ t := 5, vbat := 2499, boot := 5 }), (powered (.starting 1) id), by decide +kernel⟩
theorem test_StartUpStages_127 : ∃ (x : StageIn) (s : State), s.st.power = .starting 1 ∧ x.ok = true ∧ x.agree = true ∧ x.testLow = true ∧ 5 ≤ x.boot % 8 :=
  ⟨({ t := 5, vbat := 2499, boot := 5 }), (powered (.starting 1) id), by decide +kernel⟩
theorem test_StartUpStages_13 : ∃ (x : StageIn) (s : State), s.st.power = .starting 1 ∧ (x.ok = false ∨ x.agree = false ∨ x.testLow = false) :=
  ⟨({ t := 5, agree := false }), (powered (.starting 1) id), by decide +kernel⟩
theorem test_StartUpStages_21 : ∃ (x : StageIn) (s : State), s.st.power = .starting 2 :=
  ⟨({ t := 5, ok := false }), (powered (.starting 2) id), by decide +kernel⟩
theorem test_StartUpStages_32 : ∃ (x : StageIn) (s : State), s.st.power = .starting 3 ∧ x.ok = false :=
  ⟨({ t := 5, ok := false }), (powered (.starting 3) id), by decide +kernel⟩
theorem test_StartUpStages_33 : ∃ (x : StageIn) (s : State), s.st.power = .starting 3 ∧ x.ok = true ∧ s.st.boot = 4 :=
  ⟨({ t := 5 }), (powered (.starting 3) fun x => { x with boot := 4 }), by decide +kernel⟩
theorem test_StartUpStages_341 : ∃ (x : StageIn) (s : State), s.st.power = .starting 3 ∧ x.ok = true ∧ s.st.boot ≠ 4 ∧ s.st.kind = 2 :=
  ⟨({ t := 5 }), (powered (.starting 3) fun x => { x with kind := 2 }), by decide +kernel⟩
theorem test_StartUpStages_351 : ∃ (x : StageIn) (s : State), s.st.power = .starting 3 ∧ x.ok = true ∧ s.st.boot ≠ 4 ∧ s.st.kind ≠ 2 ∧ s.st.tried = [] :=
  ⟨({ t := 5 }), (powered (.starting 3) id), by decide +kernel⟩
theorem test_StartUpStages_421 : ∃ (x : StageIn) (s : State), s.st.power = .starting 4 ∧ s.st.kind ≠ 2 ∧ s.slotBoots s.st.slot x.image = true :=
  ⟨({ t := 5 }), (powered (.starting 4) id), by decide +kernel⟩
theorem test_StartUpStages_4331 : ∃ (x : StageIn) (s : State), s.st.power = .starting 4 ∧ s.st.kind ≠ 2 ∧ s.slotBoots s.st.slot x.image = false ∧ s.st.tried = [] ∧ s.st.boot = 0 ∧ s.st.slot = s.firstSlot ∧ s.firstSlot ≤ 1 :=
  ⟨({ t := 5, image := false }), (powered (.starting 4) id), by decide +kernel⟩
theorem test_StartUpStages_434 : ∃ (x : StageIn) (s : State), s.st.power = .starting 4 ∧ s.st.kind ≠ 2 ∧ s.slotBoots s.st.slot x.image = false ∧ s.st.tried = [] ∧ (s.st.boot = 1 ∨ s.st.boot = 2) ∧ s.st.slot = s.firstSlot :=
  ⟨({ t := 5, image := false }), (powered (.starting 4) fun x => { x with boot := 1 }), by decide +kernel⟩
theorem test_StartUpStages_52 : ∃ (x : StageIn) (s : State), s.st.power = .starting 4 ∧ s.st.kind = 2 ∧ x.image = true :=
  ⟨({ t := 5 }), (powered (.starting 4) fun x => { x with kind := 2 }), by decide +kernel⟩
theorem test_StartUpStages_531 : ∃ (x : StageIn) (s : State), s.st.power = .starting 4 ∧ s.st.kind = 2 ∧ x.image = false :=
  ⟨({ t := 5, image := false }), (powered (.starting 4) fun x => { x with kind := 2 }), by decide +kernel⟩
theorem test_StartUpStages_641 : ∃ (x : StageIn) (s : State), s.st.power = .starting 5 ∧ (∀ f ∈ x.fails, State.testHalts f.1 f.2 = false) :=
  ⟨({ t := 5 }), (powered (.starting 5) id), by decide +kernel⟩
theorem test_StartUpStages_651 : ∃ (x : StageIn) (s : State), s.st.power = .starting 5 ∧ (∃ f ∈ x.fails, State.testHalts f.1 f.2 = true) :=
  ⟨({ t := 5, fails := [(0,0),(2,2)] }), (powered (.starting 5) id), by decide +kernel⟩
theorem test_StartUpStages_761 : ∃ (x : StageIn) (s : State), s.st.power = .starting 6 ∧ s.newestCopy = none :=
  ⟨({ t := 5 }), (powered (.starting 6) id), by decide +kernel⟩
theorem test_StartUpStages_81 : ∃ (x : StageIn) (s : State), s.st.power = .starting 7 ∧ s.storesOk = true :=
  ⟨({ t := 5 }), (powered (.starting 7) fun x => { x with degraded := [130] }), by decide +kernel⟩
theorem test_StartUpStages_9 : ∃ (s : State), ∀ k, s.st.power ≠ .starting k :=
  ⟨lead, fun k h => by cases h⟩
theorem test_PowerFailNotedAtStart_1 : ∃ (x : StageIn) (s : State), s.st.power = .starting 5 ∧ s.records = true :=
  ⟨{ t := 5 }, (powered (.starting 5) id), by decide +kernel⟩
theorem test_TestsStrapsAndRom_13 : ∃ (item : Nat) (inst : Nat) (s : State), s.up = true ∧ s.therm.level = 0 ∧ (item ≤ 4 ∨ item = 6 ∨ (item = 10 ∧ s.hasGnss = true)) ∧ State.testHalts item inst = true :=
  ⟨0, 0, lead, by decide +kernel⟩
theorem test_TestsStrapsAndRom_144 : ∃ (item : Nat) (inst : Nat) (s : State), s.up = true ∧ s.therm.level = 0 ∧ (item ≤ 4 ∨ item = 6 ∨ (item = 10 ∧ s.hasGnss = true)) ∧ State.testHalts item inst = false ∧ s.records = true :=
  ⟨2, 2, lead, by decide +kernel⟩
theorem test_TestsStrapsAndRom_311 : ∃ (boot : Nat) (unit : Nat) (s : State), s.up = true ∧ boot < 8 ∧ unit < 4 ∧ s.st.boot < 8 ∧ boot = s.st.boot ∧ unit = s.st.unitId :=
  ⟨0, 0, { lead with st := { lead.st with strapMiss := 3 }, faults := [⟨0x000E, 0, 1⟩] }, by decide +kernel⟩
theorem test_TestsStrapsAndRom_32 : ∃ (boot : Nat) (unit : Nat) (s : State), s.up = true ∧ boot < 8 ∧ unit < 4 ∧ s.st.boot < 8 ∧ ¬(boot = s.st.boot ∧ unit = s.st.unitId) ∧ s.st.strapMiss ≠ 2 :=
  ⟨1, 0, lead, by decide +kernel⟩
theorem test_TestsStrapsAndRom_333 : ∃ (boot : Nat) (unit : Nat) (s : State), s.up = true ∧ boot < 8 ∧ unit < 4 ∧ s.st.boot < 8 ∧ ¬(boot = s.st.boot ∧ unit = s.st.unitId) ∧ s.st.strapMiss = 2 ∧ s.st.unitId < 4 :=
  ⟨0, 2, { lead with st := { lead.st with strapMiss := 2 } }, by decide +kernel⟩
theorem test_TestsStrapsAndRom_411 : ∃ (t0 : Nat) (s : State), s.st.power = .romHeld ∧ s.st.haltAt + 10000000000 ≤ t0 :=
  ⟨10000000000, (powered .romHeld id), by decide +kernel⟩
theorem test_TestsStrapsAndRom_42 : ∃ (t0 : Nat) (s : State), s.st.power = .romHeld ∧ t0 < s.st.haltAt + 10000000000 :=
  ⟨9999999999, (powered .romHeld id), by decide +kernel⟩
theorem test_TestsStrapsAndRom_5 : ∃ (b : List Byte) (s : State), s.st.power = .recovery ∧ s.imageBad b ≠ 0 :=
  ⟨[], powered .recovery id, by decide +kernel⟩
theorem test_TestsStrapsAndRom_52 : ∃ (b : List Byte) (s : State), s.st.power = .recovery ∧ s.imageBad b ≠ 0 :=
  ⟨[], (powered .recovery id), by decide +kernel⟩

end Sys2Proof.Tests
end

section
/-! The write of a pair-shared object on a unit that is not the Lead (R40): the aborts that steps 1 to 3 of
R577 give, and that a command refused there changes the answer alone. -/
namespace Sys2Proof.Machine

/-- The abort codes that steps 1 to 3 of R577 give: no such object or subindex, no write access, a mirror path, a role or
tamper state without the right, a unit that is not the Lead. -/
def stepAborts : List Nat := [abNoObject, abNoSub, abReadOnly, abMirror, abRole, abNotLead]

/-- None of these codes is a success, nor one of the range aborts that a bit timing answers otherwise (R478). -/
theorem stepAborts_codes {a : Nat} (h : a ∈ stepAborts) : a ≠ 0 ∧ a ≠ abHigh ∧ a ≠ abLow :=
  (by decide : ∀ a ∈ stepAborts, a ≠ 0 ∧ a ≠ abHigh ∧ a ≠ abLow) a h

/-- Step 1 of R577 passes, or finds no object, or no subindex. -/
theorem existsAbort_cases (s : State) (i j : Nat) :
    s.existsAbort i j = 0 ∨ s.existsAbort i j = abNoObject ∨ s.existsAbort i j = abNoSub := by
  unfold State.existsAbort
  split
  · exact .inr (.inl rfl)
  split
  · exact .inr (.inl rfl)
  split
  · exact .inr (.inl rfl)
  split
  · split
    · exact .inl rfl
    · exact .inr (.inr rfl)
  split
  · exact .inl rfl
  · exact .inr (.inr rfl)

theorem existsAbort_mem_stepAborts {s : State} {i j : Nat} (h : s.existsAbort i j ≠ 0) : s.existsAbort i j ∈ stepAborts := by
  rcases existsAbort_cases s i j with e | e | e
  · exact absurd e h
  · rw [e]; decide
  · rw [e]; decide

theorem accessAbort_mem_stepAborts (s : State) (p : Path) (i j : Nat) : s.accessAbort p i j ∈ stepAborts := by
  unfold State.accessAbort
  split
  · decide
  · split <;> decide

/-- A write that steps 1 to 3 of R577 refuse answers the abort and changes nothing else, a bit timing's too. -/
theorem exec_stepAbort {c : Instr} {p : Path} {i j a : Nat} {b : List Byte} {s : State} (hc : writeOf c = some (p, i, j, b))
    (hu : s.up = true) (hw : s.writeTests p i j b = .error (a, s)) (ha : a ∈ stepAborts) :
    exec c s = .next (s.answer a) := by
  obtain ⟨h0, hHigh, hLow⟩ := stepAborts_codes ha
  have htiming : s.writeTiming p i j b = s.answer a := by
    unfold State.writeTiming
    rw [hw]
    exact if_neg (by simp [hHigh, hLow])
  have hplain : s.writeWith State.ruleAll p i j b = s.answer a := by
    unfold State.writeWith
    rw [hw]
  rw [exec_write c p i j b s hc hu]
  unfold State.writeAny
  rw [htiming, hplain, ite_self]
  exact congrArg _ (if_neg h0)

/-- Step 3 of R577 fails for a pair-shared object on a unit that is not the Lead (R40). -/
theorem permits_shared_off_lead {s : State} {r : Row} (p : Path) (i j : Nat) (hrole : s.st.role ≠ 0) (hr : r.loc = false) :
    s.permits p i j r = false := by
  simp [State.permits, hrole, hr]

/-- Off the Lead the write of a pair-shared object fails in steps 1 to 3 of R577, before anything has changed. -/
theorem writeTests_shared_off_lead {s : State} {i j : Nat} {r : Row} (p : Path) (b : List Byte) (hrole : s.st.role ≠ 0)
    (hrow : findRow i j = some r) (hr : r.loc = false) : ∃ a ∈ stepAborts, s.writeTests p i j b = .error (a, s) := by
  by_cases he : s.existsAbort i j = 0
  · cases hw : State.rowWrites r with
    | false => exact ⟨abReadOnly, by decide, writeTests_readOnly he fun r' hr' => by
        rwa [← Option.some.inj (hrow.symm.trans hr')]⟩
    | true => exact ⟨_, accessAbort_mem_stepAborts s p i j,
        writeTests_forbidden he hrow hw (permits_shared_off_lead p i j hrole hr)⟩
  · exact ⟨_, existsAbort_mem_stepAborts he, writeTests_absent he⟩

/-- With the role's right, no tamper limit and no mirror path, what step 3 of R577 lacks is the Lead. -/
theorem accessAbort_notLead {s : State} {p : Path} {i j : Nat} (hm : State.mayWrite (s.roleOf p) i j = true)
    (hl : s.husk.limited = false) (hp : ∀ k u, p ≠ .mirror k u) : s.accessAbort p i j = 0x08000104 := by
  unfold State.accessAbort
  split
  · next k u => exact absurd rfl (hp k u)
  · exact if_pos (by simp [hm, hl])

/-- Settles O9: off the Lead steps 1 to 3 of R577 refuse the write, and a write they refuse changes the answer alone. -/
theorem sharedWriteOnlyOnLead : Obligations.SharedWriteOnlyOnLead := by
  intro c p i j b r s hc hu hrole hrow hr
  refine ⟨?_, fun he hw hm hl hp => ?_⟩
  · obtain ⟨a, ha, ht⟩ := writeTests_shared_off_lead p b hrole hrow hr
    exact ⟨a, (stepAborts_codes ha).1, exec_stepAbort hc hu ht ha⟩
  · have ht := writeTests_forbidden (b := b) he hrow hw (permits_shared_off_lead p i j hrole hr)
    rw [accessAbort_notLead hm hl hp] at ht
    exact exec_stepAbort hc hu ht (by decide)

end Sys2Proof.Machine
end

section
/-! A KDP request older than every request that its session keeps (R58): the session takes a request at once
where none of it waits, and an old one is answered without being carried out. -/
namespace Sys2Proof.Machine

/-- Of two writes at one key the second stands. -/
theorem tset_tset {α : Type} (l : List (Nat × α)) (k : Nat) (v w : α) : tset (tset l k v) k w = tset l k w := by
  induction l with
  | nil => simp [tset]
  | cons q l ih =>
    obtain ⟨k', v'⟩ := q
    rcases Nat.lt_trichotomy k k' with hlt | heq | hgt
    · simp only [tset, if_pos hlt, Nat.lt_irrefl, if_false, if_true]
    · subst heq
      simp only [tset, Nat.lt_irrefl, if_false, if_true]
    · have hlt : ¬k < k' := by omega
      have hne : ¬k = k' := by omega
      simp only [tset, if_neg hlt, if_neg hne, ih]

theorem State.setSession_setSession (s : State) (p : Path) (x y : Session) :
    (s.setSession p x).setSession p y = s.setSession p y := by
  unfold State.setSession
  dsimp only
  rw [tset_tset]

@[simp] theorem State.session_answer (s : State) (n : Nat) (l : List Byte) (p : Path) :
    (s.answer n l).session p = s.session p := rfl

@[simp] theorem State.kdpOpen_setSession (s : State) (id : Nat) (x : Session) :
    (s.setSession (.kdp id) x).kdpOpen id = true :=
  Option.isSome_iff_exists.2 ⟨x, tfind_tset_self _ _ _⟩

@[simp] theorem State.kdpHeld_setSession (s : State) (id : Nat) (x : Session) :
    (s.setSession (.kdp id) x).kdpHeld id = x.replay.any fun r => r.code == State.noAnswer := by
  unfold State.kdpHeld
  rw [State.session_setSession]

/-- A session with no request waiting has none to carry out. -/
theorem State.kdpDrain_nil {s : State} {id : Nat} (h : (s.session (.kdp id)).wait = []) :
    s.kdpDrain id = s.setSession (.kdp id) (s.session (.kdp id)) := by
  unfold State.kdpDrain
  rw [h]
  exact congrArg (s.setSession (.kdp id)) (by rw [← h])

/-- A message of an operation of R477 within its length closes no session. -/
theorem State.kdpBad_op {op : Byte} {rest : List Byte} (hop : 1 ≤ op.toNat ∧ op.toNat ≤ 4) (hmin : 7 ≤ rest.length)
    (hmax : rest.length ≤ 16777223) : State.kdpBad (op :: rest) = false := by
  have hcode : leAt (op :: rest) 0 1 = op.toNat := by simp [leAt, slice, leNat]
  unfold State.kdpBad
  rw [hcode, List.length_cons]
  simp only [Bool.or_eq_false_iff, decide_eq_false_iff_not, beq_eq_false_iff_ne]
  omega

/-- Where nothing of the session waits or is held, a message restarts the idle timeout and is carried out at once (R477). -/
theorem State.kdpMessage_ready {s : State} {id t req : Nat} {b : List Byte} (hu : s.up = true) (ho : s.kdpOpen id = true)
    (hwait : (s.session (.kdp id)).wait = []) (hheld : s.kdpHeld id = false) (hb : State.kdpBad b = false) :
    s.kdpMessage id t req b = ((s.at' t).setSession (.kdp id) { s.session (.kdp id) with
      last := max s.clk.time t }).kdpExecute id req b := by
  have hup : ((s.at' t).up && (s.at' t).kdpOpen id) = true := by
    rw [State.up_congr (State.at'_st s t), hu]; exact ho
  have hnot : ((s.session (.kdp id)).replay.any fun r => r.code == State.noAnswer) = false := hheld
  have hdrain : ((s.at' t).setSession (.kdp id) { (s.at' t).session (.kdp id) with last := (s.at' t).clk.time }).kdpDrain id =
      (s.at' t).setSession (.kdp id) { s.session (.kdp id) with last := max s.clk.time t } := by
    rw [State.kdpDrain_nil (by rw [State.session_setSession]; exact hwait), State.session_setSession,
      State.setSession_setSession]
    rfl
  unfold State.kdpMessage
  dsimp only
  rw [hup, hdrain]
  simp [hb, hnot, hwait]

/-- A request older than every request kept aborts, and nothing of it is carried out (R58). -/
theorem State.kdpExecute_old {s : State} {id req : Nat} {b : List Byte} {r : Reply} {l : List Reply}
    (hnew : ∀ q ∈ (s.session (.kdp id)).replay, q.id ≠ req) (hkept : (s.session (.kdp id)).replay = r :: l)
    (hold : newerMod (2 ^ 32) (State.oldestId r.id (l.map (·.id))) req = true) :
    s.kdpExecute id req b = s.answer abOld := by
  have hfind : (s.session (.kdp id)).replay.find? (fun r => r.id == req) = none :=
    List.find?_eq_none.2 fun q hq => by simpa using hnew q hq
  unfold State.kdpExecute
  dsimp only
  rw [hfind, hkept]
  exact if_pos hold

/-- The operations of R477 as the commands that bring them: each is a message of its operation code. -/
theorem exec_kdp_operation {id t0 req : Nat} {rest : List Byte} {c : Instr} (s : State)
    (hc : c = .kdpRead id t0 req rest ∨ c = .kdpWrite id t0 req rest ∨ c = .kdpWholeRecordRead id t0 req rest ∨
      c = .kdpKeepalive id t0 req 4 rest) :
    ∃ op : Byte, (1 ≤ op.toNat ∧ op.toNat ≤ 4) ∧ exec c s = .next (s.kdpMessage id t0 req (op :: rest)) := by
  rcases hc with rfl | rfl | rfl | rfl
  · exact ⟨1, by decide, rfl⟩
  · exact ⟨2, by decide, rfl⟩
  · exact ⟨3, by decide, rfl⟩
  · exact ⟨4, by decide, rfl⟩

/-- Settles O48: the session takes the message at once and finds it older than every request it keeps. -/
theorem oldRequestAborts : Obligations.OldRequestAborts := by
  intro id t0 req rest r c s hu ho hmin hmax hwait hheld hold hnew hc
  obtain ⟨l, hkept, hold⟩ := hold
  obtain ⟨op, hop, hexec⟩ := exec_kdp_operation s hc
  rw [hexec, State.kdpMessage_ready hu ho hwait hheld (State.kdpBad_op hop hmin hmax),
    State.kdpExecute_old (r := r) (l := l) (by rwa [State.session_setSession]) (by rwa [State.session_setSession]) hold]
  refine ⟨_, rfl, State.answer_answer .., rfl, rfl, ?_⟩
  rw [State.session_answer, State.session_setSession]

end Sys2Proof.Machine
end

section
/-! A mode command that is new under R72 and fails R68 (R78): its sequence number and reason are written, event 0103h
is recorded, and the last accepted sequence number stays. -/
namespace Sys2Proof.Machine
namespace State

/-- An object just set reads what was written. -/
theorem objU_putU (s : State) (i j n : Nat) (h : storeOk s.obj = true) : (s.putU i j n).objU i j = n :=
  congrArg Val.asNat (objV_putObj s i j (.u n) h)

theorem objU_putU_other (s : State) (i j i' j' n : Nat) (h : okey i' j' ≠ okey i j) :
    (s.putU i j n).objU i' j' = s.objU i' j' :=
  congrArg Val.asNat (objV_putObj_other s i j i' j' (.u n) h)

theorem putU_storeOk {s : State} (i j n : Nat) (h : storeOk s.obj = true) : storeOk (s.putU i j n).obj = true :=
  storeOk_putV _ _ h

/-- An event changes no object but the count of discarded records 4601h:04h (R503). -/
theorem objU_note (s : State) (code : Nat) (params : List Nat) (i j : Nat) (h : okey i j ≠ okey 0x4601 4) :
    (s.note code params).objU i j = s.objU i j :=
  congrArg Val.asNat (noted_objV (note_noted s code params) i j h)

/-- What the refusal of a mode command leaves behind (R78): 2202h:03h, 2202h:04h and event 0103h. -/
def noteRefusal (s : State) (seq reason : Nat) : State :=
  ((s.putU 0x2202 3 seq).putU 0x2202 4 reason).note 0x0103 []

/-- A mode command new under R72 that fails R68 is refused (R78). -/
theorem ruleCommand_mode_refused {s : State} (p : Path) (j : Nat) {v : Val}
    (hnew : bit (s.objU 0x2202 5) 0 = false ∨
      (1 ≤ (v.asNat / 65536 + 65536 - s.objU 0x2202 1) % 65536 ∧
        (v.asNat / 65536 + 65536 - s.objU 0x2202 1) % 65536 ≤ 32767))
    (hr : s.modeReason (v.asNat % 8) (bit v.asNat 8) ≠ 0) :
    s.ruleCommand p 0x2201 j v =
      .refuse abMode (s.noteRefusal (v.asNat / 65536) (s.modeReason (v.asNat % 8) (bit v.asNat 8))) := by
  unfold ruleCommand noteRefusal
  dsimp only
  generalize (v.asNat / 65536 + 65536 - s.objU 0x2202 1) % 65536 = d at hnew ⊢
  have hrepeat : ¬(bit (s.objU 0x2202 5) 0 && d == 0) = true := by
    rcases hnew with hunset | ⟨hpos, _⟩
    · simp [hunset]
    · simp [Nat.ne_of_gt hpos]
  have hold : ¬(bit (s.objU 0x2202 5) 0 && decide (32767 < d)) = true := by
    rcases hnew with hunset | ⟨_, hle⟩
    · simp [hunset]
    · simp [Nat.not_lt.2 hle]
  rw [if_neg hrepeat, if_neg hold]
  exact if_pos hr

section
variable (s : State) (seq reason : Nat)

/-- The refused sequence number stands at 2202h:03h. -/
theorem noteRefusal_seq (h : storeOk s.obj = true) : (s.noteRefusal seq reason).objU 0x2202 3 = seq := by
  unfold noteRefusal
  rw [objU_note _ _ _ _ _ (by decide), objU_putU_other _ _ _ _ _ _ (by decide), objU_putU _ _ _ _ h]

/-- The reason stands at 2202h:04h. -/
theorem noteRefusal_reason (h : storeOk s.obj = true) : (s.noteRefusal seq reason).objU 0x2202 4 = reason := by
  unfold noteRefusal
  rw [objU_note _ _ _ _ _ (by decide), objU_putU _ _ _ _ (putU_storeOk _ _ _ h)]

/-- A refusal does not advance the last accepted sequence number 2202h:01h. -/
theorem noteRefusal_last : (s.noteRefusal seq reason).objU 0x2202 1 = s.objU 0x2202 1 := by
  unfold noteRefusal
  rw [objU_note _ _ _ _ _ (by decide), objU_putU_other _ _ _ _ _ _ (by decide),
    objU_putU_other _ _ _ _ _ _ (by decide)]

/-- Event 0103h is the newest record where the unit records events. -/
theorem noteRefusal_newest (h : s.records = true) : (s.noteRefusal seq reason).newest 0x0103 0 [] :=
  (note_noted _ _ _).event ((records_congr rfl rfl rfl).trans h)

end

end State

/-- Settles O12: the command's own rule refuses it, and the answer to a refusal leaves objects and events as noted. -/
theorem refusedModeCommandAnswers : Obligations.RefusedModeCommandAnswers := by
  intro c v s ⟨p, b, r, hc, hu, hw⟩ hs seq d reason hnew hr
  have hrule : s.ruleAll p 0x2201 0 v = .refuse abMode (s.noteRefusal seq reason) :=
    (if_pos (.inl rfl)).trans (State.ruleCommand_mode_refused p 0 hnew hr)
  exact ⟨_, exec_refuse hc hu hw (by omega) hrule (by decide), rfl,
    State.noteRefusal_seq s seq reason (storesObj hs), State.noteRefusal_reason s seq reason (storesObj hs),
    State.noteRefusal_last s seq reason, State.noteRefusal_newest s seq reason⟩

end Sys2Proof.Machine
end

section
/-! The fault of a channel by its illegal transitions (R362, R363) where the DRAM queue has one place left: the sticky flag's
event 0D01h takes it, and the fault's event 0D02h is discarded (R502, R503). -/
namespace Sys2Proof.Machine
namespace State

/-- The queue is as long as R502 lets it get. -/
theorem granRoom_full {s : State} (h : 4096 ≤ s.gran.queue.length) : s.granRoom = false := by
  unfold granRoom
  rw [decide_eq_false (Nat.not_lt.2 h), Bool.false_and]

/-- An event without room leaves the queue as it is (R503). -/
theorem record_queue_full {s : State} (h : s.granRoom = false) (code cls : Nat) (params : List Nat) :
    (s.record code cls params).gran.queue = s.gran.queue := by
  unfold record
  split
  · rfl
  · rw [if_neg (Bool.eq_false_iff.1 h)]
    rfl

/-- With room, and no loss to report, an event is the one record that joins the queue (R499, R503). -/
theorem record_queue_room {s : State} (h : s.records = true) (hlost : s.gran.lost = 0) (code cls : Nat) (params : List Nat) :
    ∃ r, (s.record code cls params).gran.queue = s.gran.queue ++ [r] ∧ r.code = code := by
  simp only [records, Bool.and_eq_true, decide_eq_true_eq] at h
  obtain ⟨⟨hoff, hreset⟩, hroom⟩ := h
  obtain ⟨g, r, hpush, hqueue, hcode, _⟩ := pushRec_eq s code cls params
  refine ⟨r, ?_, hcode⟩
  unfold record reportLost
  rw [if_neg (not_or.2 ⟨hoff, hreset⟩), if_pos hroom, if_pos hlost, hpush, hqueue]

/-- The first sticky flag of a channel since the last clear is noted with event 0D01h (Table 14-6). -/
theorem stickEnc_first {s : State} {n bits : Nat} (hbits : bits ≠ 0) (hflags : s.objU 0x3A90 (n + 1) = 0) :
    s.stickEnc n bits = (s.putU 0x3A90 (n + 1) bits).note 0x0D01 [n, bits] := by
  unfold stickEnc
  dsimp only
  rw [if_neg hbits, hflags, if_pos rfl, Nat.zero_or]

@[simp] theorem stickEnc_force (s : State) (n bits : Nat) : (s.stickEnc n bits).force = s.force := by
  unfold stickEnc
  dsimp only
  split
  · rfl
  split
  · rw [note_force, putU_force]
  · rfl

/-- The illegal transitions of a channel within the second that ends with one at device time t. -/
def illegalWithin (s : State) (n t : Nat) : List Nat := ((s.enc n).illegal.filter fun x => t < x + 1000000000) ++ [t]

/-- An illegal transition counted and flagged (R362), before R363 looks at the permitted number. -/
def countIllegal (s : State) (n t : Nat) : State :=
  ((s.setEnc n { s.enc n with bad := true, illegal := s.illegalWithin n t, lastIllegal := t }).incU 0x3A91 (n + 1)).stickEnc n 1

/-- One more illegal transition than the permitted number puts a channel without fault in fault (R363). -/
theorem illegal_beyond {s : State} {n t : Nat} (hfault : (s.enc n).fault = false)
    (hbeyond : s.cfgU (0x3A00 + n) 0x1C < (s.illegalWithin n t).length) :
    s.illegal n t = (s.countIllegal n t).encFault n 1 := by
  have hforce : (s.countIllegal n t).cfgU (0x3A00 + n) 0x1C = s.cfgU (0x3A00 + n) 0x1C := by
    unfold cfgU cfgV countIllegal
    rw [stickEnc_force]
    rfl
  refine if_pos ?_
  show (!(s.enc n).fault && decide ((s.countIllegal n t).cfgU (0x3A00 + n) 0x1C < (s.illegalWithin n t).length)) = true
  rw [hfault, hforce, decide_eq_true hbeyond]
  rfl

/-- Flagging an illegal transition takes one place of the queue where no flag of the channel was set (Table 14-6). -/
theorem countIllegal_queue {s : State} {n : Nat} (t : Nat) (hrec : s.records = true) (hlost : s.gran.lost = 0)
    (hflags : s.objU 0x3A90 (n + 1) = 0) :
    ∃ r, (s.countIllegal n t).gran.queue = s.gran.queue ++ [r] ∧ r.code = 0x0D01 := by
  unfold countIllegal
  rw [stickEnc_first Nat.one_ne_zero]
  · exact record_queue_room (s := putU (incU (setEnc ..) ..) ..) ((records_congr rfl rfl rfl).trans hrec) hlost _ _ _
  · unfold incU addU
    rwa [objU_putU_other]
    unfold okey
    omega

/-- A channel's fault adds no record to a queue that is full (R503). -/
theorem encFault_queue_full {s : State} (n cause : Nat) (h : 4096 ≤ s.gran.queue.length) :
    (s.encFault n cause).gran.queue = s.gran.queue := by
  unfold encFault alarm
  rw [raise_gran]
  exact record_queue_full (s := s.setEnc ..) (granRoom_full h) ..

/-- The unit records, its queue has one place left, and an illegal transition of channel n at device time t is one more than
the permitted number, with no fault in force and no sticky flag set. -/
structure LastPlace (s : State) (n t : Nat) : Prop where
  recording : s.records = true
  noLoss : s.gran.lost = 0
  place : s.gran.queue.length = 4095
  noFlags : s.objU 0x3A90 (n + 1) = 0
  noFault : (s.enc n).fault = false
  beyond : s.cfgU (0x3A00 + n) 0x1C < (s.illegalWithin n t).length

/-- The newest record after such a transition is that of the sticky flag. -/
theorem LastPlace.illegal_newest {s : State} {n t : Nat} (h : s.LastPlace n t) :
    ∃ r, (s.illegal n t).gran.queue.getLast? = some r ∧ r.code = 0x0D01 := by
  obtain ⟨r, hqueue, hcode⟩ := countIllegal_queue t h.recording h.noLoss h.noFlags
  have hfull : 4096 ≤ (s.countIllegal n t).gran.queue.length := by
    have hplace := h.place
    rw [hqueue, List.length_append, List.length_singleton]
    omega
  refine ⟨r, ?_, hcode⟩
  rw [illegal_beyond h.noFault h.beyond, encFault_queue_full _ _ hfull, hqueue, List.getLast?_concat]

theorem enc_setEnc (s : State) (n : Nat) (x : Enc) : (s.setEnc n x).enc n = x := tget_tset_self _ _ _ _

/-- A and B changed together are an illegal transition of a quadrature channel (R362). -/
theorem encEdge_both {s : State} {n t : Nat} {a b z : Bool} (hmode : s.encMode n = 1) (ha : a ≠ nth false (s.enc n).lv 0)
    (hb : b ≠ nth false (s.enc n).lv 1) :
    s.encEdge n t a b z = (s.setEnc n { s.enc n with
      lv := [a, b, z], homed := (s.enc n).homed || (z && !nth false (s.enc n).lv 2 && s.zHomes n) }).illegal n t := by
  have hmode' : ∀ e, (s.setEnc n e).encMode n = 1 := fun _ => hmode
  unfold encEdge
  dsimp only
  rw [hmode']
  exact if_pos ⟨ha, hb⟩

/-- New levels and a home event leave all that `LastPlace` speaks of. -/
theorem LastPlace.newLevels {s : State} {n t : Nat} (h : s.LastPlace n t) (lv : List Bool) (homed : Bool) :
    (s.setEnc n { s.enc n with lv := lv, homed := homed }).LastPlace n t where
  recording := (records_congr rfl rfl rfl).trans h.recording
  noLoss := h.noLoss
  place := h.place
  noFlags := h.noFlags
  noFault := by rw [enc_setEnc]; exact h.noFault
  beyond := by unfold illegalWithin; rw [enc_setEnc]; exact h.beyond

end State

/-- Records that wait in DRAM, numbered from 0. -/
def waitingRecs (k : Nat) : List Rec := (List.range k).map fun seq => ⟨0x1309, 0, 0, seq, 0, 0, 0, [0, 0, 0, 0], [], 0, 0, 0⟩

theorem waitingRecs_length (k : Nat) : (waitingRecs k).length = k := by
  rw [waitingRecs, List.length_map, List.length_range]

/-- A Lead whose quadrature channel 0 permits one illegal transition in a second and has had it at 500 ns; its sticky flags have
been read since, and k records wait in DRAM. -/
def oneIllegal (k : Nat) : State :=
  let s := (State.reset.putBoth 0x3A00 1 (.u 1)).putBoth 0x3A00 0x1C (.u 1)
  { s with
    st := { s.st with power := .running, role := 0 }
    fb := { s.fb with enc := [(0, { illegal := [500], lastIllegal := 500 })] }
    gran := { s.gran with next := k, queue := waitingRecs k } }

theorem oneIllegal_queue_length (k : Nat) : (oneIllegal k).gran.queue.length = k := waitingRecs_length k

theorem oneIllegal_records {k : Nat} (h : k < 4096) : (oneIllegal k).records = true := by
  have hring : (oneIllegal k).cfgU 0x4600 1 = 0 := show (oneIllegal 0).cfgU 0x4600 1 = 0 by decide +kernel
  have hroom : (oneIllegal k).granRoom = true := by
    unfold State.granRoom
    rw [oneIllegal_queue_length, hring, decide_eq_true h]
    rfl
  unfold State.records
  rw [hroom]
  rfl

theorem oneIllegal_lastPlace : (oneIllegal 4095).LastPlace 0 600 where
  recording := oneIllegal_records (by decide)
  noLoss := rfl
  place := oneIllegal_queue_length 4095
  noFlags := by decide +kernel
  noFault := rfl
  beyond := by decide +kernel

/-- Refutes O32: the second illegal transition of `oneIllegal 4095` puts channel 0 in fault, but the event 0D01h of its sticky
flag takes the last place of the queue, and event 0D02h is discarded (R503). -/
theorem not_illegalTransitionFault : ¬ Obligations.IllegalTransitionFault := by
  rintro ⟨h, _⟩
  have hmode : (oneIllegal 4095).encMode 0 = 1 := by decide +kernel
  obtain ⟨t, hexec, hfault, _⟩ := h 0 600 true true false (oneIllegal 4095) rfl (by decide) (by decide +kernel) rfl
    (.inl ⟨hmode, by decide, by decide⟩)
  obtain ⟨_, _, hnewest⟩ := hfault (by decide +kernel)
  obtain ⟨r, hlast, hcode, _⟩ := hnewest oneIllegal_lastPlace.recording
  have hstep : exec (.quadratureEdge 0 600 true true false) (oneIllegal 4095) =
      .next ((oneIllegal 4095).encEdge 0 600 true true false) := rfl
  have hout : t = (oneIllegal 4095).encEdge 0 600 true true false := Host.Outcome.next.inj (hexec.symm.trans hstep)
  rw [hout, State.encEdge_both hmode (by decide) (by decide)] at hlast
  obtain ⟨r', hlast', hcode'⟩ := (oneIllegal_lastPlace.newLevels ..).illegal_newest
  rw [Option.some.inj (hlast.symm.trans hlast'), hcode'] at hcode
  exact absurd hcode (by decide)

end Sys2Proof.Machine
end

section
/-! The third bus-off of a CAN controller within 60 s (R488): each step before it leaves the controller's earlier bus-offs as
they are and adds at most two records to the DRAM queue, its own and that of a loss reported late (R503); the bus-off itself
then holds the controller off. -/
namespace Sys2Proof.Machine
namespace State

/-- A loss is reported in at most one record (R503). -/
theorem reportLost_queue_le (s : State) : s.reportLost.gran.queue.length ≤ s.gran.queue.length + 1 := by
  unfold reportLost
  split
  · exact Nat.le_succ _
  · obtain ⟨g, r, hpush, hqueue, _⟩ := pushRec_eq s 0x1305 0 [s.gran.lost]
    have hlength : g.queue.length = s.gran.queue.length + 1 := by
      rw [hqueue, List.length_append, List.length_singleton]
    rw [hpush]
    exact Nat.le_of_eq hlength

/-- An event adds at most its own record and that of a loss to the queue (R499, R503). -/
theorem record_queue_le (s : State) (code cls : Nat) (params : List Nat) :
    (s.record code cls params).gran.queue.length ≤ s.gran.queue.length + 2 := by
  have hlost := reportLost_queue_le s
  obtain ⟨g, r, hpush, hqueue, _⟩ := pushRec_eq s.reportLost code cls params
  unfold record
  split
  · exact Nat.le_add_right ..
  split
  · rw [hpush]
    show g.queue.length ≤ _
    rw [hqueue, List.length_append, List.length_singleton]
    omega
  · exact Nat.le_add_right ..

/-- Raising a fault changes no CAN controller but in its send queue. -/
theorem raise_canC (s : State) (code inst cls c : Nat) :
    ∃ tx, (s.raise code inst cls).canC c = { s.canC c with tx := tx } := by
  unfold raise
  dsimp only
  split
  · exact ⟨_, rfl⟩
  · exact emcy_canC { s with faults := (s.dropFault code inst).faults ++ [⟨code, inst, cls⟩] } code c

theorem record_canC (s : State) (code cls c : Nat) (params : List Nat) : (s.record code cls params).canC c = s.canC c := by
  unfold canC
  rw [record_can]

theorem alarm_canC (s : State) (code inst cls c : Nat) (params : List Nat) :
    ∃ tx, (s.alarm code inst cls params).canC c = { s.canC c with tx := tx } := by
  obtain ⟨tx, htx⟩ := raise_canC (s.record code cls params) code inst cls c
  exact ⟨tx, htx.trans (by rw [record_canC])⟩

/-- From `s` to `t` controller c keeps whether it is bus-off or held off and its earlier bus-offs, at most n records join the DRAM
queue, and clock, power and the values in force stay. -/
structure SameBus (s t : State) (c n : Nat) : Prop where
  clk : t.clk = s.clk
  st : t.st = s.st
  force : t.force = s.force
  off : (t.canC c).off = (s.canC c).off
  held : (t.canC c).held = (s.canC c).held
  offs : (t.canC c).offs = (s.canC c).offs
  queue : t.gran.queue.length ≤ s.gran.queue.length + n

namespace SameBus

theorem refl (s : State) (c n : Nat) : s.SameBus s c n := ⟨rfl, rfl, rfl, rfl, rfl, rfl, Nat.le_add_right ..⟩

theorem trans {s t u : State} {c m n : Nat} (h : s.SameBus t c m) (k : t.SameBus u c n) : s.SameBus u c (m + n) where
  clk := k.clk.trans h.clk
  st := k.st.trans h.st
  force := k.force.trans h.force
  off := k.off.trans h.off
  held := k.held.trans h.held
  offs := k.offs.trans h.offs
  queue := by have := h.queue; have := k.queue; omega

theorem setCanC (s : State) {c : Nat} {x : CanCtl} (hoff : x.off = (s.canC c).off)
    (hheld : x.held = (s.canC c).held) (hoffs : x.offs = (s.canC c).offs) : s.SameBus (s.setCanC c x) c 0 :=
  ⟨rfl, rfl, rfl, by rw [canC_setCanC, hoff], by rw [canC_setCanC, hheld], by rw [canC_setCanC, hoffs], Nat.le_refl _⟩

theorem incU (s : State) (i j c : Nat) : s.SameBus (s.incU i j) c 0 := ⟨rfl, rfl, rfl, rfl, rfl, rfl, Nat.le_refl _⟩

theorem note (s : State) (code : Nat) (params : List Nat) (c : Nat) : s.SameBus (s.note code params) c 2 where
  clk := note_clk ..
  st := note_st ..
  force := note_force ..
  off := congrArg _ (record_canC ..)
  held := congrArg _ (record_canC ..)
  offs := congrArg _ (record_canC ..)
  queue := record_queue_le ..

theorem alarm (s : State) (code inst cls : Nat) (params : List Nat) (c : Nat) :
    s.SameBus (s.alarm code inst cls params) c 2 := by
  obtain ⟨tx, htx⟩ := alarm_canC s code inst cls c params
  refine ⟨alarm_clk .., alarm_st .., alarm_force .., by rw [htx], by rw [htx], by rw [htx], ?_⟩
  unfold State.alarm
  rw [raise_gran]
  exact record_queue_le ..

theorem lower (s : State) (code inst c : Nat) : s.SameBus (s.lower code inst) c 2 := by
  obtain ⟨tx, htx⟩ := lower_canC s code inst c
  exact ⟨lower_clk .., lower_st .., lower_force .., by rw [htx], by rw [htx], by rw [htx],
    by rw [lower_gran]; exact Nat.le_add_right ..⟩

theorem ite {s t u : State} {c n : Nat} {p : Prop} [Decidable p] (h : s.SameBus t c n) (k : s.SameBus u c n) :
    s.SameBus (if p then t else u) c n := by
  split
  · exact h
  · exact k

theorem cfgU_eq {s t : State} {c n : Nat} (h : s.SameBus t c n) (i j : Nat) : t.cfgU i j = s.cfgU i j := by
  unfold cfgU cfgV
  rw [h.force]

/-- Where fewer records have joined the queue than it has places, and the ring policy is in force (R502), the unit still
records. -/
theorem records {s t : State} {c n : Nat} (h : s.SameBus t c n) (hrec : s.records = true)
    (hplaces : s.gran.queue.length + n < 4096) (hring : s.cfgU 0x4600 1 = 0) : t.records = true := by
  have hqueue : t.gran.queue.length < 4096 := Nat.lt_of_le_of_lt h.queue hplaces
  unfold State.records granRoom at hrec ⊢
  rw [h.cfgU_eq, hring, h.st, decide_eq_true hqueue]
  simp only [Bool.and_eq_true] at hrec ⊢
  exact ⟨hrec.1, trivial, rfl⟩

end SameBus

/-- Two earlier bus-offs of controller c lie within the last 60 s (R488). -/
def twoOffs (s : State) (c : Nat) : Prop :=
  2 ≤ ((s.canC c).offs.filter fun a => s.clk.time < a + 60000000000).length

theorem SameBus.twoOffs {s t : State} {c n : Nat} (h : s.SameBus t c n) (htwo : s.twoOffs c) : t.twoOffs c := by
  unfold State.twoOffs
  rw [h.offs, h.clk]
  exact htwo

/-- From `s` to `t` the unit's power stays and controller c comes to be held off (R488), with its fault and event 1107h. -/
structure HeldOff (s t : State) (c : Nat) : Prop where
  st : t.st = s.st
  off : (t.canC c).off = true
  held : (t.canC c).held = true
  fault : Flt.mk 0x1107 c 1 ∈ t.faults
  event : s.records = true → s.gran.queue.length + 8 ≤ 4096 → s.cfgU 0x4600 1 = 0 →
    ∃ r ∈ t.gran.queue, r.code = 0x1107 ∧ r.cls = 1 ∧ r.params = [0, 0, 0, 0]

/-- A controller held off has its standby ball high (R498). -/
theorem HeldOff.stb {s t : State} {c : Nat} (h : s.HeldOff t c) (hup : s.up = true) : t.canStb c = .high := by
  have hrun : t.st.power = .running := by rw [h.st]; exact eq_of_beq hup
  unfold canStb
  rw [hrun, h.held, Bool.or_true]
  rfl

theorem HeldOff.not_sends {s t : State} {c : Nat} (h : s.HeldOff t c) : t.canSends c = false := by
  unfold canSends
  rw [h.off, Bool.not_true, Bool.and_false]

theorem HeldOff.not_hears {s t : State} {c : Nat} (h : s.HeldOff t c) : t.canHears c = false := by
  unfold canHears
  rw [h.off, Bool.not_true, Bool.and_false]

/-- The next SDO frame changes no CAN controller but in its send queues. -/
theorem sdoNext_canC (s : State) (d c : Nat) :
    ∃ tx out, (s.sdoNext d).canC c = { s.canC c with tx := tx, sdoOut := out } := by
  unfold sdoNext
  dsimp only
  split
  · exact ⟨_, _, rfl⟩
  next b rest _ =>
    split
    · exact ⟨_, _, rfl⟩
    · obtain ⟨tx, htx⟩ := canQueue_canC (s.setCanC d { s.canC d with sdoOut := rest }) d
        { id := b.1, kind := .sdo, fd := false, data := b.2 } c
      rw [htx]
      by_cases h : c = d
      · subst h
        exact ⟨tx, rest, by rw [canC_setCanC]⟩
      · exact ⟨tx, (s.canC c).sdoOut, by
          rw [show (s.setCanC d { s.canC d with sdoOut := rest }).canC c = s.canC c from tget_tset_other _ _ _ _ _ h]⟩

/-- A controller stays held off when its next SDO frame is due. -/
theorem HeldOff.sdoNext {s t : State} {c : Nat} (h : s.HeldOff t c) : s.HeldOff (t.sdoNext c) c := by
  have hsame := (sdoNext_keeps t c).same
  obtain ⟨tx, out, hctl⟩ := sdoNext_canC t c c
  refine ⟨(hsame.st (by decide)).trans h.st, by rw [hctl]; exact h.off, by rw [hctl]; exact h.held, ?_, ?_⟩
  · rw [hsame.faults (by decide)]
    exact h.fault
  · rw [hsame.gran (by decide)]
    exact h.event

/-- Where controller c has become bus-off and held off, alarm 1107h completes it (R488). -/
theorem heldOff_of_alarm {s u : State} {c : Nat} (hst : u.st = s.st) (hoff : (u.canC c).off = true)
    (hheld : (u.canC c).held = true)
    (hrec : s.records = true → s.gran.queue.length + 8 ≤ 4096 → s.cfgU 0x4600 1 = 0 → u.records = true) :
    s.HeldOff (u.alarm 0x1107 c 1 []) c := by
  obtain ⟨tx, hctl⟩ := alarm_canC u 0x1107 c 1 c []
  refine ⟨(alarm_st ..).trans hst, by rw [hctl]; exact hoff, by rw [hctl]; exact hheld, (raise_raised ..).fault, ?_⟩
  intro hs hplaces hring
  obtain ⟨r, hlast, hcode, hcls, hparams, _⟩ := (record_noted u 0x1107 1 []).event (hrec hs hplaces hring)
  refine ⟨r, ?_, hcode, hcls, hparams⟩
  unfold alarm
  rw [raise_gran]
  exact List.mem_of_getLast? hlast

/-- Controller c at a bus-off (R487, R488). -/
def offCtl (s : State) (c : Nat) : CanCtl :=
  let offs := ((s.canC c).offs.filter fun a => s.clk.time < a + 60000000000) ++ [s.clk.time]
  { s.canC c with off := true, offAt := s.clk.time, offs := offs, recovering := false, held := decide (3 ≤ offs.length),
                  tx := [], sdoOut := [] }

theorem offCtl_held {s : State} {c : Nat} (h : s.twoOffs c) : (s.offCtl c).held = true := by
  refine decide_eq_true ?_
  rw [List.length_append, List.length_singleton]
  exact Nat.succ_le_succ h

/-- A bus-off after two others within 60 s raises both faults (R487, R488). -/
theorem busOff_held {s : State} {c : Nat} (h : s.twoOffs c) :
    ∃ cls, s.busOff c = (((s.setCanC c (s.offCtl c)).incU (canCnt c) 3).alarm 0x1103 c cls []).alarm 0x1107 c 1 [] :=
  ⟨_, if_pos (offCtl_held h)⟩

/-- A bus-off after two others within 60 s holds the controller off (R488). -/
theorem busOff_third {s u : State} {c : Nat} (h : s.SameBus u c 4) (htwo : u.twoOffs c) : s.HeldOff (u.busOff c) c := by
  obtain ⟨cls, heq⟩ := busOff_held htwo
  have hctl : (u.setCanC c (u.offCtl c)).canC c = u.offCtl c := canC_setCanC ..
  have hbus := (SameBus.incU (u.setCanC c (u.offCtl c)) (canCnt c) 3 c).trans (.alarm _ 0x1103 c cls [] c)
  rw [heq]
  refine heldOff_of_alarm (hbus.st.trans h.st) (by rw [hbus.off, hctl]; rfl) (by rw [hbus.held, hctl, offCtl_held htwo])
    fun hrec hplaces hring => hbus.records (h.records hrec (by omega) hring) ?_ ((h.cfgU_eq ..).trans hring)
  have hqueue : (u.setCanC c (u.offCtl c)).gran.queue.length ≤ s.gran.queue.length + 4 := h.queue
  omega

/-- Controller c with new error counters and the levels that they reach (Table 19-2). -/
def countedCtl (x : CanCtl) (tec rec' : Nat) : CanCtl :=
  { x with tec := tec, rec' := rec', warn := decide (96 ≤ tec) || decide (96 ≤ rec'),
           passive := decide (128 ≤ tec) || decide (128 ≤ rec') }

/-- Event 1101h where controller c, once x and now y, has crossed a level that it records (Table 19-2). -/
def noteLevels (s : State) (c : Nat) (x y : CanCtl) : State :=
  if y.warn != x.warn || (x.passive && !y.passive) then s.note 0x1101 [c, y.tec, y.rec'] else s

/-- Fault 1102h where controller c, once x and now y, has become passive, and its end where it no longer is (Table 19-2). -/
def passiveFault (s : State) (c : Nat) (x y : CanCtl) : State :=
  if y.passive && !x.passive then s.alarm 0x1102 c 1 [] else if x.passive && !y.passive then s.lower 0x1102 c else s

/-- What new error counters do before a bus-off (Table 19-2). -/
def crossLevels (s : State) (c tec rec' : Nat) : State :=
  let y := countedCtl (s.canC c) tec rec'
  ((s.setCanC c y).noteLevels c (s.canC c) y).passiveFault c (s.canC c) y

/-- Error counters that pass 255 on a controller not yet bus-off take it to bus-off (R487). -/
theorem setErrors_busOff {s : State} {c tec : Nat} (rec' : Nat) (htec : 255 < tec) (hoff : (s.canC c).off = false) :
    s.setErrors c tec rec' = (s.crossLevels c tec rec').busOff c :=
  if_pos (by rw [hoff, decide_eq_true htec]; rfl)

/-- Crossing levels leaves the controller's bus-offs as they are and records at most two events. -/
theorem crossLevels_sameBus (s : State) (c tec rec' : Nat) : s.SameBus (s.crossLevels c tec rec') c 4 := by
  have hcount : s.SameBus (s.setCanC c (countedCtl (s.canC c) tec rec')) c 0 := .setCanC s rfl rfl rfl
  have hnote (u : State) (x y : CanCtl) : u.SameBus (u.noteLevels c x y) c 2 := .ite (.note ..) (.refl ..)
  have hfault (u : State) (x y : CanCtl) : u.SameBus (u.passiveFault c x y) c 2 :=
    .ite (.alarm ..) (.ite (.lower ..) (.refl ..))
  exact (hcount.trans (hnote ..)).trans (hfault ..)

/-- Error counters that pass 255 for the third time within 60 s hold the controller off (R488). -/
theorem setErrors_third {s : State} {c tec : Nat} (rec' : Nat) (htec : 255 < tec) (hoff : (s.canC c).off = false)
    (htwo : s.twoOffs c) : s.HeldOff (s.setErrors c tec rec') c := by
  have hbus := crossLevels_sameBus s c tec rec'
  rw [setErrors_busOff rec' htec hoff]
  exact busOff_third hbus (hbus.twoOffs htwo)

/-- Steps that record nothing and leave the bus-offs as they are may come before. -/
theorem HeldOff.of_sameBus {s u t : State} {c : Nat} (h : s.SameBus u c 0) (k : u.HeldOff t c) : s.HeldOff t c where
  st := k.st.trans h.st
  off := k.off
  held := k.held
  fault := k.fault
  event hrec hplaces hring := by
    have hqueue := h.queue
    exact k.event (h.records hrec (by omega) hring) (by omega) ((h.cfgU_eq ..).trans hring)

/-- When controller c receives (R487, R488, R498). -/
theorem canHears_iff (s : State) (c : Nat) : s.canHears c = true ↔ c < 4 ∧ s.up = true ∧ s.degraded 9 c = false ∧
    s.mode.mode ≠ 7 ∧ s.cfgB (canObj c) 1 = true ∧ (s.canC c).held = false ∧ (s.canC c).off = false := by
  unfold canHears
  simp only [Bool.and_eq_true, Bool.not_eq_true', decide_eq_true_eq, bne_iff_ne, and_assoc]

theorem up_of_canHears {s : State} {c : Nat} (h : s.canHears c = true) : s.up = true := by
  obtain ⟨_, hup, _⟩ := (s.canHears_iff c).1 h
  exact hup

theorem not_off_of_canHears {s : State} {c : Nat} (h : s.canHears c = true) : (s.canC c).off = false := by
  obtain ⟨_, _, _, _, _, _, hoff⟩ := (s.canHears_iff c).1 h
  exact hoff

/-- A controller that receives in operating mode 0 also transmits (R480). -/
theorem canSends_of_canHears {s : State} {c : Nat} (h : s.canHears c = true) (hmode : s.cfgU (canObj c) 2 = 0) :
    s.canSends c = true := by
  obtain ⟨hc, hup, hdeg, _, hon, hheld, hoff⟩ := (s.canHears_iff c).1 h
  unfold canObj at hon hmode
  unfold canSends
  rw [decide_eq_true hc, hup, hdeg, hon, hmode, hheld, hoff]
  rfl

/-- Controller c after a failed attempt to send message m with result k (R484). -/
def failedCtl (x : CanCtl) (m : CanMsg) (k : Nat) : CanCtl :=
  let y := if x.alone then dropTx x m else { x with tx := x.tx.map fun j => if j = m then { j with begun := false } else j }
  { y with tries := y.tries + 1, ackErr := y.ackErr + (if k = 1 then 1 else 0) }

/-- A failed attempt leaves the controller's bus-offs as they are. -/
theorem failedCtl_bus (x : CanCtl) (m : CanMsg) (k : Nat) :
    (failedCtl x m k).off = x.off ∧ (failedCtl x m k).held = x.held ∧ (failedCtl x m k).offs = x.offs := by
  unfold failedCtl
  dsimp only
  split <;> exact ⟨rfl, rfl, rfl⟩

/-- The transmit counter of controller c after a failed attempt with result k: an acknowledgement error of a passive controller
does not count (R484). -/
def failedTec (x : CanCtl) (k : Nat) : Nat := if decide (k = 1) && x.passive then x.tec else x.tec + 8

theorem failedTec_add {x : CanCtl} {k : Nat} (h : k = 1 → x.passive = false) : failedTec x k = x.tec + 8 := by
  refine if_neg ?_
  rw [Bool.and_eq_true, decide_eq_true_eq]
  rintro ⟨hack, hpassive⟩
  exact absurd (hpassive.symm.trans (h hack)) (by decide)

/-- A restart begins with both counters at 0, neither held off nor bus-off (R488). -/
theorem restartCan_canC (s : State) (c : Nat) : ∃ tx, (s.restartCan c).canC c = { s.canC c with
    held := false, off := false, recovering := false, tec := 0, rec' := 0, warn := false, passive := false, tx := tx } := by
  unfold restartCan
  dsimp only
  generalize hx : ({ s.canC c with
    held := false, off := false, recovering := false, tec := 0, rec' := 0, warn := false, passive := false } : CanCtl) = x
  obtain ⟨_, h1⟩ := lower_canC (s.setCanC c x) 0x1107 c c
  obtain ⟨_, h2⟩ := lower_canC ((s.setCanC c x).lower 0x1107 c) 0x1103 c c
  obtain ⟨tx, h3⟩ := lower_canC (((s.setCanC c x).lower 0x1107 c).lower 0x1103 c) 0x1102 c c
  exact ⟨tx, by rw [h3, h2, h1, canC_setCanC, ← hx]⟩

/-- The restart object of controller c has the rule of CAN_RESTART. -/
theorem ruleAll_canRestart (s : State) (p : Path) {c : Nat} (hc : c < 4) {v : Val} (hv : v.asNat = 1) :
    s.ruleAll p (0x4200 + c) 0x0D v = .done (s.restartCan c) := by
  unfold ruleAll
  simp (disch := omega) only [if_neg]
  rw [if_pos ⟨Nat.le_add_right .., by omega, trivial⟩]
  unfold ruleCanRestart
  rw [if_pos hv, Nat.add_sub_cancel_left]

end State

/-- An error counter report above 255 is a bus-off (R486, R487). -/
theorem canErrorStateChange_heldOff {c tec rec' : Nat} {s : State} (hhears : s.canHears c = true)
    (hmode : s.cfgU (State.canObj c) 2 = 0) (htwo : s.twoOffs c) (htec : 255 < tec) :
    ∃ t, exec (.canErrorStateChange c tec rec') s = .next t ∧ s.HeldOff t c := by
  have hexec : exec (.canErrorStateChange c tec rec') s = .next (s.setErrors c tec rec') :=
    congrArg _ (if_pos (by rw [hhears, hmode]; rfl))
  exact ⟨_, hexec, State.setErrors_third rec' htec (State.not_off_of_canHears hhears) htwo⟩

/-- What a failed attempt does (R484): the message is tried again or dropped, and the counters take their new values. -/
theorem exec_failedAttempt {c k : Nat} {m : CanMsg} {s : State} (sof : Nat) (hsends : s.canSends c = true)
    (hm : State.nextTx (s.canC c) = some m) (hk : k ≠ 0) :
    exec (.canTransmitDone c k sof) s =
      let u := s.setCanC c (State.failedCtl (s.canC c) m k)
      .next (((if k = 1 then u.incU (State.canCnt c) 4 else u).setErrors c (State.failedTec (s.canC c) k)
        (s.canC c).rec').sdoNext c) := by
  show execCanTransmitDone c k sof s = _
  unfold execCanTransmitDone
  rw [hsends, hm, if_neg (by decide)]
  exact if_neg hk

/-- A failed attempt that takes the transmit counter above 255 is a bus-off (R484, R487). -/
theorem canTransmitDone_heldOff {c k sof : Nat} {s : State} (hhears : s.canHears c = true)
    (hmode : s.cfgU (State.canObj c) 2 = 0) (htwo : s.twoOffs c) (hk : k ≠ 0) (hpassive : k = 1 → (s.canC c).passive = false)
    (hnext : (State.nextTx (s.canC c)).isSome = true) (htec : 247 < (s.canC c).tec) :
    ∃ t, exec (.canTransmitDone c k sof) s = .next t ∧ s.HeldOff t c := by
  obtain ⟨m, hm⟩ := Option.isSome_iff_exists.1 hnext
  obtain ⟨hoff, hheld, hoffs⟩ := State.failedCtl_bus (s.canC c) m k
  have hbus := (State.SameBus.setCanC s hoff hheld hoffs).trans
    (.ite (p := k = 1) (.incU _ (State.canCnt c) 4 c) (.refl ..))
  rw [exec_failedAttempt sof (State.canSends_of_canHears hhears hmode) hm hk, State.failedTec_add hpassive]
  exact ⟨_, rfl, (State.HeldOff.of_sameBus hbus (State.setErrors_third _ (by omega)
    (hbus.off.trans (State.not_off_of_canHears hhears)) (hbus.twoOffs htwo))).sdoNext⟩

/-- Settles O51: both ways to a third bus-off leave the controller held off, and its restart object releases it. -/
theorem thirdBusOffHolds : Obligations.ThirdBusOffHolds := by
  unfold Obligations.ThirdBusOffHolds
  refine ⟨fun c tec rec' k sof cmd s hhears hmode hcmd htwo => ?_, fun cmd c v s hc hpass hv => ?_⟩
  · have hheld : ∃ t, exec cmd s = .next t ∧ s.HeldOff t c := by
      rcases hcmd with ⟨rfl, htec⟩ | ⟨rfl, hk, hpassive, hnext, htec⟩
      · exact canErrorStateChange_heldOff hhears hmode htwo htec
      · exact canTransmitDone_heldOff hhears hmode htwo hk hpassive hnext htec
    obtain ⟨t, hexec, h⟩ := hheld
    exact ⟨t, hexec, h.off, h.held, h.stb (State.up_of_canHears hhears), h.not_sends, h.not_hears, h.fault, h.event⟩
  · obtain ⟨p, b, r, hwrite, hup, htests⟩ := hpass
    have hexec := exec_done hwrite hup htests (by omega) (State.ruleAll_canRestart s p hc hv)
      (afterWrite_none p _ _ b (by omega))
    obtain ⟨tx, hctl⟩ := State.restartCan_canC s c
    have hctl' : ((s.restartCan c).answer 0).canC c = _ := hctl
    exact ⟨_, hexec, State.answer_answer .., by rw [hctl'], by rw [hctl'], by rw [hctl'], by rw [hctl']⟩

end Sys2Proof.Machine
end


section
/-! Stage 5 of a start (R509, R534): the event store opens and records event 1309h first. What the stage records after it, events
deferred until then (R535), a tamper latched without VIN (R515) and failed self-tests (R537), waits behind that record. -/
namespace Sys2Proof.Machine
namespace State

/-- Parameter of event 1309h (R509) where the records of NAND and DRAM are `l`, oldest first (log 102). -/
def openParam (l : List Rec) : Nat :=
  match l.getLast? with
  | some r => if r.code = 0x1308 then 1 else 2
  | none => 2

theorem recParams_openParam (l : List Rec) : recParams [openParam l] = [openParam l, 0, 0, 0] := by
  have hsmall : openParam l < 2 ^ 64 := by
    unfold openParam
    split
    · split <;> decide
    · decide
  show [openParam l % 2 ^ 64, 0, 0, 0] = _
  rw [Nat.mod_eq_of_lt hsmall]

/-- Whether the unit records depends on its power, the record policy in force, and what NAND and DRAM hold (R502, R503). -/
theorem records_eq_of_store {s t : State} (hst : t.st = s.st) (hforce : t.force = s.force) (hheld : t.gran.held = s.gran.held)
    (hqueue : t.gran.queue = s.gran.queue) : t.records = s.records := by
  unfold records granRoom cfgU cfgV
  rw [hst, hforce, hheld, hqueue]

/-- The place reserved for a signature block takes none of the DRAM queue (R501). -/
theorem reserveSig_records (s : State) : s.reserveSig.records = s.records := by
  unfold reserveSig
  split
  · rfl
  · exact records_eq_of_store rfl rfl rfl rfl

/-- The store open, with a new challenge (R501, R505), before its event 1309h. -/
def openedGranary (s : State) : State :=
  let u := if s.gran.cover ≠ s.gran.next then s.reserveSig else s
  (u.setGran { u.gran with isOpen := true }).newChallenge

theorem openGranary_eq (s : State) :
    s.openGranary = s.openedGranary.note 0x1309 [openParam (s.gran.held ++ s.gran.queue)] := rfl

theorem openedGranary_records (s : State) : s.openedGranary.records = s.records := by
  have hopen (u : State) : (u.setGran { u.gran with isOpen := true }).newChallenge.records = u.records :=
    records_eq_of_store rfl rfl rfl rfl
  refine (hopen _).trans ?_
  split
  · exact reserveSig_records s
  · rfl

/-- Where the unit records, the open store's newest record is its event 1309h (R509). -/
theorem openGranary_newest {s : State} (h : s.records = true) :
    s.openGranary.newest 0x1309 0 [openParam (s.gran.held ++ s.gran.queue)] := by
  rw [openGranary_eq]
  exact (note_noted ..).event (s.openedGranary_records.trans h)

/-! What waits in DRAM goes on waiting, in its order, while more events are recorded. -/

theorem record_queue_isPrefix (s : State) (code cls : Nat) (params : List Nat) :
    s.gran.queue <+: (s.record code cls params).gran.queue := by
  obtain ⟨more, hmore⟩ := record_queue s code cls params
  exact ⟨more, hmore.symm⟩

theorem alarm_queue_isPrefix (s : State) (code inst cls : Nat) (params : List Nat) :
    s.gran.queue <+: (s.alarm code inst cls params).gran.queue := by
  unfold alarm
  rw [raise_gran]
  exact record_queue_isPrefix ..

theorem foldS_queue_isPrefix {α : Type} {g : State → α → State} (hg : ∀ u a, u.gran.queue <+: (g u a).gran.queue)
    (s : State) (l : List α) : s.gran.queue <+: (foldS s l g).gran.queue := by
  induction l generalizing s with
  | nil => exact ⟨[], List.append_nil _⟩
  | cons a l ih => exact (hg s a).trans (ih (g s a))

theorem flushNotes_queue_isPrefix (s : State) : s.gran.queue <+: s.flushNotes.gran.queue := by
  refine foldS_queue_isPrefix (fun u n => ?_) (s.setSt { s.st with notes := [] }) s.st.notes
  split
  · exact record_queue_isPrefix ..
  · exact alarm_queue_isPrefix ..

theorem tamperSeen_queue_isPrefix (s : State) (code : Nat) (params : List Nat) :
    s.gran.queue <+: (s.tamperSeen code params).gran.queue := by
  unfold tamperSeen
  split
  · exact alarm_queue_isPrefix ..
  · exact record_queue_isPrefix ..

theorem tamperLatched_queue_isPrefix (s : State) : s.gran.queue <+: s.tamperLatched.gran.queue := by
  unfold tamperLatched
  split
  · exact tamperSeen_queue_isPrefix ..
  · exact ⟨[], List.append_nil _⟩
  · exact ⟨[], List.append_nil _⟩

theorem failTest_queue_isPrefix (s : State) (f : Nat × Nat) : s.gran.queue <+: (s.failTest f).gran.queue :=
  record_queue_isPrefix s 0x0008 1 _

/-- What waits in DRAM when the store has opened waits there still when stage 5 ends, whether or not a self-test halts it. -/
theorem stage5_queue_isPrefix (s : State) (x : StageIn) : s.openGranary.gran.queue <+: (s.stage5 x).gran.queue := by
  have htests := foldS_queue_isPrefix failTest_queue_isPrefix s.openGranary.flushNotes.tamperLatched x.fails
  have hstage := ((flushNotes_queue_isPrefix _).trans (tamperLatched_queue_isPrefix _)).trans htests
  unfold stage5
  dsimp only
  split <;> exact hstage

end State

/-- START_UP_STAGE on a unit in stage 5 moves the device time on and completes that stage (R534). -/
theorem exec_startUpStage_five {s : State} (x : StageIn) (h : s.st.power = .starting 5) :
    exec (.startUpStage x) s = .next ((s.at' x.t).stage5 x) := by
  show execStartUpStage x s = _
  unfold execStartUpStage State.stageDone
  rw [h, show (s.at' x.t).st.power = .starting 5 from h]
  rfl

/-- Settles O58: the event 1309h with which the store opens still waits in DRAM when stage 5 ends. -/
theorem powerFailNotedAtStart : Obligations.PowerFailNotedAtStart := by
  intro x s hpower hrec
  have hrec' : (s.at' x.t).records = true := hrec
  obtain ⟨r, hlast, hcode, hcls, hparams, _⟩ := State.openGranary_newest hrec'
  exact ⟨_, r, exec_startUpStage_five x hpower, (State.stage5_queue_isPrefix _ x).subset (List.mem_of_getLast? hlast), hcode,
    hcls, hparams.trans (State.recParams_openParam _)⟩

end Sys2Proof.Machine
end
